-- ==== Sys2Proof/Word.lean ====
section
/-!
DEFINITION. The word types of the machine (R3) and the one shape every sparse store of the state has.
-/
namespace Sys2Proof

/-- A 9-bit byte (R3). -/
abbrev Byte := BitVec 9
/-- An octet, the unit of the host side (R3). -/
abbrev Octet := BitVec 8
/-- A half-word (R3). -/
abbrev Half := BitVec 18
/-- A word (R3). -/
abbrev Word := BitVec 36
/-- A double-word: a register pair, or two words of memory (R3, R68). -/
abbrev DWord := BitVec 72
/-- An accumulator (Table 3-1). -/
abbrev Acc := BitVec 80
/-- A linear address (R232). -/
abbrev LinAddr := BitVec 48
/-- The value of a control register (R8). -/
abbrev Reg32 := BitVec 32

/-- Sparse data by key: pairs of a key and a value. Every operation of the model keeps the keys strictly
rising; a key that is not listed stands for a default value that the reader of the store names. -/
abbrev SMap (α : Type) := List (Nat × α)

end Sys2Proof
end

