-- ==== Sys2Proof/Config.lean ====
section
/-!
DEFINITION. What a part fixes, and the free values: constants with no body, of which nothing can be proved but that
they are some value. Each is named in notes/assumptions.
-/
namespace Sys2Proof.Config

/-- A byte of DRAM that nothing has written since its key was chosen (R50, R382): undefined data. The first argument
numbers the choice of the key, the second is the physical address. Log entry 2. -/
opaque undefByte : Nat → Nat → Byte

/-- A draw of the package random-number generator (R86, R565). The argument counts the draws. Log entry 3. -/
opaque rngDraw : Nat → BitVec 36

/-- The value an Understorey operation writes (R222). The arguments: the octets of the cell image, the context, the operands with
bits 16:0 of the word, the accumulators and the memories of the context's cells, and the values the loads have returned.
Log entry 4. -/
opaque ustResult : List Nat → Nat → List Nat → SMap (BitVec 48) → SMap (BitVec 18) → List Nat → BitVec 72

/-- What an operation writes into its context's cells (R222), from the same arguments: accumulators by cell, memory half-words by
1,024 × cell + index. Log entry 4. -/
opaque ustCells : List Nat → Nat → List Nat → SMap (BitVec 48) → SMap (BitVec 18) → List Nat → List (Nat × BitVec 48) × List (Nat × BitVec 18)

/-- What a resumed operation writes into cells that other operations of its context have used since it was accepted: the image, the
context, what it would have written, and the cells as they are. The spec does not say. Log entry 102. -/
opaque ustLateCells : List Nat → Nat → List (Nat × BitVec 48) × List (Nat × BitVec 18) → SMap (BitVec 48) → SMap (BitVec 18) →
  List (Nat × BitVec 48) × List (Nat × BitVec 18)

/-- What the image writes into the cells when it is loaded (R221), the context that owns a cell (Table 8-1), and the memory unit that
makes an access of a context, by the number of the access in its operation. Log entry 4. -/
opaque ustInit : List Nat → List (Nat × BitVec 48) × List (Nat × BitVec 18)
opaque ustCellCtx : List Nat → Nat → Nat
opaque ustUnit : List Nat → Nat → Nat → Nat

/-- How late CS.IPEND shows a change of a timer or an inter-core source, in nanoseconds before it is cut to the bound of R283; the
arguments count the changes, or name the slot and its compare value. Log entry 105. -/
opaque irqLag : Nat → Nat
opaque timerLag : Nat → Nat → Nat

/-- SHA-384 of an octet string (R40). Log entry 5. -/
opaque sha384 : List Nat → List Nat

/-- An ECDSA P-384 signature verifies: public key, message octets, signature octets (R40, R537, R560, R570).
Log entry 5. -/
opaque ecdsaVerify : List Nat → List Nat → List Nat → Bool

/-- A 96-octet string is a valid P-384 public key (R559, Table 22-5). Log entry 5. -/
opaque validPublicKey : List Nat → Bool

/-- AES-256-GCM decryption (R40, R523): key handle, initialisation vector, additional data, ciphertext, tag.
`none` is a tag mismatch. Log entry 5. -/
opaque gcmDecrypt : Nat → List Nat → List Nat → List Nat → List Nat → Option (List Nat)

/-- AES-256-GCM encryption (R523, R447): key handle, initialisation vector, additional data, plaintext. The answer is
the ciphertext followed by the 16-octet tag. Log entry 5. -/
opaque gcmEncrypt : Nat → List Nat → List Nat → List Nat → List Nat

/-- AES-256 key wrap of a session key under the transport key (R566): session key handle, transport key handle; ten
32-bit words. Log entry 5. -/
opaque keyWrap : Nat → Nat → List Nat

/-- A staged wrapped key unwraps under the transport key (R566). The answer is the session key handle. Log entry 5. -/
opaque keyUnwrap : Nat → List Nat → Option Nat

/-- The next load an Understorey operation performs (R216, R222): linear address and size in bytes; `none` when it needs no
further load. The arguments are those of `ustResult`. Log entry 4. -/
opaque ustNextLoad : List Nat → Nat → List Nat → SMap (BitVec 48) → SMap (BitVec 18) → List Nat → Option (Nat × Nat)

/-- The stores an Understorey operation makes (R218): linear address, size in bytes, value. Log entry 4. -/
opaque ustStores : List Nat → Nat → List Nat → SMap (BitVec 48) → SMap (BitVec 18) → List Nat → List (Nat × Nat × Nat)

/-- The structural check of an Understorey cell image and what the image records of a context (R209, R211): whether
the image is sound, the least latency from the context, the REGIONS of the entry and the H-class bounds in nanoseconds of those
regions (own Clearing, another Grove's Clearing, DRAM; 0 where REGIONS does not name it), and the words the context stores. Log entry 4. -/
opaque ustImageSound : List Nat → Bool
opaque ustImageBound : List Nat → Nat → Nat → Nat × Nat × Nat → Nat
opaque ustImageStores : List Nat → Nat → Nat

/-- The identifier fused as PCI Vendor ID, and the words of the device serial number (R454, Table 18-2). Log entry 21. -/
opaque vendorId : BitVec 16
opaque serialWord : Nat → BitVec 32

/-- HMAC-SHA-384 of an octet string under a key handle, truncated to 16 octets (R503). Log entry 5. -/
opaque witnessMac : Nat → List Nat → List Nat

/-- The octets of the destination and source addresses of a frame that the Keeper sends (R436), which the spec does not give. Log entry 117. -/
opaque keeperAddress : Nat → BitVec 8

/-- HMAC-SHA-384 of an octet string under a key, given as a number (R568). Log entry 5. -/
opaque hmac384 : Nat → List Nat → List Nat

/-- ECDH over P-384 (R568): the public value of an ephemeral private one, drawn from the generator, and the shared secret of that private
value and the partner's public one. Log entry 5. -/
opaque ecdhPublic : List Nat → List Nat
opaque ecdhShared : List Nat → List Nat → List Nat

/-- HKDF-SHA-384 of the shared secret: the AES-256 key of a Crossing port and a direction, given by the sending side's pair index (R568).
Log entry 5. -/
opaque linkKey : List Nat → Nat → Nat → List Nat

/-- AES-256 in counter mode over the 596 bits of PAYLOAD and CTL: the key stream of a key for an epoch, a port, a direction and a flit count
(R568). Log entry 5. -/
opaque linkStream : List Nat → Nat → Nat → Nat → Nat → BitVec 596

/-- The digest of the firmware verification key that the boot ROM holds (R560). Log entry 5. -/
opaque romDigest : List Nat

/-- A DW of the header of the n-th TLP that AER logs: commands carry no header (R476). Log entry 21. -/
opaque tlpHeader : Nat → Nat → BitVec 32

/-- STATUS of a NETOUT entry whose frame the port drops as MACSEC: the spec names none. Log entry 95. -/
opaque netoutDropStatus : Nat → Nat

/-- The secure channel identifier of a port's transmit channel, 8 octets (R447). Log entry 5. -/
opaque sci : Nat → List Nat

end Sys2Proof.Config
end

