-- ==== Sys2Proof/Machine/RegTable.lean ====
section
/-!
DEFINITION. The control registers (R8 to R11): every register table of the spec as rows, generated from those tables. A row
gives the block, the offset within the block's frame, the strides of an array of registers, the value after reset
(fields whose reset is Chart, Fuse or Keeper are computed where the register is read), and the fields with their access
codes in the two views and, where the spec reserves values, the ranges it allows.
-/
namespace Sys2Proof.Machine

/-- The blocks of the control space: one per frame layout. -/
inductive Blk where
  | glb | cht | tt | mft | evl | sec | pwr | dmc | qm | qmn | qmd | eng | nsw | nsws | msec | tev | hep | hepf | grv | fry | l3 | dir | ust | pmu | cdbg | xng | dbg
  deriving DecidableEq, Repr

/-- The access codes of Table 0-5; `hid` is the dash. -/
inductive Acs where
  | rw | ro | wo | w1c | w1s | rc | hid
  deriving DecidableEq, Repr

structure FieldRow where
  hi : Nat
  lo : Nat
  priv : Acs
  unpriv : Acs
  /-- The values that are not reserved; none listed: all are allowed. -/
  legal : List (Nat × Nat)
  deriving DecidableEq, Repr

structure RegRow where
  blk : Blk
  /-- Offset in the frame of the first register of the row. -/
  base : Nat
  /-- Stride and count of each dimension of an array of registers. -/
  dims : List (Nat × Nat)
  reset : Nat
  fields : List FieldRow
  deriving DecidableEq, Repr

/-- A field. -/
def fr (hi lo : Nat) (p u : Acs) : FieldRow := ⟨hi, lo, p, u, []⟩
/-- A field with reserved values. -/
def fv (hi lo : Nat) (p u : Acs) (l : List (Nat × Nat)) : FieldRow := ⟨hi, lo, p, u, l⟩

/-- The frames: block, control-space offset of the first frame, strides and counts. The privileged half comes first. -/
def blkFrames : List (Blk × Nat × List (Nat × Nat)) :=
  [(.glb, 0x0, []),
   (.cht, 0x20000, []),
   (.tt, 0x30000, []),
   (.mft, 0x40000, []),
   (.evl, 0x50000, []),
   (.sec, 0x60000, []),
   (.pwr, 0x70000, []),
   (.dmc, 0x80000, [(0x10000, 8)]),
   (.qm, 0x100000, []),
   (.qmn, 0x110000, []),
   (.qmd, 0x120000, []),
   (.eng, 0x140000, [(0x1000, 64)]),
   (.nsw, 0x180000, []),
   (.nsws, 0x190000, []),
   (.msec, 0x1A0000, []),
   (.tev, 0x1B0000, []),
   (.hep, 0x1C0000, []),
   (.hepf, 0x1D0000, []),
   (.grv, 0x200000, [(0x100000, 12)]),
   (.fry, 0x210000, [(0x100000, 12)]),
   (.l3, 0x220000, [(0x100000, 12)]),
   (.dir, 0x230000, [(0x100000, 12)]),
   (.ust, 0x240000, [(0x100000, 12)]),
   (.pmu, 0x250000, [(0x100000, 12)]),
   (.cdbg, 0x260000, [(0x100000, 12), (0x10000, 5)]),
   (.xng, 0xE00000, []),
   (.dbg, 0xF00000, [])]

def rowsGlb : List RegRow :=
  [-- GLB.IDENT
   ⟨.glb, 0x0, [], 0x0, [fr 31 16 .ro .ro, fr 15 12 .ro .ro, fr 11 8 .ro .ro, fr 7 5 .ro .ro, fr 4 0 .ro .ro]⟩,
   -- GLB.STEPPING
   ⟨.glb, 0x4, [], 0x0, [fr 31 28 .ro .ro, fr 27 24 .ro .ro, fr 23 20 .ro .ro, fr 15 12 .ro .ro, fr 11 8 .ro .ro, fr 7 4 .ro .ro]⟩,
   -- GLB.FABCAP
   ⟨.glb, 0x8, [], 0x0, [fr 31 28 .ro .ro, fr 27 24 .ro .ro, fr 23 20 .ro .ro, fr 19 16 .ro .ro, fr 11 11 .ro .ro, fr 10 10 .ro .ro, fr 9 9 .ro .ro, fr 8 8 .ro .ro]⟩]

def rowsCht : List RegRow :=
  [-- CHT.CTRL
   ⟨.cht, 0x0, [], 0x0, [fr 31 31 .wo .hid, fr 30 30 .wo .hid, fr 29 28 .ro .hid, fv 27 24 .rw .hid [(0, 4)], fr 23 21 .ro .hid, fr 20 20 .rw .hid, fr 19 5 .ro .hid, fr 4 0 .rw .hid]⟩,
   -- CHT.STATUS
   ⟨.cht, 0x4, [], 0x0, [fr 31 31 .ro .ro, fr 30 30 .w1c .hid, fr 29 29 .w1c .ro, fr 28 28 .w1c .hid, fr 27 24 .ro .ro, fr 21 16 .ro .hid]⟩,
   -- CHT.SRC_LO
   ⟨.cht, 0x8, [], 0x0, [fr 31 0 .rw .hid]⟩,
   -- CHT.SRC_HI
   ⟨.cht, 0xC, [], 0x0, [fr 31 0 .rw .hid]⟩,
   -- CHT.SRC_LEN
   ⟨.cht, 0x10, [], 0x0, [fr 31 0 .rw .hid]⟩,
   -- CHT.RESULT
   ⟨.cht, 0x14, [], 0x7FF, [fr 31 24 .ro .ro, fr 23 20 .ro .ro, fr 10 0 .ro .ro]⟩,
   -- CHT.TARGETS
   ⟨.cht, 0x18, [], 0x0, [fr 31 0 .ro .hid]⟩,
   -- CHT.VIEWERR
   ⟨.cht, 0x1C, [], 0x0, [fr 31 0 .rc .ro]⟩,
   -- CHT.DIGEST
   ⟨.cht, 0x20, [(4, 12)], 0x0, [fr 31 0 .ro .hid]⟩,
   -- CHT.CMPSTATE
   ⟨.cht, 0x100, [(4, 32)], 0x0, [fr 31 29 .ro .ro, fr 28 28 .ro .ro, fr 27 26 .ro .ro, fr 23 16 .ro .ro, fr 15 0 .ro .ro]⟩,
   -- CHT.KNOTE
   ⟨.cht, 0x200, [(4, 32)], 0x0, [fr 31 31 .w1c .w1c, fr 30 30 .w1c .w1c, fr 29 29 .ro .ro]⟩]

def rowsTt : List RegRow :=
  [-- TT.STATUS
   ⟨.tt, 0x0, [], 0x0, [fr 31 31 .w1c .hid, fr 30 30 .ro .hid, fr 29 29 .ro .hid, fr 28 28 .ro .hid, fr 27 27 .ro .hid, fr 26 0 .ro .hid]⟩,
   -- TT.VIEWERR
   ⟨.tt, 0x4, [], 0x0, [fr 31 0 .rc .hid]⟩,
   -- TT.LOADSEL
   ⟨.tt, 0x8, [], 0x1000, [fr 31 16 .ro .hid, fv 15 12 .rw .hid [(1, 10)], fr 11 11 .rw .hid, fr 10 10 .ro .hid, fr 9 0 .rw .hid]⟩,
   -- TT.LOAD
   ⟨.tt, 0xC, [], 0x0, [fr 31 16 .ro .hid, fr 15 0 .ro .hid]⟩,
   -- TT.LASTFAIL
   ⟨.tt, 0x10, [], 0x0, [fr 31 31 .ro .hid, fr 30 29 .ro .hid, fr 28 24 .ro .hid, fr 23 17 .ro .hid, fr 16 16 .ro .hid, fr 15 12 .ro .hid, fr 11 11 .ro .hid, fr 10 10 .ro .hid, fr 9 0 .ro .hid]⟩,
   -- TT.LATE
   ⟨.tt, 0x100, [(4, 32)], 0x0, [fr 31 0 .rc .hid]⟩,
   -- TT.SMISS
   ⟨.tt, 0x180, [(4, 32)], 0x0, [fr 31 0 .rc .hid]⟩]

def rowsMft : List RegRow :=
  [-- MFT.STATUS
   ⟨.mft, 0x0, [], 0x0, [fr 31 31 .w1c .hid, fr 30 30 .ro .hid, fr 29 0 .ro .hid]⟩,
   -- MFT.VIEWERR
   ⟨.mft, 0x4, [], 0x0, [fr 31 0 .rc .ro]⟩,
   -- MFT.CMD
   ⟨.mft, 0x8, [], 0x0, [fr 31 31 .wo .hid, fr 30 28 .ro .hid, fv 27 24 .rw .hid [(1, 3)], fr 23 5 .ro .hid, fr 4 0 .rw .hid]⟩,
   -- MFT.RSRC_LO
   ⟨.mft, 0xC, [], 0x0, [fr 31 0 .rw .hid]⟩,
   -- MFT.RSRC_HI
   ⟨.mft, 0x10, [], 0x0, [fr 31 0 .rw .hid]⟩,
   -- MFT.RSRC_LEN
   ⟨.mft, 0x14, [], 0x0, [fr 31 0 .rw .hid]⟩,
   -- MFT.DIVINFO
   ⟨.mft, 0x18, [], 0x0, [fr 31 31 .ro .hid, fr 30 27 .ro .hid, fr 26 22 .ro .hid, fr 21 14 .ro .hid, fr 13 0 .ro .hid]⟩,
   -- MFT.DIVCHUNK
   ⟨.mft, 0x1C, [], 0x0, [fr 31 0 .ro .hid]⟩,
   -- MFT.DIVPOS
   ⟨.mft, 0x20, [], 0x0, [fr 31 16 .ro .hid, fr 15 0 .ro .hid]⟩,
   -- MFT.CSTATE
   ⟨.mft, 0x100, [(32, 32)], 0x0, [fr 31 29 .ro .ro, fr 28 25 .ro .ro, fr 24 24 .ro .ro, fr 15 0 .ro .ro]⟩,
   -- MFT.CTRL
   ⟨.mft, 0x104, [(32, 32)], 0x0, [fr 31 31 .wo .hid, fr 30 30 .rw .hid, fr 29 29 .rw .hid, fr 28 16 .ro .hid, fr 15 0 .rw .hid]⟩,
   -- MFT.WIDX
   ⟨.mft, 0x108, [(32, 32)], 0x0, [fr 31 0 .ro .ro]⟩,
   -- MFT.RIDX
   ⟨.mft, 0x10C, [(32, 32)], 0x0, [fr 31 0 .rw .ro]⟩,
   -- MFT.CHUNKS
   ⟨.mft, 0x110, [(32, 32)], 0x0, [fr 31 0 .rc .hid]⟩,
   -- MFT.STALLS
   ⟨.mft, 0x114, [(32, 32)], 0x0, [fr 31 0 .rc .hid]⟩]

def rowsEvl : List RegRow :=
  [-- EVL.STATUS
   ⟨.evl, 0x0, [], 0x0, [fr 31 31 .w1c .hid, fr 30 0 .ro .hid]⟩,
   -- EVL.VIEWERR
   ⟨.evl, 0x4, [], 0x0, [fr 31 0 .rc .ro]⟩,
   -- EVL.HEAD
   ⟨.evl, 0x8, [], 0x0, [fr 31 0 .ro .hid]⟩,
   -- EVL.TAIL
   ⟨.evl, 0xC, [], 0x1, [fr 31 0 .ro .hid]⟩,
   -- EVL.RSEL
   ⟨.evl, 0x10, [], 0x0, [fr 31 0 .rw .hid]⟩,
   -- EVL.ACK
   ⟨.evl, 0x14, [], 0x0, [fr 31 0 .rw .hid]⟩,
   -- EVL.LOST
   ⟨.evl, 0x18, [], 0x0, [fr 31 0 .rc .hid]⟩,
   -- EVL.REC
   ⟨.evl, 0x20, [(4, 8)], 0x0, [fr 31 0 .ro .hid]⟩,
   -- EVL.CNOTE
   ⟨.evl, 0x100, [(16, 32)], 0x0, [fr 31 0 .rc .hid]⟩,
   -- EVL.CLAST
   ⟨.evl, 0x104, [(16, 32)], 0x0, [fr 31 19 .ro .hid, fr 18 15 .ro .hid, fr 14 0 .ro .hid]⟩]

def rowsSec : List RegRow :=
  [-- SEC.STATUS
   ⟨.sec, 0x0, [], 0x0, [fr 31 31 .w1c .hid, fr 30 29 .ro .hid, fr 28 28 .ro .hid, fr 27 27 .ro .hid, fr 26 0 .ro .hid]⟩,
   -- SEC.VIEWERR
   ⟨.sec, 0x4, [], 0x0, [fr 31 0 .rc .hid]⟩,
   -- SEC.SLOTS
   ⟨.sec, 0x8, [], 0x0, [fr 31 28 .ro .hid, fr 27 17 .ro .hid, fr 16 0 .ro .hid]⟩,
   -- SEC.FLOORS
   ⟨.sec, 0xC, [], 0x0, [fr 31 14 .ro .hid, fr 13 7 .ro .hid, fr 6 6 .ro .hid, fr 5 0 .ro .hid]⟩,
   -- SEC.RESULT
   ⟨.sec, 0x14, [], 0x0, [fr 31 28 .ro .hid, fr 27 0 .ro .hid]⟩,
   -- SEC.TAMPER
   ⟨.sec, 0xB0, [], 0x0, [fr 31 31 .w1c .hid, fr 30 30 .w1c .hid, fr 29 29 .w1c .hid, fr 28 28 .w1c .hid, fr 27 27 .w1c .hid, fr 26 26 .w1c .hid, fr 25 25 .w1c .hid, fr 24 8 .ro .hid, fr 7 0 .ro .hid]⟩,
   -- SEC.CMD
   ⟨.sec, 0x10, [], 0x0, [fr 31 31 .wo .hid, fr 30 24 .ro .hid, fv 23 20 .rw .hid [(1, 5)], fv 19 16 .rw .hid [(0, 10)], fr 15 0 .ro .hid]⟩,
   -- SEC.PROVDATA
   ⟨.sec, 0x20, [(4, 24)], 0x0, [fr 31 0 .wo .hid]⟩,
   -- SEC.MKSEL
   ⟨.sec, 0x80, [], 0x0, [fr 31 5 .ro .hid, fr 4 0 .rw .hid]⟩,
   -- SEC.MKWRAP
   ⟨.sec, 0x84, [(4, 10)], 0x0, [fr 31 0 .rw .hid]⟩]

def rowsPwr : List RegRow :=
  [-- PWR.STATUS
   ⟨.pwr, 0x0, [], 0x0, [fr 31 31 .w1c .hid, fr 30 28 .ro .hid, fr 27 27 .ro .hid, fr 26 26 .ro .hid, fr 25 0 .ro .hid]⟩,
   -- PWR.VIEWERR
   ⟨.pwr, 0x4, [], 0x0, [fr 31 0 .rc .hid]⟩,
   -- PWR.CTRL
   ⟨.pwr, 0x8, [], 0x0, [fr 31 31 .wo .hid, fr 30 30 .wo .hid, fr 29 0 .ro .hid]⟩,
   -- PWR.RSTCAUSE
   ⟨.pwr, 0xC, [], 0x0, [fr 31 28 .ro .hid, fr 27 16 .ro .hid, fr 15 0 .ro .hid]⟩,
   -- PWR.BOOTSTAT
   ⟨.pwr, 0x10, [], 0x0, [fr 31 28 .ro .hid, fr 27 24 .ro .hid, fr 23 23 .ro .hid, fr 22 21 .ro .hid, fr 20 20 .ro .hid, fr 19 0 .ro .hid]⟩,
   -- PWR.PARKCFG
   ⟨.pwr, 0x14, [], 0x64, [fr 31 16 .ro .hid, fv 15 0 .rw .hid [(0, 10000)]]⟩,
   -- PWR.WAKECAUSE
   ⟨.pwr, 0x20, [], 0x0, [fr 31 30 .ro .hid, fr 29 9 .ro .hid, fr 8 5 .ro .hid, fr 4 0 .ro .hid]⟩,
   -- PWR.GRVRST
   ⟨.pwr, 0x24, [], 0x0, [fr 31 31 .wo .hid, fr 30 30 .w1c .hid, fr 29 29 .w1c .hid, fr 28 4 .ro .hid, fv 3 0 .rw .hid [(0, 11)]]⟩,
   -- PWR.DOMSEL
   ⟨.pwr, 0x28, [], 0x0, [fr 31 7 .ro .hid, fr 6 0 .rw .hid]⟩,
   -- PWR.DOMSTATE
   ⟨.pwr, 0x2C, [], 0x0, [fr 31 30 .ro .hid, fr 29 0 .ro .hid]⟩,
   -- CLK.ISLSEL
   ⟨.pwr, 0x30, [], 0x0, [fr 31 8 .ro .hid, fv 7 0 .rw .hid [(0, 167)]]⟩,
   -- CLK.ISLSTATE
   ⟨.pwr, 0x34, [], 0x0, [fr 31 30 .ro .hid, fr 29 16 .ro .hid, fr 15 0 .ro .hid]⟩,
   -- PWR.ALARM_LO
   ⟨.pwr, 0x18, [], 0xFFFFFFFF, [fr 31 0 .rw .hid]⟩,
   -- PWR.ALARM_HI
   ⟨.pwr, 0x1C, [], 0xFFFFFFFF, [fr 31 0 .rw .hid]⟩]

def rowsDmc : List RegRow :=
  [-- DMC.STATUS
   ⟨.dmc, 0x0, [], 0x40000000, [fr 31 31 .w1c .hid, fr 30 30 .ro .hid, fr 29 29 .ro .hid, fr 28 0 .ro .hid]⟩,
   -- DMC.VIEWERR
   ⟨.dmc, 0x4, [], 0x0, [fr 31 0 .rc .hid]⟩,
   -- DMC.CONFIG
   ⟨.dmc, 0x8, [], 0x0, [fr 31 28 .ro .hid, fr 27 26 .ro .hid, fr 25 24 .ro .hid, fr 23 23 .ro .hid, fr 22 22 .ro .hid, fr 21 16 .ro .hid, fr 15 0 .ro .hid]⟩,
   -- DMC.SCRUB
   ⟨.dmc, 0xC, [], 0x18, [fr 31 5 .ro .hid, fv 4 0 .rw .hid [(1, 24)]]⟩,
   -- DMC.INIT
   ⟨.dmc, 0x10, [], 0x0, [fr 31 18 .ro .hid, fr 17 0 .ro .hid]⟩,
   -- DMC.SUBSTATE
   ⟨.dmc, 0x40, [(32, 2)], 0x0, [fr 31 29 .ro .hid, fr 28 28 .ro .hid, fr 27 24 .ro .hid, fr 23 0 .ro .hid]⟩,
   -- DMC.CECOUNT
   ⟨.dmc, 0x44, [(32, 2)], 0x0, [fr 31 0 .rc .hid]⟩,
   -- DMC.UECOUNT
   ⟨.dmc, 0x48, [(32, 2)], 0x0, [fr 31 0 .rc .hid]⟩,
   -- DMC.ERRADDR_LO
   ⟨.dmc, 0x4C, [(32, 2)], 0x0, [fr 31 0 .ro .hid]⟩,
   -- DMC.ERRADDR_HI
   ⟨.dmc, 0x50, [(32, 2)], 0x0, [fr 31 10 .ro .hid, fr 9 0 .ro .hid]⟩,
   -- DMC.ERRINFO
   ⟨.dmc, 0x54, [(32, 2)], 0x0, [fr 31 30 .ro .hid, fr 29 29 .ro .hid, fr 28 24 .ro .hid, fr 23 23 .ro .hid, fr 22 16 .ro .hid, fr 15 8 .ro .hid, fr 7 0 .ro .hid]⟩]

def rowsQm : List RegRow :=
  [-- QM.STATUS
   ⟨.qm, 0x0, [], 0x0, [fr 31 31 .w1c .hid]⟩,
   -- QM.VIEWERR
   ⟨.qm, 0x4, [], 0x0, [fr 31 0 .rc .ro]⟩,
   -- QM.OWNERR
   ⟨.qm, 0x8, [], 0x0, [fr 31 0 .rc .ro]⟩,
   -- QM.LOSTREC
   ⟨.qm, 0xC, [], 0x0, [fr 31 0 .rc .ro]⟩,
   -- QM.QSEL
   ⟨.qm, 0x10, [], 0x0, [fr 15 0 .rw .rw]⟩,
   -- QM.QCMD
   ⟨.qm, 0x14, [], 0x0, [fr 31 3 .ro .hid, fv 2 0 .wo .hid [(1, 4)]]⟩,
   -- QM.QSTATE
   ⟨.qm, 0x18, [], 0x0, [fr 31 30 .ro .ro, fr 27 24 .ro .ro, fr 23 23 .ro .ro]⟩,
   -- QM.QIDX
   ⟨.qm, 0x1C, [], 0x0, [fr 31 16 .ro .ro, fr 15 0 .ro .ro]⟩,
   -- QM.QCFG
   ⟨.qm, 0x20, [], 0x0, [fv 31 29 .rw .hid [(0, 6)], fr 28 25 .rw .hid, fv 24 23 .rw .hid [(0, 2)], fr 22 22 .rw .hid, fr 21 21 .rw .hid, fr 20 20 .rw .hid, fr 19 0 .ro .hid]⟩,
   -- QM.QBASE_LO
   ⟨.qm, 0x24, [], 0x0, [fr 31 0 .rw .hid]⟩,
   -- QM.QBASE_HI
   ⟨.qm, 0x28, [], 0x0, [fr 31 10 .ro .hid, fr 9 0 .rw .hid]⟩,
   -- QM.QLINK
   ⟨.qm, 0x34, [], 0x0, [fr 31 16 .rw .hid, fr 15 0 .rw .hid]⟩,
   -- QM.QNOTIFY
   ⟨.qm, 0x38, [], 0x0, [fr 31 31 .rw .hid, fr 30 13 .ro .hid, fv 12 8 .rw .hid [(0, 23)], fv 7 0 .rw .hid [(0, 239)]]⟩,
   -- QM.QXLAT
   ⟨.qm, 0x3C, [], 0x0, [fr 31 30 .ro .hid, fr 29 0 .rw .hid]⟩,
   -- QM.QASID
   ⟨.qm, 0x40, [], 0x0, [fr 31 12 .ro .hid, fr 11 0 .rw .hid]⟩,
   -- QM.QSHADOW_LO
   ⟨.qm, 0x2C, [], 0x0, [fr 31 0 .rw .hid]⟩,
   -- QM.QSHADOW_HI
   ⟨.qm, 0x30, [], 0x0, [fr 9 0 .rw .hid]⟩]

def rowsQmn : List RegRow :=
  [-- QM.NPEND
   ⟨.qmn, 0x0, [(4, 240)], 0x0, [fr 31 24 .ro .hid, fr 23 0 .w1c .hid]⟩]

def rowsQmd : List RegRow :=
  [-- QM.DB
   ⟨.qmd, 0x0, [], 0x0, [fr 31 16 .wo .wo, fr 15 0 .wo .wo]⟩,
   -- QM.DBARM
   ⟨.qmd, 0x4, [], 0x0, [fr 31 16 .wo .wo, fr 15 0 .wo .wo]⟩]

def rowsEng : List RegRow :=
  [-- ENG.STATUS
   ⟨.eng, 0x0, [], 0x0, [fr 31 31 .w1c .hid, fr 30 28 .ro .ro, fr 23 16 .ro .ro, fr 15 0 .ro .ro]⟩,
   -- ENG.CTRL
   ⟨.eng, 0x4, [], 0x0, [fr 31 31 .wo .hid, fr 30 30 .wo .hid, fr 29 0 .ro .hid]⟩,
   -- ENG.DONE
   ⟨.eng, 0x8, [], 0x0, [fr 31 0 .ro .hid]⟩,
   -- ENG.FAULT
   ⟨.eng, 0xC, [], 0x0, [fr 31 28 .ro .hid, fr 27 16 .ro .hid, fr 15 0 .ro .hid]⟩,
   -- ENG.FADDR_LO
   ⟨.eng, 0x10, [], 0x0, [fr 31 0 .ro .hid]⟩,
   -- ENG.FADDR_HI
   ⟨.eng, 0x14, [], 0x0, [fr 31 16 .ro .hid, fr 15 0 .ro .hid]⟩,
   -- ENG.VIEWERR
   ⟨.eng, 0x18, [], 0x0, [fr 31 0 .rc .ro]⟩]

def rowsNsw : List RegRow :=
  [-- NSW.STATUS
   ⟨.nsw, 0x0, [], 0x0, [fr 31 31 .w1c .hid, fr 30 30 .ro .ro]⟩,
   -- NSW.VIEWERR
   ⟨.nsw, 0x4, [], 0x0, [fr 31 0 .rc .hid]⟩,
   -- NSW.TOFFSET_LO
   ⟨.nsw, 0x8, [], 0x0, [fr 31 0 .ro .hid]⟩,
   -- NSW.TOFFSET_HI
   ⟨.nsw, 0xC, [], 0x0, [fr 31 0 .ro .hid]⟩,
   -- NSW.CNTSEL
   ⟨.nsw, 0x10, [], 0x10, [fr 31 9 .ro .hid, fv 8 4 .rw .hid [(1, 15)], fr 3 0 .rw .hid]⟩,
   -- NSW.CNT
   ⟨.nsw, 0x14, [], 0x0, [fr 31 0 .rc .hid]⟩,
   -- NSW.PORTSTAT
   ⟨.nsw, 0x100, [(4, 16)], 0x0, [fr 31 29 .ro .hid, fr 28 28 .w1c .hid, fr 27 27 .w1c .hid, fr 26 26 .w1c .hid, fr 25 25 .ro .hid, fr 24 0 .ro .hid]⟩]

/-- The spec gives these counters no access columns: RC in the privileged view and RO in the unprivileged one are the model's choice (DESIGN
CHOICE, log entry 109). -/
def rowsNsws : List RegRow :=
  [-- NSW.SFRAMES
   ⟨.nsws, 0x0, [(8, 4096)], 0x0, [fr 31 0 .rc .ro]⟩,
   -- NSW.SDROPS
   ⟨.nsws, 0x4, [(8, 4096)], 0x0, [fr 31 0 .rc .ro]⟩]

def rowsMsec : List RegRow :=
  [-- NSW.MSKEY
   ⟨.msec, 0x0, [(256, 16), (4, 8)], 0x0, [fr 31 0 .wo .hid]⟩,
   -- NSW.MSSALT
   ⟨.msec, 0x20, [(256, 16), (4, 3)], 0x0, [fr 31 0 .wo .hid]⟩,
   -- NSW.MSPN
   ⟨.msec, 0x2C, [(256, 16)], 0x0, [fr 31 0 .wo .hid]⟩,
   -- NSW.MSCMD
   ⟨.msec, 0x30, [(256, 16)], 0x0, [fr 31 31 .wo .hid, fr 30 30 .rw .hid, fr 29 29 .rw .hid, fr 28 27 .rw .hid, fr 26 25 .rw .hid, fr 24 24 .rw .hid, fr 23 0 .ro .hid]⟩,
   -- NSW.MSWIN
   ⟨.msec, 0x34, [(256, 16)], 0x0, [fr 31 0 .rw .hid]⟩]

def rowsTev : List RegRow :=
  [-- NSW.TEVENT
   ⟨.tev, 0x0, [], 0x0, [fr 31 0 .ro .ro]⟩]

def rowsHep : List RegRow :=
  [-- HEP.STATUS
   ⟨.hep, 0x0, [], 0x0, [fr 31 31 .w1c .hid, fr 30 30 .ro .hid, fr 29 27 .ro .hid, fr 26 22 .ro .hid, fr 21 0 .ro .hid]⟩,
   -- HEP.VIEWERR
   ⟨.hep, 0x4, [], 0x0, [fr 31 0 .rc .hid]⟩,
   -- HEP.CNTSEL
   ⟨.hep, 0x10, [], 0x40, [fr 31 10 .ro .hid, fv 9 6 .rw .hid [(1, 9)], fv 5 0 .rw .hid [(0, 32)]]⟩,
   -- HEP.CNT
   ⟨.hep, 0x14, [], 0x0, [fr 31 0 .rc .hid]⟩,
   -- HEP.P0_INTPEND
   ⟨.hep, 0x18, [], 0x0, [fr 31 3 .ro .hid, fr 2 0 .w1c .hid]⟩]

def rowsHepf : List RegRow :=
  [-- HEP.WSEL
   ⟨.hepf, 0x0, [], 0x0, [fr 31 13 .ro .hid, fr 12 8 .rw .hid, fr 7 0 .rw .hid]⟩,
   -- HEP.WTGT
   ⟨.hepf, 0x4, [], 0x0, [fr 31 30 .ro .hid, fr 29 0 .rw .hid]⟩,
   -- HEP.WCFG
   ⟨.hepf, 0x8, [], 0x0, [fr 31 31 .rw .hid, fr 30 30 .rw .hid, fr 29 28 .rw .hid, fr 27 26 .rw .hid, fr 25 25 .rw .hid, fr 24 24 .rw .hid, fr 23 16 .ro .hid, fr 15 0 .rw .hid]⟩,
   -- HEP.FNSTATE
   ⟨.hepf, 0x100, [(16, 32)], 0x0, [fr 31 31 .ro .ro, fr 30 30 .ro .ro, fr 29 28 .ro .ro, fr 27 27 .ro .ro, fr 26 26 .w1c .ro, fr 25 25 .ro .ro]⟩,
   -- HEP.HDB
   ⟨.hepf, 0x104, [(16, 32)], 0x0, [fr 31 0 .w1c .ro]⟩,
   -- HEP.HDBCTL
   ⟨.hepf, 0x108, [(16, 32)], 0x0, [fr 31 31 .rw .hid, fr 30 8 .ro .hid, fv 7 0 .rw .hid [(0, 239)]]⟩,
   -- HEP.MSISEND
   ⟨.hepf, 0x10C, [(16, 32)], 0x0, [fr 31 11 .ro .hid, fr 10 0 .wo .hid]⟩]

def rowsGrv : List RegRow :=
  [-- GRV.CORE_PRESENT
   ⟨.grv, 0x10, [], 0x0, [fr 31 28 .ro .ro, fr 19 0 .ro .ro]⟩,
   -- GRV.TCMPL
   ⟨.grv, 0x1000, [(16, 20)], 0xFFFFFFFF, [fr 31 0 .rw .hid]⟩,
   -- GRV.TCMPH
   ⟨.grv, 0x1004, [(16, 20)], 0xFFFFFFFF, [fr 31 0 .rw .hid]⟩,
   -- GRV.IPI
   ⟨.grv, 0x1008, [(16, 20)], 0x0, [fr 31 31 .wo .hid, fr 30 1 .ro .hid, fr 0 0 .w1c .hid]⟩,
   -- GRV.CRST
   ⟨.grv, 0x100C, [(16, 20)], 0x0, [fr 31 31 .wo .hid, fr 30 30 .rw .hid, fr 29 29 .w1c .hid, fr 28 28 .w1c .hid, fr 27 27 .ro .hid, fr 26 0 .ro .hid]⟩]

def rowsFry : List RegRow :=
  [-- FRY.STATUS
   ⟨.fry, 0x0, [], 0x0, [fr 31 31 .w1c .hid]⟩,
   -- FRY.VIEWERR
   ⟨.fry, 0x4, [], 0x0, [fr 31 0 .rc .hid]⟩,
   -- FRY.LSEL
   ⟨.fry, 0x8, [], 0x0, [fr 31 3 .ro .hid, fr 2 2 .rw .hid, fr 1 0 .rw .hid]⟩,
   -- FRY.FAILED_LO
   ⟨.fry, 0xC, [], 0x0, [fr 31 0 .ro .hid]⟩,
   -- FRY.FAILED_HI
   ⟨.fry, 0x10, [], 0x0, [fr 31 0 .ro .hid]⟩,
   -- FRY.SPARES
   ⟨.fry, 0x14, [], 0x0, [fr 31 28 .ro .hid, fr 27 0 .ro .hid]⟩,
   -- FRY.MSTATE
   ⟨.fry, 0x100, [(32, 4)], 0x0, [fr 31 29 .ro .hid, fr 28 28 .ro .hid, fr 27 24 .ro .hid, fr 23 20 .ro .hid, fr 19 19 .ro .hid, fr 18 18 .ro .hid, fr 17 16 .ro .hid, fr 15 12 .ro .hid, fr 11 0 .ro .hid]⟩,
   -- FRY.CTRL
   ⟨.fry, 0x104, [(32, 4)], 0x0, [fr 31 31 .wo .hid, fr 30 30 .wo .hid, fr 29 0 .ro .hid]⟩,
   -- FRY.RETRIES
   ⟨.fry, 0x108, [(32, 4)], 0x0, [fr 31 0 .rc .hid]⟩,
   -- FRY.PROTERR
   ⟨.fry, 0x10C, [(32, 4)], 0x0, [fr 31 0 .rc .hid]⟩,
   -- FRY.REMAPS
   ⟨.fry, 0x110, [(32, 4)], 0x0, [fr 31 0 .rc .hid]⟩]

def rowsL3 : List RegRow :=
  [-- L3.STATUS
   ⟨.l3, 0x0, [], 0x0, [fr 31 31 .w1c .hid, fr 15 4 .ro .ro]⟩,
   -- L3.VIEWERR
   ⟨.l3, 0x4, [], 0x0, [fr 31 0 .rc .ro]⟩,
   -- L3.L2M_CTRL
   ⟨.l3, 0x1000, [(32, 20)], 0x4000000, [fr 31 31 .wo .hid, fr 30 30 .wo .hid, fr 29 28 .ro .hid, fv 27 26 .rw .hid [(1, 3)], fr 25 25 .rw .hid, fr 24 0 .ro .hid]⟩,
   -- L3.L2M_STATUS
   ⟨.l3, 0x1004, [(32, 20)], 0x0, [fr 31 31 .ro .ro, fr 30 30 .w1c .ro, fr 29 29 .w1c .hid, fr 27 24 .ro .ro]⟩,
   -- L3.L2M_START_LO
   ⟨.l3, 0x1008, [(32, 20)], 0x0, [fr 31 0 .rw .hid]⟩,
   -- L3.L2M_START_HI
   ⟨.l3, 0x100C, [(32, 20)], 0x0, [fr 31 16 .ro .hid, fr 15 0 .rw .hid]⟩,
   -- L3.L2M_LENGTH
   ⟨.l3, 0x1010, [(32, 20)], 0x0, [fr 31 0 .rw .hid]⟩,
   -- L3.L2M_DONE
   ⟨.l3, 0x1014, [(32, 20)], 0x0, [fr 31 0 .ro .ro]⟩,
   -- L3.L2M_SKIPPED
   ⟨.l3, 0x1018, [(32, 20)], 0x0, [fr 31 0 .ro .ro]⟩,
   -- L3.L3M_CTRL
   ⟨.l3, 0x2000, [(32, 20)], 0x4000000, [fr 31 31 .wo .hid, fr 30 30 .wo .hid, fr 29 28 .ro .hid, fv 27 26 .rw .hid [(1, 3)], fr 25 25 .rw .hid, fr 24 0 .ro .hid]⟩,
   -- L3.L3M_STATUS
   ⟨.l3, 0x2004, [(32, 20)], 0x0, [fr 31 31 .ro .ro, fr 30 30 .w1c .ro, fr 29 29 .w1c .hid, fr 27 24 .ro .ro]⟩,
   -- L3.L3M_START_LO
   ⟨.l3, 0x2008, [(32, 20)], 0x0, [fr 31 0 .rw .hid]⟩,
   -- L3.L3M_START_HI
   ⟨.l3, 0x200C, [(32, 20)], 0x0, [fr 31 16 .ro .hid, fr 15 0 .rw .hid]⟩,
   -- L3.L3M_LENGTH
   ⟨.l3, 0x2010, [(32, 20)], 0x0, [fr 31 0 .rw .hid]⟩,
   -- L3.L3M_DONE
   ⟨.l3, 0x2014, [(32, 20)], 0x0, [fr 31 0 .ro .ro]⟩,
   -- L3.L3M_SKIPPED
   ⟨.l3, 0x2018, [(32, 20)], 0x0, [fr 31 0 .ro .ro]⟩]

def rowsDir : List RegRow :=
  [-- DIR.STATUS
   ⟨.dir, 0x0, [], 0x20000000, [fr 31 31 .w1c .hid, fr 30 30 .ro .hid, fr 29 29 .ro .hid, fr 28 16 .ro .hid, fr 15 12 .ro .hid, fr 11 0 .ro .hid]⟩,
   -- DIR.VIEWERR
   ⟨.dir, 0x4, [], 0x0, [fr 31 0 .rc .hid]⟩,
   -- DIR.OPEN
   ⟨.dir, 0x8, [], 0x0, [fr 31 16 .rc .hid, fr 15 12 .ro .hid, fr 11 0 .ro .hid]⟩,
   -- DIR.BACKINV
   ⟨.dir, 0xC, [], 0x0, [fr 31 0 .rc .hid]⟩,
   -- DIR.NOTHELD
   ⟨.dir, 0x10, [], 0x0, [fr 31 0 .rc .hid]⟩,
   -- DIR.VICWAIT
   ⟨.dir, 0x14, [], 0x0, [fr 31 0 .rc .hid]⟩]

def rowsUst : List RegRow :=
  [-- UST.STATUS
   ⟨.ust, 0x0, [], 0x0, [fr 31 31 .w1c .hid, fr 30 30 .ro .ro, fr 29 29 .ro .ro, fr 28 24 .ro .ro, fr 23 16 .ro .ro, fr 15 8 .ro .ro]⟩,
   -- UST.CONFIG_ID
   ⟨.ust, 0x4, [], 0x0, [fr 31 0 .ro .ro]⟩,
   -- UST.VIEWERR
   ⟨.ust, 0x8, [], 0x0, [fr 31 0 .rc .ro]⟩,
   -- UST.OVERRUNS
   ⟨.ust, 0xC, [], 0x0, [fr 31 0 .rc .ro]⟩,
   -- UST.PARK
   ⟨.ust, 0x100, [(4, 20)], 0x0, [fr 31 31 .wo .hid, fr 30 30 .w1c .ro, fr 26 24 .ro .ro, fr 19 16 .ro .ro, fr 15 5 .ro .ro]⟩]

def rowsPmu : List RegRow :=
  [-- PMU.STATUS
   ⟨.pmu, 0x0, [], 0x0, [fr 31 31 .w1c .hid, fr 30 0 .ro .hid]⟩,
   -- PMU.VIEWERR
   ⟨.pmu, 0x4, [], 0x0, [fr 31 0 .rc .hid]⟩,
   -- PMU.UCTL
   ⟨.pmu, 0x10, [], 0x0, [fr 15 8 .ro .hid, fr 7 0 .rw .hid]⟩,
   -- PMU.UOVF
   ⟨.pmu, 0x14, [], 0x0, [fr 7 0 .w1c .hid]⟩,
   -- PMU.USEL
   ⟨.pmu, 0x100, [(16, 8)], 0x3800000, [fr 31 31 .rw .hid, fr 30 26 .rw .hid, fr 25 23 .rw .hid, fr 22 20 .ro .hid, fv 19 16 .rw .hid [(0, 3)], fr 15 8 .ro .hid, fv 7 0 .rw .hid [(0, 12), (16, 19)]]⟩,
   -- PMU.UCNTL
   ⟨.pmu, 0x104, [(16, 8)], 0x0, [fr 31 0 .rw .hid]⟩,
   -- PMU.UCNTH
   ⟨.pmu, 0x108, [(16, 8)], 0x0, [fr 31 0 .rw .hid]⟩,
   -- PMU.CCTL
   ⟨.pmu, 0x1000, [(256, 20)], 0x0, [fr 15 8 .rw .ro, fr 7 0 .rw .ro]⟩,
   -- PMU.COVF
   ⟨.pmu, 0x1004, [(256, 20)], 0x0, [fr 7 0 .w1c .ro]⟩,
   -- PMU.CSEL0
   ⟨.pmu, 0x1010, [(256, 20)], 0xF, [fr 31 31 .rw .ro, fr 30 30 .rw .ro, fr 7 0 .ro .ro]⟩,
   -- PMU.CSEL1
   ⟨.pmu, 0x1020, [(256, 20)], 0xE, [fr 31 31 .rw .ro, fr 30 30 .rw .ro, fr 7 0 .ro .ro]⟩,
   -- PMU.CSEL
   ⟨.pmu, 0x1030, [(256, 20), (16, 6)], 0x0, [fr 31 31 .rw .ro, fr 30 30 .rw .ro, fv 7 0 .rw .ro [(0, 7), (14, 22), (32, 46), (48, 54)]]⟩,
   -- PMU.CCNTL
   ⟨.pmu, 0x1014, [(256, 20), (16, 8)], 0x0, [fr 31 0 .rw .ro]⟩,
   -- PMU.CCNTH
   ⟨.pmu, 0x1018, [(256, 20), (16, 8)], 0x0, [fr 31 0 .rw .ro]⟩]

def rowsCdbg : List RegRow :=
  [-- CDBG.CTRL
   ⟨.cdbg, 0x0, [(4096, 4)], 0x0, [fr 31 31 .wo .hid, fr 30 30 .wo .hid, fr 29 29 .wo .hid, fr 28 28 .wo .hid, fr 27 0 .ro .hid]⟩,
   -- CDBG.STATUS
   ⟨.cdbg, 0x4, [(4096, 4)], 0x0, [fr 31 31 .ro .hid, fr 30 28 .ro .hid, fr 27 27 .w1c .hid, fr 26 26 .w1c .hid, fr 25 22 .ro .hid, fr 21 10 .ro .hid, fr 9 0 .ro .hid]⟩,
   -- CDBG.PC_LO
   ⟨.cdbg, 0x8, [(4096, 4)], 0x0, [fr 31 0 .rw .hid]⟩,
   -- CDBG.PC_HI
   ⟨.cdbg, 0xC, [(4096, 4)], 0x0, [fr 31 4 .ro .hid, fr 3 0 .rw .hid]⟩,
   -- CDBG.ASEL
   ⟨.cdbg, 0x10, [(4096, 4)], 0x0, [fv 31 28 .rw .hid [(0, 6)], fr 27 27 .rw .hid, fr 26 8 .ro .hid, fr 7 0 .rw .hid]⟩,
   -- CDBG.AADDR_LO
   ⟨.cdbg, 0x14, [(4096, 4)], 0x0, [fr 31 0 .rw .hid]⟩,
   -- CDBG.AADDR_HI
   ⟨.cdbg, 0x18, [(4096, 4)], 0x0, [fr 31 16 .ro .hid, fr 15 0 .rw .hid]⟩,
   -- CDBG.DATA0
   ⟨.cdbg, 0x20, [(4096, 4)], 0x0, [fr 31 0 .rw .hid]⟩,
   -- CDBG.DATA1
   ⟨.cdbg, 0x24, [(4096, 4)], 0x0, [fr 31 0 .rw .hid]⟩,
   -- CDBG.DATA2
   ⟨.cdbg, 0x28, [(4096, 4)], 0x0, [fr 31 0 .rw .hid]⟩,
   -- CDBG.FSTATUS
   ⟨.cdbg, 0xF000, [], 0x0, [fr 31 31 .w1c .hid, fr 30 0 .ro .hid]⟩,
   -- CDBG.VIEWERR
   ⟨.cdbg, 0xF004, [], 0x0, [fr 31 0 .rc .hid]⟩]

def rowsXng : List RegRow :=
  [-- XNG.STATUS
   ⟨.xng, 0x0, [], 0x0, [fr 31 31 .w1c .hid, fr 30 28 .ro .hid, fr 27 27 .ro .hid, fr 26 26 .ro .hid, fr 25 0 .ro .hid]⟩,
   -- XNG.VIEWERR
   ⟨.xng, 0x4, [], 0x0, [fr 31 0 .rc .hid]⟩,
   -- XNG.EPOCH
   ⟨.xng, 0x8, [], 0x0, [fr 31 0 .ro .hid]⟩,
   -- XNG.SPLITINFO
   ⟨.xng, 0xC, [], 0x0, [fr 31 31 .ro .hid, fr 30 28 .ro .hid, fr 27 25 .ro .hid, fr 24 16 .ro .hid, fr 15 0 .ro .hid]⟩,
   -- XNG.MIRSYNC
   ⟨.xng, 0x10, [], 0x0, [fr 31 0 .ro .hid]⟩,
   -- XNG.PORTSTAT
   ⟨.xng, 0x20, [(16, 2)], 0x0, [fr 31 29 .ro .hid, fr 28 28 .ro .hid, fr 27 0 .ro .hid]⟩,
   -- XNG.RETRIES
   ⟨.xng, 0x24, [(16, 2)], 0x0, [fr 31 0 .rc .hid]⟩,
   -- XNG.PROTERR
   ⟨.xng, 0x28, [(16, 2)], 0x0, [fr 31 0 .rc .hid]⟩]

def rowsDbg : List RegRow :=
  [-- DBG.STATUS
   ⟨.dbg, 0x0, [], 0x0, [fr 31 30 .ro .hid]⟩,
   -- DBG.MASK
   ⟨.dbg, 0x4, [], 0x0, [fr 31 0 .ro .hid]⟩,
   -- DBG.REQ
   ⟨.dbg, 0x8, [], 0x0, [fv 31 30 .rw .hid [(1, 2)]]⟩,
   -- DBG.REQMASK
   ⟨.dbg, 0xC, [], 0x0, [fr 31 0 .rw .hid]⟩,
   -- DBG.CTRL
   ⟨.dbg, 0x10, [], 0x0, [fr 31 31 .wo .hid, fr 30 30 .wo .hid]⟩,
   -- DBG.FAILS
   ⟨.dbg, 0x14, [], 0x0, [fr 31 0 .rc .hid]⟩,
   -- DBG.CHALLENGE
   ⟨.dbg, 0x20, [(4, 8)], 0x0, [fr 31 0 .ro .hid]⟩,
   -- DBG.TOKEN
   ⟨.dbg, 0x40, [(4, 24)], 0x0, [fr 31 0 .wo .hid]⟩]

/-- The rows of a block. -/
def blkRows : Blk → List RegRow
  | .glb => rowsGlb
  | .cht => rowsCht
  | .tt => rowsTt
  | .mft => rowsMft
  | .evl => rowsEvl
  | .sec => rowsSec
  | .pwr => rowsPwr
  | .dmc => rowsDmc
  | .qm => rowsQm
  | .qmn => rowsQmn
  | .qmd => rowsQmd
  | .eng => rowsEng
  | .nsw => rowsNsw
  | .nsws => rowsNsws
  | .msec => rowsMsec
  | .tev => rowsTev
  | .hep => rowsHep
  | .hepf => rowsHepf
  | .grv => rowsGrv
  | .fry => rowsFry
  | .l3 => rowsL3
  | .dir => rowsDir
  | .ust => rowsUst
  | .pmu => rowsPmu
  | .cdbg => rowsCdbg
  | .xng => rowsXng
  | .dbg => rowsDbg

/-! ## Named offsets: the control-space offset, in the privileged half, of each register -/

def o_glbIdent : Nat := 0x0
def o_glbStepping : Nat := 0x4
def o_glbFabcap : Nat := 0x8
def o_chtCtrl : Nat := 0x20000
def o_chtStatus : Nat := 0x20004
def o_chtSrcLo : Nat := 0x20008
def o_chtSrcHi : Nat := 0x2000C
def o_chtSrcLen : Nat := 0x20010
def o_chtResult : Nat := 0x20014
def o_chtTargets : Nat := 0x20018
def o_chtViewerr : Nat := 0x2001C
def o_chtDigest (g : Nat) : Nat := 0x20020 + 0x4 * g
def o_chtCmpstate (g : Nat) : Nat := 0x20100 + 0x4 * g
def o_chtKnote (g : Nat) : Nat := 0x20200 + 0x4 * g
def o_ttStatus : Nat := 0x30000
def o_ttViewerr : Nat := 0x30004
def o_ttLoadsel : Nat := 0x30008
def o_ttLoad : Nat := 0x3000C
def o_ttLastfail : Nat := 0x30010
def o_ttLate (g : Nat) : Nat := 0x30100 + 0x4 * g
def o_ttSmiss (g : Nat) : Nat := 0x30180 + 0x4 * g
def o_mftStatus : Nat := 0x40000
def o_mftViewerr : Nat := 0x40004
def o_mftCmd : Nat := 0x40008
def o_mftRsrcLo : Nat := 0x4000C
def o_mftRsrcHi : Nat := 0x40010
def o_mftRsrcLen : Nat := 0x40014
def o_mftDivinfo : Nat := 0x40018
def o_mftDivchunk : Nat := 0x4001C
def o_mftDivpos : Nat := 0x40020
def o_mftCstate (g : Nat) : Nat := 0x40100 + 0x20 * g
def o_mftCtrl (g : Nat) : Nat := 0x40104 + 0x20 * g
def o_mftWidx (g : Nat) : Nat := 0x40108 + 0x20 * g
def o_mftRidx (g : Nat) : Nat := 0x4010C + 0x20 * g
def o_mftChunks (g : Nat) : Nat := 0x40110 + 0x20 * g
def o_mftStalls (g : Nat) : Nat := 0x40114 + 0x20 * g
def o_evlStatus : Nat := 0x50000
def o_evlViewerr : Nat := 0x50004
def o_evlHead : Nat := 0x50008
def o_evlTail : Nat := 0x5000C
def o_evlRsel : Nat := 0x50010
def o_evlAck : Nat := 0x50014
def o_evlLost : Nat := 0x50018
def o_evlRec (g : Nat) : Nat := 0x50020 + 0x4 * g
def o_evlCnote (g : Nat) : Nat := 0x50100 + 0x10 * g
def o_evlClast (g : Nat) : Nat := 0x50104 + 0x10 * g
def o_secStatus : Nat := 0x60000
def o_secViewerr : Nat := 0x60004
def o_secSlots : Nat := 0x60008
def o_secFloors : Nat := 0x6000C
def o_secResult : Nat := 0x60014
def o_secTamper : Nat := 0x600B0
def o_secCmd : Nat := 0x60010
def o_secProvdata (g : Nat) : Nat := 0x60020 + 0x4 * g
def o_secMksel : Nat := 0x60080
def o_secMkwrap (g : Nat) : Nat := 0x60084 + 0x4 * g
def o_pwrStatus : Nat := 0x70000
def o_pwrViewerr : Nat := 0x70004
def o_pwrCtrl : Nat := 0x70008
def o_pwrRstcause : Nat := 0x7000C
def o_pwrBootstat : Nat := 0x70010
def o_pwrParkcfg : Nat := 0x70014
def o_pwrWakecause : Nat := 0x70020
def o_pwrGrvrst : Nat := 0x70024
def o_pwrDomsel : Nat := 0x70028
def o_pwrDomstate : Nat := 0x7002C
def o_clkIslsel : Nat := 0x70030
def o_clkIslstate : Nat := 0x70034
def o_pwrAlarmLo : Nat := 0x70018
def o_pwrAlarmHi : Nat := 0x7001C
def o_dmcStatus (g : Nat) : Nat := 0x80000 + 0x10000 * g
def o_dmcViewerr (g : Nat) : Nat := 0x80004 + 0x10000 * g
def o_dmcConfig (g : Nat) : Nat := 0x80008 + 0x10000 * g
def o_dmcScrub (g : Nat) : Nat := 0x8000C + 0x10000 * g
def o_dmcInit (g : Nat) : Nat := 0x80010 + 0x10000 * g
def o_dmcSubstate (g h : Nat) : Nat := 0x80040 + 0x10000 * g + 0x20 * h
def o_dmcCecount (g h : Nat) : Nat := 0x80044 + 0x10000 * g + 0x20 * h
def o_dmcUecount (g h : Nat) : Nat := 0x80048 + 0x10000 * g + 0x20 * h
def o_dmcErraddrLo (g h : Nat) : Nat := 0x8004C + 0x10000 * g + 0x20 * h
def o_dmcErraddrHi (g h : Nat) : Nat := 0x80050 + 0x10000 * g + 0x20 * h
def o_dmcErrinfo (g h : Nat) : Nat := 0x80054 + 0x10000 * g + 0x20 * h
def o_qmStatus : Nat := 0x100000
def o_qmViewerr : Nat := 0x100004
def o_qmOwnerr : Nat := 0x100008
def o_qmLostrec : Nat := 0x10000C
def o_qmQsel : Nat := 0x100010
def o_qmQcmd : Nat := 0x100014
def o_qmQstate : Nat := 0x100018
def o_qmQidx : Nat := 0x10001C
def o_qmQcfg : Nat := 0x100020
def o_qmQbaseLo : Nat := 0x100024
def o_qmQbaseHi : Nat := 0x100028
def o_qmQlink : Nat := 0x100034
def o_qmQnotify : Nat := 0x100038
def o_qmQxlat : Nat := 0x10003C
def o_qmQasid : Nat := 0x100040
def o_qmQshadowLo : Nat := 0x10002C
def o_qmQshadowHi : Nat := 0x100030
def o_qmNpend (g : Nat) : Nat := 0x110000 + 0x4 * g
def o_qmDb : Nat := 0x120000
def o_qmDbarm : Nat := 0x120004
def o_engStatus (g : Nat) : Nat := 0x140000 + 0x1000 * g
def o_engCtrl (g : Nat) : Nat := 0x140004 + 0x1000 * g
def o_engDone (g : Nat) : Nat := 0x140008 + 0x1000 * g
def o_engFault (g : Nat) : Nat := 0x14000C + 0x1000 * g
def o_engFaddrLo (g : Nat) : Nat := 0x140010 + 0x1000 * g
def o_engFaddrHi (g : Nat) : Nat := 0x140014 + 0x1000 * g
def o_engViewerr (g : Nat) : Nat := 0x140018 + 0x1000 * g
def o_nswStatus : Nat := 0x180000
def o_nswViewerr : Nat := 0x180004
def o_nswToffsetLo : Nat := 0x180008
def o_nswToffsetHi : Nat := 0x18000C
def o_nswCntsel : Nat := 0x180010
def o_nswCnt : Nat := 0x180014
def o_nswPortstat (g : Nat) : Nat := 0x180100 + 0x4 * g
def o_nswSframes (g : Nat) : Nat := 0x190000 + 0x8 * g
def o_nswSdrops (g : Nat) : Nat := 0x190004 + 0x8 * g
def o_nswMskey (g h : Nat) : Nat := 0x1A0000 + 0x100 * g + 0x4 * h
def o_nswMssalt (g h : Nat) : Nat := 0x1A0020 + 0x100 * g + 0x4 * h
def o_nswMspn (g : Nat) : Nat := 0x1A002C + 0x100 * g
def o_nswMscmd (g : Nat) : Nat := 0x1A0030 + 0x100 * g
def o_nswMswin (g : Nat) : Nat := 0x1A0034 + 0x100 * g
def o_nswTevent : Nat := 0x1B0000
def o_hepStatus : Nat := 0x1C0000
def o_hepViewerr : Nat := 0x1C0004
def o_hepCntsel : Nat := 0x1C0010
def o_hepCnt : Nat := 0x1C0014
def o_hepP0Intpend : Nat := 0x1C0018
def o_hepWsel : Nat := 0x1D0000
def o_hepWtgt : Nat := 0x1D0004
def o_hepWcfg : Nat := 0x1D0008
def o_hepFnstate (g : Nat) : Nat := 0x1D0100 + 0x10 * g
def o_hepHdb (g : Nat) : Nat := 0x1D0104 + 0x10 * g
def o_hepHdbctl (g : Nat) : Nat := 0x1D0108 + 0x10 * g
def o_hepMsisend (g : Nat) : Nat := 0x1D010C + 0x10 * g
def o_grvCorePresent (g : Nat) : Nat := 0x200010 + 0x100000 * g
def o_grvTcmpl (g h : Nat) : Nat := 0x201000 + 0x100000 * g + 0x10 * h
def o_grvTcmph (g h : Nat) : Nat := 0x201004 + 0x100000 * g + 0x10 * h
def o_grvIpi (g h : Nat) : Nat := 0x201008 + 0x100000 * g + 0x10 * h
def o_grvCrst (g h : Nat) : Nat := 0x20100C + 0x100000 * g + 0x10 * h
def o_fryStatus (g : Nat) : Nat := 0x210000 + 0x100000 * g
def o_fryViewerr (g : Nat) : Nat := 0x210004 + 0x100000 * g
def o_fryLsel (g : Nat) : Nat := 0x210008 + 0x100000 * g
def o_fryFailedLo (g : Nat) : Nat := 0x21000C + 0x100000 * g
def o_fryFailedHi (g : Nat) : Nat := 0x210010 + 0x100000 * g
def o_frySpares (g : Nat) : Nat := 0x210014 + 0x100000 * g
def o_fryMstate (g h : Nat) : Nat := 0x210100 + 0x100000 * g + 0x20 * h
def o_fryCtrl (g h : Nat) : Nat := 0x210104 + 0x100000 * g + 0x20 * h
def o_fryRetries (g h : Nat) : Nat := 0x210108 + 0x100000 * g + 0x20 * h
def o_fryProterr (g h : Nat) : Nat := 0x21010C + 0x100000 * g + 0x20 * h
def o_fryRemaps (g h : Nat) : Nat := 0x210110 + 0x100000 * g + 0x20 * h
def o_l3Status (g : Nat) : Nat := 0x220000 + 0x100000 * g
def o_l3Viewerr (g : Nat) : Nat := 0x220004 + 0x100000 * g
def o_l3L2mCtrl (g h : Nat) : Nat := 0x221000 + 0x100000 * g + 0x20 * h
def o_l3L2mStatus (g h : Nat) : Nat := 0x221004 + 0x100000 * g + 0x20 * h
def o_l3L2mStartLo (g h : Nat) : Nat := 0x221008 + 0x100000 * g + 0x20 * h
def o_l3L2mStartHi (g h : Nat) : Nat := 0x22100C + 0x100000 * g + 0x20 * h
def o_l3L2mLength (g h : Nat) : Nat := 0x221010 + 0x100000 * g + 0x20 * h
def o_l3L2mDone (g h : Nat) : Nat := 0x221014 + 0x100000 * g + 0x20 * h
def o_l3L2mSkipped (g h : Nat) : Nat := 0x221018 + 0x100000 * g + 0x20 * h
def o_l3L3mCtrl (g h : Nat) : Nat := 0x222000 + 0x100000 * g + 0x20 * h
def o_l3L3mStatus (g h : Nat) : Nat := 0x222004 + 0x100000 * g + 0x20 * h
def o_l3L3mStartLo (g h : Nat) : Nat := 0x222008 + 0x100000 * g + 0x20 * h
def o_l3L3mStartHi (g h : Nat) : Nat := 0x22200C + 0x100000 * g + 0x20 * h
def o_l3L3mLength (g h : Nat) : Nat := 0x222010 + 0x100000 * g + 0x20 * h
def o_l3L3mDone (g h : Nat) : Nat := 0x222014 + 0x100000 * g + 0x20 * h
def o_l3L3mSkipped (g h : Nat) : Nat := 0x222018 + 0x100000 * g + 0x20 * h
def o_dirStatus (g : Nat) : Nat := 0x230000 + 0x100000 * g
def o_dirViewerr (g : Nat) : Nat := 0x230004 + 0x100000 * g
def o_dirOpen (g : Nat) : Nat := 0x230008 + 0x100000 * g
def o_dirBackinv (g : Nat) : Nat := 0x23000C + 0x100000 * g
def o_dirNotheld (g : Nat) : Nat := 0x230010 + 0x100000 * g
def o_dirVicwait (g : Nat) : Nat := 0x230014 + 0x100000 * g
def o_ustStatus (g : Nat) : Nat := 0x240000 + 0x100000 * g
def o_ustConfigId (g : Nat) : Nat := 0x240004 + 0x100000 * g
def o_ustViewerr (g : Nat) : Nat := 0x240008 + 0x100000 * g
def o_ustOverruns (g : Nat) : Nat := 0x24000C + 0x100000 * g
def o_ustPark (g h : Nat) : Nat := 0x240100 + 0x100000 * g + 0x4 * h
def o_pmuStatus (g : Nat) : Nat := 0x250000 + 0x100000 * g
def o_pmuViewerr (g : Nat) : Nat := 0x250004 + 0x100000 * g
def o_pmuUctl (g : Nat) : Nat := 0x250010 + 0x100000 * g
def o_pmuUovf (g : Nat) : Nat := 0x250014 + 0x100000 * g
def o_pmuUsel (g h : Nat) : Nat := 0x250100 + 0x100000 * g + 0x10 * h
def o_pmuUcntl (g h : Nat) : Nat := 0x250104 + 0x100000 * g + 0x10 * h
def o_pmuUcnth (g h : Nat) : Nat := 0x250108 + 0x100000 * g + 0x10 * h
def o_pmuCctl (g h : Nat) : Nat := 0x251000 + 0x100000 * g + 0x100 * h
def o_pmuCovf (g h : Nat) : Nat := 0x251004 + 0x100000 * g + 0x100 * h
def o_pmuCsel0 (g h : Nat) : Nat := 0x251010 + 0x100000 * g + 0x100 * h
def o_pmuCsel1 (g h : Nat) : Nat := 0x251020 + 0x100000 * g + 0x100 * h
def o_pmuCsel (g h i : Nat) : Nat := 0x251030 + 0x100000 * g + 0x100 * h + 0x10 * i
def o_pmuCcntl (g h i : Nat) : Nat := 0x251014 + 0x100000 * g + 0x100 * h + 0x10 * i
def o_pmuCcnth (g h i : Nat) : Nat := 0x251018 + 0x100000 * g + 0x100 * h + 0x10 * i
def o_cdbgCtrl (g h i : Nat) : Nat := 0x260000 + 0x100000 * g + 0x10000 * h + 0x1000 * i
def o_cdbgStatus (g h i : Nat) : Nat := 0x260004 + 0x100000 * g + 0x10000 * h + 0x1000 * i
def o_cdbgPcLo (g h i : Nat) : Nat := 0x260008 + 0x100000 * g + 0x10000 * h + 0x1000 * i
def o_cdbgPcHi (g h i : Nat) : Nat := 0x26000C + 0x100000 * g + 0x10000 * h + 0x1000 * i
def o_cdbgAsel (g h i : Nat) : Nat := 0x260010 + 0x100000 * g + 0x10000 * h + 0x1000 * i
def o_cdbgAaddrLo (g h i : Nat) : Nat := 0x260014 + 0x100000 * g + 0x10000 * h + 0x1000 * i
def o_cdbgAaddrHi (g h i : Nat) : Nat := 0x260018 + 0x100000 * g + 0x10000 * h + 0x1000 * i
def o_cdbgData0 (g h i : Nat) : Nat := 0x260020 + 0x100000 * g + 0x10000 * h + 0x1000 * i
def o_cdbgData1 (g h i : Nat) : Nat := 0x260024 + 0x100000 * g + 0x10000 * h + 0x1000 * i
def o_cdbgData2 (g h i : Nat) : Nat := 0x260028 + 0x100000 * g + 0x10000 * h + 0x1000 * i
def o_cdbgFstatus (g h : Nat) : Nat := 0x26F000 + 0x100000 * g + 0x10000 * h
def o_cdbgViewerr (g h : Nat) : Nat := 0x26F004 + 0x100000 * g + 0x10000 * h
def o_xngStatus : Nat := 0xE00000
def o_xngViewerr : Nat := 0xE00004
def o_xngEpoch : Nat := 0xE00008
def o_xngSplitinfo : Nat := 0xE0000C
def o_xngMirsync : Nat := 0xE00010
def o_xngPortstat (g : Nat) : Nat := 0xE00020 + 0x10 * g
def o_xngRetries (g : Nat) : Nat := 0xE00024 + 0x10 * g
def o_xngProterr (g : Nat) : Nat := 0xE00028 + 0x10 * g
def o_dbgStatus : Nat := 0xF00000
def o_dbgMask : Nat := 0xF00004
def o_dbgReq : Nat := 0xF00008
def o_dbgReqmask : Nat := 0xF0000C
def o_dbgCtrl : Nat := 0xF00010
def o_dbgFails : Nat := 0xF00014
def o_dbgChallenge (g : Nat) : Nat := 0xF00020 + 0x4 * g
def o_dbgToken (g : Nat) : Nat := 0xF00040 + 0x4 * g

end Sys2Proof.Machine
end

