-- ==== Sys2Proof/Machine/State/Chart.lean ====
section
/-!
DEFINITION. The Chart as the Keeper reads it from a container: the sections of Table 2-2 as structures, and the state of
the CHT operation in progress (Table 2-12).
-/
namespace Sys2Proof.Machine

/-- PACKAGE section (Table 2-3). -/
structure PackageSec where
  pairIndex : Nat
  paired : Bool
  senior : Bool
  homeGroves : BitVec 12
  witness : Nat
  deriving DecidableEq, Repr

/-- COMPARTMENT section (Table 2-4). -/
structure CmpSec where
  id : Nat
  /-- PAGING: power-of-two mode. -/
  pow2 : Bool
  manifest : Bool
  steward : Bool
  /-- 0 local, 1 mirror, 2 span. -/
  pairMode : Nat
  ftStart : Bool
  /-- RESTART: resume. -/
  resume : Bool
  authority : BitVec 32
  entry : Nat
  mftBase : Nat
  mftLen : Nat
  name : List Nat
  deriving DecidableEq, Repr

/-- A RESOURCE record (R44). -/
structure ResRec where
  kind : Nat
  owner : Nat
  attr : Nat
  first : Nat
  count : Nat
  deriving DecidableEq, Repr

/-- A CONTRACT record (Table 14-2), with the compartment it binds. -/
structure Contract where
  cmp : Nat
  srcKind : Nat
  /-- CLASS: true for H, false for S. -/
  hard : Bool
  target : Nat
  tgtIndex : Nat
  srcFirst : Nat
  srcCount : Nat
  overflow : Bool
  reroute : Bool
  spread : Nat
  rrate : Nat
  wrate : Nat
  rburst : Nat
  wburst : Nat
  targetNs : Nat
  deriving DecidableEq, Repr

/-- A decode-table entry (Table 8-3). -/
structure UstEntry where
  matchBits : Nat
  mask : Nat
  ctx : Nat
  dstKind : Nat
  srcKind : Nat
  dstIn : Bool
  mem : Bool
  lat : Nat
  ii : Nat
  regions : Nat
  deriving DecidableEq, Repr

/-- An UNDERSTOREY section (Table 8-2). -/
structure UstSec where
  grove : Nat
  cmp : Nat
  contexts : Nat
  configId : Nat
  entries : List UstEntry
  image : List Nat
  /-- The section's octets (R527). -/
  octets : List Nat
  deriving DecidableEq, Repr

/-- An IMAGE section (R45). -/
structure ImageSec where
  cmp : Nat
  dest : Nat
  dense : Bool
  payload : List Nat
  /-- Which application of IMAGE sections wrote it: later ones have higher numbers (R526). -/
  stamp : Nat
  deriving DecidableEq, Repr

/-- The sections of a verified container, or a committed Chart (R51). -/
structure Chart where
  pkg : Option PackageSec
  cmps : List CmpSec
  res : List ResRec
  /-- The compartments a CONTRACT section names, and the records. -/
  contractCmps : List Nat
  contracts : List Contract
  /-- NETSCHED sections: the port and the section's octets. -/
  nets : List (Nat × List Nat)
  usts : List UstSec
  images : List ImageSec
  /-- The committed digest (R51), 48 octets. -/
  digest : List Nat
  chartId : Nat
  svn : Nat
  /-- Of an update: type, compartment or instance, and directory index of its sections. -/
  index : List (Nat × Nat × Nat)
  deriving DecidableEq, Repr

def Chart.empty : Chart :=
  { pkg := none, cmps := [], res := [], contractCmps := [], contracts := [], nets := [], usts := [], images := [],
    digest := [], chartId := 0, svn := 0, index := [] }

/-- CHT.CMPSTATE_n.STATE (Table 2-11). -/
inductive CmpState where
  | absent | running | stopping | stopped | changing | fenced | halted
  deriving DecidableEq, Repr

/-- CHT.CTRL.OP (Table 2-8). -/
inductive ChtKind where
  | apply | stop | start | resume
  deriving DecidableEq, Repr

/-- The CHT operation in progress: its submitter (none: the host), its step (Table 2-9), its targets, the container as fetched,
the sections it carries, and what a reversal of step 4 restores (R60). -/
structure ChtOp where
  kind : ChtKind
  submitter : Option Nat
  step : Nat
  /-- SRC_SPACE, SRC and SRC_LEN at GO. -/
  own : Bool
  src : Nat
  len : Nat
  octets : List Nat
  /-- A full container, which is accepted only while no Chart is committed. -/
  full : Bool
  update : Chart
  targets : List Nat
  /-- Targets that were HALTED before the operation. -/
  preHalted : List Nat
  /-- Bytes that IMAGE sections have replaced in memory that does not move, and the lines there that carried poison. -/
  undo : List (Nat × Byte)
  poisoned : List Nat
  /-- At step 7: the targets that start cold. -/
  cold : List Nat
  /-- The digest that the partner has staged (R63). -/
  partner : Option (List Nat)
  /-- Package time of GO. -/
  go : Nat
  deriving DecidableEq, Repr

end Sys2Proof.Machine
end

