-- ==== Sys2Proof/Syntax.lean ====
section
/-!
DEFINITION. The commands of the block, one constructor per row of spec/opcode_table.json.

A command of a core names the core and how the word stands in its issue group, and carries the 36-bit word the core
fetched: its operands are the fields of that word (R98), so a reserved field, an odd register of a pair or a
repeated pair bit can be said, and CS.FAULTWORD can be written (R118).
A command of another unit names the unit and what arrives there. Where the spec leaves a choice to the device
(which way is a victim, how many cycles a freeze lasts within its bound), the choice is an operand.
-/
namespace Sys2Proof

/-- How an instruction word stands in the group that issues it (R100, R116, R164). -/
inductive Slot where
  /-- A word issued alone. -/
  | single
  /-- The even word of a pair; the operand is the odd word, fetched with it. -/
  | first (second : Word)
  /-- The odd word of the pair whose even word has just issued. -/
  | second
  /-- One iteration of the target of the repeat in progress. -/
  | iter
  deriving DecidableEq, Repr

/-- Where a core's instruction issues: the package core index of R16 and the slot of its group. -/
structure At where
  core : Nat
  slot : Slot
  deriving DecidableEq, Repr

/-- The agents a maintenance broadcast addresses (R171, R174). -/
inductive Agent where
  | core (k : Nat)
  | understorey (g : Nat)
  | engine (e : Nat)
  deriving DecidableEq, Repr


/-- Who writes or reads a control register: a core, in its current mode, or the host through PF0 (R285, R286). -/
inductive Sender where
  | core (k : Nat)
  | host
  deriving DecidableEq, Repr

/-- The stages of a subchannel's retraining (R395): it leaves service; an attempt succeeds or fails. -/
inductive RetrainEv where
  | begin
  | attempt (ok : Bool)
  deriving DecidableEq, Repr

/-- What is wrong with a received TLP (Table 18-6). -/
inductive TlpErr where
  | none | poisoned | ecrc | malformed | flowControl | dataLink
  deriving DecidableEq, Repr

/-- The stages of a CHT operation (Table 2-12): a write of GO by a sender (for APPLY the field is SRC_SPACE, for the others CMP); the
octets of a container arrive from host memory, or do not; the partner's Keeper stages a digest (R63); the step in progress completes. -/
inductive ChtEv where
  | go (who : Sender) (field : Nat)
  | fetched (octs : Option (List Nat))
  | staged (digest : List Nat)
  | next
  deriving DecidableEq, Repr

/-- What a boot step of Table 21-3 finds as it ends: step 1; step 2, the self-test of the generator (false: it has failed twice) and the
fuse slots whose integrity tag fails; step 3, the octets of boot header, board record with its signature, and firmware slots; step 4,
the subchannels whose training has failed; step 6, a container from flash; any other step. -/
inductive BootIn where
  | checks
  | selftest (rng : Bool) (tags : List Nat)
  | flash (header board fwA fwB : List Nat)
  | dram (failed : List Nat)
  | container (octs : List Nat)
  | next
  deriving DecidableEq, Repr

/-- What the DRAM reads of a command find: for each read in turn the syndromes of the line's eight codewords, and those of its retry (R387,
R388). -/
structure Reads where
  syn : List Nat
  retry : List Nat
  deriving DecidableEq, Repr

/-- How a line arrives: after how many core cycles, and what its reads find. -/
structure Fill where
  cycles : Nat
  reads : Reads
  deriving DecidableEq, Repr

/-- What a flit carries: whether it names what no agent can decode (R492), and the messages that a new flit has been given, each by its
line and the dies it goes between (R20, R479). -/
structure FlitLoad where
  bad : Bool
  msgs : List (Nat × Nat × Nat)
  deriving DecidableEq, Repr

/-- What the partner's Keeper shows of itself at a join: its pair digest (R497), and its public value with the HMAC of it (R568). -/
structure JoinShown where
  digest : List Nat
  pub : List Nat
  mac : List Nat
  deriving DecidableEq, Repr

/-- The commands: one constructor per row of spec/opcode_table.json, in its order. The comment before a
constructor gives the rule of spec/ that the row names. -/
inductive Instr where
  /-- ADD (R125). Adds two words modulo 2^36, with an optional flag-setting form. -/
  | add (x : At) (w : Word)
  /-- SUB (R125). Subtracts one word from another modulo 2^36, with an optional flag-setting form. -/
  | sub (x : At) (w : Word)
  /-- ADDC (R125). Adds two words plus FL.C. -/
  | addc (x : At) (w : Word)
  /-- SUBC (R125). Computes A + NOT B + FL.C. -/
  | subc (x : At) (w : Word)
  /-- AND (R125). Bitwise AND of two words. -/
  | and (x : At) (w : Word)
  /-- OR (R125). Bitwise OR of two words. -/
  | or (x : At) (w : Word)
  /-- XOR (R125). Bitwise XOR of two words. -/
  | xor (x : At) (w : Word)
  /-- ANDN (R125). Computes A AND NOT B. -/
  | andn (x : At) (w : Word)
  /-- SHL (R126). Shifts a word left by a register amount. -/
  | shl (x : At) (w : Word)
  /-- SHR (R126). Shifts a word right logically by a register amount. -/
  | shr (x : At) (w : Word)
  /-- SAR (R126). Shifts a word right arithmetically by a register amount. -/
  | sar (x : At) (w : Word)
  /-- ROL (R126). Rotates a word left by a register amount modulo 36. -/
  | rol (x : At) (w : Word)
  /-- SHLI (R126). Shifts a word left by an immediate amount. -/
  | shli (x : At) (w : Word)
  /-- SHRI (R126). Shifts a word right logically by an immediate amount. -/
  | shri (x : At) (w : Word)
  /-- SARI (R126). Shifts a word right arithmetically by an immediate amount. -/
  | sari (x : At) (w : Word)
  /-- ROLI (R126). Rotates a word left by an immediate amount. -/
  | roli (x : At) (w : Word)
  /-- CMP (R125). Sets FL from A minus B and writes no register. -/
  | cmp (x : At) (w : Word)
  /-- SLT (R125). Writes 1 when A is below B as signed values. -/
  | slt (x : At) (w : Word)
  /-- SLTU (R125). Writes 1 when A is below B as unsigned values. -/
  | sltu (x : At) (w : Word)
  /-- MIN (R125). Writes the signed minimum. -/
  | min (x : At) (w : Word)
  /-- MAX (R125). Writes the signed maximum. -/
  | max (x : At) (w : Word)
  /-- MINU (R125). Writes the unsigned minimum. -/
  | minu (x : At) (w : Word)
  /-- MAXU (R125). Writes the unsigned maximum. -/
  | maxu (x : At) (w : Word)
  /-- ABS (R125). Writes the wrapped absolute value. -/
  | abs (x : At) (w : Word)
  /-- NEG (R125). Writes 0 minus A. -/
  | neg (x : At) (w : Word)
  /-- ADDS (R125). Saturating signed addition that sets Q when it clips. -/
  | adds (x : At) (w : Word)
  /-- SUBS (R125). Saturating signed subtraction that sets Q when it clips. -/
  | subs (x : At) (w : Word)
  /-- CLZ (R125). Counts the leading zero bits of A. -/
  | clz (x : At) (w : Word)
  /-- POPC (R125). Counts the one bits of A. -/
  | popc (x : At) (w : Word)
  /-- RDRC (R128). Reads RC into a register (selector 0). -/
  | rdrc (x : At) (w : Word)
  /-- RDFL (R128). Reads FL, zero-extended, into a register (selector 1). -/
  | rdfl (x : At) (w : Word)
  /-- WRRC (R128). Writes RC from a register (selector 0). -/
  | wrrc (x : At) (w : Word)
  /-- WRFL (R128). Writes FL, Q included, from bits 4:0 of a register. -/
  | wrfl (x : At) (w : Word)
  /-- ADDI (R127). Adds a sign-extended 17-bit immediate. -/
  | addi (x : At) (w : Word)
  /-- ANDI (R127). ANDs a zero-extended immediate. -/
  | andi (x : At) (w : Word)
  /-- ORI (R127). ORs a zero-extended immediate. -/
  | ori (x : At) (w : Word)
  /-- XORI (R127). XORs a zero-extended immediate. -/
  | xori (x : At) (w : Word)
  /-- LDHI (R127). Writes imm23 times 2^13 to the destination. -/
  | ldhi (x : At) (w : Word)
  /-- CMPI (R127). Sets FL from A minus the sign-extended immediate. -/
  | cmpi (x : At) (w : Word)
  /-- SLTI (R127). Signed compare with an immediate. -/
  | slti (x : At) (w : Word)
  /-- SLTIU (R127). Unsigned compare with a sign-extended immediate. -/
  | sltiu (x : At) (w : Word)
  /-- ADDD (R129). Adds two register pairs at 72 bits. -/
  | addd (x : At) (w : Word)
  /-- SUBD (R129). Subtracts two register pairs at 72 bits. -/
  | subd (x : At) (w : Word)
  /-- ADDCD (R129). Adds two pairs plus FL.C. -/
  | addcd (x : At) (w : Word)
  /-- SUBCD (R129). Subtracts two pairs with the carry convention. -/
  | subcd (x : At) (w : Word)
  /-- SHLD (R129). Shifts a pair left. -/
  | shld (x : At) (w : Word)
  /-- SHRD (R129). Shifts a pair right logically. -/
  | shrd (x : At) (w : Word)
  /-- SARD (R129). Shifts a pair right arithmetically. -/
  | sard (x : At) (w : Word)
  /-- CMPD (R129). Sets FL from a 72-bit pair compare. -/
  | cmpd (x : At) (w : Word)
  /-- MOVD (R129). Copies a register pair. -/
  | movd (x : At) (w : Word)
  /-- NEGD (R129). Negates a register pair. -/
  | negd (x : At) (w : Word)
  /-- PACKH (R129). Packs two half-words into one word. -/
  | packh (x : At) (w : Word)
  /-- EXTH (R129). Extracts a half-word, zero-extended. -/
  | exth (x : At) (w : Word)
  /-- EXTHS (R129). Extracts a half-word, sign-extended. -/
  | exths (x : At) (w : Word)
  /-- EXTB (R129). Extracts a byte, zero-extended. -/
  | extb (x : At) (w : Word)
  /-- EXTBS (R129). Extracts a byte, sign-extended. -/
  | extbs (x : At) (w : Word)
  /-- INSH (R129). Inserts a half-word into the destination. -/
  | insh (x : At) (w : Word)
  /-- INSB (R129). Inserts a byte into the destination. -/
  | insb (x : At) (w : Word)
  /-- MUL (R130). Low word of a product. -/
  | mul (x : At) (w : Word)
  /-- MULH (R130). High word of a signed product. -/
  | mulh (x : At) (w : Word)
  /-- MULHU (R130). High word of an unsigned product. -/
  | mulhu (x : At) (w : Word)
  /-- MULD (R130). Full signed 72-bit product into a pair. -/
  | muld (x : At) (w : Word)
  /-- MULDU (R130). Full unsigned 72-bit product into a pair. -/
  | muldu (x : At) (w : Word)
  /-- MULQ (R130). Q1.35 product, rounded and saturated. -/
  | mulq (x : At) (w : Word)
  /-- DIV (R131). Long signed word division; a zero divisor records DIVZ. -/
  | div (x : At) (w : Word)
  /-- DIVU (R131). Long unsigned word division. -/
  | divu (x : At) (w : Word)
  /-- REM (R131). Long signed word remainder. -/
  | rem (x : At) (w : Word)
  /-- REMU (R131). Long unsigned word remainder. -/
  | remu (x : At) (w : Word)
  /-- DIVD (R131). Long signed pair division. -/
  | divd (x : At) (w : Word)
  /-- DIVDU (R131). Long unsigned pair division. -/
  | divdu (x : At) (w : Word)
  /-- REMD (R131). Long signed pair remainder. -/
  | remd (x : At) (w : Word)
  /-- REMDU (R131). Long unsigned pair remainder. -/
  | remdu (x : At) (w : Word)
  /-- LADD (R133). Lane-wise wrapping addition (.H or .W). -/
  | ladd (x : At) (w : Word)
  /-- LSUB (R133). Lane-wise wrapping subtraction. -/
  | lsub (x : At) (w : Word)
  /-- LADDS (R133). Lane-wise saturating addition. -/
  | ladds (x : At) (w : Word)
  /-- LSUBS (R133). Lane-wise saturating subtraction. -/
  | lsubs (x : At) (w : Word)
  /-- LMUL (R133). Lane-wise rounded fixed-point product. -/
  | lmul (x : At) (w : Word)
  /-- LMAX (R133). Lane-wise signed maximum. -/
  | lmax (x : At) (w : Word)
  /-- LMIN (R133). Lane-wise signed minimum. -/
  | lmin (x : At) (w : Word)
  /-- LABS (R133). Lane-wise saturating absolute value. -/
  | labs (x : At) (w : Word)
  /-- LSHL (R133). Lane-wise left shift by an immediate. -/
  | lshl (x : At) (w : Word)
  /-- LSAR (R133). Lane-wise arithmetic right shift by an immediate. -/
  | lsar (x : At) (w : Word)
  /-- LCMPEQ (R133). Lane-wise equality mask. -/
  | lcmpeq (x : At) (w : Word)
  /-- LCMPLT (R133). Lane-wise signed less-than mask. -/
  | lcmplt (x : At) (w : Word)
  /-- MAC_H4 (R134). Adds four 18-bit lane products into an accumulator. -/
  | macH4 (x : At) (w : Word)
  /-- MSU_H4 (R134). Subtracts four lane products from an accumulator. -/
  | msuH4 (x : At) (w : Word)
  /-- MACZ_H4 (R134). Writes the sum of four lane products to an accumulator. -/
  | maczH4 (x : At) (w : Word)
  /-- MAC_W (R134). Adds a word product into an accumulator. -/
  | macW (x : At) (w : Word)
  /-- MSU_W (R134). Subtracts a word product from an accumulator. -/
  | msuW (x : At) (w : Word)
  /-- MACZ_W (R134). Writes a word product to an accumulator. -/
  | maczW (x : At) (w : Word)
  /-- ACCLR (R134). Clears an accumulator. -/
  | acclr (x : At) (w : Word)
  /-- ACWR (R134). Writes a sign-extended word to an accumulator. -/
  | acwr (x : At) (w : Word)
  /-- ACADD (R134). Adds one accumulator into another. -/
  | acadd (x : At) (w : Word)
  /-- ACSAR (R134). Shifts an accumulator right arithmetically. -/
  | acsar (x : At) (w : Word)
  /-- ACRD (R134). Reads accumulator bits 35:0. -/
  | acrd (x : At) (w : Word)
  /-- ACRDS (R134). Reads a rounded, shifted and saturated accumulator word. -/
  | acrds (x : At) (w : Word)
  /-- ACRDD (R134). Reads a rounded, shifted and saturated accumulator pair. -/
  | acrdd (x : At) (w : Word)
  /-- ACRDX (R134). Reads accumulator bits 79:36 into a pair. -/
  | acrdx (x : At) (w : Word)
  /-- ACWRX (R134). Restores all 80 accumulator bits from three registers. -/
  | acwrx (x : At) (w : Word)
  /-- FADD (R137). Floating-point addition in F36 or F72. -/
  | fadd (x : At) (w : Word)
  /-- FSUB (R137). Floating-point subtraction. -/
  | fsub (x : At) (w : Word)
  /-- FMUL (R137). Floating-point multiplication. -/
  | fmul (x : At) (w : Word)
  /-- FDIV (R137). Long floating-point division. -/
  | fdiv (x : At) (w : Word)
  /-- FSQRT (R137). Long floating-point square root. -/
  | fsqrt (x : At) (w : Word)
  /-- FMA (R137). Fused multiply-add with dst as addend. -/
  | fma (x : At) (w : Word)
  /-- FMS (R137). Fused multiply-subtract. -/
  | fms (x : At) (w : Word)
  /-- FNMA (R137). Negated fused multiply-add. -/
  | fnma (x : At) (w : Word)
  /-- FMIN (R138). IEEE minimumNumber. -/
  | fmin (x : At) (w : Word)
  /-- FMAX (R138). IEEE maximumNumber. -/
  | fmax (x : At) (w : Word)
  /-- FABS (R137). Clears the sign bit. -/
  | fabs (x : At) (w : Word)
  /-- FNEG (R137). Inverts the sign bit. -/
  | fneg (x : At) (w : Word)
  /-- FCMP (R139). Floating-point compare that writes FL. -/
  | fcmp (x : At) (w : Word)
  /-- FCLASS (R140). Writes a one-hot class mask. -/
  | fclass (x : At) (w : Word)
  /-- FSGNJ (R137). Copies the sign of y onto x. -/
  | fsgnj (x : At) (w : Word)
  /-- CVT_36_W (R141). Converts a signed word to F36. -/
  | cvt36W (x : At) (w : Word)
  /-- CVT_36_WU (R141). Converts an unsigned word to F36. -/
  | cvt36Wu (x : At) (w : Word)
  /-- CVT_W_36 (R142). Converts F36 to a signed word under RM. -/
  | cvtW36 (x : At) (w : Word)
  /-- CVT_WU_36 (R142). Converts F36 to an unsigned word under RM. -/
  | cvtWu36 (x : At) (w : Word)
  /-- CVT_W_36_Z (R142). Converts F36 to a signed word towards zero. -/
  | cvtW36Z (x : At) (w : Word)
  /-- CVT_36_B32 (R79). Converts binary32 to F36 exactly. -/
  | cvt36B32 (x : At) (w : Word)
  /-- CVT_B32_36 (R80). Converts F36 to binary32, rounded. -/
  | cvtB3236 (x : At) (w : Word)
  /-- CVT_36_72 (R143). Converts F72 to F36, rounded. -/
  | cvt3672 (x : At) (w : Word)
  /-- CVT_72_D (R141). Converts a signed double-word to F72. -/
  | cvt72D (x : At) (w : Word)
  /-- CVT_72_DU (R141). Converts an unsigned double-word to F72. -/
  | cvt72Du (x : At) (w : Word)
  /-- CVT_D_72 (R142). Converts F72 to a signed double-word under RM. -/
  | cvtD72 (x : At) (w : Word)
  /-- CVT_DU_72 (R142). Converts F72 to an unsigned double-word under RM. -/
  | cvtDu72 (x : At) (w : Word)
  /-- CVT_D_72_Z (R142). Converts F72 to a signed double-word towards zero. -/
  | cvtD72Z (x : At) (w : Word)
  /-- CVT_72_B64 (R79). Converts binary64 to F72 exactly. -/
  | cvt72B64 (x : At) (w : Word)
  /-- CVT_B64_72 (R80). Converts F72 to binary64, rounded. -/
  | cvtB6472 (x : At) (w : Word)
  /-- CVT_72_36 (R143). Converts F36 to F72 exactly. -/
  | cvt7236 (x : At) (w : Word)
  /-- LDB (R148). Loads a byte, zero-extended. -/
  | ldb (x : At) (w : Word)
  /-- LDBS (R148). Loads a byte, sign-extended. -/
  | ldbs (x : At) (w : Word)
  /-- LDH (R148). Loads a half-word, zero-extended. -/
  | ldh (x : At) (w : Word)
  /-- LDHS (R148). Loads a half-word, sign-extended. -/
  | ldhs (x : At) (w : Word)
  /-- LDW (R148). Loads a word, including control-space reads. -/
  | ldw (x : At) (w : Word)
  /-- LDD (R148). Loads a double-word into a pair. -/
  | ldd (x : At) (w : Word)
  /-- STB (R148). Stores a byte through the merging buffer. -/
  | stb (x : At) (w : Word)
  /-- STH (R148). Stores a half-word. -/
  | sth (x : At) (w : Word)
  /-- STW (R148). Stores a word, including control-space writes. -/
  | stw (x : At) (w : Word)
  /-- STD (R148). Stores a double-word from a pair. -/
  | std (x : At) (w : Word)
  /-- LDSG (R226). Loads a checked segment descriptor image into a segment register. -/
  | ldsg (x : At) (w : Word)
  /-- STSG (R228). Stores the image of a segment register. -/
  | stsg (x : At) (w : Word)
  /-- PREF (R152). Requests a line into the L2, or is dropped without effect. -/
  | pref (x : At) (w : Word)
  /-- LR (R153). Loads a word, gains ownership and sets the reservation. -/
  | lr (x : At) (w : Word)
  /-- SC (R154). Stores when the reservation holds and sets Z to show success. -/
  | sc (x : At) (w : Word)
  /-- TAS (R155). Atomically reads a word and writes 1 to it. -/
  | tas (x : At) (w : Word)
  /-- BR (R162). Conditional relative branch. -/
  | br (x : At) (w : Word)
  /-- CALL (R162). Conditional relative call that links in W63. -/
  | call (x : At) (w : Word)
  /-- JRL (R163). Conditional register-indirect jump with a link. -/
  | jrl (x : At) (w : Word)
  /-- RPT (R164). Interruptible repeat of the next word. -/
  | rpt (x : At) (w : Word) (target : Word)
  /-- RPTU (R167). Uninterruptible repeat of the next word, 1 to 256 times. -/
  | rptu (x : At) (w : Word) (target : Word)
  /-- CSRR (R169). Reads a CS register. -/
  | csrr (x : At) (w : Word)
  /-- CSRW (R170). Writes a CS register after earlier instructions have passed their latency. -/
  | csrw (x : At) (w : Word)
  /-- CSRX (R169). Exchanges a CS register with a general register. -/
  | csrx (x : At) (w : Word)
  /-- SYSCALL (R175). Raises SYSCALL with a code. -/
  | syscall (x : At) (w : Word)
  /-- BREAK (R175). Raises BREAK with a code. -/
  | brk (x : At) (w : Word)
  /-- ERET (R176). Returns from an exception and resumes a marked repeat. -/
  | eret (x : At) (w : Word)
  /-- LWAIT (R160). Holds until long operations land and delivers their faults. -/
  | lwait (x : At) (w : Word)
  /-- FENCE_L (R159). Orders earlier stores before later loads. -/
  | fenceL (x : At) (w : Word)
  /-- FENCE_S (R159). Orders earlier stores before later stores. -/
  | fenceS (x : At) (w : Word)
  /-- FENCE_A (R159). Orders earlier stores before all later accesses. -/
  | fenceA (x : At) (w : Word)
  /-- IFENCE (R174). Invalidates L1I lines of a range locally or by broadcast, then refetches. -/
  | ifence (x : At) (w : Word)
  /-- TLBI_BY_ADDRESS (R171). Invalidates TLB entries whose page contains an address. -/
  | tlbiByAddress (x : At) (w : Word)
  /-- TLBI_BY_ASID (R171). Invalidates non-global entries of an ASID. -/
  | tlbiByAsid (x : At) (w : Word)
  /-- TLBI_ALL (R171). Invalidates every TLB entry. -/
  | tlbiAll (x : At) (w : Word)
  /-- TSYNC (R172). Holds until earlier TLBIs have completed everywhere. -/
  | tsync (x : At) (w : Word)
  /-- CMO_CLEAN (R173). Writes back dirty copies of a line across the compartment. -/
  | cmoClean (x : At) (w : Word)
  /-- CMO_INVALIDATE (R173). Discards every copy of a line. -/
  | cmoInvalidate (x : At) (w : Word)
  /-- CMO_CLEAN_AND_INVALIDATE (R173). Writes back, then discards, every copy of a line. -/
  | cmoCleanAndInvalidate (x : At) (w : Word)
  /-- WAIT (R177). Stops issue until an unmasked source is pending. -/
  | wait (x : At) (w : Word)
  /-- X_OPERATION (R213). X-block word matched and handed to the Understorey as a long operation. -/
  | xOperation (x : At) (w : Word)
  /-- IFENCE_BROADCAST_ARRIVAL (R194). A broadcast IFENCE reaches a core, which discards lines and refetches. -/
  | ifenceBroadcastArrival (src core : Nat)
  /-- TLBI_BROADCAST_ARRIVAL (R270). A broadcast invalidation reaches a core, UTLB or DMA cache. -/
  | tlbiBroadcastArrival (src : Nat) (dst : Agent)
  /-- INTERRUPT_ENTRY (R281). A pending unmasked interrupt is taken at a boundary. -/
  | interruptEntry (core : Nat)
  /-- LONG (R277). A recorded long-operation fault is delivered imprecisely at a boundary. -/
  | long (core : Nat)
  /-- LONG_OPERATION_LANDING (R183). A divide-unit operation lands its result or records its fault. -/
  | longOperationLanding (core : Nat)
  /-- LOAD_MISS_FILL (R187). A missing access is served after some cycles and the freeze ends; or (`none`) an outstanding PREF is served,
  which takes the core no time (R152). -/
  | loadMissFill (core : Nat) (cycles : Option Nat) (syn retry : List Nat)
  /-- FETCH_LINE_FILL (R189). An L1I or line-buffer fill arrives. -/
  | fetchLineFill (core la : Nat) (fill : Fill)
  /-- FT_MODE_CHANGE (R203). After the drain, the core changes fixed-timing mode and zeroes or drops local memories. -/
  | ftModeChange (core : Nat)
  /-- UST_ACCEPT (R214). A context accepts the operation of a core slot when the holds end. -/
  | ustAccept (grove ctx slot : Nat)
  /-- UST_LANDING (R215). An Understorey operation lands, makes stores visible, or records UFLT and parks. -/
  | ustLanding (core : Nat) (late : Bool)
  /-- UST_DISCARD (R220). UST.PARK_k.DISCARD discards the parked operations of a slot. -/
  | ustDiscard (core : Nat)
  /-- TIMER (R283). CS.TIME reaches a slot's compare value and TIMER becomes pending. -/
  | timer (core : Nat)
  /-- IPI_SET (R282). A write of SET makes the slot's IPI pending. -/
  | ipiSet (core : Nat)
  /-- MACHINE_CHECK_ASYNC (R591). An asynchronous machine check is taken at rank 1. -/
  | machineCheckAsync (core sub : Nat)
  /-- MB_IDLE_TIMEOUT (R293). A merging-buffer entry starts to drain 32 cycles after its last merge. -/
  | mbIdleTimeout (core line : Nat)
  /-- DRAIN_ACCEPT (R294). L2 or Clearing slice accepts a drained entry, making its stores visible. -/
  | drainAccept (core line cycles : Nat) (reads : Reads)
  /-- RESERVATION_DEFERRAL_END (R157). The 64-cycle deferral of competing requests after an LR ends. -/
  | reservationDeferralEnd (core : Nat)
  /-- RANGE_CLEAN (R310). An L2M or L3M GO with OP clean starts a range command. -/
  | rangeClean (who : Sender) (l3 : Bool) (grove slot : Nat) (space : Bool)
  /-- RANGE_INVALIDATE (R310). A range GO with OP invalidate starts a command. -/
  | rangeInvalidate (who : Sender) (l3 : Bool) (grove slot : Nat) (space : Bool)
  /-- RANGE_CLEAN_AND_INVALIDATE (R310). A range GO with OP clean and invalidate starts a command. -/
  | rangeCleanAndInvalidate (who : Sender) (l3 : Bool) (grove slot : Nat) (space : Bool)
  /-- RANGE_ABORT (R308). ABORT ends a running range command at the next line. -/
  | rangeAbort (who : Sender) (l3 : Bool) (grove slot : Nat)
  /-- RANGE_ENGINE_LINE (R311). An engine acts on the next line or set of its range, ending the command at its last. -/
  | rangeEngineLine (l3 : Bool) (grove slot : Nat)
  /-- RDS (R322). A home serves a read that may grant a shared copy. -/
  | rds (port line : Nat)
  /-- RDX (R322). A home serves a read with ownership. -/
  | rdx (port line : Nat)
  /-- UPG (R322). A home serves an ownership upgrade of a held copy. -/
  | upg (port line : Nat)
  /-- RDCUR (R333). A home serves a non-caching current-value read. -/
  | rdcur (port line : Nat)
  /-- WRINV (R333). A home serves a masked write that invalidates every copy. -/
  | wrinv (port line : Nat) (bytes : List (Nat × Byte))
  /-- WB (R326). A home accepts a dirty write-back in the cycle it arrives. -/
  | wb (port line : Nat) (keep : Bool) (bytes : List Byte)
  /-- EVC (R331). A home takes a clean-eviction hint. -/
  | evc (port line : Nat)
  /-- FWDS (R321). A holder sends data to a requester and keeps a shared copy. -/
  | fwds (holder line : Nat) (bytes : List Byte)
  /-- FWDX (R321). A holder sends data to a requester and gives the line up. -/
  | fwdx (holder line : Nat) (bytes : List Byte)
  /-- FWDC (R321). A holder sends data and keeps its state. -/
  | fwdc (holder line : Nat) (bytes : List Byte)
  /-- INV (R321). A holder gives up its copy for a request. -/
  | invMsg (holder line : Nat)
  /-- BINV (R332). A holder gives up its copy to free a directory entry or a lost home. -/
  | binv (holder line : Nat) (bytes : List Byte)
  /-- DATA (R320). A requester receives a fill with a granted state. -/
  | dataMsg (port line st : Nat) (bytes : List Byte)
  /-- ACK (R327). A home receives a reply to Inv, BInv or a forward. -/
  | ackMsg (port line : Nat)
  /-- CMP_MESSAGE (R325). A home receives Cmp and closes the transaction. -/
  | cmpMessage (port line : Nat)
  /-- MRD (R327). A DRAM controller receives a line read. -/
  | mrd (line : Nat) (syn retry : List Nat)
  /-- MWR (R384). A DRAM controller accepts a whole-line write into its queue. -/
  | mwr (line : Nat)
  /-- STATE_SET_SWITCH (R341). The Keeper quiesces the fabric and switches between MESIF and MOESI. -/
  | stateSetSwitch (moesi : Bool)
  /-- SHAPER_ACCEPT (R354). A held request is accepted once its bucket refills. -/
  | shaperAccept (srcKind item : Nat)
  /-- APPLY (R59). CHT GO with OP APPLY fetches, verifies, quiesces, reassigns, admits, commits and releases an update. -/
  | apply (ev : ChtEv)
  /-- STOP (R58). CHT GO with OP STOP quiesces a RUNNING compartment to STOPPED. -/
  | stop (ev : ChtEv)
  /-- START (R58). CHT GO with OP START raises a STOPPED or HALTED compartment cold. -/
  | start (who : Sender) (cmp : Nat) (together : Bool)
  /-- RESUME (R58). CHT GO with OP RESUME releases a STOPPED compartment at its saved state. -/
  | resume (who : Sender) (cmp : Nat)
  /-- ABORT (R60). CHT.CTRL.ABORT cancels a running operation before commit. -/
  | chtAbort (who : Sender)
  /-- PARTNER_COMMIT_SIGNAL (R63). Pair index 1 commits on receiving pair index 0's commit signal. -/
  | partnerCommitSignal 
  /-- PARTNER_STAGE_TIMEOUT (R63). The partner has not staged the update 5 ms after the first GO, giving code 18. -/
  | partnerStageTimeout 
  /-- REFRESH (R385). The refresh interval expires and REFab is issued to a rank. -/
  | refresh (sub rank : Nat)
  /-- MR4_READ (R385). The 16 ms timer expires and device temperature is read. -/
  | mr4Read (sub rank : Nat) (hot : Bool)
  /-- ZQ_CALIBRATION (R385). The 128 ms timer expires and a ZQ latch is issued after a refresh. -/
  | zqCalibration (sub rank : Nat)
  /-- DQS_OSCILLATOR_READ (R385). The 16 ms timer expires and the interval oscillator is read. -/
  | dqsOscillatorRead (sub rank : Nat) (drift : Bool)
  /-- WRITE_BATCH (R384). The controller issues a batch of queued writes. -/
  | writeBatch (sub n : Nat)
  /-- CORRECTION_WRITE (R389). A queued class-B correction write is issued or dropped. -/
  | correctionWrite (sub : Nat)
  /-- SCRUB_READ (R391). The patrol scrubber reads and, if needed, rewrites its next line. -/
  | scrubRead (sub : Nat) (syn retry : List Nat)
  /-- INITIALISER_LINE (R393). The initialiser gives a fresh line a valid codeword. -/
  | initialiserLine (channel : Nat) (syn retry : List Nat)
  /-- SUBCHANNEL_RETRAIN (R395). A subchannel is taken out of service, retrained and returned, or becomes FAILED. -/
  | subchannelRetrain (sub : Nat) (ev : RetrainEv)
  /-- QM_ENABLE (R406). QCMD ENABLE checks the context and starts the queue. -/
  | qmEnable (who : Sender)
  /-- QM_DISABLE (R406). QCMD DISABLE stops the queue. -/
  | qmDisable (who : Sender)
  /-- QM_REARM (R406). QCMD REARM restarts a HALTED queue unless its cause persists. -/
  | qmRearm (who : Sender)
  /-- QM_HALT (R406). QCMD HALT halts a RUNNING queue. -/
  | qmHalt (who : Sender)
  /-- DB (R409). A doorbell moves a queue's software index. -/
  | dbRing (who : Sender) (queue index : Nat)
  /-- DBARM (R411). A doorbell that also arms the queue's notification. -/
  | dbarm (who : Sender) (queue index : Nat)
  /-- COPY (R414). An engine performs a COPY descriptor. -/
  | copy (engine steps : Nat)
  /-- FILL (R414). An engine performs a FILL descriptor. -/
  | fill (engine steps : Nat)
  /-- NOP (R414). An engine performs a NOP descriptor. -/
  | nop (engine : Nat)
  /-- ENG_RESUME (R420). ENG.CTRL.RESUME continues a parked descriptor from DONE. -/
  | engResume (who : Sender) (engine : Nat)
  /-- ENG_DISCARD (R420). ENG.CTRL.DISCARD ends a parked descriptor with ABORT_SW. -/
  | engDiscard (who : Sender) (engine : Nat)
  /-- MESSAGE_DELIVERY (R422). The queue manager delivers, holds or refuses the next message of a SEND queue. -/
  | messageDelivery (queue : Nat)
  /-- FRAME_RECEIVE (R431). A received frame passes the ingress stages to delivery, forwarding or a drop. -/
  | frameReceive (port : Nat) (octs : List Nat) (fcs frag : Bool) (busy : Nat)
  /-- EGRESS_DEQUEUE (R442). A NETOUT frame is accepted and placed in its class's egress queue. -/
  | egressDequeue (queue : Nat)
  /-- TRANSMISSION_SELECTION (R443). A port chooses and starts its next frame. -/
  | transmissionSelection (port : Nat)
  /-- GATE_ENTRY (R444). A gate entry's interval expires and the next entry takes effect. -/
  | gateEntry (port : Nat)
  /-- TOFFSET_WRITE (R445). The Keeper writes NSW.TOFFSET, and NETTIME becomes pending. -/
  | toffsetWrite (value : Nat)
  /-- TEVENT_READ (R445). A read of NSW.TEVENT clears the reading core's NETTIME. -/
  | teventRead (core : Nat)
  /-- MACSEC_INSTALL (R447). MSCMD.INSTALL installs the staged SAK as an SA. -/
  | macsecInstall (who : Sender) (port : Nat) (cmd : BitVec 32)
  /-- PORT_LINK_CHANGE (R429). An external port goes up or down as its PHY reports. -/
  | portLinkChange (port : Nat) (up : Bool) (rate : Nat)
  /-- PHY_WAKE (R448). A PHY wake indication sets WAKE or exits Park. -/
  | phyWake (port : Nat)
  /-- HOST_MEM_WRITE (R465). A posted write to BAR2 is translated and written, or refused. -/
  | hostMemWrite (fn off : Nat) (octs : List Nat) (err : TlpErr)
  /-- HOST_MEM_READ (R466). A read of BAR2 is answered with completions. -/
  | hostMemRead (fn off len : Nat) (err : TlpErr)
  /-- HOST_BAR0_ACCESS (R458). A host request to a BAR0 register. -/
  | hostBar0Access (fn off dws be : Nat) (write : Option Nat) (err : TlpErr)
  /-- HOST_CONFIG_REQUEST (R455). A configuration request to a function. -/
  | hostConfigRequest (fn off : Nat) (write : Option Nat) (be : Nat)
  /-- HOST_COMPLETION (R467). A completion for an endpoint read arrives. -/
  | hostCompletion (fn tag status : Nat) (octs : List Nat) (err : TlpErr)
  /-- COMPLETION_TIMEOUT (R467). A DMA read passes its timeout and its descriptor ends with HOSTERR. -/
  | completionTimeout (fn tag : Nat)
  /-- FUNCTION_LEVEL_RESET (R472). Initiate Function Level Reset resets a function on the timeline of Table 18-5. -/
  | functionLevelReset (fn : Nat) (done : Bool)
  /-- BUS_MASTER_ENABLE_WRITE (R424). Bus Master Enable written to 0 aborts the function's DMA and holds its interrupts. -/
  | busMasterEnableWrite (fn : Nat) (on : Bool)
  /-- VF_ENABLE_WRITE (R473). VF Enable written to 0 resets every VF. -/
  | vfEnableWrite (on : Bool)
  /-- HOT_RESET (R474). A hot reset or DL_Down resets every function and retrains the link. -/
  | hotReset 
  /-- PERST_ASSERT (R474). PERST# asserted resets the endpoint alone. -/
  | perstAssert 
  /-- PERST_DEASSERT (R453). PERST# released starts link training. -/
  | perstDeassert 
  /-- HOST_LINK_UP (R453). The link reaches L0 and configuration space becomes ready. -/
  | hostLinkUp (rate width : Nat)
  /-- HEP_WCFG_WRITE (R460). A WCFG write commits a window entry, or is refused. -/
  | hepWcfgWrite (who : Sender) (cfg : BitVec 32)
  /-- HEP_WSEL_WRITE (R461). A WSEL write selects an entry, or is refused. -/
  | hepWselWrite (who : Sender) (fn win : Nat)
  /-- MSISEND (R470). A compartment requests a host interrupt vector. -/
  | msisend (who : Sender) (fn vector : Nat)
  /-- HDBSET (R471). A host write sets doorbell bits and makes HOST pending. -/
  | hdbset (fn : Nat) (bits : BitVec 32)
  /-- FLIT_RECEIVE (R480). A receiver accepts or discards a flit. -/
  | flitReceive (link dir : Nat) (flit errors : BitVec 640) (load : FlitLoad)
  /-- RETRY_REQUEST (R481). A transmitter replays from the requested flit. -/
  | retryRequest (link dir : Nat)
  /-- IDLE_CONTROL_FLIT (R479). After 16 flit times without a header flit, a control flit is sent. -/
  | idleControlFlit (link dir : Nat)
  /-- FERRY_TRAINING_STEP (R483). A training state completes and the module advances. -/
  | ferryTrainingStep (module : Nat) (lanes0 lanes1 : BitVec 68)
  /-- EYE_MONITOR_SAMPLE (R487). The 1 ms eye-monitor sample may mark lanes failed. -/
  | eyeMonitorSample (module dir : Nat) (lanes : List Nat)
  /-- REMAP (R488). A quiet window assigns a spare lane and ends. -/
  | remap (module dir : Nat) (bist : List Nat)
  /-- HALF_WIDTH (R489). A module drops to half width by retrain. -/
  | halfWidth (module : Nat)
  /-- FRY_RETRAIN (R490). FRY.CTRL.RETRAIN starts a full retrain. -/
  | fryRetrain (grove loc : Nat)
  /-- FRY_ENABLE (R486). FRY.CTRL.ENABLE takes a DISABLED module back to BIST. -/
  | fryEnable (grove loc : Nat)
  /-- ROUTE_CHANGE (R23). Traffic moves to a new route at a flush point. -/
  | routeChange (a b : Nat)
  /-- TXN_TIMEOUT (R594). A transaction without reply is closed with poison after 20 µs. -/
  | txnTimeout (line port : Nat)
  /-- HEARTBEAT (R496). Every 10 µs a heartbeat control flit is sent on each up Crossing port. -/
  | heartbeat (port : Nat)
  /-- CROSSING_TRAINING (R495). A Crossing port trains, drops to half width or retries after 10 ms. -/
  | crossingTraining (port : Nat) (lanes0 lanes1 : BitVec 16)
  /-- PAIR_JOIN (R497). The Keepers exchange identities and digests and join the pair. -/
  | pairJoin (index dsn stepping : Nat) (shown : JoinShown) (epoch : Nat) (claims : Bool) (span : List (Nat × Nat × Nat))
  /-- MIRROR_WRITE (R499). A standby controller writes a mirrored line. -/
  | mirrorWrite (port line : Nat) (bytes : List Byte)
  /-- SPLIT (R502). 200 µs without a port or heartbeat declares a split. -/
  | split 
  /-- WITNESS_QUERY (R503). The Keeper sends a query to the Ranger witness on schedule. -/
  | witnessQuery 
  /-- WITNESS_ANSWER (R504). A witness answer is checked and gives a win or loss. -/
  | witnessAnswer 
  /-- SPLIT_RESULT_TIMEOUT (R505). At T0 + 20 ms without an answer, SENIOR decides the result. -/
  | splitResultTimeout 
  /-- TAKEOVER (R501). A standby mirrored compartment starts cold at its scheduled time. -/
  | takeover (cmp : Nat)
  /-- CHUNK_LIMIT (R513). A core's chunk reaches 65,536 units and ends. -/
  | chunkLimit (core : Nat)
  /-- MANIFEST_BLOCK_WRITE (R524). The Manifest writer writes a block, or cores freeze when the ring is full. -/
  | manifestBlockWrite (cmp : Nat)
  /-- ARM (R532). MFT.CMD ARM arms a stopped compartment for recording. -/
  | arm (cmp : Nat)
  /-- DISARM (R532). MFT.CMD DISARM disarms or ends a session. -/
  | disarm (cmp : Nat)
  /-- REPLAY (R529). MFT.CMD REPLAY starts replay of exported blocks. -/
  | replay (cmp : Nat) (blocks : List (List Nat))
  /-- REPLAY_CHUNK (R529). A replayed core runs a chunk whose ORDER predecessors have ended and compares its hash. -/
  | replayChunk (cmp agent : Nat) (again : List (List Nat))
  /-- MFT_STOP (R532). MFT.CTRL_n.STOP ends the session. -/
  | mftStop (who : Sender) (cmp : Nat)
  /-- RIDX_WRITE (R524). A write of MFT.RIDX releases blocks, or is refused. -/
  | ridxWrite (who : Sender) (cmp value : Nat)
  /-- POWER_ON (R539). PWROK rises and the boot sequence runs. -/
  | powerOn 
  /-- BOOT_STEP (R539). A boot step of Table 21-3 completes and the next begins. -/
  | bootStep (found : BootIn)
  /-- POWER_LOSS (R534). PWROK falls and nothing is retained. -/
  | powerLoss 
  /-- RESET_N (R535). RESET_N held low starts a package warm reset. -/
  | resetN (ns : Nat)
  /-- WARMRST (R542). PWR.CTRL.WARMRST starts a package warm reset. -/
  | warmrst 
  /-- WATCHDOG_EXPIRY (R542). The Keeper watchdog expires. -/
  | watchdogExpiry 
  /-- LOCKSTEP_MISMATCH (R542). The two Keeper cores disagree. -/
  | lockstepMismatch 
  /-- TAMPER (R567). A tamper sensor trips; secrets are overwritten and a tamper reset follows. -/
  | tamper (sensor : Nat)
  /-- TAMPER_RELEASE (R543). Every sensor has been in range for 100 ms and boot starts. -/
  | tamperRelease 
  /-- REFCLK_FAULT (R549). The package reference clock is out of range or lost. -/
  | refclkFault (lost : Bool) (ppm ns : Nat)
  /-- PCIE_REFCLK_LOSS (R549). Loss of the PCI Express reference clock takes the link down. -/
  | pcieRefclkLoss 
  /-- GROVE_RESET (R544). PWR.GRVRST GO resets an isolated Grove. -/
  | groveReset (grove : Nat) (done : Bool)
  /-- CORE_RESET (R546). GRV.CRST_i RESET resets a core at its next boundary. -/
  | coreReset (who : Sender) (core : Nat) (now : Bool)
  /-- HOLD_RELEASE (R545). HOLD written to 0 lets a reset core start. -/
  | holdRelease (who : Sender) (core : Nat)
  /-- PARK (R554). PWR.CTRL.PARK requests Park and starts the grace period. -/
  | park 
  /-- PARK_GRACE_EXPIRY (R554). The grace period ends and Park entry completes. -/
  | parkGraceExpiry 
  /-- PARK_ALARM (R555). CS.TIME reaches PWR.ALARM in Park. -/
  | parkAlarm 
  /-- GPIO_WAKE (R555). A wake GPIO holds its level for 10 µs in Park. -/
  | gpioWake (pin : Nat) (level : Bool) (ns : Nat)
  /-- RAILOK (R555). RAILOK rises after Park exit and boot steps 4 to 9 run. -/
  | railok (level : Bool)
  /-- AVS_TARGET_SET (R602). The Landing sets a Grove's supply target over AVSBus. -/
  | avsTargetSet (grove target : Nat)
  /-- PROVISION (R559). SEC.CMD PROVISION programs a fuse slot. -/
  | provision (slot : Nat) (fused : Bool)
  /-- REVOKE (R562). SEC.CMD REVOKE revokes a Chart signing key slot. -/
  | revoke (slot : Nat) (fused : Bool)
  /-- RAISE_SVN (R562). SEC.CMD RAISE_SVN raises the SVN floor. -/
  | raiseSvn 
  /-- LOCK (R559). SEC.CMD LOCK moves the part from OPEN to FIELD. -/
  | lock (fused : Bool)
  /-- RAISE_FWSVN (R560). SEC.CMD RAISE_FWSVN raises the firmware floor. -/
  | raiseFwsvn (fused : Bool)
  /-- DRBG_RESEED (R565). The DRBG reseeds every 1 ms. -/
  | drbgReseed (healthy : Bool)
  /-- CHALLENGE_READ (R570). A read of DBG.CHALLENGE word 0 draws a fresh challenge. -/
  | challengeRead (jtag : Bool)
  /-- SUBMIT (R570). DBG.CTRL.SUBMIT verifies a debug token. -/
  | submit (jtag : Bool)
  /-- CLOSE (R570). DBG.CTRL.CLOSE ends a debug grant. -/
  | close (jtag : Bool)
  /-- CDBG_HALT (R574). CDBG HALT stops a core at its next boundary. -/
  | cdbgHalt (jtag : Bool) (core : Nat) (now : Bool)
  /-- CDBG_RUN (R574). CDBG RUN resumes issue at PC. -/
  | cdbgRun (jtag : Bool) (core : Nat)
  /-- CDBG_STEP (R574). CDBG STEP issues one group or iteration, then halts. -/
  | cdbgStep (jtag : Bool) (core : Nat)
  /-- CDBG_AGO (R574). CDBG AGO performs a debug register or memory access. -/
  | cdbgAgo (jtag : Bool) (core : Nat)
  /-- UCNTH_READ (R585). A read of UCNTH latches bits 31:0 of the counter. -/
  | ucnthRead (who : Sender) (frame k : Nat)
  /-- UCNTL_READ (R585). A read of UCNTL returns and empties the latch. -/
  | ucntlRead (who : Sender) (frame k : Nat)
  /-- RC_READ (R10). A read of an RC field returns the value and clears it. -/
  | rcRead (who : Sender) (off : Nat)
  /-- REGISTER_WRITE (R9). A write to a control register without a row of its own, with reserved-value and view checks. -/
  | registerWrite (who : Sender) (off : Nat) (value : BitVec 32)
  /-- UNDEFINED_ENCODING (R103). A fetched word with an unassigned major opcode, function code or sysfn is issued and raises UD. -/
  | undefinedEncoding (x : At) (w : Word) (target : Word)
  /-- DESCRIPTOR_RESERVED_OP (R413). An engine takes a descriptor whose OP is reserved and ends it with BADDESC. -/
  | descriptorReservedOp (engine : Nat)
  /-- RESET_N_RELEASE (R535). RESET_N returns high and boot resumes from step 1 under the warm column. -/
  | resetNRelease 
  /-- SYNCED_CHANGE (R445). NSW.STATUS.SYNCED changes as the Keeper's 802.1AS gains or loses synchronisation, making NETTIME pending. -/
  | syncedChange (synced : Bool)
  /-- LANE_LOSS_OF_LOCK (R487). A Ferry lane carrying a forwarded clock or the valid signal loses lock, and the lanes it serves are marked failed. -/
  | laneLossOfLock (module dir which : Nat)
  /-- MIRROR_COPY (R501). After a rejoin, the active side copies the next line of a mirrored compartment to the standby in class B, and sets MIRSYNC once the copy is complete. -/
  | mirrorCopy (cmp : Nat)
  /-- LINK_LAYER_RETRY (R476). A PCI Express receiver error, bad TLP or DLLP, or replay timer timeout or rollover triggers a link-layer retry and a correctable error. -/
  | linkLayerRetry (kind : Nat)
  /-- PACKAGE_FATAL_ERROR (R593). An uncorrectable error in Keeper memory, the Chart store, the key region table or fabric switch and Timetable state starts a package warm reset. -/
  | packageFatalError (row : Nat) (chart : Bool)
  deriving DecidableEq, Repr

end Sys2Proof
end

