-- ==== Sys2Proof/Machine/State/Mem.lean ====
section
/-!
DEFINITION. The state of memory and of coherence: DRAM and the Clearings, the dirty data that caches hold, poison,
the tags of the L2s and Grove caches (R289, R300), the directory (R317), the open transactions and the messages in
flight (R320, R325), and the maintenance broadcasts in flight (R171, R174).
-/
namespace Sys2Proof.Machine

/-- A copy's state towards the home (Tables 13-4 and 13-6); I is the absence of a tag. -/
inductive CState where
  | m | e | f | s | o
  deriving DecidableEq, Repr

/-- A Grove's transient state (Table 13-9). -/
inductive GTrans where
  | is | im | sm | mi
  deriving DecidableEq, Repr

/-- A line held by a Stand's L2, in its state towards the Grove cache, which acts as its home (R319). The list of lines stands in the
order of their last use, the least recent first (log entry 14). -/
structure L2Line where
  stand : Nat
  line : Nat
  st : CState
  deriving DecidableEq, Repr

/-- The L2 holds the line with ownership. -/
def L2Line.excl (t : L2Line) : Bool := t.st == .m || t.st == .e
/-- The L2's copy is newer than what its home holds. -/
def L2Line.dirty (t : L2Line) : Bool := t.st == .m || t.st == .o

/-- A Grove-cache tag entry in a way of its set (R300). The Stand vector, and RESP towards the Stands, are read from the L2s. -/
structure GTag where
  grove : Nat
  line : Nat
  st : CState
  way : Nat
  /-- The entry holds the line's data; never in a carved way. -/
  data : Bool
  /-- The class of the access that last took ownership of the line, in which its write-back travels, and that access's deadline counted
  from its acceptance (R348). -/
  cls : Nat
  slack : Nat
  deriving DecidableEq, Repr

/-- A Grove's transient state for a line; `mark`: the operation of a range engine that visited the line's set while the fill was open
(R311), 0 for none. Grove 12 is the Landing, which waits for a current value (R315). -/
structure GPend where
  grove : Nat
  line : Nat
  tr : GTrans
  mark : Nat
  deriving DecidableEq, Repr

/-- A fill of a Stand's L2 that an L2 engine marked while it was open (R311), with the engine's operation. -/
structure FillMark where
  stand : Nat
  line : Nat
  op : Nat
  deriving DecidableEq, Repr

/-- What orders a request where requests of several sources wait for one resource (R363): class (0 H, 1 S, 2 B), time of acceptance,
deadline, and the port or source number that settles ties. -/
structure Rank where
  cls : Nat
  since : Nat
  deadline : Nat
  port : Nat
  deriving DecidableEq, Repr

/-- STATE of a directory entry (Table 13-2). -/
inductive DirSt where
  | sh | ex | ow
  deriving DecidableEq, Repr

/-- A directory entry (Table 13-2). `resp` is 15 for none, 13 for the Crossing agent. -/
structure DirEnt where
  line : Nat
  st : DirSt
  vec : BitVec 12
  xp : Bool
  resp : Nat
  deriving DecidableEq, Repr

/-- The requests a home serves (Table 13-3). -/
inductive ReqKind where
  | rds | rdx | upg | rdcur
  /-- The masked bytes, keyed by their place in the line. -/
  | wrinv (bytes : SMap Byte)
  | wb (keep : Bool)
  | evc
  deriving DecidableEq, Repr

/-- An open transaction (R325): what the home still waits for (Table 13-8). -/
structure Txn where
  line : Nat
  kind : ReqKind
  /-- Requester port (Table 13-1). -/
  port : Nat
  /-- MR: a DRAM read is outstanding. -/
  mr : Bool
  /-- FW: a forward is outstanding, to this holder. -/
  fw : Option Nat
  /-- IV and VB: holders whose Ack is outstanding. -/
  acks : List Nat
  /-- MW: a DRAM write is outstanding. -/
  mw : Bool
  /-- CP: Cmp is outstanding. -/
  cp : Bool
  /-- The state to be granted. -/
  grant : CState
  /-- The entry is a directory victim (VB). -/
  victim : Bool
  /-- A write of an Understorey operation that the home holds in MW until the operation lands (R334). -/
  held : Bool
  rank : Rank
  deriving DecidableEq, Repr

/-- A request in a home's transient queue (R326), or held for want of a table entry (R325). The list of requests stands in the order in
which they reached their homes; `at_` is the time of that. -/
structure Wait where
  port : Nat
  line : Nat
  kind : ReqKind
  at_ : Nat
  rank : Rank
  /-- It has been counted in DIR.VICWAIT (R332). -/
  vic : Bool
  deriving DecidableEq, Repr

/-- A message in flight, other than a request (Table 13-3). `port` is the Grove or agent it goes to or comes from. -/
inductive MsgKind where
  | fwdS (requester : Nat) | fwdX (requester : Nat) | fwdC (requester : Nat)
  | inv | binv
  | data (st : CState) (dirty : Bool)
  | ack (notheld : Bool) (withLine : Bool)
  | cmp
  | mrd
  | mwr
  deriving DecidableEq, Repr

structure Msg where
  kind : MsgKind
  line : Nat
  port : Nat
  deriving DecidableEq, Repr

/-- A maintenance broadcast that has not reached its agent. TLBI: the form (0 address, 1 ASID, 2 all) and its
operand. IFENCE: the physical byte ranges (first, end) that the pages of the range map to. -/
inductive BcastKind where
  | tlbi (form : Nat) (arg : Nat)
  | ifence (ranges : List (Nat × Nat))
  deriving DecidableEq, Repr

structure Bcast where
  src : Nat
  dst : Agent
  kind : BcastKind
  deriving DecidableEq, Repr

/-- A command running in a range maintenance set (R307, R308). -/
structure RangeCmd where
  grove : Nat
  /-- Grove slot index of the set. -/
  slot : Nat
  /-- True: the Grove cache engine (L3M). -/
  l3 : Bool
  /-- 1 clean, 2 invalidate, 3 clean and invalidate. -/
  op : Nat
  linear : Bool
  start : Nat
  lines : Nat
  /-- Owner of the slot at GO, when it has one (R309). -/
  owner : Option Nat
  tr : Bool
  ptbase : Word
  asid : Word
  done : Nat
  skipped : Nat
  deriving DecidableEq, Repr

/-- A leaf held in a translation buffer (R261): page base, page size as a power of two, the entry, the ASID tag. -/
structure TlbEntry where
  page : Nat
  size : Nat
  leaf : DWord
  /-- The level of the leaf, which fault sub-codes carry (R255). -/
  level : Nat
  asid : Nat
  deriving DecidableEq, Repr

structure Mem where
  /-- DRAM bytes that have been written since their key was chosen. -/
  dram : SMap Byte
  /-- Keys are numbered as they are chosen (R382): the last number given out, the key of every granule not listed, and the keys
  of 2 Mibyte granules. -/
  keys : Nat
  era : Nat
  epoch : SMap Nat
  /-- Bytes newer than DRAM, held dirty in some cache. -/
  dirty : SMap Byte
  /-- Bytes of the carved Clearings; an unlisted byte is zero (R306). -/
  clr : SMap Byte
  /-- Lines that carry poison (R589), strictly rising. -/
  poison : List Nat
  /-- Homes lost to isolation (R339): every DRAM line that the HOME_GROVES vector gives this Grove as home is poison, but for
  the lines of `healed`, written whole since. -/
  lost : List (BitVec 12 × Nat)
  healed : List Nat
  /-- Subchannels that are FAILED (R396). -/
  failed : List Nat
  l2 : List L2Line
  grove : List GTag
  gpend : List GPend
  dir : List DirEnt
  txns : List Txn
  waits : List Wait
  msgs : List Msg
  bcasts : List Bcast
  ranges : List RangeCmd
  /-- The slot that each engine served last (R307): of L2 engines by Stand, of Grove cache engines by 60 + Grove. -/
  engLast : SMap Nat
  marks : List FillMark
  /-- UTLBs of the memory units of each Grove's Understorey, by 4 × Grove + unit (R216, Table 8-1). -/
  utlb : SMap (List TlbEntry)
  /-- Translation caches of the DMA engines, by engine. -/
  dtc : SMap (List TlbEntry)
  deriving DecidableEq, Repr

def Mem.reset : Mem :=
  { dram := [], keys := 0, era := 0, epoch := [], dirty := [], clr := [], poison := [], lost := [], healed := [], failed := [], l2 := [], grove := [], gpend := [], dir := [],
    txns := [], waits := [], msgs := [], bcasts := [], ranges := [], engLast := [], marks := [], utlb := [], dtc := [] }

end Sys2Proof.Machine
end

