-- ==== Sys2Proof/Machine/State/Misc.lean ====
section
/-!
DEFINITION. State of the event log (R595, R596), of the shapers (R354), of the Understoreys (R213 to R222) and of the
compartments (Table 2-11).
-/
namespace Sys2Proof.Machine

/-- A record of the event log (Table 24-5). -/
structure EvRec where
  seq : Nat
  time : Nat
  cmp : Option Nat
  die : Nat
  cls : Nat
  code : Nat
  addr : Nat
  info : Nat
  suppressed : Nat
  deriving DecidableEq, Repr

/-- A key of R596: code, die, compartment, and the frame or resource kind; when its last record was written, and the
records withheld since. -/
structure EvKey where
  code : Nat
  die : Nat
  cmp : Option Nat
  aux : Nat
  last : Nat
  withheld : Nat
  deriving DecidableEq, Repr

structure EvLog where
  /-- Oldest first, at most 4,096. -/
  recs : List EvRec
  tail : Nat
  lost : Nat
  keys : List EvKey
  deriving DecidableEq, Repr

def EvLog.reset : EvLog := { recs := [], tail := 1, lost := 0, keys := [] }

/-- One bucket of a shaper (R354, R356): the contract's index in the committed set, the source item, read (false) or
write (true), the spread item (none: the main bucket), the tokens, in units of which a request takes 16·1000·55440, and when they were counted. A bucket that is not listed is
full. -/
structure Bucket where
  contract : Nat
  item : Nat
  write : Bool
  spread : Option Nat
  tokens : Nat
  at_ : Nat
  deriving DecidableEq, Repr

/-- A request offered to a shaper (R354). -/
structure HeldReq where
  srcKind : Nat
  item : Nat
  target : Nat
  tgtIndex : Nat
  write : Bool
  /-- The spread items it reaches (R356): subchannel c as c, Clearing slice i as 16 + i, home Grove g as 32 + g. -/
  items : List Nat
  /-- The line, or another number by which the source knows the request. -/
  line : Nat
  deriving DecidableEq, Repr

/-- An accepted request that has not completed: its class (0 H, 1 S, 2 B), compartment, acceptance and deadline. -/
structure InFlight where
  cls : Nat
  cmp : Nat
  req : HeldReq
  accepted : Nat
  /-- 0: none (class B). -/
  deadline : Nat
  deriving DecidableEq, Repr

/-- The state that the 256 cells of an Understorey keep between operations (Table 8-1): the 48-bit accumulators by cell, and the
1,024 half-words of each cell's memory by 1,024 × cell + index. -/
structure CellState where
  acc : SMap (BitVec 48)
  mem : SMap (BitVec 18)
  deriving DecidableEq, Repr

def CellState.zero : CellState := { acc := [], mem := [] }

/-- The Understorey of one Grove: whether the configuration that the live Chart gives the Grove is loaded, its 256 cells, and for each
context the slot last accepted, the package time of that acceptance (R213, R214) and how many operations it has accepted. -/
structure Ust where
  loaded : Bool
  cells : CellState
  lastSlot : SMap Nat
  lastTime : SMap Nat
  accepts : SMap Nat
  dropped : BitVec 20
  deriving DecidableEq, Repr

def Ust.reset : Ust :=
  { loaded := false, cells := CellState.zero, lastSlot := [], lastTime := [], accepts := [], dropped := 0 }

/-- A record of the Manifest (Table 20-5), with the 16-octet continuations that follow it as numbers. -/
structure MftRec where
  type : Nat
  agent : Nat
  offset : Nat
  chunk : Nat
  data : Nat
  cont : List Nat
  deriving DecidableEq, Repr

/-- The recording session of a compartment (R526): its number, its key, the record slots that wait to be written as
blocks (each 16 octets, as a number), the block number, the input agent's chunk (R516) and the acceptances on each
Understorey context in the session. In a replay: the ORDER records (earlier agent and chunk, later agent and chunk), the LINE
records not yet applied, and how the records end (0 with END, otherwise the kind of Table 20-7). -/
structure MftSess where
  session : Nat
  key : Nat
  slots : List Nat
  bseq : Nat
  inChunk : Nat
  inCount : Nat
  inLines : List Nat
  accepts : SMap Nat
  orders : List (Nat × Nat × Nat × Nat)
  lines : List MftRec
  ending : Nat
  deriving DecidableEq, Repr

def MftSess.none : MftSess :=
  { session := 0, key := 0, slots := [], bseq := 0, inChunk := 0, inCount := 0, inLines := [], accepts := [], orders := [], lines := [], ending := 0 }

/-- A core's current chunk (R512 to R514, R521): its number, the units retired in it, its state hash so far, the
lines the core has read and written in it (R338), and, in a replay, the records of this core that have not been applied. `ended`
holds the end records of earlier chunks whose last store has not been accepted yet (R513). -/
structure MftCore where
  chunk : Nat
  len : Nat
  crc : Nat
  reads : List Nat
  writes : List Nat
  replay : List MftRec
  ended : List MftRec
  deriving DecidableEq, Repr

def MftCore.start : MftCore := { chunk := 0, len := 0, crc := 0xFFFFFFFFFFFFFFFF, reads := [], writes := [], replay := [], ended := [] }

/-- The board configuration record of boot flash, as the Keeper has read it (Table 21-1, R375). -/
structure Board where
  /-- DRAM rate: 0 is 6,400, 1 is 5,600, 2 is 4,800 MT/s. -/
  rate : Nat
  /-- Device width: false x4, true x8. -/
  x8 : Bool
  /-- 0 is 8 Gb, 1 is 16 Gb, 2 is 32 Gb. -/
  density : Nat
  ranks2 : Bool
  mpsm : Bool
  /-- m of R375: the lines per subchannel are 2^m. -/
  log2Lines : Nat
  /-- Lanes of the PCI Express link fitted. -/
  pexLanes : Nat
  /-- Declared MAC rate of network port p in Mbit/s, 0 for OFF; 10,000 where not listed. -/
  netRate : SMap Nat
  /-- Ports with the WAKE flag. -/
  netWake : List Nat
  /-- Sleep-request and wake-indication GPIO of each port, where the record names them. -/
  phyGpio : SMap (Nat × Nat)
  /-- Subsystem Vendor ID and Subsystem ID. -/
  subsys : Nat
  /-- Bit n: Crossing port n is fitted. -/
  xng : Nat
  /-- Park wake inputs, and the level that wakes. -/
  wakeGpio : Nat
  wakePol : Nat
  deriving DecidableEq, Repr

/-- The largest fit: x8 16 Gb devices in two ranks, 64 Gword. -/
def Board.largest : Board :=
  { rate := 0, x8 := true, density := 1, ranks2 := true, mpsm := true, log2Lines := 28, pexLanes := 16, netRate := [], netWake := [], phyGpio := [], subsys := 0, xng := 3,
    wakeGpio := 0, wakePol := 0 }

end Sys2Proof.Machine
end

