-- ==== Sys2Proof/Machine/State/Core.lean ====
section
/-!
DEFINITION. The state of one core: architectural registers (Table 3-1), CS registers (Table 3-5), the pipeline's
writes in flight (R181, R183), the merging buffer (R292), the reservation (R153), the translation buffers (Table
10-9), the predictor (R190) and the bookkeeping of a repeat, a freeze and a hold.
-/
namespace Sys2Proof.Machine

/-- A segment register: the fields of Table 9-1. -/
structure SegDesc where
  base : BitVec 48
  limit : Word
  /-- 0 linear, 1 modulo, 2 bit-reversed. -/
  mode : BitVec 2
  user : Bool
  w : Bool
  r : Bool
  v : Bool
  deriving DecidableEq, Repr

/-- The null descriptor: every field zero (R225). -/
def SegDesc.null : SegDesc := ⟨0, 0, 0, false, false, false, false⟩

/-- One write on its way to a register (R181). -/
inductive Land where
  | w (r : Nat) (v : Word)
  | ac (r : Nat) (v : Acc)
  | sg (r : Nat) (v : SegDesc)
  /-- One of Z, N, C, V (bits 0 to 3 of FL). -/
  | fl (i : Nat) (b : Bool)
  /-- Saturation: ORs 1 into FL.Q. -/
  | q
  /-- A write of FL.Q by WRFL. -/
  | qw (b : Bool)
  /-- Floating-point flags NV DZ OF UF NX, ORed into CS.FPCSR (R96). -/
  | fp (v : BitVec 5)
  | rc (v : Word)
  deriving DecidableEq, Repr

/-- A write that has issued and not landed: readable by what issues in pipeline cycle `due` or later. -/
structure Pending where
  land : Land
  due : Nat
  /-- Program order. -/
  seq : Nat
  deriving DecidableEq, Repr

/-- A recorded fault of a long operation (R277): its code (8, 9 or 11), its sub-code, its CS.EADDR. -/
structure LongFault where
  code : Nat
  sub : Nat
  addr : Nat
  seq : Nat
  deriving DecidableEq, Repr

/-- A divide-unit operation in flight: it lands in core cycle `due` (R183). -/
structure DivOp where
  lands : List Land
  fault : Option LongFault
  due : Nat
  seq : Nat
  deriving DecidableEq, Repr

/-- A store an Understorey operation holds until it lands (R218): physical address, size in bytes, value. -/
structure HeldStore where
  pa : Nat
  size : Nat
  val : Nat
  deriving DecidableEq, Repr

/-- What an accepted Understorey operation has come to: its loads are performed at acceptance (R218, log entry 12). -/
inductive XOutcome where
  /-- Every load has returned: the value for the destination, and the stores to make visible at the landing. -/
  | done (v : DWord) (stores : List HeldStore)
  /-- An access met a fault: the full UFLT sub-code (Table 8-4, R256) and the linear address. -/
  | fault (sub addr : Nat)
  /-- A load read poison (Table 24-3). -/
  | poison
  /-- A request of it was held, or never accepted, past its landing cycle (Table 14-4). -/
  | overrun
  deriving DecidableEq, Repr

/-- An Understorey operation in flight or parked (R213, R220). -/
structure XOp where
  /-- Linear address of the X word. -/
  addr : Nat
  word : Word
  ctx : Nat
  /-- The latency of R212, in core cycles. -/
  latency : Nat
  /-- REGIONS of the decode-table entry. -/
  regions : Nat
  mem : Bool
  dst : Nat
  /-- 0 none, 1 word, 2 pair. -/
  dstKind : Nat
  operands : List Nat
  /-- CS.STATUS.TR and MODE, CS.PTBASE and CS.ASID at issue (R216). -/
  tr : Bool
  user : Bool
  ptbase : Word
  asid : Word
  /-- The state of the context's cells at acceptance (R222), and how many operations the context had accepted then. -/
  cells : CellState
  order : Nat
  /-- Values the loads performed so far have returned, oldest first. -/
  loaded : List Nat
  outcome : XOutcome
  due : Nat
  seq : Nat
  /-- Parked: the full sub-code of the fault (Table 8-7). -/
  parked : Option Nat
  /-- A later write to the destination, or to the second word of its pair, has landed (R181). -/
  dropLo : Bool
  dropHi : Bool
  /-- Lines whose homes hold the writes of its stores (R334). -/
  lines : List Nat
  /-- The landing register it occupies, 0 to 3 (Table 8-1). -/
  reg : Nat
  deriving DecidableEq, Repr

/-- A merging-buffer entry (R292): bytes of one line that are valid. -/
structure MbEntry where
  line : Nat
  bytes : SMap Byte
  /-- Something asks for its drain (R293); it starts once no older entry of its line is left (R292). -/
  asked : Bool
  draining : Bool
  /-- Core cycle of the last merge (R293). -/
  last : Nat
  /-- The Manifest chunk in which its stores retired (R513); 0 when the core does not record. -/
  chunk : Nat
  deriving DecidableEq, Repr

/-- A branch target buffer entry (R190). -/
structure BtbEntry where
  pc : Nat
  target : Nat
  ctr : Nat
  deriving DecidableEq, Repr

/-- The repeat in progress (R164): the prefix, its word, its target, whether it is RPTU. -/
structure Rep where
  pc : Nat
  word : Word
  target : Word
  unint : Bool
  deriving DecidableEq, Repr

/-- The pair whose first slot has issued: its odd word, and when its second slot starts. -/
structure PairOpen where
  w2 : Word
  /-- Core cycle in which the pair issued. -/
  cyc : Nat
  /-- The second slot starts one cycle late (R186, R202). -/
  late : Bool
  deriving DecidableEq, Repr

/-- Why the pipeline is frozen (Table 7-4). -/
inductive FreezeKind where
  /-- A miss, of a data line: ends when LOAD_MISS_FILL serves it. -/
  | miss (line : Nat)
  /-- A load that partially overlaps the merging buffer: the entries of its line must drain first (R295). -/
  | overlap (line : Nat)
  /-- A store or CMO that finds the merging buffer full (R292). -/
  | mbFull
  /-- An L2 TLB miss of a data access or a CMO: the table reads of its walk, for this linear address, since this core cycle (R269). -/
  | walk (la since : Nat)
  deriving DecidableEq, Repr

/-- A load or store whose address has been formed and translated (R146): the base register's update, the data registers as read
in the issue cycle (R149), the offset, the linear and physical addresses, the physical address of the second half of a
double-word that spans two lines (R235), whether the memory is DEVICE, the lines served so far, and the core cycle in which it
issued. -/
structure MemAcc where
  newb : Option Nat
  data : DWord
  off : Nat
  la : Nat
  pa : Nat
  hi : Option Nat
  device : Bool
  got : List Nat
  since : Nat
  deriving DecidableEq, Repr

/-- The memory instruction for which the pipeline is frozen; it retires when the freeze ends. A CMO, and an instruction whose address
is not translated yet, have no access. -/
structure Frozen where
  kind : FreezeKind
  slot : Slot
  word : Word
  acc : Option MemAcc
  deriving DecidableEq, Repr

/-- What a core is doing. -/
inductive RunState where
  /-- Fused off (R18). -/
  | absent
  /-- Held in reset: unowned (R46), or under a core reset (R546). -/
  | inReset
  /-- Reset done, start withheld by HOLD (R545). -/
  | held
  | running
  /-- Stopped at a WAIT (R177). -/
  | waiting
  /-- Quiesced at an instruction boundary (Table 2-12). -/
  | stopped
  /-- Its compartment is HALTED or FENCED. -/
  | halted
  deriving DecidableEq, Repr

/-- A core's LR reservation (R153), with the core cycle until which competing requests are deferred (R157). -/
structure Reservation where
  line : Nat
  /-- The core cycle in which the 64-cycle deferral ends; 0 once it has ended. -/
  deferUntil : Nat
  deriving DecidableEq, Repr

/-- A line of the line buffer (R189, R201): its number by linear address, its number by physical address, and CS.STATUS.TR and MODE
with which its words were fetched (R204). -/
structure FetchLine where
  la : Nat
  line : Nat
  tr : Bool
  user : Bool
  deriving DecidableEq, Repr

/-- A PREF that has issued and has not been served (R152): its linear address, whether it asks for ownership, and CS.STATUS.TR and MODE,
CS.PTBASE and CS.ASID at issue. -/
structure Pref where
  la : Nat
  own : Bool
  tr : Bool
  user : Bool
  ptbase : Word
  asid : Word
  deriving DecidableEq, Repr

structure Core where
  run : RunState
  /-- W1 to W63 (W0 reads as zero). -/
  w : SMap Word
  /-- While a pair issues: W1 to W63 as both its slots read them, in the cycle the pair issues (R123). -/
  opW : Option (SMap Word)
  /-- The core cycle in which the group that issued last issued. -/
  opCyc : Nat
  ac : SMap Acc
  /-- The newest write of each accumulator in program order, for chaining (R135). -/
  acNew : SMap Acc
  sg : SMap SegDesc
  fl : BitVec 5
  rc : Word
  pc : Nat
  -- CS registers
  status : Word
  fpcsr : Word
  faultword : Word
  epc : Word
  estatus : Word
  ecause : Word
  eaddr : BitVec 48
  vbase : Word
  scratch : SMap Word
  segtab : Word
  ptbase : Word
  asid : Word
  imask : Word
  savedrc : Word
  -- pipeline
  pcyc : Nat
  ccyc : Nat
  /-- Package time at which core cycle 0 began (log entry 16). -/
  t0 : Nat
  seq : Nat
  pend : List Pending
  div : List DivOp
  /-- Core cycle in which the divide unit is free. -/
  divFree : Nat
  xops : List XOp
  /-- Last acceptance on each context by this core, core cycle (R213). -/
  xlast : SMap Nat
  faults : List LongFault
  /-- Asynchronous machine checks owed to the core, by sub-code (R591). -/
  mce : List Nat
  /-- A marked ERET has run: the prefix at PC takes RC as its count (R166). -/
  resume : Bool
  /-- Parked Understorey operations resume at the next issue (R220). -/
  unpark : Bool
  rep : Option Rep
  pair : Option PairOpen
  freeze : Option Frozen
  /-- The next group is held at issue for a word of its own: for the merging buffer, or for a context (Table 7-3). -/
  held : Bool
  /-- The context to which an X word of the held group presents (R213, R214). -/
  present : Option Nat
  /-- The context that accepts the X word of the next group when that issues (R214). -/
  grant : Option Nat
  /-- The linear address whose fetch waits for a table walk or a line (R189, R201), and the core cycle since which it waits. -/
  fwait : Option (Nat × Nat)
  /-- Outstanding PREF requests, oldest first. -/
  prefs : List Pref
  /-- The late second word of the pair that issued last, whose unit the next group may need (R186). -/
  lateUse : Option Word
  /-- A change of CS.STATUS.FT that waits for FT_MODE_CHANGE (R203). -/
  ftChange : Option Bool
  /-- Later instructions wait for the merging buffer to empty (R159, R293). -/
  holdMb : Bool
  reservation : Option Reservation
  mb : List MbEntry
  l1d : List Nat
  l1i : List Nat
  lbuf : List FetchLine
  itlb : List TlbEntry
  dtlb : List TlbEntry
  l2tlb : List TlbEntry
  btb : List BtbEntry
  ras : List Nat
  lim : SMap Byte
  ldm : SMap Byte
  /-- Halted by a debugger (R574), with the cause shown in CDBG. -/
  dbg : Bool
  /-- A single step is in progress: the core halts after one group (R574). -/
  dbgStep : Bool
  /-- CDBG.STATUS.REASON (Table 22-6). -/
  dbgReason : Nat
  /-- Issue is withheld by the Manifest writer (R524). -/
  mftFrozen : Bool
  deriving DecidableEq, Repr

/-- A core with every register at zero and nothing in flight. -/
def Core.zero : Core :=
  { run := .inReset, w := [], opW := none, opCyc := 0, ac := [], acNew := [], sg := [], fl := 0, rc := 0, pc := 0,
    status := 0, fpcsr := 0, faultword := 0, epc := 0, estatus := 0, ecause := 0, eaddr := 0,
    vbase := 0, scratch := [], segtab := 0, ptbase := 0, asid := 0, imask := 0xFFFFFFFF, savedrc := 0,
    pcyc := 0, ccyc := 0, t0 := 0, seq := 0, pend := [], div := [], divFree := 0, xops := [], xlast := [],
    faults := [], mce := [], resume := false, unpark := false, rep := none, pair := none, freeze := none, held := false, present := none,
    grant := none, fwait := none, prefs := [], lateUse := none,
    ftChange := none, holdMb := false, reservation := none, mb := [], l1d := [], l1i := [], lbuf := [],
    itlb := [], dtlb := [], l2tlb := [], btb := [], ras := [], lim := [], ldm := [],
    dbg := false, dbgStep := false, dbgReason := 0, mftFrozen := false }

/-- SG0 in the initial architectural state (Table 11-6). -/
def SegDesc.whole : SegDesc := ⟨0, 0xFFFFFFFFF, 0, false, true, true, true⟩

/-- The initial architectural state (Table 11-6): PC at ENTRY, FT from FT_START. -/
def Core.initial (entry : Nat) (ft : Bool) : Core :=
  { Core.zero with
    pc := entry
    sg := [(0, SegDesc.whole)]
    status := if ft then 8 else 0 }

end Sys2Proof.Machine
end

