-- ==== Sys2Proof/Machine/State/Dram.lean ====
section
/-!
DEFINITION. State of the DRAM controllers (R384 to R395) beyond their registers. A subchannel is numbered 2n + s; a rank
of it, 2 × subchannel + rank.
-/
namespace Sys2Proof.Machine

structure Dram where
  /-- Write queues (R384): lines accepted and not yet written to the array, with their rank, oldest first. -/
  wq : SMap (List (Nat × Rank))
  /-- Open rows, by 64 × subchannel + 32 × rank + 4 × bank group + bank (R365). -/
  rows : SMap Nat
  /-- Correction writes queued (R389). -/
  corr : SMap (List Nat)
  /-- Fresh granules (R392), as ranges: first and end. -/
  fresh : List (Nat × Nat)
  /-- The line the initialiser of each channel looks at next (R393). -/
  initAt : SMap Nat
  /-- The scrubber's next line, as its place in the subchannel, and the time of its last read (R391). -/
  scrubY : SMap Nat
  scrubAt : SMap Nat
  /-- Times of the uncorrectable reads of the last millisecond (R395). -/
  ue : SMap (List Nat)
  /-- Subchannels whose oscillator reading showed drift beyond periodic adjustment (R395). -/
  drift : List Nat
  /-- Successive failures of the retraining in progress (R396). -/
  fails : SMap Nat
  /-- Times of the last refresh, temperature reading, ZQ latch and oscillator reading of each rank (R385). -/
  refAt : SMap Nat
  mr4At : SMap Nat
  zqAt : SMap Nat
  oscAt : SMap Nat
  /-- Ranks with a device at or above 85 degrees (R385). -/
  hot : List Nat
  deriving DecidableEq, Repr

/-- At power-on every granule is fresh (R392). -/
def Dram.reset : Dram :=
  { wq := [], rows := [], corr := [], fresh := [(0, 131072)], initAt := [], scrubY := [], scrubAt := [], ue := [], drift := [], fails := [],
    refAt := [], mr4At := [], zqAt := [], oscAt := [], hot := [] }

end Sys2Proof.Machine
end

