-- ==== Sys2Proof/Machine/State/Links.lean ====
section
/-!
DEFINITION. State of the Ferry modules and the Crossing ports (R478 to R510), of power, boot and reset (R534 to R558), and of
the security block (R559 to R574).
-/
namespace Sys2Proof.Machine

/-! ## Links -/

/-- One direction of a Ferry module or a Crossing port: the lanes as its receiver has marked them (R487), the flits its
transmitter keeps until an ACK covers them (R481), and its place in the sequence. -/
structure LinkDir where
  /-- Failed physical data lanes, as bits; failed spare lanes, as bits. -/
  failed : Nat
  spfail : Nat
  /-- The logical lane that each spare in use carries. -/
  assign : SMap Nat
  /-- SEQ of the next new flit, and the flits not yet acknowledged, oldest first. -/
  next : Nat
  buf : List Nat
  /-- SEQ the receiver expects; it discards until the replay arrives. -/
  expect : Nat
  asked : Bool
  /-- The transmitter replays: the next flit is the one asked for. -/
  replaying : Bool
  /-- Replays of the flit asked for. -/
  replays : Nat
  /-- Credits outstanding. -/
  credits : Nat
  /-- Time of the last header flit sent. -/
  headerAt : Nat
  deriving DecidableEq, Repr

def LinkDir.reset : LinkDir :=
  { failed := 0, spfail := 0, assign := [], next := 0, buf := [], expect := 0, asked := false, replaying := false, replays := 0, credits := 0, headerAt := 0 }

/-- The training states (Table 19-3). -/
inductive FryState where
  | off | bist | map | deskew | version | full | half | remap | retrain | disabled
  deriving DecidableEq, Repr

/-- A Ferry module: spoke modules 0 to 23 (2g is Spoke A of Grove g, 2g + 1 Spoke B), ring link k as 24 + k. Direction 0 goes to
the Grove of a spoke, and from Grove k to Grove k + 1 of ring link k: its receiver is the compute side of R485. -/
structure FryModule where
  st : FryState
  /-- At half width, or to come up at it; the half in use: false lower, true upper. -/
  half : Bool
  upper : Bool
  attempts : Nat
  /-- Protocol in use: 0 none, 12 is 1.2, 20 is 2.0. -/
  version : Nat
  /-- A full retrain from BIST is under way (R490). -/
  fromBist : Bool
  /-- The quiet window runs lane BIST (R482). -/
  bistWindow : Bool
  d0 : LinkDir
  d1 : LinkDir
  /-- Times of the retry requests of the last 10 microseconds, and of the protocol errors of the last millisecond. -/
  retryAt : List Nat
  protAt : List Nat
  deriving DecidableEq, Repr

def FryModule.reset : FryModule :=
  { st := .off, half := false, upper := false, attempts := 0, version := 0, fromBist := false, bistWindow := false, d0 := LinkDir.reset,
    d1 := LinkDir.reset, retryAt := [], protAt := [] }

/-- A Crossing port: STATE of XNG.PORTSTAT (0 OFF, 1 TRAINING, 2 FULL, 3 HALF, 4 RETRAIN, 5 DOWN), the half in use, successive
failed trainings, when it tries again, the lanes failed in either direction; direction 0 is received here. -/
structure XngPort where
  st : Nat
  upper : Bool
  fails : Nat
  retryAfter : Nat
  failed : Nat
  d0 : LinkDir
  d1 : LinkDir
  retryAt : List Nat
  protAt : List Nat
  /-- Time of the last heartbeat sent. -/
  beatAt : Nat
  /-- The AES-256 key of each direction, empty between what destroys it and the next join; and the header and data flits accepted in each
  direction since the join, modulo 2^64 (R568, Table 22-3). -/
  key0 : List Nat
  key1 : List Nat
  flits0 : Nat
  flits1 : Nat
  deriving DecidableEq, Repr

def XngPort.reset : XngPort :=
  { st := 0, upper := false, fails := 0, retryAfter := 0, failed := 0, d0 := LinkDir.reset, d1 := LinkDir.reset, retryAt := [], protAt := [],
    beatAt := 0, key0 := [], key1 := [], flits0 := 0, flits1 := 0 }

/-- A split under arbitration or decided (R502 to R506): T0, the nonces of the queries sent and the time of the last, and the
pending takeover's time (R501). -/
structure Split where
  t0 : Nat
  nonces : List Nat
  /-- Time of the last query; 0 before the first. -/
  asked : Nat
  deriving DecidableEq, Repr

structure Links where
  modules : SMap FryModule
  /-- The route in force from die a to die b, by 16a + b, where it is not the first of Table 1-4 (R21, R23). -/
  routes : SMap (List Nat)
  /-- Groves isolated since the last boot (R24). -/
  isolated : List Nat
  ports : SMap XngPort
  /-- PAIR of XNG.STATUS (Table 19-9). -/
  pair : Nat
  /-- When a port was last up, and when the last heartbeat arrived. -/
  upAt : Nat
  heardAt : Nat
  split : Option Split
  /-- Standby compartments to be started, and when (Table 19-7). -/
  takeAt : Option Nat
  /-- This side is the active side of mirrored compartments (R498); none before the first join. -/
  active : Option Bool
  /-- The partner: its Device Serial Number, and DRAM ranges of spanned compartments: compartment, first byte, count. -/
  peer : Nat
  span : List (Nat × Nat × Nat)
  /-- Place in the copy of each mirrored compartment after a rejoin: lines done (R501). -/
  copied : SMap Nat
  /-- Spanned compartments whose halves have resumed span service since the last join (R508). -/
  spanOff : List Nat
  /-- Mirrored and spanned compartments that the boot left unraised until a join (R497). -/
  unraised : List Nat
  /-- Package time up to which the uncore counters that grow with time have been counted (R580). -/
  countedAt : Nat
  deriving DecidableEq, Repr

def Links.reset : Links :=
  { modules := [], routes := [], isolated := [], ports := [], pair := 0, upAt := 0, heardAt := 0, split := none, takeAt := none,
    active := none, peer := 0, span := [], copied := [], spanOff := [], unraised := [], countedAt := 0 }

/-! ## Power, boot and reset -/

/-- Where the package stands between power-on and Off. -/
inductive Phase where
  /-- PWROK is low (Off, R553). -/
  | off
  /-- Held in reset with RESET_N low (R535). -/
  | held
  /-- Held until every tamper sensor has been in range for 100 ms (R543). -/
  | tamper
  /-- The boot sequence runs; `step` is the step of Table 21-3 in progress. -/
  | boot
  /-- A stop of Table 21-4. -/
  | stopped
  | run
  /-- The grace period of a Park entry runs (Table 21-9, step 1). -/
  | parking
  | park
  /-- Park exit, before RAILOK and step 3 (R555). -/
  | waking
  deriving DecidableEq, Repr

structure Pwr where
  phase : Phase
  step : Nat
  /-- Boot under the warm column: DRAM resumes from self-refresh. -/
  warm : Bool
  /-- Boot after Park: R398 applies and retained ranges keep their IMAGE (R555). -/
  fromPark : Bool
  /-- When the boot sequence began. -/
  began : Nat
  /-- When the grace period ends. -/
  graceEnd : Nat
  /-- An exit event during Park entry: its WAKECAUSE (R558). -/
  exit : Option Nat
  /-- The Chart slot that step 6 has taken: 1 primary, 2 fallback, 3 the store; and its verified sections. -/
  src : Nat
  loaded : Option Chart
  /-- The tamper sensors that are out of range or whose 100 ms have not passed since this time. -/
  quietFrom : Nat
  /-- PARK_N is low. -/
  parkN : Bool
  /-- Level of RAILOK. -/
  railOk : Bool
  /-- A Park request waits (R554). -/
  parkReq : Bool
  /-- Rank sets that Park has put into MPSM (R397). -/
  mpsm : List Nat
  /-- A Grove reset whose training has not ended (R544). -/
  grove : Option Nat
  /-- Cores whose reset waits for their next boundary (R546). -/
  crst : List Nat
  /-- The tamper record that the next boot writes (Table 24-6). -/
  tamperLog : Bool
  /-- Step 3 after Park has been completed. -/
  fwOk : Bool
  deriving DecidableEq, Repr

def Pwr.reset : Pwr :=
  { phase := .off, step := 0, warm := false, fromPark := false, began := 0, graceEnd := 0, exit := none, src := 0, loaded := none,
    quietFrom := 0, parkN := false, railOk := false, parkReq := false, mpsm := [],
    grove := none, crst := [], tamperLog := false, fwOk := false }

/-! ## Security -/

/-- Fuses are written once (Table 22-2); the rest is the security block's (Table 22-3). -/
structure Sec where
  /-- Lifecycle FIELD. -/
  field : Bool
  /-- Programmed slots by number: the octets of a public key, or of the secret. -/
  slots : SMap (List Nat)
  /-- Slots whose integrity tag failed at the last boot (R561). -/
  badTags : List Nat
  revoked : List Nat
  svnFloor : Nat
  fwFloor : Nat
  /-- FW_SVN of the firmware that runs. -/
  fwSvn : Nat
  /-- CEK, WK and MTK are unwrapped (R563). -/
  keys : Bool
  /-- The package debug state (R571). -/
  dbgState : Bool
  /-- Wrapped session key of each compartment's current or last session, ten words; and the wrapped key staged for it. -/
  wraps : SMap (List Nat)
  staged : SMap (List Nat)
  /-- Time of the last reseed, times of the health-test failures of the last second (R565). -/
  seedAt : Nat
  failAt : List Nat
  /-- No SUBMIT is taken before this time (R570). -/
  holdOff : Nat
  deriving DecidableEq, Repr

/-- As shipped: lifecycle OPEN, nothing provisioned (R559). -/
def Sec.reset : Sec :=
  { field := false, slots := [], badTags := [], revoked := [], svnFloor := 0, fwFloor := 0, fwSvn := 0, keys := false, dbgState := false,
    wraps := [], staged := [], seedAt := 0, failAt := [], holdOff := 0 }

end Sys2Proof.Machine
end

