-- ==== Sys2Proof/Machine/State/Ports.lean ====
section
/-!
DEFINITION. State of the queue manager and the DMA engines (R402 to R427), of the host endpoint (R452 to R475) and of the
vehicle network switch (R429 to R447); and what has left the package through its interfaces.
-/
namespace Sys2Proof.Machine

/-! ## What leaves the package -/

/-- What the package has sent, by interface. Octets are numbers below 256. -/
inductive Sent where
  /-- A posted write to host memory (R467): function (0 PF1, v VF v), address, octets. -/
  | hostWrite (fn addr : Nat) (octs : List Nat)
  /-- A read request to host memory: function, tag, address, length. -/
  | hostRead (fn tag addr len : Nat)
  /-- A completion to the host: status (0 successful, 1 unsupported request, 2 retry, 4 completer abort), octets, EP. -/
  | completion (status : Nat) (octs : List Nat) (poisoned : Bool)
  /-- An interrupt message: function index (0 PF0, 1 + v function v), address, data (R469). -/
  | msi (fn addr data : Nat)
  /-- INTA of PF0 or PF1 asserted or deasserted. -/
  | intx (fn : Nat) (level : Bool)
  /-- A frame on an external port: the octets from the destination address to the last before the FCS. -/
  | frame (port : Nat) (octs : List Nat)
  /-- A query of the Keeper to the Ranger witness (R503). -/
  | witness (octs : List Nat)
  /-- A Crossing heartbeat on a port (R496). -/
  | heartbeat (port : Nat)
  /-- A control flit on a Ferry module (R479). -/
  | flit (module : Nat)
  /-- A supply target, in units of 0.1 mV, to the rail of Grove g (R602). -/
  | avs (grove target : Nat)
  /-- A sleep request to the PHY of a port (R448). -/
  | sleep (port : Nat)
  /-- ALERT_N (R606): driven low, or released. -/
  | alert (low : Bool)
  /-- An error message of a function to the host (R476): 0 correctable, 1 non-fatal, 2 fatal. -/
  | err (fn severity : Nat)
  /-- The partner side of a pair (R63, R497): a signal of the Keeper by its kind. -/
  | pair (kind value : Nat)
  /-- The Keeper's public value and its HMAC, sent to the partner's Keeper at a join (R568). -/
  | keyShare (value mac : List Nat)
  /-- A mirror write of a line on a Crossing port (R499), with its class. -/
  | mirror (port line cls : Nat)
  /-- A coherence request of this package to the partner's home (R315): 0 RdS, 1 RdX, 2 Upg, 3 RdCur, 4 WrInv, 5 WB, 6 WB with KEEP, 7 CMO;
  the requester's port, the line, and the bytes that go with it by their place in the line. -/
  | request (kind port line : Nat) (bytes : List (Nat × BitVec 9))
  deriving DecidableEq, Repr

/-! ## Queues and engines -/

/-- A queue: its context registers by offset in the QM frame (0x20 to 0x40), STATE (0 DISABLED, 1 RUNNING, 2 HALTED),
CAUSE, ARMED, the index that doorbells move and the index that the device moves. `fn` is the function of CAUSE BME or FLR. -/
structure Queue where
  regs : SMap (BitVec 32)
  st : Nat
  cause : Nat
  armed : Bool
  sw : Nat
  dev : Nat
  fn : Nat
  deriving DecidableEq, Repr

def Queue.reset : Queue := { regs := [], st := 0, cause := 0, armed := false, sw := 0, dev := 0, fn := 0 }

/-- A DMA engine: STATE (0 IDLE, 1 BUSY, 2 PARKED), the descriptor in progress with its queue and ring index, DONE, the
fault, the octets whose host reads have been issued, and the queue served last. -/
structure Engine where
  st : Nat
  queue : Nat
  index : Nat
  desc : List Nat
  done : Nat
  sub : Nat
  faddr : Nat
  issued : Nat
  last : Nat
  deriving DecidableEq, Repr

def Engine.reset : Engine :=
  { st := 0, queue := 0, index := 0, desc := [], done := 0, sub := 0, faddr := 0, issued := 0, last := 65535 }

/-- A record that waits for space in its COMPLETE queue (R418). -/
structure HeldRec where
  src : Nat
  cq : Nat
  /-- The engine that writes it; none for the queue manager. -/
  engine : Option Nat
  words : List Nat
  deriving DecidableEq, Repr

structure Qm where
  queues : SMap Queue
  engines : SMap Engine
  /-- QSEL of each writer: compartment n as n, PF0 as 32. -/
  qsel : SMap Nat
  recs : List HeldRec
  deriving DecidableEq, Repr

def Qm.reset : Qm := { queues := [], engines := [], qsel := [], recs := [] }

/-! ## The host endpoint -/

/-- A window entry (R459). -/
structure Win where
  cfg : BitVec 32
  tgt : Nat
  deriving DecidableEq, Repr

/-- A posted write in a function's holding buffer (R465): window (256: BAR0 of the function), octet offset in it, octets. -/
structure HostWrite where
  win : Nat
  off : Nat
  octs : List Nat
  deriving DecidableEq, Repr

/-- A read of host memory outstanding (R467): octet offset in the descriptor and octets still to come or to be written, and
those that have arrived and wait for earlier ones. -/
structure HostRead where
  fn : Nat
  tag : Nat
  engine : Nat
  off : Nat
  len : Nat
  got : List Nat
  /-- Its descriptor has ended: what arrives is discarded (R424). -/
  dead : Bool
  deriving DecidableEq, Repr

/-- Functions are numbered 0 PF0, 1 + v function v (R454). -/
structure Hep where
  /-- Configuration space: registers that do not hold their reset value, by function × 4096 + offset. -/
  cfg : SMap Nat
  wins : SMap Win
  wsel : SMap Nat
  wtgt : SMap Nat
  hold : SMap (List HostWrite)
  reads : List HostRead
  /-- Vectors pending, by function. -/
  pend : SMap (List Nat)
  /-- MSI-X table dwords, by function × 8192 + dword. -/
  msix : SMap Nat
  /-- Bits of HEP.F_INTPEND of PF1. -/
  fint : Nat
  /-- Counts of Table 18-8, by cause × 64 + FUNC. -/
  cnt : SMap Nat
  /-- Functions in function-level reset. -/
  flr : List Nat
  perst : Bool
  training : Bool
  ready : Bool
  /-- The link's rate code and width when the last admission was made (R374). -/
  admitted : Option (Nat × Nat)
  /-- Headers logged so far: the place of the next in the free values of the headers (log entry 21). -/
  hdr : Nat
  deriving DecidableEq, Repr

def Hep.reset : Hep :=
  { cfg := [], wins := [], wsel := [], wtgt := [], hold := [], reads := [], pend := [], msix := [], fint := 0, cnt := [], flr := [],
    perst := true, training := false, ready := false, admitted := none, hdr := 0 }

/-! ## The network switch -/

/-- A frame in an egress queue: the octets before any MACsec protection and the FCS. -/
structure NetFrame where
  octs : List Nat
  /-- Octets on the wire that have not been sent (of a pre-empted frame: the rest). -/
  left : Nat
  /-- The NETOUT queue it came from, its entry's address, its stream and its sequence number (R438). -/
  ent : Option (Nat × Nat × Nat × Nat)
  /-- The stream its drop counts for (R450). -/
  stream : Option Nat
  deriving DecidableEq, Repr

/-- A gate entry (Table 17-5). -/
structure Gate where
  gates : Nat
  op : Nat
  interval : Nat
  deriving DecidableEq, Repr

/-- An external port: egress queues by class, the frame on the wire with its class and end, the pre-empted frame, the gate
list's place (R444), the credits of the credit-based shaper in 10^-6 bit and when they were counted. -/
structure NetPort where
  queues : SMap (List NetFrame)
  cur : Option (Nat × NetFrame)
  curStart : Nat
  curEnd : Nat
  part : Option (Nat × NetFrame)
  /-- The gate list in force, its cycle's origin and length, the entry in force and its end in gPTP time. -/
  list : List Gate
  base : Nat
  cycle : Nat
  gate : Nat
  gateEnd : Int
  /-- The entry in force is the last of its cycle: a write of TOFFSET has moved the cycle's end to its own (R446). -/
  last : Bool
  /-- A list committed and not yet begun: origin, cycle, first cycle start, entries (R444). -/
  next : Option (Nat × Nat × Int × List Gate)
  /-- A Set-And-Hold-MAC entry holds preemptable transmission. -/
  hold : Bool
  credit : SMap Int
  creditAt : Nat
  deriving DecidableEq, Repr

def NetPort.reset : NetPort :=
  { queues := [], cur := none, curStart := 0, curEnd := 0, part := none, list := [], base := 0, cycle := 0, gate := 0, gateEnd := 0, last := false, next := none,
    hold := false, credit := [], creditAt := 0 }

/-- A MACsec security association (R447). -/
structure MacSa where
  port : Nat
  rx : Bool
  sc : Nat
  an : Nat
  xpn : Bool
  key : Nat
  salt : Nat
  /-- Transmit: the next packet number. Receive: the lowest acceptable one. -/
  pn : Nat
  active : Bool
  deriving DecidableEq, Repr

/-- Sequence recovery of a stream (802.1CB, vector algorithm). -/
structure Recovery where
  last : Nat
  hist : Nat
  deriving DecidableEq, Repr

structure Net where
  ports : SMap NetPort
  sas : List MacSa
  /-- Meter tokens, by port × 1024 + rule: millionths of a bit short of full, and when counted. -/
  meters : SMap (Nat × Nat)
  recovery : SMap Recovery
  /-- Next sequence number of each egress stream. -/
  seqs : SMap Nat
  /-- Drops, by port × 32 + cause. -/
  drops : SMap Nat
  /-- Frames delivered to the Keeper (R436). -/
  keeper : List (List Nat)
  deriving DecidableEq, Repr

def Net.reset : Net := { ports := [], sas := [], meters := [], recovery := [], seqs := [], drops := [], keeper := [] }

end Sys2Proof.Machine
end

