-- ==== Sys2Proof/Machine/Store.lean ====
section
/-!
DEFINITION. Sparse stores: reading a key, writing a key in the one canonical form (keys strictly rising, no entry
equal to the default), and the form itself.
-/
namespace Sys2Proof.Machine

/-- The value at a key; `d` where the key is not listed. -/
def smGet {α : Type} (d : α) : SMap α → Nat → α
  | [], _ => d
  | (k, v) :: r, n => if k = n then v else smGet d r n

/-- The value at a key, when it is listed. -/
def smFind? {α : Type} : SMap α → Nat → Option α
  | [], _ => none
  | (k, v) :: r, n => if k = n then some v else smFind? r n

/-- The store without a key. -/
def smErase {α : Type} : SMap α → Nat → SMap α
  | [], _ => []
  | (k, v) :: r, n => if k = n then smErase r n else (k, v) :: smErase r n

/-- The store with a key listed, whatever the value. -/
def smSet {α : Type} : SMap α → Nat → α → SMap α
  | [], n, x => [(n, x)]
  | (k, v) :: r, n, x =>
    if k = n then (n, x) :: r
    else if n < k then (n, x) :: (k, v) :: r
    else (k, v) :: smSet r n x

/-- The store after a write: the default value is not listed. -/
def smPut {α : Type} [DecidableEq α] (d : α) (m : SMap α) (n : Nat) (x : α) : SMap α :=
  if x = d then smErase m n else smSet m n x

/-- Keys strictly rising, every key above `lo`. -/
def smRising {α : Type} : Nat → SMap α → Bool
  | _, [] => true
  | lo, (k, _) :: r => decide (lo ≤ k) && smRising (k + 1) r

/-- The canonical form: keys strictly rising and no entry equal to the default. -/
def smWf {α : Type} [DecidableEq α] (d : α) (m : SMap α) : Bool :=
  smRising 0 m && m.all (fun e => decide (e.2 ≠ d))

/-- Insertion by a key, and sorting by it; entries of one key keep their order. -/
def insertBy {α : Type} (key : α → Nat) (x : α) : List α → List α
  | [] => [x]
  | y :: r => if key x ≤ key y then x :: y :: r else y :: insertBy key x r
def sortBy {α : Type} (key : α → Nat) (l : List α) : List α := l.foldr (insertBy key) []

end Sys2Proof.Machine
end

