-- ==== Sys2Proof/Machine/State.lean ====
section
/-!
DEFINITION. The state of the package, the reasons a step can stop, and the state right after a power-on reset.
-/
namespace Sys2Proof.Machine

/-- What fuses and the board fix (R11, R17, R32 to R35, Table 21-1). -/
structure Fuses where
  /-- GLB.IDENT.PART. -/
  part : Nat
  coresPerGrove : Nat
  /-- PRESENT of Grove g (R35). -/
  present : SMap (BitVec 20)
  deriving DecidableEq, Repr

structure State where
  /-- Commands that wait, first in, first out. -/
  pending : List Instr
  /-- The package time base in nanoseconds (R85). -/
  time : Nat
  /-- The model's own counter: draws of the random-number generator so far (R86, log entry 3). -/
  draws : Nat
  fuses : Fuses
  board : Board
  cores : SMap Core
  mem : Mem
  /-- Control registers that do not hold their reset value, by control-space offset. -/
  ctl : SMap Reg32
  /-- Latches of the uncore counters (R585): bits 31:0 as the last read of UCNTH copied them, by 8 × Grove + counter. -/
  ulatch : SMap Reg32
  /-- The assignments in force. -/
  live : Chart
  /-- The Landing's Chart store (R51). -/
  store : Option Chart
  cmps : SMap CmpState
  generation : SMap Nat
  cht : Option ChtOp
  evl : EvLog
  buckets : List Bucket
  held : List HeldReq
  flight : List InFlight
  usts : SMap Ust
  /-- Interrupt sources whose condition has changed and which CS.IPEND does not show changed yet (R283), by 2 × core, plus 1 for IPI: what
  it shows still, and until when. -/
  lags : SMap (Bool × Nat)
  /-- The model's own counter: such changes so far (log entry 105). -/
  lagCount : Nat
  /-- Cores whose halt by a debugger waits for their next boundary (R574). -/
  halts : List Nat
  /-- Recording sessions, by compartment; kept after their end for the session number. -/
  mft : SMap MftSess
  /-- Current chunks, by core. -/
  mftc : SMap MftCore
  /-- Cores on which a time-synchronisation event is pending (R445). -/
  nettime : List Nat
  dram : Dram
  qm : Qm
  hep : Hep
  net : Net
  links : Links
  pwr : Pwr
  sec : Sec
  /-- What the package has sent through its interfaces, the newest first. -/
  sent : List Sent
  /-- Landing domain 5 is off in Park: no record is written (R595). -/
  logOff : Bool
  deriving DecidableEq, Repr

/-- The reasons a step stops with a fault. No meaning of this model raises one: every event the spec calls a fault is
an exception, a result code or a record, and is taken as a next state. -/
inductive Fault where
  /-- Not raised. Safe: a fault that is not raised stops nothing. -/
  | none
  deriving DecidableEq, Repr

/-- The reasons a command has no meaning. -/
inductive Refusal where
  /-- Raised by the arm of a command that has not been given its meaning yet. Safe: nothing is claimed of it. -/
  | notModelled (mnemonic : String)
  deriving DecidableEq, Repr

/-- Every core slot of the SK240 is present (Table 1-2). -/
def Fuses.sk240 : Fuses :=
  { part := 0x240, coresPerGrove := 20,
    present := (List.range 12).map (fun g => (g, 0xFFFFF)) }

/-- Right after a power-on reset, before boot step 1: no Chart is committed, every core is in reset, no byte of memory
has been written, and no command waits. -/
def State.reset : State :=
  { pending := [], time := 0, draws := 0, fuses := Fuses.sk240,
    board := Board.largest, cores := [], mem := Mem.reset, ctl := [], ulatch := [],
    live := Chart.empty, store := none, cmps := [], generation := [], cht := none, evl := EvLog.reset,
    buckets := [], held := [], flight := [], usts := [], lags := [], lagCount := 0, halts := [], mft := [], mftc := [], nettime := [], dram := Dram.reset, qm := Qm.reset, hep := Hep.reset,
    net := Net.reset, links := Links.reset, pwr := Pwr.reset, sec := Sec.reset, sent := [], logOff := false }

end Sys2Proof.Machine
end

