-- ==== Sys2Proof/Machine/Space.lean ====
section
/-!
DEFINITION. The physical address space (R243): the regions, who owns what (R46), and the coherent value of memory,
byte by byte (R66, R87): dirty data a cache holds, otherwise DRAM, or the Clearing slice.
-/
namespace Sys2Proof.Machine

/-- The outcome of a command. -/
abbrev Out := Host.Outcome State Fault Refusal

/-! ## Accessors of the state -/

def State.core (s : State) (k : Nat) : Core := smGet Core.zero s.cores k
def State.setCore (s : State) (k : Nat) (c : Core) : State := { s with cores := smSet s.cores k c }
def State.modCore (s : State) (k : Nat) (f : Core → Core) : State := s.setCore k (f (s.core k))
/-- Every core slot changed by one function. -/
def State.modCores (s : State) (f : Nat → Core → Core) : State :=
  { s with cores := s.cores.map (fun e => (e.1, f e.1 e.2)) }
def State.setMem (s : State) (m : Mem) : State := { s with mem := m }
def State.ust (s : State) (g : Nat) : Ust := smGet Ust.reset s.usts g
def State.setUst (s : State) (g : Nat) (u : Ust) : State := { s with usts := smSet s.usts g u }
def State.cmpState (s : State) (n : Nat) : CmpState := smGet .absent s.cmps n
def State.setCmpState (s : State) (n : Nat) (c : CmpState) : State := { s with cmps := smPut .absent s.cmps n c }

/-! ## Numbering (R16) -/

/-- The Stand of a core, counted through the package: Grove × 5 + Stand. -/
def standOf (k : Nat) : Nat := k / 4
def groveOf (k : Nat) : Nat := k / 20
/-- The Grove slot index s × 4 + c. -/
def slotOf (k : Nat) : Nat := k % 20
def lineOf (pa : Nat) : Nat := pa / 64

/-- The core slot exists and is not fused off (R18, R35). -/
def State.present (s : State) (k : Nat) : Bool :=
  decide (k < 240) && (smGet 0 s.fuses.present (groveOf k)).getLsbD (slotOf k)

/-! ## Ownership (R44, R46) -/

def ResRec.holds (r : ResRec) (kind item : Nat) : Bool :=
  r.kind == kind && decide (r.first ≤ item) && decide (item < r.first + r.count)

def Chart.ownerOf (c : Chart) (kind item : Nat) : Option Nat := (c.res.find? (·.holds kind item)).map (·.owner)
def State.ownerOf (s : State) (kind item : Nat) : Option Nat := s.live.ownerOf kind item
/-- The compartment that owns a core slot. -/
def State.cmpOf (s : State) (k : Nat) : Option Nat := s.ownerOf 1 k
def Chart.cmpSec (c : Chart) (n : Nat) : Option CmpSec := c.cmps.find? (·.id == n)
/-- PAIRMODE as it acts: local unless PAIRED is set (R43). -/
def Chart.pairMode (c : Chart) (n : Nat) : Nat :=
  match c.pkg, c.cmpSec n with
  | some p, some m => if p.paired then m.pairMode else 0
  | _, _ => 0

def State.cmpSec (s : State) (n : Nat) : Option CmpSec := s.live.cmpSec n
/-- The core slots a compartment owns, in ascending index. -/
def Chart.coresOf (c : Chart) (n : Nat) : List Nat :=
  (List.range 240).filter (fun k => c.ownerOf 1 k == some n)
def State.coresOf (s : State) (n : Nat) : List Nat := s.live.coresOf n

/-! ## Regions (Table 10-1) -/

inductive Region where
  | dram
  /-- The partner window (R315). -/
  | window
  /-- Way w of Grove g. -/
  | clearing (g w : Nat)
  /-- The local-memory window. -/
  | local_
  /-- Offset in the control space. -/
  | control (off : Nat)
  /-- Not backed. -/
  | none
  deriving DecidableEq, Repr

/-- Bytes of DRAM installed (R375). -/
def State.dramBytes (s : State) : Nat := 2 ^ (s.board.log2Lines + 10)

def State.region (s : State) (pa : Nat) : Region :=
  if pa < s.dramBytes then .dram
  else if 0x20000000000 ≤ pa ∧ pa < 0x30000000000 then .window
  else if 0x3F000000000 ≤ pa ∧ pa < 0x3FC00000000 then
    let g := (pa - 0x3F000000000) / 0x100000000
    let o := (pa - 0x3F000000000) % 0x100000000
    if o < 0x1800000 then .clearing g (o / 0x200000 + 4) else .none
  else if 0x3FE00000000 ≤ pa ∧ pa < 0x3FF00000000 then .local_
  else if 0x3FF00000000 ≤ pa ∧ pa < 0x3FF01000000 then .control (pa - 0x3FF00000000)
  else .none

/-- The compartment to which the partner's committed Chart gives a byte of the partner window, while span service runs
(R315, R508). -/
def State.spanOwner (s : State) (pa : Nat) : Option Nat :=
  (s.links.span.find? (fun r => decide (0x20000000000 + r.2.1 ≤ pa) && decide (pa < 0x20000000000 + r.2.1 + r.2.2) &&
    !s.links.spanOff.contains r.1)).map (·.1)

/-- A compartment owns a byte of DRAM, of a Clearing or of the partner window (R46, R244, R315). -/
def State.owns (s : State) (n : Nat) (pa : Nat) : Bool :=
  match s.region pa with
  | .dram => s.ownerOf 2 pa == some n
  | .window => s.spanOwner pa == some n
  | .clearing g w => s.ownerOf 3 (g * 16 + w) == some n
  | _ => false

/-- The compartment that owns an address, when one does. -/
def State.ownerOfPa (s : State) (pa : Nat) : Option Nat :=
  match s.region pa with
  | .dram => s.ownerOf 2 pa
  | .window => s.spanOwner pa
  | .clearing g w => s.ownerOf 3 (g * 16 + w)
  | _ => Option.none

/-! ## Bytes -/

/-- The subchannel of a line of DRAM: the exclusive-OR of four fields of the line address (R383). -/
def subchannelOf (line : Nat) : Nat :=
  (line % 16) ^^^ (line / 256 % 16) ^^^ (line / 65536 % 16) ^^^ (line / 16777216 % 16)

/-- What a byte of DRAM holds. -/
def Mem.dramByte (m : Mem) (pa : Nat) : Byte :=
  smGet (Config.undefByte (smGet m.era m.epoch (pa / 0x200000)) pa) m.dram pa

/-- A Clearing address. -/
def isClearing (pa : Nat) : Bool := decide (0x3F000000000 ≤ pa) && decide (pa < 0x3FC00000000)

/-- The coherent value of a byte (R88). -/
def Mem.byte (m : Mem) (pa : Nat) : Byte :=
  if isClearing pa then smGet 0 m.clr pa
  else match smFind? m.dirty pa with
    | some b => b
    | Option.none => m.dramByte pa

/-- A byte made visible by a cache that owns its line; a Clearing byte reaches its slice (R294). -/
def Mem.setByte (m : Mem) (pa : Nat) (b : Byte) : Mem :=
  if isClearing pa then { m with clr := smPut 0 m.clr pa b } else { m with dirty := smSet m.dirty pa b }

/-- The line lies on a FAILED subchannel: no DRAM read of it returns data, no write of it is kept (R396). -/
def Mem.onFailed (m : Mem) (line : Nat) : Bool :=
  !m.failed.isEmpty && decide (line < 2 ^ 35) && m.failed.contains (subchannelOf line)

/-- A byte written to DRAM itself; no cache holds the line dirty. -/
def Mem.setDram (m : Mem) (pa : Nat) (b : Byte) : Mem :=
  if isClearing pa then { m with clr := smPut 0 m.clr pa b }
  else { m with dram := if m.onFailed (lineOf pa) then m.dram else smSet m.dram pa b, dirty := smErase m.dirty pa }

/-- n bytes from an address, as a number whose lowest byte stands at the lowest address (R66). -/
def bytesVal (f : Nat → Byte) (pa : Nat) : Nat → Nat
  | 0 => 0
  | n + 1 => (f pa).toNat + 512 * bytesVal f (pa + 1) n

/-- A number as n bytes from an address. -/
def valBytes (v : Nat) : Nat → List Byte
  | 0 => []
  | n + 1 => BitVec.ofNat 9 v :: valBytes (v / 512) n

def Mem.read (m : Mem) (pa n : Nat) : Nat := bytesVal m.byte pa n

def Mem.write (m : Mem) (pa : Nat) : List Byte → Mem
  | [] => m
  | b :: r => (m.setByte pa b).write (pa + 1) r

def Mem.writeDram (m : Mem) (pa : Nat) : List Byte → Mem
  | [] => m
  | b :: r => (m.setDram pa b).writeDram (pa + 1) r

def homeList (v : BitVec 12) : List Nat := (List.range 12).filter (fun g => v.getLsbD g)

/-- The home of a line (R313): x is the line address. -/
def homeOf (v : BitVec 12) (x : Nat) : Nat :=
  let h := (x % 4096) ^^^ (x / 4096 % 4096) ^^^ (x / 16777216 % 4096)
  let l := homeList v
  l.getD (h * l.length / 4096) 0

/-- The line lost its home and has not been written whole since. -/
def Mem.lostLine (m : Mem) (line : Nat) : Bool :=
  decide (line < 2 ^ 35) && m.lost.any (fun e => homeOf e.1 line == e.2) && !m.healed.contains line
/-- No cache holds the line. -/
def Mem.uncached (m : Mem) (line : Nat) : Bool := !(m.l2.any (·.line == line)) && !(m.grove.any (·.line == line))
/-- A read of the line gets poison. -/
def Mem.poisoned (m : Mem) (line : Nat) : Bool :=
  m.poison.contains line || m.lostLine line || (m.onFailed line && m.uncached line)
def Mem.setPoison (m : Mem) (line : Nat) (p : Bool) : Mem :=
  { m with
    healed := if !p && m.lostLine line then line :: m.healed else m.healed
    poison := if p then (if m.poison.contains line then m.poison
                               else (m.poison.filter (· < line)) ++ [line] ++ (m.poison.filter (line < ·)))
                     else m.poison.filter (· != line) }

/-- The bytes of a line that caches hold dirty reach DRAM (R297). -/
def Mem.flushLine (m : Mem) (line : Nat) : Mem :=
  let (mine, rest) := m.dirty.partition (fun e => e.1 / 64 == line)
  { m with dirty := rest, dram := if m.onFailed line then m.dram else mine.foldl (fun d e => smSet d e.1 e.2) m.dram }

/-- The dirty bytes of a line are lost (R310). -/
def Mem.dropDirty (m : Mem) (line : Nat) : Mem := { m with dirty := m.dirty.filter (fun e => e.1 / 64 != line) }

/-- Some byte of the line is newer than DRAM. -/
def Mem.isDirty (m : Mem) (line : Nat) : Bool := m.dirty.any (fun e => e.1 / 64 == line)

/-- The key of a 2 Mibyte granule is chosen anew: what the granule held is gone (R382); a poison pattern stays, for it
is not decrypted (R380). -/
def Mem.rekey (m : Mem) (granule : Nat) : Mem :=
  { m with
    dram := m.dram.filter (fun e => e.1 / 0x200000 != granule)
    dirty := m.dirty.filter (fun e => e.1 / 0x200000 != granule)
    keys := m.keys + 1
    epoch := smSet m.epoch granule (m.keys + 1) }

/-- Every key is chosen anew, but for the granules that are kept (R382, R398). -/
def Mem.rekeyAll (m : Mem) (kept : Nat → Bool) (granules : List Nat) : Mem :=
  { m with
    dram := m.dram.filter (fun e => kept (e.1 / 0x200000))
    dirty := []
    keys := m.keys + 1
    era := m.keys + 1
    epoch := (granules.filter kept).map (fun g => (g, smGet m.era m.epoch g)) }

end Sys2Proof.Machine
end

