-- ==== Sys2Proof/Machine/Ctl.lean ====
section
/-!
DEFINITION. Where a control-space offset lies (R285, Table 11-11): the block, the half and the register row; reading and
writing the stored value of a register; the fields of a value.
-/
namespace Sys2Proof.Machine

/-- Bits hi:lo of a register value. -/
def fget (v : Reg32) (hi lo : Nat) : Nat := v.toNat / 2 ^ lo % 2 ^ (hi + 1 - lo)
def fbit (v : Reg32) (i : Nat) : Bool := v.getLsbD i
/-- A value with bits hi:lo replaced. -/
def fset (v : Reg32) (hi lo x : Nat) : Reg32 :=
  let mask : Reg32 := BitVec.ofNat 32 ((2 ^ (hi + 1 - lo) - 1) * 2 ^ lo)
  (v &&& ~~~mask) ||| (BitVec.ofNat 32 (x % 2 ^ (hi + 1 - lo) * 2 ^ lo))
def fone (v : Reg32) (i : Nat) (b : Bool) : Reg32 := fset v i i b.toNat
def r32 (n : Nat) : Reg32 := BitVec.ofNat 32 n

/-- A place in the control space: block, offset within the half, unprivileged half, and the offset of the same register
in the privileged half. -/
structure CtlLoc where
  blk : Blk
  inner : Nat
  unpriv : Bool
  off : Nat
  deriving DecidableEq, Repr

/-- A frame with a privileged half and an unprivileged half at +0x8000. -/
def halfLoc (b : Blk) (off : Nat) : CtlLoc :=
  let o := off % 0x10000
  if o < 0x8000 then ⟨b, o, false, off⟩ else ⟨b, o - 0x8000, true, off - 0x8000⟩

/-- The block an offset falls in. -/
def ctlLoc (off : Nat) : Option CtlLoc :=
  let page := off / 0x10000
  if 0x200000 ≤ off ∧ off < 0xE00000 then
    match page % 16 with
    | 0 => some (halfLoc .grv off) | 1 => some (halfLoc .fry off) | 2 => some (halfLoc .l3 off)
    | 3 => some (halfLoc .dir off) | 4 => some (halfLoc .ust off) | 5 => some (halfLoc .pmu off)
    | 6 => some ⟨.cdbg, off % 0x10000, false, off⟩ | 7 => some ⟨.cdbg, off % 0x10000, false, off⟩
    | 8 => some ⟨.cdbg, off % 0x10000, false, off⟩ | 9 => some ⟨.cdbg, off % 0x10000, false, off⟩
    | 10 => some ⟨.cdbg, off % 0x10000, false, off⟩
    | _ => none
  else if 0x140000 ≤ off ∧ off < 0x180000 then
    let o := off % 0x1000
    some (if o < 0x800 then ⟨.eng, o, false, off⟩ else ⟨.eng, o - 0x800, true, off - 0x800⟩)
  else match page with
    | 0x00 => some (halfLoc .glb off) | 0x02 => some (halfLoc .cht off) | 0x03 => some (halfLoc .tt off)
    | 0x04 => some (halfLoc .mft off) | 0x05 => some (halfLoc .evl off) | 0x06 => some (halfLoc .sec off)
    | 0x07 => some (halfLoc .pwr off)
    | 0x08 => some (halfLoc .dmc off) | 0x09 => some (halfLoc .dmc off) | 0x0A => some (halfLoc .dmc off)
    | 0x0B => some (halfLoc .dmc off) | 0x0C => some (halfLoc .dmc off) | 0x0D => some (halfLoc .dmc off)
    | 0x0E => some (halfLoc .dmc off) | 0x0F => some (halfLoc .dmc off)
    | 0x10 => some (halfLoc .qm off) | 0x11 => some (halfLoc .qmn off) | 0x12 => some (halfLoc .qmd off)
    | 0x18 => some (halfLoc .nsw off) | 0x19 => some (halfLoc .nsws off) | 0x1A => some (halfLoc .msec off)
    | 0x1B => some (halfLoc .tev off) | 0x1C => some (halfLoc .hep off) | 0x1D => some (halfLoc .hepf off)
    | 0xE0 => some (halfLoc .xng off) | 0xF0 => some (halfLoc .dbg off)
    | _ => none

/-- An offset is one of an array's, with the indices. -/
def dimsAt : List (Nat × Nat) → Nat → Option (List Nat)
  | [], o => if o = 0 then some [] else none
  | (st, n) :: r, o =>
    let i := min (o / st) (n - 1)
    (dimsAt r (o - st * i)).map (i :: ·)

def RegRow.at (r : RegRow) (o : Nat) : Option (List Nat) :=
  if r.base ≤ o then dimsAt r.dims (o - r.base) else none

/-- The register row at an offset of a block, with its indices. -/
def findRow : List RegRow → Nat → Option (RegRow × List Nat)
  | [], _ => none
  | r :: rs, o => match r.at o with
    | some i => some (r, i)
    | none => findRow rs o

def rowAt (l : CtlLoc) : Option (RegRow × List Nat) := findRow (blkRows l.blk) l.inner

/-- The value a register has after reset. -/
def resetVal (off : Nat) : Reg32 :=
  match ctlLoc off with
  | some l => match rowAt l with
    | some (r, _) => r32 r.reset
    | none => 0
  | none => 0

/-- The stored value of a register. -/
def State.ctlGet (s : State) (off : Nat) : Reg32 :=
  match smFind? s.ctl off with
  | some v => v
  | none => resetVal off
def State.ctlSet (s : State) (off : Nat) (v : Reg32) : State := { s with ctl := smPut (resetVal off) s.ctl off v }
def State.ctlMod (s : State) (off : Nat) (f : Reg32 → Reg32) : State := s.ctlSet off (f (s.ctlGet off))
/-- A counter that saturates at 2^32 − 1. -/
def satInc (v : Reg32) : Reg32 := if v = 0xFFFFFFFF then v else v + 1
def State.ctlInc (s : State) (off : Nat) : State := s.ctlMod off satInc

/-- The die number of the Landing (R15). -/
def landing : Nat := 12

end Sys2Proof.Machine
end

