-- ==== Sys2Proof/Machine/Hep.lean ====
section
/-!
DEFINITION. The host endpoint's functions (R454 to R457): configuration space, and the interrupts a function signals (R469).
Offsets of the capabilities are those of Table 18-2; the places of the fields in each are those of the PCI Express Base
Specification that R452 names (log entry 21). Functions are numbered 0 PF0, 1 PF1, 1 + v VF v.
-/
namespace Sys2Proof.Machine

def State.modHep (s : State) (f : Hep → Hep) : State := { s with hep := f s.hep }
/-- What the package sends, newest first. -/
def State.emit (s : State) (x : Sent) : State := { s with sent := x :: s.sent }

/-! ## Configuration space -/

/-- The value a configuration register has after a reset of its function. -/
def State.cfgReset (s : State) (fn off : Nat) : Nat :=
  let pf := decide (fn ≤ 1)
  match off with
  | 0x00 => if fn ≤ 1 then ((if fn = 0 then 0x5000 else 0x6000) + s.fuses.part) * 2 ^ 16 + Config.vendorId.toNat else 0xFFFFFFFF
  | 0x04 => 0x00100000
  | 0x08 => (if fn = 0 then 0x088000 else 0x0B4000) * 2 ^ 8 + 0x22
  | 0x0C => if pf then 0x00800000 else 0
  | 0x10 => if fn = 0 then 0x4 else if fn = 1 then 0x4 else 0
  | 0x18 => if fn = 1 then 0xC else 0
  | 0x2C => s.board.subsys
  | 0x34 => if pf then 0x40 else 0x50
  | 0x3C => if pf then 0x100 else 0
  | 0x40 => if pf then 0x00035001 else 0
  | 0x44 => if pf then 0x8 else 0
  | 0x50 => 0x018A7005
  | 0x70 => 0x0002B010
  | 0x74 => 0x10008022
  | 0x78 => 0x00002810
  | 0x94 => 0x00010003 + (if fn = 1 then 0x00020000 else 0)
  | 0xB0 => 0x07FF0011
  | 0xB4 => if fn = 0 then 0x001E0000 else 0
  | 0xB8 => if fn = 0 then 0x001F0000 else 0x8000
  | 0x100 => (if pf then 0x148 else 0x158) * 2 ^ 20 + 0x20001
  | 0x10C => 0x00462030
  | 0x114 => 0x00002000
  | 0x118 => 0x000000A0
  | 0x148 => if pf then 0x15810003 else 0
  | 0x14C => if pf then (Config.serialWord 0).toNat else 0
  | 0x150 => if pf then (Config.serialWord 1).toNat else 0
  | 0x158 => (if fn = 0 then 0x160 else if fn = 1 then 0x260 else 0) * 2 ^ 20 + 0x1000E
  | 0x160 => if fn = 0 then 0x19010019 else 0
  | 0x190 => if fn = 0 then 0x1A010025 else 0
  | 0x1A0 => if fn = 0 then 0x1D010026 else 0
  | 0x1D0 => if fn = 0 then 0x22010027 else 0
  | 0x220 => if fn = 0 then 0x0001002A else 0
  | 0x260 => if fn = 1 then 0x00010010 else 0
  | 0x26C => if fn = 1 then 0x001F001F else 0
  | 0x274 => if fn = 1 then 0x00010001 else 0
  | 0x278 => if fn = 1 then (0x7000 + s.fuses.part) * 2 ^ 16 else 0
  | 0x280 => if fn = 1 then 1 else 0
  | 0x284 => if fn = 1 then 0x4 else 0
  | 0x28C => if fn = 1 then 0xC else 0
  | _ => 0

/-- The bits of a configuration register that a write sets, and those that a write of 1 clears. -/
def cfgMask (fn off : Nat) : Nat × Nat :=
  let pf := decide (fn ≤ 1)
  match off with
  | 0x04 => (if pf then 0x0546 else 0x0004, 0xF9000000)
  | 0x0C => (0xFF, 0)
  | 0x10 => (if fn = 0 then 0xFF000000 else if fn = 1 then 0xFFFF0000 else 0, 0)
  | 0x14 => (if pf then 0xFFFFFFFF else 0, 0)
  | 0x18 => (0, 0)
  | 0x1C => (if fn = 1 then 0xFFFFFFF0 else 0, 0)
  | 0x3C => (if pf then 0xFF else 0, 0)
  | 0x44 => (if pf then 0x3 else 0, 0)
  | 0x50 => (0x00710000, 0)
  | 0x54 => (0xFFFFFFFC, 0)
  | 0x58 => (0xFFFFFFFF, 0)
  | 0x5C => (0xFFFF, 0)
  | 0x60 => (0xFFFFFFFF, 0)
  | 0x78 => (0x79FF, 0x000F0000)
  | 0x80 => (if fn = 0 then 0x0FC8 else 0, 0)
  | 0x98 => (if fn = 1 then 0x100F else 0x000F, 0)
  | 0xA0 => (if fn = 0 then 0xF else 0, 0)
  | 0xB0 => (0xC0000000, 0)
  | 0x104 => (0, 0x01FFF030)
  | 0x108 => (0x01FFF030, 0)
  | 0x10C => (0x01FFF030, 0)
  | 0x110 => (0, 0x0000F1C1)
  | 0x114 => (0x0000F1C1, 0)
  | 0x118 => (0x00000140, 0)
  | 0x268 => (if fn = 1 then 0x19 else 0, 0)
  | 0x270 => (if fn = 1 then 0xFFFF else 0, 0)
  | 0x280 => (if fn = 1 then 0xFFFFFFFF else 0, 0)
  | 0x284 => (if fn = 1 then 0xFFFF0000 else 0, 0)
  | 0x288 => (if fn = 1 then 0xFFFFFFFF else 0, 0)
  | 0x290 => (if fn = 1 then 0xFFFFFFF0 else 0, 0)
  | _ => (0, 0)

def cfgKey (fn off : Nat) : Nat := fn * 4096 + off
/-- The stored value of a configuration register. -/
def State.cfg (s : State) (fn off : Nat) : Nat := match smFind? s.hep.cfg (cfgKey fn off) with
  | some v => v
  | none => s.cfgReset fn off
def State.setCfg (s : State) (fn off v : Nat) : State := s.modHep (fun h => { h with cfg := smSet h.cfg (cfgKey fn off) v })
def bitOf (v i : Nat) : Bool := v / 2 ^ i % 2 == 1
def State.cfgBit (s : State) (fn off i : Nat) : Bool := bitOf (s.cfg fn off) i

/-- Every configuration register of a function at its reset value. -/
def Hep.clearCfg (h : Hep) (fn : Nat) : Hep := { h with cfg := h.cfg.filter (fun e => e.1 / 4096 != fn) }

/-- The function is in D3hot; VFs have no power management capability. -/
def State.d3 (s : State) (fn : Nat) : Bool := decide (fn ≤ 1) && s.cfg fn 0x44 % 4 == 3
/-- VF Enable, and NumVFs (R473). -/
def State.vfOn (s : State) (fn : Nat) : Bool := s.cfgBit 1 0x268 0 && decide (fn ≤ 1 + s.cfg 1 0x270)
/-- Bus Master Enable as it acts: in D3hot it is taken as 0 (R475). -/
def State.bme (s : State) (fn : Nat) : Bool := s.cfgBit fn 0x04 2 && !s.d3 fn && (decide (fn ≤ 1) || s.vfOn fn)
/-- Memory Space Enable; a VF's is in the SR-IOV capability. -/
def State.mse (s : State) (fn : Nat) : Bool :=
  if fn ≤ 1 then s.cfgBit fn 0x04 1 && !s.d3 fn else s.cfgBit 1 0x268 3 && s.vfOn fn
def State.inFlr (s : State) (fn : Nat) : Bool := s.hep.flr.contains fn

/-! ## Interrupts to the host (R469) -/

/-- 0 INTx or none, 1 MSI, 2 MSI-X. -/
def State.intMode (s : State) (fn : Nat) : Nat :=
  if s.cfgBit fn 0xB0 31 then 2 else if s.cfgBit fn 0x50 16 then 1 else 0

/-- A dword of a function's MSI-X table; after reset every vector is masked. -/
def State.msixDw (s : State) (fn i : Nat) : Nat := smGet (if i % 4 = 3 then 1 else 0) s.hep.msix (fn * 8192 + i)

/-- The interrupt message of a pending vector, when its function may send it. -/
def State.msgOf (s : State) (fn vec : Nat) : Option Sent :=
  if !s.bme fn then none
  else match s.intMode fn with
    | 2 =>
      if s.cfgBit fn 0xB0 30 || bitOf (s.msixDw fn (4 * vec + 3)) 0 then none
      else some (.msi fn (s.msixDw fn (4 * vec) + 2 ^ 32 * s.msixDw fn (4 * vec + 1)) (s.msixDw fn (4 * vec + 2)))
    | 1 =>
      let n := 2 ^ (s.cfg fn 0x50 / 2 ^ 20 % 8)
      let v := vec % n
      if bitOf (s.cfg fn 0x60) v then none
      else some (.msi fn (s.cfg fn 0x54 + 2 ^ 32 * s.cfg fn 0x58) (s.cfg fn 0x5C / n * n + v))
    | _ => none

/-- The pending vectors that can be sent are sent. -/
def State.sendInts (s : State) (fn : Nat) : State :=
  (smGet [] s.hep.pend fn).foldl (fun s v => match s.msgOf fn v with
    | some m => (s.emit m).modHep (fun h => { h with pend := smPut [] h.pend fn ((smGet [] h.pend fn).filter (· != v)) })
    | none => s) s

/-- INTA of PF0 or PF1: a bit pending and Interrupt Disable 0, in INTx mode. -/
def State.inta (s : State) (fn : Nat) : Bool :=
  s.intMode fn == 0 && !s.cfgBit fn 0x04 10 &&
    (if fn = 0 then s.ctlGet o_hepP0Intpend != 0 else fn == 1 && s.hep.fint != 0)

/-- INTA follows a change of what it depends on. -/
def State.intaSync (s before : State) : State :=
  [0, 1].foldl (fun s fn => if s.inta fn = before.inta fn then s else s.emit (.intx fn (s.inta fn))) s

/-- A vector of a function is requested. -/
def State.irq (s : State) (fn vec : Nat) : State :=
  if fn ≤ 1 ∧ s.intMode fn = 0 then
    let t := if fn = 0 then s.ctlMod o_hepP0Intpend (fun v => fone v vec true)
      else s.modHep (fun h => { h with fint := if bitOf h.fint (vec % 32) then h.fint else h.fint + 2 ^ (vec % 32) })
    t.intaSync s
  else
    (s.modHep (fun h =>
      let l := smGet [] h.pend fn
      { h with pend := smSet h.pend fn (if l.contains vec then l else l ++ [vec]) })).sendInts fn

end Sys2Proof.Machine
end

