-- ==== Sys2Proof/Machine/Log.lean ====
section
/-!
DEFINITION. The event log (R595 to R598): its records, the notices of compartments, the counts of the host endpoint.
-/
namespace Sys2Proof.Machine

/-! ## The event log -/

/-- Classes whose records can be withheld (R596). -/
def keyedClass (cls : Nat) : Bool := cls ≤ 3 || cls == 7 || cls == 8

/-- The notice a compartment gets of an event attributed to it (Table 24-8). -/
def State.notice (s : State) (cmp : Option Nat) (cls code : Nat) : State :=
  match cmp with
  | none => s
  | some n =>
    let s := if 1 ≤ cls ∧ cls ≤ 3 then s.ctlInc (o_evlCnote n) else s
    s.ctlSet (o_evlClast n) (r32 (cls * 2 ^ 15 + code))

/-- A record enters the ring; the oldest of a full ring is replaced, and counted as lost when not acknowledged (R595). -/
def EvLog.add (l : EvLog) (ack : Nat) (r : EvRec) : EvLog :=
  let recs := l.recs ++ [{ r with seq := l.tail }]
  match recs with
  | o :: rest =>
    if 4096 < recs.length then
      { l with recs := rest, tail := l.tail + 1,
               lost := if ack < o.seq then min (l.lost + 1) (2 ^ 32 - 1) else l.lost }
    else { l with recs := recs, tail := l.tail + 1 }
  | [] => l

/-- An event is recorded (R595, R596). `aux` is the frame of a view error or the resource kind of a late delivery.
While the Landing's domain 5 is off in Park nothing is written. -/
def State.recordOne (s : State) (cls code die : Nat) (cmp : Option Nat) (addr info aux : Nat) : State :=
  let s := s.notice cmp cls code
  if s.logOff then s else
  let isKey (k : EvKey) : Bool := k.code == code && k.die == die && k.cmp == cmp && k.aux == aux
  let rec0 : EvRec := { seq := 0, time := s.time, cmp := cmp, die := die, cls := cls, code := code, addr := addr,
                        info := info, suppressed := 0 }
  let ack := (s.ctlGet o_evlAck).toNat
  if !keyedClass cls then { s with evl := s.evl.add ack rec0 }
  else match s.evl.keys.find? isKey with
    | none =>
      let l := s.evl.add ack rec0
      { s with evl := { l with keys := l.keys ++ [⟨code, die, cmp, aux, s.time, 0⟩] } }
    | some k =>
      if s.time < k.last + 1000000 then
        { s with evl := { s.evl with keys := s.evl.keys.map (fun j => if isKey j then { j with withheld := j.withheld + 1 } else j) } }
      else
        let l := s.evl.add ack { rec0 with suppressed := min k.withheld 0xFFFF }
        { s with evl := { l with keys := l.keys.map (fun j => if isKey j then { j with last := s.time, withheld := 0 } else j) } }

/-- The same; a record that replaces one not acknowledged is followed by LOG_LOST (Table 24-6, log entry 87). -/
def State.record (s : State) (cls code die : Nat) (cmp : Option Nat) (addr info aux : Nat) : State :=
  let t := s.recordOne cls code die cmp addr info aux
  if t.evl.lost = s.evl.lost then t else t.recordOne 8 0x090 landing none 0 t.evl.lost 0

/-- Records wait for the host (R598). -/
def State.logWaits (s : State) : Bool := decide ((s.ctlGet o_evlAck).toNat + 1 < s.evl.tail)

/-- An event is recorded; PF0's vector 1 becomes pending when records begin to wait (Table 18-4). -/
def State.event (s : State) (cls code die : Nat) (cmp : Option Nat) (addr info aux : Nat) : State :=
  let t := s.record cls code die cmp addr info aux
  if t.logWaits && !s.logWaits then t.irq 0 1 else t

/-- A count of Table 18-8: FUNC 0 PF0, 1 + v function v. PF0's vector 2 becomes pending; a protocol error is recorded. -/
def State.hepCount (s : State) (cause fn : Nat) : State :=
  let k := cause * 64 + fn
  let s := s.modHep (fun h => { h with cnt := smSet h.cnt k (min (smGet 0 h.cnt k + 1) (2 ^ 32 - 1)) })
  let s := s.irq 0 2
  if cause < 3 then s else s.event 7 0x072 landing (if fn = 0 then none else s.ownerOf 6 (fn - 1)) 0 k 0

end Sys2Proof.Machine
end

