-- ==== Sys2Proof/Machine/Count.lean ====
section
/-!
DEFINITION. The performance counters (R578 to R582) and the pending interrupt sources (R281, Table 11-7).
-/
namespace Sys2Proof.Machine

/-- A register's value; `d` is its value after reset. -/
def State.ctlD (s : State) (off : Nat) (d : Reg32) : Reg32 := (smFind? s.ctl off).getD d

/-! ## Recording sessions -/

/-- MFT.CSTATE.MODE. -/
def State.mftMode (s : State) (n : Nat) : Nat := fget (s.ctlD (o_mftCstate n) 0) 31 29
/-- The compartment is recording. -/
def State.recording (s : State) (n : Nat) : Bool := s.mftMode n == 2

/-- The compartment runs, and not from the records of a replay (R464, R530): its host functions, queues and streams serve. -/
def State.serving (s : State) (n : Nat) : Bool := s.cmpState n == .running && s.mftMode n != 3

/-- The address lies in the Manifest buffer of a compartment in session (R525). -/
def State.inMftBuf (s : State) (n pa : Nat) : Bool :=
  s.recording n && (match s.cmpSec n with
    | some c => decide (c.mftBase ≤ pa) && decide (pa < c.mftBase + c.mftLen)
    | none => false)

/-! ## Core counters -/

def cselOff (k j : Nat) : Nat :=
  if j = 0 then o_pmuCsel0 (groveOf k) (slotOf k) else if j = 1 then o_pmuCsel1 (groveOf k) (slotOf k)
  else o_pmuCsel (groveOf k) (slotOf k) (j - 2)
def cselReset (j : Nat) : Reg32 := if j = 0 then 0x0F else if j = 1 then 0x0E else 0

/-- A 48-bit counter held as its low register and bits 31:16 of its high register (Table 23-2). -/
def State.cnt48 (s : State) (lo hi : Nat) : Nat := (s.ctlD lo 0).toNat + 2 ^ 32 * fget (s.ctlD hi 0) 31 16
def State.setCnt48 (s : State) (lo hi v : Nat) : State := (s.ctlSet lo (r32 v)).ctlSet hi (r32 (v / 2 ^ 32 * 2 ^ 16))

/-- A counter takes n more; a wrap sets its overflow bit (R582). -/
def State.bump48 (s : State) (lo hi ovf j n : Nat) : State :=
  let v := s.cnt48 lo hi + n
  let s := s.setCnt48 lo hi (v % 2 ^ 48)
  if 2 ^ 48 ≤ v then s.ctlMod ovf (fun o => fone o j true) else s

/-- n occurrences of an event of a core (R578). A core that runs no instructions counts nothing. -/
def State.count (s : State) (k ev n : Nat) : State :=
  match smFind? s.ctl (o_pmuCctl (groveOf k) (slotOf k)) with
  | none => s
  | some en =>
    let c := smGet Core.zero s.cores k
    if (c.run == .running || c.run == .waiting) && !c.dbg then
      (List.range 8).foldl (fun s j =>
        let sel := s.ctlD (cselOff k j) (cselReset j)
        if fbit en j && fget sel 7 0 == ev && fbit sel (if c.status.getLsbD 0 then 30 else 31) then
          s.bump48 (o_pmuCcntl (groveOf k) (slotOf k) j) (o_pmuCcnth (groveOf k) (slotOf k) j)
            (o_pmuCovf (groveOf k) (slotOf k)) j n
        else s) s
    else s

/-- n core cycles of one slot category (Table 23-5): both slots of each. -/
def State.cycles (s : State) (k cat n : Nat) : State :=
  if n = 0 then s else (s.count k 0x0F n).count k cat (2 * n)

/-! ## Uncore counters (R580, R581) -/

/-- n occurrences of an event at a Grove, with the compartment and class (0 H, 1 S, 2 B) it is attributed to. -/
def State.ucount (s : State) (g ev unit n : Nat) (cmp cls : Option Nat) : State :=
  match smFind? s.ctl (o_pmuUctl g) with
  | none => s
  | some en =>
    (List.range 8).foldl (fun s j =>
      let sel := s.ctlD (o_pmuUsel g j) 0x03800000
      let clsOk : Bool := match cls with
        | some c => fbit sel (23 + c)
        | none => fget sel 25 23 == 7
      let cmpOk : Bool := !fbit sel 31 || cmp == some (fget sel 30 26)
      let unitOk : Bool := !(0x10 ≤ ev && ev ≤ 0x13) || fget sel 19 16 == unit
      if fbit en j && fget sel 7 0 == ev && clsOk && cmpOk && unitOk then
        s.bump48 (o_pmuUcntl g j) (o_pmuUcnth g j) (o_pmuUovf g) j n
      else s) s

/-! ## Interrupt sources (Table 11-7) -/

/-- RANK of a core (Table 3-8). -/
def State.rank (s : State) (k : Nat) : Nat :=
  match s.cmpOf k with
  | some n => ((List.range k).filter (fun j => s.cmpOf j == some n)).length
  | none => 0

/-- A slot's compare value (Table 11-9). -/
def State.compare (s : State) (k : Nat) : Nat :=
  (s.ctlD (o_grvTcmpl (groveOf k) (slotOf k)) 0xFFFFFFFF).toNat + 2 ^ 32 * (s.ctlD (o_grvTcmph (groveOf k) (slotOf k)) 0xFFFFFFFF).toNat

/-- GRV.IPI_i.PEND. -/
def State.ipiPend (s : State) (k : Nat) : Bool := fbit (s.ctlD (o_grvIpi (groveOf k) (slotOf k)) 0) 0

/-- A source as CS.IPEND shows it: a change is shown within a bound (R283). -/
def State.lagged (s : State) (key : Nat) (now : Bool) : Bool :=
  match smFind? s.lags key with
  | some (old, t) => if s.time < t then old else now
  | none => now

/-- TIMER: CS.TIME has reached the compare value, and up to 10 ns have passed. -/
def State.srcTimer (s : State) (k : Nat) : Bool :=
  s.lagged (2 * k) (decide (s.compare k ≤ s.time % 2 ^ 64) && decide (s.compare k + Config.timerLag k (s.compare k) % 11 ≤ s.time % 2 ^ 64))

/-- IPI: PEND, up to 100 ns after it has changed. -/
def State.srcIpi (s : State) (k : Nat) : Bool := s.lagged (2 * k + 1) (s.ipiPend k)

/-- A source was shown as `old` before its condition changed, and is until `bound` nanoseconds later at the most. -/
def State.lag (s : State) (key bound : Nat) (old : Bool) : State :=
  { s with lags := smSet s.lags key (old, s.time + Config.irqLag s.lagCount % (bound + 1)), lagCount := s.lagCount + 1 }

/-- The interrupt registers of a slot have been written; `was` is the state before. -/
def State.slotWritten (s was : State) (k : Nat) : State :=
  let s := if s.ipiPend k = was.ipiPend k then s else s.lag (2 * k + 1) 100 (was.srcIpi k)
  if s.compare k = was.compare k then s else s.lag (2 * k) 10 (was.srcTimer k)
def State.srcPmu (s : State) (k : Nat) : Bool :=
  fget (s.ctlD (o_pmuCovf (groveOf k) (slotOf k)) 0) 7 0 &&& fget (s.ctlD (o_pmuCctl (groveOf k) (slotOf k)) 0) 15 8 != 0
def State.srcCerr (s : State) (k : Nat) : Bool :=
  match s.cmpOf k with
  | some n => s.ctlD (o_evlCnote n) 0 != 0
  | none => false
def State.srcKeeper (s : State) (k : Nat) : Bool :=
  match s.cmpOf k with
  | some n =>
    let v := s.ctlD (o_chtKnote n) 0
    fbit v 31 || fbit v 30 || (fbit v 29 && s.rank k == 0)
  | none => false
/-- A function whose HOST source is enabled towards the core, for which `p` holds. -/
def State.hostWants (s : State) (k : Nat) (p : Nat → Bool) : Bool :=
  (List.range 32).any (fun f =>
    match smFind? s.ctl (o_hepHdbctl f) with
    | some c => fbit c 31 && fget c 7 0 == k && p f
    | none => false)

/-- The doorbells of the host to a core as HOST shows them (R471). They cease at once. -/
def State.srcBell (s : State) (k : Nat) : Bool :=
  let now := s.hostWants k (fun f => s.ctlD (o_hepHdb f) 0 != 0)
  now && s.lagged (1000 + k) now

def State.srcHost (s : State) (k : Nat) : Bool := s.srcBell k || s.hostWants k (fun f => fbit (s.ctlD (o_hepFnstate f) 0) 26)

/-- CS.IPEND of a core. -/
def State.ipend (s : State) (k : Nat) : Word :=
  BitVec.ofNat 36 ((s.srcTimer k).toNat + 2 * (s.srcIpi k).toNat + 4 * (s.srcPmu k).toNat + 8 * (s.srcCerr k).toNat +
    16 * (s.srcKeeper k).toNat + 32 * (s.srcHost k).toNat + 64 * (s.nettime.contains k).toNat +
    256 * fget (s.ctlD (o_qmNpend k) 0) 23 0)

/-- The sources pending and unmasked. -/
def State.pendingSources (s : State) (k : Nat) : Word := s.ipend k &&& ~~~(smGet Core.zero s.cores k).imask &&& 0xFFFFFFFF

/-- The lowest-numbered source. -/
def lowestBit (w : Word) : Option Nat := (List.range 32).find? (fun i => w.getLsbD i)

end Sys2Proof.Machine
end

