-- ==== Sys2Proof/Machine/Coh.lean ====
section
/-!
DEFINITION. Coherence (R313 to R337): homes, the copies of Stands and Groves, the directory's rows (Tables 13-5 and
13-7), and the two completed transactions a core's access needs: a shared copy and ownership. The messages of Table
13-3, one at a time, stand in Home.lean and Messages.lean and use the same holder actions.
-/
namespace Sys2Proof.Machine

/-! ## Homes (R313) -/

/-- HOME_GROVES of the committed Chart; with none committed, every Grove (log entry 20). -/
def State.homeGroves (s : State) : BitVec 12 :=
  match s.live.pkg with
  | some p => p.homeGroves
  | none => 0xFFF

/-- The set of a directory slice (R317). -/
def dirSet (x : Nat) : Nat := (x % 65536) ^^^ (x / 65536 % 65536) ^^^ (x / 4294967296 % 16)

/-- The slice of a Grove cache (R299): x is the line address. -/
def sliceOf (x : Nat) : Nat :=
  (List.range 9).foldl (fun a i => a ^^^ (x / 16 ^ i % 16)) 0

/-- MOESI is in force (R321, R341): STATESET is 1, its value after reset. -/
def State.moesi (s : State) : Bool := ((smGet (0x20000000 : Reg32) s.ctl (o_dirStatus 0))).getLsbD 29
/-- SWITCHING: a switch of the state set is between its first step and its last. -/
def State.switching (s : State) : Bool := ((smGet (0x20000000 : Reg32) s.ctl (o_dirStatus 0))).getLsbD 30

/-! ## Copies -/

def Mem.gtag (m : Mem) (g line : Nat) : Option GTag := m.grove.find? (fun t => t.grove == g && t.line == line)
def Mem.l2line (m : Mem) (stand line : Nat) : Option L2Line := m.l2.find? (fun t => t.stand == stand && t.line == line)
def Mem.dirEnt (m : Mem) (line : Nat) : Option DirEnt := m.dir.find? (fun t => t.line == line)
def Mem.setTag (m : Mem) (t : GTag) : Mem :=
  { m with grove := (m.grove.filter (fun u => !(u.grove == t.grove && u.line == t.line))) ++ [t] }
def Mem.setL2 (m : Mem) (t : L2Line) : Mem :=
  { m with l2 := (m.l2.filter (fun u => !(u.stand == t.stand && u.line == t.line))) ++ [t] }
def Mem.setDir (m : Mem) (e : DirEnt) : Mem := { m with dir := (m.dir.filter (·.line != e.line)) ++ [e] }
def Mem.freeDir (m : Mem) (line : Nat) : Mem := { m with dir := m.dir.filter (·.line != line) }
def Mem.openTxn (m : Mem) (line : Nat) : Bool := m.txns.any (·.line == line)

/-- A core loses its L1D copy of a line, and its reservation on it (R156). -/
def Core.lose (c : Core) (line : Nat) : Core :=
  { c with
    l1d := c.l1d.filter (· != line)
    reservation := match c.reservation with
      | some r => if r.line = line then none else some r
      | none => none }

/-- A line of a set that is used becomes the most recent of it (R296, R300; log entry 14). -/
def Mem.touchL2 (m : Mem) (stand line : Nat) : Mem := match m.l2line stand line with
  | some t => m.setL2 t
  | none => m
def Mem.touchTag (m : Mem) (g line : Nat) : Mem := match m.gtag g line with
  | some t => m.setTag t
  | none => m

/-- A core loses its reservation on a line to another agent's write or ownership request (R156). -/
def Core.loseRes (c : Core) (line : Nat) : Core :=
  { c with reservation := match c.reservation with
      | some r => if r.line = line then none else some r
      | none => none }

/-- A Stand gives a line up: its L2 copy, its cores' L1D copies and reservations (R297, R298). -/
def State.dropStand (s : State) (stand line : Nat) : State :=
  let s := s.modCores (fun k c => if standOf k = stand then c.lose line else c)
  s.setMem { s.mem with l2 := s.mem.l2.filter (fun t => !(t.stand == stand && t.line == line)) }

/-- A Grove gives a line up (R301, R319). One that waits for ownership of it goes on without its copy (Table 13-9, SM). -/
def State.dropGrove (s : State) (g line : Nat) : State :=
  let s := s.modCores (fun k c => if groveOf k = g then c.lose line else c)
  s.setMem { s.mem with
    l2 := s.mem.l2.filter (fun t => !(t.stand / 5 == g && t.line == line))
    grove := s.mem.grove.filter (fun t => !(t.grove == g && t.line == line))
    gpend := s.mem.gpend.map (fun p => if p.grove = g ∧ p.line = line ∧ p.tr = .sm then { p with tr := .im } else p) }

/-- Stands that a predicate names lose ownership of a line, and what hangs on it: reservations (R336). Under MESIF the line is shared and
its data the Grove cache's; under MOESI a dirty copy stays its owner's. -/
def State.demote (s : State) (p : Nat → Bool) (line : Nat) : State :=
  let mine (t : L2Line) : Bool := p t.stand && t.line == line
  let owners := (s.mem.l2.filter (fun t => mine t && t.excl)).map (·.stand)
  let s := s.modCores (fun k c => if owners.contains (standOf k) then c.loseRes line else c)
  s.setMem { s.mem with l2 := s.mem.l2.map (fun t =>
    if mine t then { t with st := if s.moesi && t.dirty then .o else .s } else t) }

/-- The Stands of a Grove lose ownership of a line and keep it readable. -/
def State.shareGrove (s : State) (g line : Nat) : State := s.demote (fun d => d / 5 == g) line

/-! ## Ways of the Grove cache (R300, R302) -/

/-- Way w of a Grove's slices is carved: the live Chart names it, or the update that an APPLY has reassigned does (R302, R306). -/
def State.carved (s : State) (g w : Nat) : Bool :=
  decide (4 ≤ w) && ((s.ownerOf 3 (g * 16 + w)).isSome || (match s.cht with
    | some op => op.kind == .apply && decide (5 ≤ op.step) && !op.full && op.update.res.any (fun r => r.holds 3 (g * 16 + w))
    | none => false))

/-- The entries of the set of a Grove cache's slice that a line maps to, least recently used first. -/
def State.tagSet (s : State) (g line : Nat) : List GTag :=
  s.mem.grove.filter (fun t => t.grove == g && t.line % 2048 == line % 2048 && sliceOf t.line == sliceOf line)

/-- The way that a new entry takes: the first free one that keeps data, or the first free one. -/
def State.freeWay (s : State) (g line : Nat) : Nat :=
  let used := (s.tagSet g line).map (·.way)
  let free := (List.range 16).filter (fun w => !used.contains w)
  (free.find? (fun w => !s.carved g w)).getD (free.headD 0)

/-- The Grove cache records a line in a state; `data`: the line's data comes with it. -/
def State.putTag (s : State) (g line : Nat) (st : CState) (data : Bool) : State :=
  match s.mem.gtag g line with
  | some t => s.setMem (s.mem.setTag { t with st := st, data := t.data || (data && !s.carved g t.way) })
  | none =>
    let w := s.freeWay g line
    s.setMem (s.mem.setTag { grove := g, line := line, st := st, way := w, data := data && !s.carved g w, cls := 2, slack := 0 })

/-- A line of the partner window, homed on the partner package (R315). -/
def State.partnerLine (s : State) (line : Nat) : Bool := match s.region (line * 64) with
  | .window => true
  | _ => false

/-- A core of a Grove defers competing requests for a line that it has reserved (R157). -/
def State.groveDeferred (s : State) (g line : Nat) : Bool :=
  s.cores.any (fun e => groveOf e.1 == g && (match e.2.reservation with
    | some r => r.line == line && decide (e.2.ccyc < r.deferUntil)
    | none => false))

/-! ## Crossing ports (R26) and mirror writes (R499) -/

/-- The parity of a line address, which picks one of two modules or ports (R20, R26). -/
def lineParity (line : Nat) : Nat := ((List.range 36).filter (fun i => line.testBit i)).length % 2

def State.xport (s : State) (p : Nat) : XngPort := smGet XngPort.reset s.links.ports p
def XngPort.up (x : XngPort) : Bool := x.st == 2 || x.st == 3

/-- The Crossing port that a line's traffic takes: with both up, XNG0 for lines of even parity and XNG1 for odd ones. -/
def State.xngFor (s : State) (line : Nat) : Option Nat :=
  let p := lineParity line
  if (s.xport p).up then some p else if (s.xport (1 - p)).up then some (1 - p) else none

/-- A line write that the active side's DRAM accepts for a mirrored compartment goes to the standby, in the class of the write. -/
def State.mirrorOut (s : State) (line cls : Nat) : State :=
  match s.region (line * 64), s.ownerOfPa (line * 64), s.xngFor line with
  | .dram, some n, some p =>
    if s.live.pairMode n == 1 && s.links.pair == 2 && s.links.active == some true then s.emit (.mirror p line cls) else s
  | _, _, _ => s

/-! ## Order between requests of several sources (R363) -/

/-- The order of R363 as one number, the smaller first: class; age of 8 microseconds; deadline, or acceptance in class B and among the
aged; port. -/
def Rank.key (now : Nat) (r : Rank) : Nat :=
  let old : Bool := decide (r.since + 8000 < now)
  let t := if old || r.cls == 2 then r.since else r.deadline
  ((r.cls * 2 + (if old then 0 else 1)) * 2 ^ 64 + t % 2 ^ 64) * 65536 + r.port % 65536
def Rank.before (now : Nat) (a b : Rank) : Bool := decide (a.key now < b.key now)

/-- The port by which a source's requests reach a home (Table 13-1). -/
def HeldReq.port (q : HeldReq) : Nat := if q.srcKind = 1 then q.item / 20 else if q.srcKind = 3 then q.item else 12

/-- The rank of a port's request for a line: that of the request its shaper accepted, or class B. -/
def State.rankOf (s : State) (port line : Nat) : Rank :=
  match s.flight.find? (fun f => f.req.line == line && f.req.port == port && f.req.target != 4) with
  | some f => ⟨f.cls, f.accepted, f.deadline, port⟩
  | none => ⟨2, s.time, 0, port⟩

/-! ## Writes accepted by a DRAM controller (R384) and the class of a write-back (R348) -/

def State.modDram (s : State) (f : Dram → Dram) : State := { s with dram := f s.dram }

/-- A write of the line enters the queue of its subchannel with its rank (R384), and is mirrored where it has to be (R499); a correction
write of the line is dropped (R389). -/
def State.queueWrite (s : State) (line : Nat) (r : Rank) : State :=
  let c := subchannelOf line
  (s.mirrorOut line r.cls).modDram (fun d => { d with
    wq := smSet d.wq c (smGet [] d.wq c ++ [(line, r)])
    corr := smSet d.corr c ((smGet [] d.corr c).filter (· != line)) })

/-- The queue without the n writes that come first under R363. -/
def batchRest (now n : Nat) (q : List (Nat × Rank)) : List (Nat × Rank) :=
  ((sortBy (fun e => e.2.key now) q).take n).foldl (fun q e => q.erase e) q

/-- A line written in the same step as the access that causes it is accepted by its subchannel. Where the queue is full a batch of sixteen
is issued first (log entry 115). -/
def State.acceptWrite (s : State) (line : Nat) (r : Rank) : State :=
  match s.region (line * 64) with
  | .dram =>
    let c := subchannelOf line
    let q := smGet [] s.dram.wq c
    (if q.length < 64 then s else s.modDram (fun d => { d with wq := smPut [] d.wq c (batchRest s.time 16 q) })).queueWrite line r
  | _ => s

/-- The rank in which a Grove's copy of a line is written back: the class recorded for the line, accepted now. In class H its deadline is
that of a write to DRAM (Table 14-7), in class S that of the access which took ownership, from now. -/
def State.wbRank (s : State) (g line : Nat) : Rank := match s.mem.gtag g line with
  | some t => ⟨t.cls, s.time, if t.cls = 0 then s.time + 1100 else if t.cls = 1 then s.time + t.slack else 0, g⟩
  | none => ⟨2, s.time, 0, g⟩

/-- The class of a Grove's copy is recorded. -/
def State.setCls (s : State) (g line cls slack : Nat) : State :=
  s.setMem { s.mem with grove := s.mem.grove.map (fun t => if t.grove = g ∧ t.line = line then { t with cls := cls, slack := slack } else t) }

/-- An access that has taken ownership of a line for its Grove leaves its class with it. -/
def State.takeCls (s : State) (g line : Nat) (r : Rank) : State := s.setCls g line r.cls (r.deadline - r.since)

/-- What a range maintenance engine writes back travels in class B (R311, R348). -/
def State.asEngine (s : State) (g line : Nat) (act : State → State) : State :=
  match s.mem.gtag g line with
  | some t => (act (s.setCls g line 2 0)).setCls g line t.cls t.slack
  | none => act s

/-- A dirty write-back of a Grove (WB) is counted; one for a line homed on the partner goes there, with the bytes this package has
written (R301, R315, R331); one for this package's DRAM enters its subchannel's queue. -/
def State.sendWb (s : State) (g line : Nat) (keep : Bool) : State :=
  let s := s.ucount g 0x03 0 1 (s.ownerOfPa (line * 64)) none
  if s.partnerLine line then
    s.emit (.request (if keep then 6 else 5) g line ((s.mem.dirty.filter (fun e => e.1 / 64 == line)).map (fun e => (e.1 % 64, e.2))))
  else s.acceptWrite line (s.wbRank g line)

/-! ## What a holder does with a forward or an invalidation (Tables 13-4 and 13-6) -/

/-- FwdS at a holder: it keeps a shared copy. The answer says whether it held the line, and whether the data it sends
is dirty in the home's eyes. Under MESIF dirty data is written to DRAM as well. -/
def State.holderFwdS (s : State) (h line : Nat) : State × Bool × Bool :=
  match s.mem.gtag h line with
  | none => (s, false, false)
  | some t =>
    let s := s.shareGrove h line
    match t.st with
    | .m =>
      if s.moesi then (s.putTag h line .o true, true, true)
      else
        let s := (s.sendWb h line false).putTag h line .s true
        (s.setMem (s.mem.flushLine line), true, false)
    | .o => (s, true, true)
    | .s => (s, true, false)
    | _ => (s.putTag h line .s false, true, false)

/-- FwdX, Inv or BInv at a holder: it gives the line up. -/
def State.holderDrop (s : State) (h line : Nat) : State × Bool :=
  match s.mem.gtag h line with
  | none => (s, false)
  | some _ => (s.dropGrove h line, true)

/-- Every Grove of a list gives the line up. -/
def State.dropAll (s : State) (line : Nat) (gs : List Nat) : State := gs.foldl (fun s g => s.dropGrove g line) s

/-- The Groves of a vector. -/
def vecList (v : BitVec 12) : List Nat := (List.range 12).filter (fun g => v.getLsbD g)
def vecBit (g : Nat) : BitVec 12 := if g < 12 then 1 <<< g else 0

/-! ## Directory replacement (R332) -/

/-- The partner, where the entry names it, is sent BInv. -/
def Mem.tellPartner (m : Mem) (line : Nat) : Mem :=
  match m.dirEnt line with
  | some e => if e.xp then { m with msgs := m.msgs ++ [⟨.binv, line, 13⟩] } else m
  | none => m

/-- The entry no longer names the partner. -/
def Mem.releasePartner (m : Mem) (line : Nat) : Mem :=
  match m.dirEnt line with
  | none => m
  | some e =>
    if e.vec = 0 then m.freeDir line
    else m.setDir { e with xp := false, st := if e.resp = 13 then .sh else e.st, resp := if e.resp = 13 then 15 else e.resp }

/-- Every holder gives the line up, what they hold dirty is merged into DRAM's bytes, and the entry is freed. -/
def State.mergeHolders (s : State) (line : Nat) : State :=
  let s := s.dropAll line (List.range 12)
  s.setMem (((s.mem.tellPartner line).flushLine line).freeDir line)

/-- The rank of the write-back of a line's dirty copy, whichever Grove holds it. -/
def State.ownerRank (s : State) (line : Nat) : Rank :=
  match s.mem.grove.find? (fun t => t.line == line && (t.st == .m || t.st == .o)) with
  | some t => s.wbRank t.grove line
  | none => ⟨2, s.time, 0, 12⟩

/-- Frees an entry: every holder gives the line up and dirty data is written to DRAM. -/
def State.backInvalidate (s : State) (line : Nat) : State :=
  (if s.mem.isDirty line then s.acceptWrite line (s.ownerRank line) else s).mergeHolders line

/-- The entries of the directory set that a line maps to, least recently used first. -/
def State.dirEntries (s : State) (line : Nat) : List DirEnt :=
  let h := homeOf s.homeGroves line
  s.mem.dir.filter (fun e => homeOf s.homeGroves e.line == h && dirSet e.line == dirSet line)

/-- BInv messages are counted at the home (R345). -/
def State.countBinv (s : State) (h n line : Nat) : State :=
  let s := s.ctlMod (o_dirBackinv h) (fun c => if c.toNat + n < 2 ^ 32 then c + r32 n else 0xFFFFFFFF)
  s.ucount h 0x05 0 n (s.ownerOfPa (line * 64)) none

/-- Room for a new entry: of a full set the least recently used entry whose line has no open transaction is replaced (R332). With none
such the oldest goes: a request waits for room first (State.homeBlocks), but for the drains that a stop waits for. -/
def State.roomDir (s : State) (line : Nat) : State :=
  let set := s.dirEntries line
  if set.length < 16 then s
  else match (set.find? (fun e => !s.mem.openTxn e.line)).orElse (fun _ => set.head?) with
    | some v =>
      let n := (vecList v.vec).length + (if v.xp then 1 else 0)
      (s.countBinv (homeOf s.homeGroves line) n v.line).backInvalidate v.line
    | none => s

/-! ## A Grove's request, served to completion (Tables 13-5 and 13-7) -/

/-- RdS of a Grove, with the state granted (R322, R324). The Crossing agent reads as port 13. A line of the partner window has no
entry here. -/
def State.homeRead (s : State) (g line : Nat) : State × CState :=
  let xp : Bool := g == 13
  if s.partnerLine line then (s, .e)
  else match s.mem.dirEnt line with
  | none =>
    let s := s.roomDir line
    (s.setMem (s.mem.setDir { line := line, st := .ex, vec := vecBit g, xp := xp, resp := g }), .e)
  | some e =>
    match e.st with
    | .sh =>
      let s := if e.resp ≠ 15 ∧ e.resp ≠ g then (s.holderFwdS e.resp line).1 else s
      let f : Nat := if s.moesi then 15 else g
      (s.setMem (s.mem.setDir { e with vec := e.vec ||| vecBit g, xp := e.xp || xp, resp := f }),
        if s.moesi then .s else .f)
    | .ex =>
      if e.resp = g then (s, .e)
      else
        let (s, _, dirty) := s.holderFwdS e.resp line
        let v := e.vec ||| vecBit g
        if s.moesi then
          if dirty then (s.setMem (s.mem.setDir { e with st := .ow, vec := v, xp := e.xp || xp }), .s)
          else (s.setMem (s.mem.setDir { e with st := .sh, vec := v, xp := e.xp || xp, resp := 15 }), .s)
        else (s.setMem (s.mem.setDir { e with st := .sh, vec := v, xp := e.xp || xp, resp := g }), .f)
    | .ow =>
      let (s, _, _) := s.holderFwdS e.resp line
      (s.setMem (s.mem.setDir { e with vec := e.vec ||| vecBit g, xp := e.xp || xp }), .s)

/-- RdX or Upg of a Grove: every other holder gives the line up; the entry becomes EX(G) (R322, R324). Dirty data goes
to the requester. -/
def State.homeOwn (s : State) (g line : Nat) : State :=
  if s.partnerLine line then s.dropAll line ((List.range 12).filter (· != g))
  else
  let s := match s.mem.dirEnt line with
    | none => s.roomDir line
    | some _ => s.dropAll line ((List.range 12).filter (· != g))
  s.setMem (s.mem.setDir { line := line, st := .ex, vec := vecBit g, xp := g == 13, resp := g })

/-! ## Evictions -/

/-- The home learns that Grove g no longer holds a line (Tables 13-5 and 13-7, rows WB and EvC). -/
def Mem.dirRelease (m : Mem) (g line : Nat) : Mem :=
  match m.dirEnt line with
  | none => m
  | some e => match e.st with
    | .ex => if e.resp = g then m.freeDir line else m
    | .ow =>
      if e.resp = g then
        let v := e.vec &&& ~~~(vecBit g)
        if v = 0 ∧ !e.xp then m.freeDir line else m.setDir { e with st := .sh, vec := v, resp := 15 }
      else m.setDir { e with vec := e.vec &&& ~~~(vecBit g) }
    | .sh =>
      let v := e.vec &&& ~~~(vecBit g)
      if v = 0 ∧ !e.xp then m.freeDir line
      else m.setDir { e with vec := v, resp := if e.resp = g then 15 else e.resp }

/-- A Ferry module by its number in the model: 2g and 2g + 1 the spokes of Grove g, 24 + k ring link k (R19). -/
def State.ferry (s : State) (m : Nat) : FryModule := smGet FryModule.reset s.links.modules m
/-- The module is up: FULL, HALF or REMAP (R21, R483). -/
def FryModule.up (m : FryModule) : Bool := m.st == .full || m.st == .half || m.st == .remap
def State.ferryUp (s : State) (m : Nat) : Bool := (s.ferry m).up

/-- A clean eviction of Grove g is told to the line's home: a ring neighbour, over a link of version 2.0 that is up (R331). -/
def State.evHint (s : State) (g line : Nat) : Bool :=
  let h := homeOf s.homeGroves line
  let by_ (k : Nat) : Bool := s.ferryUp (24 + k) && (s.ferry (24 + k)).version == 20
  !s.partnerLine line && ((h == (g + 1) % 12 && by_ g) || (h == (g + 11) % 12 && by_ ((g + 11) % 12)))

/-- The Stands of a Grove keep a line that has been written back: M becomes E, O becomes S. -/
def Mem.cleanL2 (m : Mem) (g line : Nat) : Mem :=
  { m with l2 := m.l2.map (fun u =>
      if u.stand / 5 = g ∧ u.line = line then { u with st := if u.st = .m then .e else if u.st = .o then .s else u.st } else u) }

/-- A Grove writes its dirty copy to the home and keeps the line clean (WB with KEEP, R297, R310). -/
def State.cleanGrove (s : State) (g line : Nat) : State :=
  match s.mem.gtag g line with
  | none => s
  | some t =>
    let wb : Bool := t.st == .m || t.st == .o
    let s := if wb then s.sendWb g line true else s
    let m := (s.mem.flushLine line).cleanL2 g line
    match t.st with
    | .m => s.setMem (m.setTag { t with st := .e })
    | .o =>
      let m := m.setTag { t with st := .s }
      s.setMem (match m.dirEnt line with
        | some e => if e.st == DirSt.ow && e.resp == g then m.setDir { e with st := .sh, vec := e.vec ||| vecBit g, resp := 15 } else m
        | none => m)
    | _ => s

/-- The Grove gives up a line (R301, R319): a dirty one is written back (WB); a clean one is told to a ring neighbour's home over a
version 2.0 link that is up (EvC, R331), which waits there behind an open transaction of the line (R326). -/
def State.groveEvict (s : State) (g line : Nat) : State :=
  match s.mem.gtag g line with
  | none => s
  | some t =>
    if t.st == .m || t.st == .o then
      let s := (s.sendWb g line false).dropGrove g line
      s.setMem ((s.mem.flushLine line).dirRelease g line)
    else
      let s := s.dropGrove g line
      if !s.evHint g line then s
      else if s.mem.openTxn line || s.mem.waits.any (·.line == line) then
        s.setMem { s.mem with waits := s.mem.waits ++
          [{ port := g, line := line, kind := .evc, at_ := s.time, rank := ⟨2, s.time, 0, g⟩, vic := false }] }
      else s.setMem (s.mem.dirRelease g line)

/-- An L2 victim (R297): a dirty line is written back to its home, and the Grove cache, when it has the line's data or another Stand's
copy, holds it clean; otherwise the Grove gives the line up. -/
def State.l2Evict (s : State) (stand line : Nat) : State :=
  match s.mem.l2line stand line with
  | none => s
  | some t =>
    let g := stand / 5
    let s := s.dropStand stand line
    match s.mem.gtag g line with
    | none => s
    | some tag =>
      if !tag.data && !s.mem.l2.any (fun u => u.stand / 5 == g && u.line == line) then s.groveEvict g line
      else if t.dirty then s.cleanGrove g line
      else s

/-! ## Room in the caches (R296, R300) -/

/-- The ways of a Stand's set (PA[16:6]), least recently used first. -/
def State.l2Set (s : State) (stand line : Nat) : List L2Line :=
  s.mem.l2.filter (fun t => t.stand == stand && t.line % 2048 == line % 2048)

/-- A core for which `p` holds defers requests for the line (R157), or drains a merging-buffer entry of it. -/
def State.busyLine (s : State) (p : Nat → Bool) (line : Nat) : Bool :=
  s.cores.any (fun e => p e.1 && (e.2.mb.any (fun b => b.line == line && b.draining) || (match e.2.reservation with
    | some r => r.line == line && decide (e.2.ccyc < r.deferUntil)
    | none => false)))

/-- The Grove has a request for the line open. -/
def Mem.pending (m : Mem) (g line : Nat) : Bool := m.gpend.any (fun p => p.grove == g && p.line == line)

/-- A way is locked while its line has a fill, a drain or a write-back open, or while a core defers requests for it. -/
def State.lockedL2 (s : State) (stand line : Nat) : Bool :=
  s.busyLine (fun k => standOf k == stand) line || s.mem.pending (stand / 5) line
def State.lockedTag (s : State) (g line : Nat) : Bool := s.busyLine (fun k => groveOf k == g) line || s.mem.pending g line

/-- Every way of the line's set is locked: a fill waits. -/
def State.fullL2 (s : State) (stand line : Nat) : Bool :=
  let set := s.l2Set stand line
  decide (16 ≤ set.length) && set.all (fun t => s.lockedL2 stand t.line)
def State.fullTags (s : State) (g line : Nat) : Bool :=
  let set := s.tagSet g line
  decide (16 ≤ set.length) && set.all (fun t => s.lockedTag g t.line)

/-- Room in a Stand's L2, 16 ways: of a full set the least recently used line that nothing locks is the victim. With every way locked the
oldest goes: a fill waits first (State.blocked), but for the drains that a stop waits for. -/
def State.roomL2 (s : State) (stand line : Nat) : State :=
  let set := s.l2Set stand line
  if set.length < 16 then s
  else match (set.find? (fun v => !s.lockedL2 stand v.line)).orElse (fun _ => set.head?) with
    | some v => s.l2Evict stand v.line
    | none => s

/-- Room in a Grove cache, 16 tag entries to a set of a slice, in the same way. -/
def State.roomGrove (s : State) (g line : Nat) : State :=
  let set := s.tagSet g line
  if set.length < 16 then s
  else match (set.find? (fun v => !s.lockedTag g v.line)).orElse (fun _ => set.head?) with
    | some v => s.groveEvict g v.line
    | none => s

/-- A way that is carved or released gives up what it holds: every entry whose data lies in it is replaced (R306). -/
def State.emptyWay (s : State) (g w : Nat) : State :=
  ((s.mem.grove.filter (fun t => t.grove == g && t.way == w)).map (·.line)).foldl (fun s l => s.groveEvict g l) s

/-- Every Grove discards its copies of lines of the partner window (R340). -/
def State.dropWindow (s : State) : State :=
  let lines := ((s.mem.l2.map (·.line)) ++ (s.mem.grove.map (·.line))).filter s.partnerLine
  lines.foldl (fun s l => (s.dropAll l (List.range 12)).setMem ((s.dropAll l (List.range 12)).mem.dropDirty l)) s

/-! ## What a Stand asks for -/

/-- The Grove cache serves a Stand's read as the home of its Stands (R319, Tables 13-5 and 13-7): with no Stand holding the line it grants
E when the Grove has ownership; otherwise the holder that answers forwards, and the newcomer takes F, or S under MOESI. -/
def State.standRead (s : State) (stand line : Nat) : State × CState :=
  let g := stand / 5
  let here := s.mem.l2.filter (fun t => t.stand / 5 == g && t.line == line)
  let owned : Bool := match s.mem.gtag g line with
    | some t => t.st == .e || t.st == .m
    | none => false
  if here.isEmpty then (s, if owned then .e else if s.moesi then .s else .f)
  else (s.shareGrove g line, if s.moesi then .s else .f)

/-- Dirty data that neither a Stand nor, in a tag-only entry, the Grove cache can keep goes to the line's home. -/
def State.settleData (s : State) (g line : Nat) : State :=
  match s.mem.gtag g line with
  | some t =>
    if !t.data && s.mem.isDirty line && !s.mem.l2.any (fun u => u.stand / 5 == g && u.line == line && u.dirty) then s.cleanGrove g line
    else s
  | none => s

/-- The Stand obtains a readable copy (R319). -/
def State.gainShared (s : State) (stand line : Nat) : State :=
  let g := stand / 5
  match s.mem.l2line stand line with
  | some _ => s.setMem (s.mem.touchL2 stand line)
  | none =>
    match s.mem.gtag g line with
    | some t =>
      let (s, st) := s.standRead stand line
      let s := ((s.putTag g line t.st true).settleData g line).roomL2 stand line
      s.setMem (s.mem.setL2 { stand := stand, line := line, st := st })
    | none =>
      let s := s.roomGrove g line
      let (s, st) := s.homeRead g line
      let s := (s.putTag g line st true).roomL2 stand line
      s.setMem (s.mem.setL2 { stand := stand, line := line, st := st })

/-- The Stand obtains ownership (R319, R336): no other copy remains. Data that another copy held dirty comes with it. -/
def State.gainOwn (s : State) (stand line : Nat) : State :=
  let g := stand / 5
  let others := (List.range 5).filter (fun i => g * 5 + i != stand)
  let held : Bool := (s.mem.l2line stand line).isSome
  let s := match s.mem.gtag g line with
    | some t =>
      if t.st == CState.e || t.st == CState.m then s.setMem (s.mem.touchTag g line)
      else
        let s := s.homeOwn g line
        s.putTag g line (if s.mem.isDirty line then .m else .e) false
    | none =>
      let s := s.roomGrove g line
      let s := s.homeOwn g line
      s.putTag g line (if s.mem.isDirty line then .m else .e) false
  let s := others.foldl (fun s i => s.dropStand (g * 5 + i) line) s
  let s := if held then s else s.roomL2 stand line
  s.setMem (s.mem.setL2 { stand := stand, line := line, st := if s.mem.isDirty line then .m else .e })

/-- The Stand writes a line it owns: E becomes M at the first write, with no message (Table 13-4). -/
def State.ownedWrite (s : State) (stand pa : Nat) (bytes : List Byte) : State :=
  let line := lineOf pa
  let m := s.mem.write pa bytes
  let m := m.setL2 { stand := stand, line := line, st := .m }
  let m := match m.gtag (stand / 5) line with
    | some t => m.setTag { t with st := .m }
    | none => m
  s.setMem m

/-- The Stand owns the line: its copy needs no message for a write. -/
def Mem.ownedBy (m : Mem) (stand line : Nat) : Bool :=
  match m.l2line stand line with
  | some t => t.excl
  | none => false

/-- Another core's 64-cycle deferral holds a request for this line (R157). -/
def State.deferred (s : State) (k line : Nat) : Bool :=
  s.cores.any (fun e => e.1 != k && (match e.2.reservation with
    | some r => r.line == line && decide (e.2.ccyc < r.deferUntil)
    | none => false))

/-- A write by another core clears the reservations on the line (R156). -/
def State.clearRes (s : State) (except line : Nat) : State :=
  s.modCores (fun k c => if k = except then c else c.loseRes line)

end Sys2Proof.Machine
end

