-- ==== Sys2Proof/Machine/Uncore.lean ====
section
/-!
DEFINITION. The uncore counters that grow with time (R580): HOME_OPEN, and FRY_QUIET of a Grove's four modules. They are brought up
to package time whenever what they depend on changes, and before a Grove-wide register of a PMU frame is read or written.
-/
namespace Sys2Proof.Machine

/-- The module at a local number of a Grove (Table 1-3). -/
def localModule (g l : Nat) : Nat := if l < 2 then 2 * g + l else if l = 2 then 24 + g else 24 + (g + 11) % 12

/-- The home of a line. -/
def State.homeFor (s : State) (line : Nat) : Nat := homeOf s.homeGroves line

/-- n nanoseconds are counted at a Grove. -/
def State.countUpGrove (s : State) (n g : Nat) : State :=
  if (smFind? s.ctl (o_pmuUctl g)).isNone then s
  else
    let s := (s.mem.txns.filter (fun t => s.homeFor t.line == g)).foldl (fun s t =>
      s.ucount g 0x07 0 n (s.ownerOfPa (t.line * 64)) none) s
    (List.range 4).foldl (fun s l =>
      let st := (s.ferry (localModule g l)).st
      if st == .remap || st == .retrain then s.ucount g 0x13 l n none none else s) s

/-- The counters of every Grove are brought up to package time. -/
def State.countUp (s : State) : State :=
  let n := s.time - s.links.countedAt
  let s := if n = 0 then s else (List.range 12).foldl (fun s g => s.countUpGrove n g) s
  { s with links := { s.links with countedAt := s.time } }

end Sys2Proof.Machine
end

