-- ==== Sys2Proof/Machine/Route.lean ====
section
/-!
DEFINITION. The routes between dies over the Ferry modules (R20 to R23): the one that holds now, the one in force, and the modules that a
line's traffic takes on it. Dies 0 to 11 are the Groves, 12 the Landing.
-/
namespace Sys2Proof.Machine

def State.spokeUp (s : State) (g : Nat) : Bool := s.ferryUp (2 * g) || s.ferryUp (2 * g + 1)

/-- The modules of a Grove's spoke that are up. -/
def State.spokeModules (s : State) (g : Nat) : List Nat := [2 * g, 2 * g + 1].filter s.ferryUp

/-- Ring links from Grove g over d hops, upwards or downwards. -/
def ringPath (g d : Nat) (upward : Bool) : List Nat :=
  (List.range d).map (fun i => 24 + (if upward then (g + i) % 12 else (g + 11 - i) % 12))

/-- Grove g's way to a spoke (R22): the ring links and the Grove whose spoke it is. -/
def State.gateway (s : State) (g : Nat) : Option (List Nat × Nat) :=
  if s.spokeUp g then some ([], g)
  else (List.range 11).findSome? (fun i =>
    let d := i + 1
    let a := (g + d) % 12
    let b := (g + 12 - d) % 12
    if (ringPath g d true).all s.ferryUp && s.spokeUp a then some (ringPath g d true, a)
    else if (ringPath g d false).all s.ferryUp && s.spokeUp b then some (ringPath g d false, b)
    else none)

/-- A Grove's route to the Landing, as the modules it uses. -/
def State.toLanding (s : State) (g : Nat) : Option (List Nat) := (s.gateway g).map (fun r => r.1 ++ s.spokeModules r.2)

def ringBetween (a b : Nat) : Option Nat := if b = (a + 1) % 12 then some (24 + a) else if a = (b + 1) % 12 then some (24 + b) else none

/-- The first route of Table 1-4 whose modules are all up; 12 is the Landing. -/
def State.routeFor (s : State) (a b : Nat) : Option (List Nat) :=
  if a = 12 then s.toLanding b
  else if b = 12 then s.toLanding a
  else
    let via : Option (List Nat) := match s.toLanding a, s.toLanding b with
      | some x, some y => some (x ++ y)
      | _, _ => none
    match ringBetween a b with
    | some k => if s.ferryUp k then some [k] else via
    | none => via

/-- The route with every module up. -/
def firstRoute (a b : Nat) : List Nat :=
  let sp (g : Nat) : List Nat := [2 * g, 2 * g + 1]
  if a = 12 then sp b else if b = 12 then sp a else match ringBetween a b with
    | some k => [k]
    | none => sp a ++ sp b

def State.routeInForce (s : State) (a b : Nat) : List Nat := (smFind? s.links.routes (16 * a + b)).getD (firstRoute a b)

/-- The modules that messages concerning a line take on a route: every ring link of it, and of a spoke the module of the line's parity, or
the other one where the route has only that (R20). -/
def wayOf (route : List Nat) (line : Nat) : List Nat :=
  route.filter (fun m => decide (24 ≤ m) || m % 2 == lineParity line || !route.contains (4 * (m / 2) + 1 - m))
def State.wayFor (s : State) (a b line : Nat) : List Nat := wayOf (s.routeInForce a b) line

/-- The traffic between two dies has another route to take than the one in force: new traffic is held until the change (R23). -/
def State.moving (s : State) (a b : Nat) : Bool := a != b && (match s.routeFor a b with
  | some r => r != s.routeInForce a b
  | none => false)

/-- Every flit sent on a module has been acknowledged, or abandoned because the module is DISABLED (R23, R486). What a module that
retrains has in its retry buffers is replayed when it is up again (R510), and so is not flushed. -/
def State.flushed (s : State) (m : Nat) : Bool := (s.ferry m).st == .disabled || ((s.ferry m).d0.buf.isEmpty && (s.ferry m).d1.buf.isEmpty)

end Sys2Proof.Machine
end

