-- ==== Sys2Proof/Machine/Home.lean ====
section
/-!
DEFINITION. A home at work (R320 to R334, R361, R363): its table of transactions, its transient queues, the requests it serves, and the
writes of agents that keep no copy. The messages at holders and requesters stand in Messages.lean.
VEC names every holder, the owner included (R318); where Table 13-7 writes OW(o, V), V is VEC without o.
-/
namespace Sys2Proof.Machine

/-! ## The table of transactions (R325, R361) -/

/-- The line is one of the package's DRAM, which a home serves (R313, R314). -/
def State.homed (s : State) (line : Nat) : Bool := match s.region (line * 64) with
  | .dram => true
  | _ => false

def ReqKind.isWb : ReqKind → Bool
  | .wb _ => true
  | _ => false

def State.txnOf (s : State) (line : Nat) : Option Txn := s.mem.txns.find? (fun t => t.line == line && !t.kind.isWb)
def State.setTxn (s : State) (t : Txn) : State :=
  s.setMem { s.mem with txns := s.mem.txns.map (fun u => if u.line = t.line && !u.kind.isWb then t else u) }
def State.closeTxn (s : State) (line : Nat) : State :=
  let s := s.countUp
  s.setMem { s.mem with txns := s.mem.txns.filter (fun u => u.line != line || u.kind.isWb) }
def State.send (s : State) (l : List Msg) : State := s.setMem { s.mem with msgs := s.mem.msgs ++ l }
/-- A message of a kind for a line and a port leaves flight. -/
def State.recv (s : State) (line port : Nat) (p : MsgKind → Bool) : Option (Msg × State) :=
  match s.mem.msgs.find? (fun m => m.line == line && m.port == port && p m.kind) with
  | some m => some (m, s.setMem { s.mem with msgs := s.mem.msgs.erase m })
  | none => none

/-- Transactions open at a home. -/
def State.openNow (s : State) (h : Nat) : Nat := (s.mem.txns.filter (fun t => s.homeFor t.line == h)).length

/-- A table entry is free for a request of a class: 1,024 for H; 256 each for S and B, and 256 that the two share (R361). -/
def State.tableRoom (s : State) (h cls : Nat) : Bool :=
  let n (c : Nat) : Nat := (s.mem.txns.filter (fun t => s.homeFor t.line == h && !t.kind.isWb && t.rank.cls == c)).length
  if cls = 0 then decide (n 0 < 1024) else decide (n cls < 256) || decide ((n 1 - 256) + (n 2 - 256) < 256)

/-- The Landing tracks another transaction of its agents (R325). -/
def State.landingRoom (s : State) : Bool := decide ((s.mem.txns.filter (·.port == 12)).length < 8192)

/-- A transaction opens, with the rank of its request; DIR.OPEN.PEAK follows (R325, R345). -/
def State.openT (s : State) (t : Txn) (l : List Msg) : State :=
  let s := s.countUp
  let s := (s.setMem { s.mem with txns := s.mem.txns ++ [{ t with rank := s.rankOf t.port t.line }] }).send l
  let h := s.homeFor t.line
  let s := s.ctlMod (o_dirOpen h) (fun v => fset v 31 16 (max (fget v 31 16) (s.openNow h)))
  s.ucount h 0x04 0 1 (s.ownerOfPa (t.line * 64)) none

/-- A transaction that waits for nothing yet. -/
def Txn.idle (line port : Nat) (k : ReqKind) : Txn :=
  { line := line, kind := k, port := port, mr := false, fw := none, acks := [], mw := false, cp := false, grant := .e,
    victim := false, held := false, rank := ⟨2, 0, 0, port⟩ }

/-- The holders an entry names, the Crossing agent as 13. -/
def DirEnt.holders (e : DirEnt) : List Nat := vecList e.vec ++ (if e.xp then [13] else [])

def invs (line : Nat) (l : List Nat) : List Msg := l.map (fun h => ⟨.inv, line, h⟩)

/-- Room for a new entry (R332): true when the set has a free way; otherwise a victim is chosen and its holders are sent
BInv, or, when every entry is open, the wait is counted. -/
def State.victimStart (s : State) (line : Nat) : State × Bool :=
  let h := s.homeFor line
  let set := s.dirEntries line
  if set.length < 16 then (s, true)
  else match set.find? (fun e => !s.mem.openTxn e.line) with
    | none => ((s.ctlInc (o_dirVicwait h)).ucount h 0x06 0 1 (s.ownerOfPa (line * 64)) none, false)
    | some v =>
      let hs := v.holders
      let t := { Txn.idle v.line 14 .evc with acks := hs, victim := true }
      let s := s.openT t (hs.map (fun p => ⟨.binv, v.line, p⟩))
      (s.countBinv h hs.length v.line, false)

/-- The entry EX(G). -/
def exEnt (line g : Nat) : DirEnt := { line := line, st := .ex, vec := vecBit g, xp := g == 13, resp := g }

/-- A Grove enters a transient state (Table 13-9). -/
def State.pendGrove (s : State) (g line : Nat) (tr : GTrans) : State :=
  if g < 13 then s.setMem { s.mem with gpend := s.mem.gpend.filter (fun p => !(p.grove == g && p.line == line)) ++ [⟨g, line, tr, 0⟩] }
  else s
/-- It leaves it. -/
def State.unpend (s : State) (g line : Nat) : State :=
  s.setMem { s.mem with gpend := s.mem.gpend.filter (fun p => !(p.grove == g && p.line == line)) }

/-! ## Requests served (Tables 13-5 and 13-7). A read or a request for ownership of a line with no entry finds a way free in its set. -/

/-- RdS, served. -/
def State.serveRds (s : State) (g line : Nat) : State :=
  let t := Txn.idle line g .rds
  let xp : Bool := g == 13
  match s.mem.dirEnt line with
  | none => (s.setMem (s.mem.setDir (exEnt line g))).openT { t with mr := true, grant := .e } [⟨.mrd, line, g⟩]
  | some e =>
    let e' := { e with vec := e.vec ||| vecBit g, xp := e.xp || xp }
    match e.st with
    | .sh =>
      let grant : CState := if s.moesi then .s else .f
      let s := s.setMem (s.mem.setDir { e' with resp := if s.moesi then 15 else g })
      if e.resp ≠ 15 ∧ e.resp ≠ g then s.openT { t with fw := some e.resp, grant := grant } [⟨.fwdS g, line, e.resp⟩]
      else s.openT { t with mr := true, grant := grant } [⟨.mrd, line, g⟩]
    | .ex =>
      if e.resp = g then s.openT { t with mr := true, grant := .e } [⟨.mrd, line, g⟩]
      else
        let s := s.setMem (s.mem.setDir { e' with st := .sh, resp := if s.moesi then 15 else g })
        s.openT { t with fw := some e.resp, grant := if s.moesi then .s else .f } [⟨.fwdS g, line, e.resp⟩]
    | .ow =>
      let s := s.setMem (s.mem.setDir e')
      s.openT { t with fw := some e.resp, grant := .s } [⟨.fwdS g, line, e.resp⟩]

/-- RdX, served. -/
def State.serveRdx (s : State) (g line : Nat) (k : ReqKind) : State :=
  let t := { Txn.idle line g k with grant := .e }
  match s.mem.dirEnt line with
  | none => (s.setMem (s.mem.setDir (exEnt line g))).openT { t with mr := true } [⟨.mrd, line, g⟩]
  | some e =>
    let s := s.setMem (s.mem.setDir (exEnt line g))
    let owner : Option Nat := if e.resp ≠ 15 ∧ e.resp ≠ g then some e.resp else none
    let others := e.holders.filter (fun h => h != g && some h != owner)
    match owner with
    | some o => s.openT { t with fw := some o, acks := others } (⟨.fwdX g, line, o⟩ :: invs line others)
    | none => s.openT { t with mr := true, acks := others } (⟨.mrd, line, g⟩ :: invs line others)

/-- Upg, served: a Grove that the entry does not name is served as RdX. -/
def State.serveUpg (s : State) (g line : Nat) : State :=
  match s.mem.dirEnt line with
  | none => s.serveRdx g line .upg
  | some e =>
    if e.st == DirSt.ex || !(e.holders.contains g) then s.serveRdx g line .upg
    else
      let others := e.holders.filter (· != g)
      (s.setMem (s.mem.setDir (exEnt line g))).openT { Txn.idle line g .upg with acks := others, grant := .e }
        (⟨.data .e (s.mem.isDirty line), line, g⟩ :: invs line others)

/-- RdCur, served (R333). -/
def State.serveRdcur (s : State) (port line : Nat) : State :=
  let t := Txn.idle line port .rdcur
  match s.mem.dirEnt line with
  | some e =>
    if e.resp ≠ 15 then s.openT { t with fw := some e.resp } [⟨.fwdC port, line, e.resp⟩]
    else s.openT { t with mr := true } [⟨.mrd, line, port⟩]
  | none => s.openT { t with mr := true } [⟨.mrd, line, port⟩]

/-- A WrInv that has every reply sends its line to DRAM; a directory victim with every reply is freed. -/
def State.progress (s : State) (line : Nat) : State :=
  match s.txnOf line with
  | none => s
  | some t =>
    if t.mr || t.fw.isSome || !t.acks.isEmpty || t.mw then s
    else match t.kind with
      | .wrinv _ => (s.setTxn { t with mw := true }).send [⟨.mwr, line, t.port⟩]
      | _ => if t.victim then (s.closeTxn line).setMem ((s.closeTxn line).mem.freeDir line) else s

/-- WrInv, served (R333): the holders' own deferrals (R157, R330) hold their replies. -/
def State.serveWrinv (s : State) (port line : Nat) (bytes : SMap Byte) : State :=
  let t := Txn.idle line port (.wrinv bytes)
  let full : Bool := bytes.length == 64
  match s.mem.dirEnt line with
  | none => (s.openT { t with mr := !full } (if full then [] else [⟨.mrd, line, port⟩])).progress line
  | some e =>
    let hs := e.holders
    if full then (s.openT { t with acks := hs } (invs line hs)).progress line
    else match e.st with
      | .sh => s.openT { t with acks := hs, mr := true } (⟨.mrd, line, port⟩ :: invs line hs)
      | _ =>
        let others := hs.filter (· != e.resp)
        s.openT { t with fw := some e.resp, acks := others } (⟨.fwdX port, line, e.resp⟩ :: invs line others)

/-! ## The transient queue (R326) -/

/-- A request needs a directory entry that its line does not have. -/
def State.needsEntry (s : State) (k : ReqKind) (line : Nat) : Bool :=
  (s.mem.dirEnt line).isNone && (match k with | .rds => true | .rdx => true | .upg => true | _ => false)

/-- The request is served. -/
def State.serveReq (s : State) (w : Wait) : State :=
  match w.kind with
  | .rds => s.serveRds w.port w.line
  | .rdx => s.serveRdx w.port w.line .rdx
  | .upg => s.serveUpg w.port w.line
  | .rdcur => s.serveRdcur w.port w.line
  | .wrinv b => s.serveWrinv w.port w.line b
  | .evc => s.setMem (s.mem.dirRelease w.port w.line)
  | .wb _ => s

/-- The home takes a request up, unless the state set is being switched (R341), its line has an open transaction, no table entry is free (R325), or a new directory entry has no
way yet (R332). -/
def State.startReq (s : State) (w : Wait) : State × Bool :=
  if s.switching || s.mem.openTxn w.line || !s.tableRoom (s.homeFor w.line) w.rank.cls || (w.port == 12 && !s.landingRoom) then (s, false)
  else if s.needsEntry w.kind w.line then
    (if w.vic && ((s.dirEntries w.line).all (fun e => s.mem.openTxn e.line)) then (s, false)
     else match s.victimStart w.line with
      | (s, true) => (s.serveReq w, true)
      | (s, false) => (s, false))
  else (s.serveReq w, true)

/-- A request joins the queue: behind those that reached their homes earlier, and those of its cycle with a lower port (R326). -/
def enqueue (w : Wait) (l : List Wait) : List Wait :=
  let first (v : Wait) : Bool := decide (v.at_ < w.at_) || (v.at_ == w.at_ && decide (v.port ≤ w.port))
  l.filter first ++ [w] ++ l.filter (fun v => !first v)

/-- A request reaches its home: served, or queued behind what its line waits for. -/
def State.request (s : State) (port line : Nat) (k : ReqKind) : State :=
  let w : Wait := { port := port, line := line, kind := k, at_ := s.time, rank := s.rankOf port line, vic := false }
  let vic (s : State) : Bool := s.needsEntry k line && (s.dirEntries line).all (fun e => s.mem.openTxn e.line)
  if s.mem.waits.any (·.line == line) then s.setMem { s.mem with waits := enqueue w s.mem.waits }
  else match s.startReq w with
    | (s, true) => s
    | (s, false) => s.setMem { s.mem with waits := enqueue { w with vic := !s.mem.openTxn line && vic s } s.mem.waits }

/-- A request that the age rule of R363 has promoted is counted at its home (AGE_PROMOTE). -/
def State.agePromoted (s : State) (w : Wait) : State :=
  if w.rank.since + 8000 < s.time then s.ucount (s.homeFor w.line) 0x09 0 1 (s.ownerOfPa (w.line * 64)) (some w.rank.cls) else s

/-- The home has closed a transaction, or freed a way: the waiting requests that can be served are, each line's in the order in which they
came, and between lines in the order of R363. -/
def State.serveWaits (s : State) : State :=
  (sortBy (fun w => w.rank.key s.time) s.mem.waits).foldl (fun s w =>
    if s.mem.waits.find? (fun v => v.line == w.line) = some w then
      match s.startReq w with
      | (s, true) => (s.setMem { s.mem with waits := s.mem.waits.erase w }).agePromoted w
      | (s, false) => s
    else s) s

/-! ## What holds a request at its home -/

/-- A line that no transaction holds and no request waits for, while no switch of the state set holds new requests (R341). -/
def State.homeFree (s : State) (line : Nat) : Bool := !s.switching && !s.mem.openTxn line && !s.mem.waits.any (·.line == line)

/-- A read, or (needsW) a request for ownership, of a Grove has to wait for the home of the line, or on its way there (R23). -/
def State.homeBlocks (s : State) (g line : Nat) (needsW : Bool) : Bool :=
  s.homed line &&
    (!s.homeFree line || s.moving g (s.homeFor line) || !s.tableRoom (s.homeFor line) (s.rankOf g line).cls ||
      (s.needsEntry (if needsW then .rdx else .rds) line && decide (16 ≤ (s.dirEntries line).length) &&
        (match (s.dirEntries line).find? (fun e => !s.mem.openTxn e.line) with
          | some v => v.xp
          | none => true)))

/-- The request of a Grove that has to wait joins the home's queue, once; the messages of Table 13-3 then bring the line. -/
def State.joinHome (s : State) (g line : Nat) (needsW : Bool) : State :=
  if s.mem.pending g line then s
  else
    let k : ReqKind := if !needsW then .rds else if (s.mem.gtag g line).isSome then .upg else .rdx
    let tr : GTrans := if !needsW then .is else if (s.mem.gtag g line).isSome then .sm else .im
    (s.pendGrove g line tr).request g line k

/-! ## The partner window (R315): its home is on the partner package -/

/-- Span service gives the line to a compartment of this package. -/
def State.spanLine (s : State) (line : Nat) : Bool :=
  s.partnerLine line && s.links.pair == 2 && (s.spanOwner (line * 64)).isSome

/-- A request of a Grove, or of the Landing (12), for a line of the window leaves for the partner's home: 0 RdS, 1 RdX, 2 Upg, 3 RdCur. It
waits for its data (Table 13-9). -/
def State.outRequest (s : State) (g line kind : Nat) : State :=
  if s.spanLine line && !s.mem.pending g line && !s.switching then
    (s.pendGrove g line (if kind = 1 then .im else if kind = 2 then .sm else .is)).emit (.request kind g line [])
  else s

/-! ## Agents that keep no copy (R333) -/

/-- Another core's 64-cycle deferral holds a request for this line (R157). -/
def State.anyDeferred (s : State) (line : Nat) : Bool := s.deferred 1000 line

/-- The bytes of a masked write: place in the line and value. -/
def maskedBytes (l : List (Nat × Byte)) : SMap Byte := l.foldl (fun m e => if e.1 < 64 then smSet m e.1 e.2 else m) []

/-- A write is made at once: every copy is invalidated, dirty data merged, the bytes written to DRAM or to the Clearing slice. A write of
all 64 bytes clears poison (R590). A line of the partner window is written by the partner's home as well (R315). -/
def State.wrNow (s : State) (port pa : Nat) (bytes : List Byte) : State :=
  let line := lineOf pa
  let s := if s.spanLine line then s.emit (.request 4 port line (((List.range bytes.length).zip bytes).map (fun e => (pa % 64 + e.1, e.2)))) else s
  let r := s.rankOf port line
  let s := if isClearing pa then s else s.mergeHolders line
  let s := (s.clearRes 1000 line).acceptWrite line r
  let m := s.mem.writeDram pa bytes
  s.setMem (if bytes.length = 64 then m.setPoison line false else m)

/-- The partner holds a copy of the line. -/
def State.partnerHolds (s : State) (line : Nat) : Bool := match s.mem.dirEnt line with
  | some e => e.xp
  | none => false

/-- A write of the Landing or of an Understorey (WrInv): at once where nothing holds the line; otherwise it takes its place in the home's
transient queue and is served message by message. -/
def State.wrInvFrom (s : State) (port pa : Nat) (bytes : List Byte) : State :=
  let line := lineOf pa
  if s.homed line && (!s.homeFree line || s.anyDeferred line || s.partnerHolds line) then
    s.request port line (.wrinv (maskedBytes (((List.range bytes.length).zip bytes).map (fun e => (pa % 64 + e.1, e.2)))))
  else s.wrNow port pa bytes

/-- A write of the Landing. -/
def State.wrInv (s : State) (pa : Nat) (bytes : List Byte) : State := s.wrInvFrom 12 pa bytes

/-- A line that the Landing reads or writes is served now: its home is free, no core defers it, and the partner does not have what is
wanted. What needs the partner waits while a split is arbitrated (R502). -/
def State.landingReady (s : State) (line : Nat) (write : Bool) : Bool :=
  match s.region (line * 64) with
  | .dram => s.homeFree line && !s.moving 12 (s.homeFor line) && !s.anyDeferred line && s.landingRoom && s.tableRoom (s.homeFor line) (s.rankOf 12 line).cls &&
      (match s.mem.dirEnt line with
        | some e => if write then !e.xp else e.resp != 13
        | none => true)
  | .window => s.links.pair != 3 && (write || !s.spanLine line)
  | _ => true

/-- An access of the Landing takes its place at the home: whether it is served now. An answer that has come from the partner serves one
read. Where the partner must act first, RdCur or an empty WrInv is sent, and the access waits. -/
def State.landingTake (s : State) (line : Nat) (write : Bool) : State × Bool :=
  let came : Option (Msg × State) := if write then none else s.recv line 12 (fun k => match k with | .data _ _ => true | _ => false)
  match came with
  | some (_, t) => ((if t.homed line then t.closeTxn line else t).serveWaits, true)
  | none =>
    if s.landingReady line write then (s, true)
    else match s.region (line * 64) with
      | .window => (s.outRequest 12 line 3, false)
      | _ =>
        if s.homeFree line && !s.moving 12 (s.homeFor line) && !s.anyDeferred line && s.partnerHolds line then
          (s.request 12 line (if write then .wrinv [] else .rdcur), false)
        else (s, false)

/-- The accesses of one agent of the Landing take their places together, or wait. -/
def State.takeAll (s : State) (l : List (Nat × Bool)) : State × Bool :=
  l.foldl (fun r e => if r.2 then r.1.landingTake e.1 e.2 else r) (s, true)

end Sys2Proof.Machine
end

