-- ==== Sys2Proof/Machine/Pack.lean ====
section
/-!
DEFINITION. Octet streams in 9-bit memory (R237 to R239), and the reads and writes of agents that keep no copy (R333).
-/
namespace Sys2Proof.Machine

/-- Octets as a little-endian number. -/
def octVal : List Nat → Nat
  | [] => 0
  | o :: r => o % 256 + 256 * octVal r

/-- A number as n octets, the least significant first. -/
def valOct (v : Nat) : Nat → List Nat
  | 0 => []
  | n + 1 => v % 256 :: valOct (v / 256) n

/-- Bytes of memory that n octets occupy from the start of an area (R237, R238). -/
def packedLen (dense : Bool) (n : Nat) : Nat := if dense then 8 * ((n + 8) / 9) else n

/-- Octet o of an area: bits 7:0 of its byte, or bits 8j+7:8j of its group. -/
def Mem.octet (m : Mem) (dense : Bool) (base o : Nat) : Nat :=
  if dense then m.read (base + 8 * (o / 9)) 8 / 2 ^ (8 * (o % 9)) % 256 else (m.byte (base + o)).toNat % 256

def Mem.octets (m : Mem) (dense : Bool) (base o n : Nat) : List Nat :=
  (List.range n).map (fun i => m.octet dense base (o + i))

/-- A number with octet j replaced. -/
def putOct (v j x : Nat) : Nat := v - v / 2 ^ (8 * j) % 256 * 2 ^ (8 * j) + x % 256 * 2 ^ (8 * j)

/-- The bytes that writing octets at stream offset o gives, with the address of the first; a dense group that is written in
part keeps its other bits (R239). -/
def Mem.packed (m : Mem) (dense : Bool) (base o : Nat) (octs : List Nat) : Nat × List Byte :=
  if !dense then (base + o, octs.map (fun x => BitVec.ofNat 9 (x % 256)))
  else
    let q0 := o / 9
    let nq := if octs.length = 0 then 0 else (o + octs.length - 1) / 9 + 1 - q0
    let group (q : Nat) : List Byte :=
      valBytes ((List.range 9).foldl (fun v j =>
        if o ≤ 9 * q + j ∧ 9 * q + j < o + octs.length then putOct v j (octs.getD (9 * q + j - o) 0) else v)
        (m.read (base + 8 * q) 8)) 8
    (base + 8 * q0, (List.range nq).flatMap (fun i => group (q0 + i)))

/-- Bytes cut at the line boundaries: address and bytes of each line. The first argument bounds the number of lines. -/
def byLine : Nat → Nat → List Byte → List (Nat × List Byte)
  | 0, _, _ => []
  | n + 1, pa, bs =>
    if bs.isEmpty then [] else
    let room := 64 - pa % 64
    (pa, bs.take room) :: byLine n (pa + room) (bs.drop room)

/-- A write of the Landing, line by line (WrInv). -/
def State.wrDev (s : State) (pa : Nat) (bs : List Byte) : State :=
  (byLine (bs.length / 64 + 2) pa bs).foldl (fun s e => s.wrInv e.1 e.2) s

/-- Octets written by the Landing. -/
def State.wrOctets (s : State) (dense : Bool) (base o : Nat) (octs : List Nat) : State :=
  let r := s.mem.packed dense base o octs
  s.wrDev r.1 r.2

end Sys2Proof.Machine
end

