-- ==== Sys2Proof/Machine/Journal.lean ====
section
/-!
DEFINITION. The Manifest's journal (R512 to R528): logical time, the state hash, chunk ends, ordering tokens, the input
agent, records and blocks. A core has an entry in `mftc` exactly while its compartment records.
-/
namespace Sys2Proof.Machine

/-! ## CRC-64 (R521) -/

def crcOctet (crc o : Nat) : Nat :=
  (List.range 8).foldl (fun c _ =>
    let d := c * 2 % 2 ^ 64
    if 2 ^ 63 ≤ c then d ^^^ 0x42F0E1EBA9EA3693 else d) (crc ^^^ (o % 256 * 2 ^ 56))
def crcOctets (crc : Nat) (l : List Nat) : Nat := l.foldl crcOctet crc
/-- One 12-octet item: a 16-bit code and an 80-bit value. -/
def crcItem (crc code v : Nat) : Nat := crcOctets crc (valOct code 2 ++ valOct v 10)

/-! ## Records -/

/-- A record as 16-octet slots (Table 20-5). -/
def MftRec.slots (r : MftRec) : List Nat :=
  (r.type + r.agent * 2 ^ 8 + r.offset % 65536 * 2 ^ 16 + r.chunk % 2 ^ 32 * 2 ^ 32 + r.data % 2 ^ 64 * 2 ^ 64) :: r.cont

def State.sess (s : State) (n : Nat) : MftSess := smGet MftSess.none s.mft n
def State.setSess (s : State) (n : Nat) (m : MftSess) : State := { s with mft := smSet s.mft n m }
/-- NB of R522. -/
def State.mftBlocks (s : State) (n : Nat) : Nat := match s.cmpSec n with
  | some c => c.mftLen / 512
  | none => 0
/-- Blocks in the ring, written and not released. -/
def State.mftUsed (s : State) (n : Nat) : Nat :=
  ((s.ctlD (o_mftWidx n) 0).toNat + 2 ^ 32 - (s.ctlD (o_mftRidx n) 0).toNat) % 2 ^ 32
def State.mftFull (s : State) (n : Nat) : Bool := s.mftUsed n == s.mftBlocks n

/-- LOWSPACE and the MFTLOW notice follow the free blocks (R524, Table 2-14). -/
def State.mftSpace (s : State) (n : Nat) : State :=
  let low : Bool := decide (s.mftBlocks n < s.mftUsed n + fget (s.ctlD (o_mftCtrl n) 0) 15 0) && s.recording n
  (s.ctlMod (o_mftCstate n) (fun v => fone v 24 low)).ctlMod (o_chtKnote n) (fun v => fone v 29 low)

/-- The first block's worth of waiting slots is encrypted and written to the ring (R522, R523). -/
def State.mftBlock (s : State) (n : Nat) : State :=
  let m := s.sess n
  match s.cmpSec n with
  | none => s
  | some c =>
    let body := m.slots.take 34
    let head := valOct m.bseq 8 ++ valOct m.session 4 ++ [body.length, n, 0, 0]
    let plain := (body ++ List.replicate (34 - body.length) 0).flatMap (fun v => valOct v 16)
    let sealed_ := Config.gcmEncrypt m.key (valOct m.session 4 ++ valOct m.bseq 8) head plain
    let octs := head ++ (List.range 560).map (fun i => sealed_.getD i 0 % 256)
    let s := s.wrOctets true (c.mftBase + 512 * (m.bseq % (c.mftLen / 512))) 0 octs
    let s := s.setSess n { m with slots := m.slots.drop 34, bseq := m.bseq + 1 }
    (s.ctlMod (o_mftWidx n) (· + 1)).mftSpace n

/-- Every waiting slot is written, the last block partly filled. -/
def State.mftFlush (s : State) (n : Nat) : Nat → State
  | 0 => s
  | f + 1 => if (s.sess n).slots.isEmpty || s.mftFull n then s else (s.mftBlock n).mftFlush n f

/-- A record joins those that wait for a block. -/
def State.mftPut (s : State) (n : Nat) (r : MftRec) : State :=
  let m := s.sess n
  s.setSess n { m with slots := m.slots ++ r.slots }

def State.setMftc (s : State) (k : Nat) (m : MftCore) : State := { s with mftc := smSet s.mftc k m }

/-- A merging-buffer entry of the core holds stores that retired in a chunk. -/
def State.chunkStores (s : State) (k chunk : Nat) : Bool := (s.core k).mb.any (·.chunk == chunk)

/-- The end records whose chunk has had its last entry accepted are written (R513). -/
def State.mftRelease (s : State) (k : Nat) : State :=
  match smFind? s.mftc k, s.cmpOf k with
  | some c, some n =>
    if c.ended.isEmpty then s else
    let go := c.ended.filter (fun r => !s.chunkStores k r.chunk)
    go.foldl (fun s r => s.mftPut n r) (s.setMftc k { c with ended := c.ended.filter (fun r => s.chunkStores k r.chunk) })
  | _, _ => s

/-- The end records that still wait are written: the session ends. -/
def State.mftReleaseAll (s : State) (k : Nat) : State :=
  match smFind? s.mftc k, s.cmpOf k with
  | some c, some n => c.ended.foldl (fun s r => s.mftPut n r) (s.setMftc k { c with ended := [] })
  | _, _ => s

/-- A core's chunk ends (R513): its end record with the state hash, and a new chunk. The record waits for the chunk's last
store. Causes: Table 20-6. -/
def State.mftEndChunk (s : State) (k cause : Nat) : State :=
  match smFind? s.mftc k, s.cmpOf k with
  | some c, some n =>
    let crc := crcItem c.crc 0x300 (s.core k).pc
    let r : MftRec := ⟨cause, s.rank k, c.len, c.chunk, crc, []⟩
    let waits := s.chunkStores k c.chunk
    let s := if waits then s else s.mftPut n r
    let s := s.ctlInc (o_mftChunks n)
    (s.setMftc k { MftCore.start with chunk := c.chunk + 1, ended := if waits then c.ended ++ [r] else c.ended }).count k 0x36 1
  | _, _ => s

/-- The input agent's chunk ends (R516). -/
def State.mftEndInput (s : State) (n : Nat) : State :=
  let m := s.sess n
  s.setSess n { m with inChunk := m.inChunk + 1, inCount := 0, inLines := [] }

/-- The session ends (R528): every chunk ends, the END record is written, the last block is flushed. Chunks on an isolated Grove
end without a record (R533). -/
def State.mftEnd (s : State) (n cause : Nat) : State :=
  if s.recording n then
    let s := ((s.coresOf n).filter (fun k => !s.links.isolated.contains (k / 20))).foldl (fun s k => (s.mftEndChunk k 5).mftReleaseAll k) s
    let s := s.mftEndInput n
    let s := s.mftPut n ⟨0x72, 255, 0, (s.sess n).inChunk, cause, []⟩
    let s := s.mftFlush n ((s.sess n).slots.length + 1)
    let s := { s with mftc := s.mftc.filter (fun e => s.cmpOf e.1 != some n) }
    let s := s.modCores (fun k c => if s.cmpOf k = some n then { c with mftFrozen := false } else c)
    let s := s.ctlMod (o_mftCstate n) (fun v => fset (fset v 31 29 4) 28 25 cause)
    (s.mftSpace n).event 0 0x062 landing (some n) 0 cause 0
  else s

/-- An event of a recording core is journalled (R518). With the ring full the core freezes, or the session ends (R524). -/
def State.mftEvent (s : State) (k type data : Nat) (cont : List Nat) : State :=
  match smFind? s.mftc k, s.cmpOf k with
  | some c, some n =>
    if !s.recording n then s
    else if s.mftFull n && fbit (s.ctlD (o_mftCtrl n) 0) 30 then s.mftEnd n 2
    else
      let s := s.mftPut n ⟨type, s.rank k, c.len, c.chunk, data, cont⟩
      if s.mftFull n then
        ((s.modCore k (fun c => { c with mftFrozen := true })).ctlInc (o_mftStalls n)).count k 0x35 1
      else s
  | _, _ => s

/-! ## Replay (R529 to R531): what a core reads from the records -/

/-- The core runs from the records of a replay. -/
def State.replaying (s : State) (k : Nat) : Bool :=
  match s.cmpOf k with
  | some n => s.mftMode n == 3
  | none => false

/-- The replay stops at a divergence (R531, Table 20-7). -/
def State.mftDiverge (s : State) (n kind agent chunk off : Nat) : State :=
  let s := s.ctlSet o_mftDivinfo (r32 (2 ^ 31 + kind * 2 ^ 27 + n * 2 ^ 22 + agent % 256 * 2 ^ 14))
  let s := (s.ctlSet o_mftDivchunk (r32 chunk)).ctlSet o_mftDivpos (r32 (off % 65536))
  let s := s.ctlMod (o_mftCstate n) (fun v => fset (fset v 31 29 5) 28 25 6)
  let s := s.ctlMod o_mftStatus (fun v => fone v 30 false)
  let s := { s with mftc := s.mftc.filter (fun e => s.cmpOf e.1 != some n) }
  let s := s.modCores (fun k c => if s.cmpOf k = some n ∧ c.run ≠ .absent then { c with run := .stopped, mftFrozen := false } else c)
  if s.cmpState n = .stopped then s else (s.setCmpState n .stopped).event 0 0x011 landing (some n) s.live.chartId 3 0

/-- The next record of a replayed core, when it stands at the core's logical time. -/
def State.mftNext (s : State) (k : Nat) : Option MftRec :=
  if !s.replaying k then none else
  match smFind? s.mftc k with
  | some c => match c.replay with
    | r :: _ => if r.chunk = c.chunk ∧ r.offset = c.len then some r else none
    | [] => none
  | none => none

/-- The next record has been applied. -/
def State.mftTake (s : State) (k : Nat) : State :=
  match smFind? s.mftc k with
  | some c => s.setMftc k { c with replay := c.replay.drop 1 }
  | none => s

/-- A value from outside the program (Table 20-2): journalled while the core records; taken from its record in a replay,
which diverges when the record is of another kind. -/
def State.nondet (s : State) (k type v : Nat) (cont : List Nat) : State × Nat :=
  if !s.replaying k then (s.mftEvent k type (v % 2 ^ 64) cont, v)
  else match s.mftNext k with
    | some r =>
      if r.type = type then (s.mftTake k, r.data + 2 ^ 64 * (r.cont.headD 0 % 256))
      else match s.cmpOf k with
        | some n => (s.mftDiverge n 2 (s.rank k) r.chunk r.offset, v)
        | none => (s, v)
    | none => match s.cmpOf k, smFind? s.mftc k with
      | some n, some c => (s.mftDiverge n 2 (s.rank k) c.chunk c.len, v)
      | _, _ => (s, v)

/-- A write is fed to the state hash (Table 20-3). -/
def State.mftItem (s : State) (k code v : Nat) : State :=
  match smFind? s.mftc k with
  | some c => s.setMftc k { c with crc := crcItem c.crc code v }
  | none => s

/-- Units retire (R512). CHUNK_LIMIT ends a chunk that has no room for the next group. -/
def State.mftRetire (s : State) (k n : Nat) : State :=
  match smFind? s.mftc k with
  | some c => s.setMftc k { c with len := c.len + n }
  | none => s

/-- The length recorded for the current chunk of a replayed core. -/
def MftCore.limit (c : MftCore) : Nat :=
  match c.replay.find? (fun r => decide (1 ≤ r.type) && decide (r.type ≤ 5)) with
  | some r => if r.offset = 0 ∧ r.type = 1 then 65536 else r.offset
  | none => 65536

/-- The chunk has room for a group of n units (R513); in a replay it ends at its recorded length (R529). -/
def State.chunkRoom (s : State) (k n : Nat) : Bool :=
  match smFind? s.mftc k with
  | some c => decide (c.len + n ≤ if s.replaying k then c.limit else 65536)
  | none => true

/-- Ordering token: chunk `ec` of agent `ea` precedes the current chunk of core k (R514). -/
def State.mftOrder (s : State) (n ea ec la lc : Nat) : State := s.mftPut n ⟨0x10, la, 0, lc, ea + ec * 256, []⟩

/-- The number of a core's current chunk. -/
def State.chunkOf (s : State) (k : Nat) : Nat := match smFind? s.mftc k with
  | some c => c.chunk
  | none => 0

/-- An access of a core reaches a line: conflicts with the other cores' current chunks and with the input agent's (R338,
R516), then its own mark. `lc` is the chunk in which it retired (R513). -/
def State.mftMarkAt (s : State) (k lc line : Nat) (isWrite : Bool) : State :=
  match smFind? s.mftc k, s.cmpOf k with
  | some _, some n =>
    if !s.recording n then s else
    let s := (s.mftc.filter (fun e => e.1 != k && s.cmpOf e.1 == some n)).foldl (fun s e =>
      if e.2.writes.contains line || (isWrite && e.2.reads.contains line) then
        (s.mftEndChunk e.1 2).mftOrder n (s.rank e.1) e.2.chunk (s.rank k) lc
      else s) s
    let m := s.sess n
    let s := if m.inLines.contains line then (s.mftEndInput n).mftOrder n 255 m.inChunk (s.rank k) lc else s
    match smFind? s.mftc k with
    | some c =>
      if isWrite then (if c.writes.contains line then s else s.setMftc k { c with writes := line :: c.writes })
      else if c.reads.contains line then s else s.setMftc k { c with reads := line :: c.reads }
    | none => s
  | _, _ => s

def State.mftMark (s : State) (k line : Nat) (isWrite : Bool) : State := s.mftMarkAt k (s.chunkOf k) line isWrite

/-- The 72 octets of a line with a byte mask (Table 20-6). -/
def lineOctets (line mask : Nat) (byte : Nat → Byte) : List Nat :=
  let v := (List.range 64).foldl (fun a q =>
    if mask / 2 ^ q % 2 = 1 then a + (byte (line * 64 + q)).toNat * 2 ^ (9 * q) else a) 0
  valOct v 72

/-- An agent outside the cores writes a line of a recording compartment (R516, R517). `hash`: the line may be journalled as
a hash. Call it after the write, with the mask of the bytes written. -/
def State.mftInput (s : State) (n line mask source : Nat) (hash : Bool) : State :=
  if !s.recording n then s else
  let s := (s.mftc.filter (fun e => s.cmpOf e.1 == some n)).foldl (fun s e =>
    if e.2.writes.contains line || e.2.reads.contains line then
      let s := s.mftEndChunk e.1 3
      s.mftOrder n (s.rank e.1) e.2.chunk 255 (s.sess n).inChunk
    else s) s
  let octs := lineOctets line mask s.mem.byte
  let h := hash && !fbit (s.ctlD (o_mftCtrl n) 0) 29
  let m := s.sess n
  let cont : List Nat :=
    if h then [mask + crcOctets 0xFFFFFFFFFFFFFFFF octs * 2 ^ 64]
    else let v := mask + octVal octs * 2 ^ 64
         (List.range 5).map (fun i => v / 2 ^ (128 * i) % 2 ^ 128)
  let s := s.mftPut n ⟨0x20, 255, m.inCount, m.inChunk, line + (if h then 2 ^ 36 else 0) + source * 2 ^ 37, cont⟩
  let m := s.sess n
  let s := s.setSess n { m with inCount := m.inCount + 1, inLines := line :: m.inLines }
  if 256 ≤ m.inCount + 1 then s.mftEndInput n else s

end Sys2Proof.Machine
end

