-- ==== Sys2Proof/Decode.lean ====
section
/-!
DEFINITION. The instruction word of a core: its fields (R97, R98), the causes for which it is undefined (R103 to
R119), the instruction it spells (Tables 4-3 to 4-9, 4-13), and the host's entry `decodeTableWord`.
The table of this block gives no row any bits, so `decodeTableWord` reads no command from a word.
-/
namespace Sys2Proof

/-! ## Fields (Table 4-1) -/

/-- Bits hi:lo of a word, as a number. -/
def fld (w : Word) (hi lo : Nat) : Nat := w.toNat / 2 ^ lo % 2 ^ (hi + 1 - lo)

/-- The pair bit P (R97). -/
def pairBit (w : Word) : Bool := fld w 35 35 == 1
/-- The major opcode (R97). -/
def opcodeOf (w : Word) : Nat := fld w 34 29
def dstOf (w : Word) : Nat := fld w 28 23
def srcAOf (w : Word) : Nat := fld w 22 17
def srcBOf (w : Word) : Nat := fld w 16 11
/-- The function code of opcodes 1 to 7 (R104). -/
def codeOf (w : Word) : Nat := fld w 4 0
/-- Function bit 10: the instruction is asked to set FL (R104). -/
def flagBit (w : Word) : Bool := fld w 10 10 == 1
/-- imm17, sign-extended to a word (R107). -/
def immSx (w : Word) : Word := (w.extractLsb' 0 17).signExtend 36
/-- imm17, zero-extended to a word (R107). -/
def immZx (w : Word) : Word := (w.extractLsb' 0 17).setWidth 36
/-- The segment field of format M. -/
def segOf (w : Word) : Nat := fld w 16 14
/-- The update mode of format M. -/
def updOf (w : Word) : Nat := fld w 13 12
/-- disp12 of format M, sign-extended. -/
def dispOf (w : Word) : Int := (w.extractLsb' 0 12).toInt
/-- The condition field of format B. -/
def condOf (w : Word) : Nat := fld w 28 25
/-- disp25 of format B, sign-extended, in words. -/
def disp25Of (w : Word) : Int := (w.extractLsb' 0 25).toInt
def sysfnOf (w : Word) : Nat := fld w 16 11
def argOf (w : Word) : Nat := fld w 10 0
/-- The scale of an M-format opcode in bytes (Table 4-11). -/
def scaleOf (op : Nat) : Nat :=
  match op with
  | 16 => 1 | 17 => 1 | 24 => 1
  | 18 => 2 | 19 => 2 | 25 => 2
  | 21 => 8 | 27 => 8
  | 22 => 16 | 28 => 16
  | 23 => 64
  | _ => 4

/-- The pairing classes of Table 4-2; `none` is an unassigned opcode. -/
inductive PairClass where
  | alu | mem | br | pfx | sys | none
  deriving DecidableEq, Repr

def classOf (w : Word) : PairClass :=
  let op := opcodeOf w
  if op = 0 then .none
  else if op ≤ 15 then .alu
  else if op ≤ 31 then .mem
  else if op ≤ 34 then .br
  else if op ≤ 36 then .pfx
  else if op = 40 then .sys
  else if 56 ≤ op then .mem
  else .none

/-! ## The causes of UD (Table 4-14)

Each list holds the sub-codes that apply to one word; R119 reports the smallest. -/

/-- A cause that applies when the condition holds. -/
def cause (b : Bool) (n : Nat) : List Nat := if b then [n] else []
/-- REGISTER: an odd register named as a pair (R68, R106). -/
def oddPair (r : Nat) : List Nat := cause (r % 2 == 1) 6
/-- REGISTER: an accumulator number above 3 (R106). -/
def badAcc (r : Nat) : List Nat := cause (3 < r) 6
/-- RESERVED: a field that must be zero is not (R99). -/
def notZero (v : Nat) : List Nat := cause (v != 0) 4
/-- RESERVED: a srcB immediate above its range (Table 4-10). -/
def immAbove (v m : Nat) : List Nat := cause (m < v) 4
/-- FUNCTION: function bits 9:5, or F where it is not permitted (R104). -/
def fnCauses (w : Word) (fOk : Bool) : List Nat :=
  cause (fld w 9 5 != 0) 3 ++ cause (flagBit w && !fOk) 3

/-- INT, opcode 1 (Table 4-4). -/
def udInt (w : Word) : List Nat :=
  let c := codeOf w
  let fOk : Bool := c ≤ 15 || (23 ≤ c && c ≤ 26)
  fnCauses w fOk ++
  (if c = 31 then [3]
   else if 12 ≤ c ∧ c ≤ 15 then immAbove (srcBOf w) 35
   else if c = 16 then notZero (dstOf w)
   else if c = 23 ∨ c = 24 ∨ c = 27 ∨ c = 28 then notZero (srcBOf w)
   else if c = 29 then immAbove (srcAOf w) 1 ++ notZero (srcBOf w)
   else if c = 30 then immAbove (dstOf w) 1 ++ notZero (srcBOf w)
   else [])

/-- WIDE, opcode 2 (Table 4-5). -/
def udWide (w : Word) : List Nat :=
  let c := codeOf w; let d := dstOf w; let a := srcAOf w; let b := srcBOf w
  fnCauses w (c ≤ 3 || c == 9) ++
  (if c ≤ 3 then oddPair d ++ oddPair a ++ oddPair b
   else if c ≤ 6 then oddPair d ++ oddPair a
   else if c = 7 then notZero d ++ oddPair a ++ oddPair b
   else if c ≤ 9 then oddPair d ++ oddPair a ++ notZero b
   else if c = 10 then []
   else if c ≤ 12 then immAbove b 1
   else if c ≤ 14 then immAbove b 3
   else if c = 15 then immAbove b 1
   else if c = 16 then immAbove b 3
   else [3])

/-- MULDIV, opcode 3 (Table 4-6). -/
def udMulDiv (w : Word) : List Nat :=
  let c := codeOf w; let d := dstOf w; let a := srcAOf w; let b := srcBOf w
  fnCauses w false ++
  (if c = 3 ∨ c = 4 then oddPair d
   else if c ≤ 5 then []
   else if c ≤ 7 then [3]
   else if c ≤ 11 then []
   else if c ≤ 15 then oddPair d ++ oddPair a ++ oddPair b
   else [3])

/-- LANE, opcode 4 (Table 4-7). -/
def udLane (w : Word) : List Nat :=
  let c := codeOf w; let d := dstOf w; let a := srcAOf w; let b := srcBOf w
  let k := c % 16
  fnCauses w false ++
  (if 12 ≤ k then [3]
   else if k = 7 then oddPair d ++ oddPair a ++ notZero b
   else if k = 8 ∨ k = 9 then oddPair d ++ oddPair a ++ immAbove b (if c < 16 then 17 else 35)
   else oddPair d ++ oddPair a ++ oddPair b)

/-- MAC, opcode 5 (Table 4-8). -/
def udMac (w : Word) : List Nat :=
  let c := codeOf w; let d := dstOf w; let a := srcAOf w; let b := srcBOf w
  fnCauses w false ++
  (if c ≤ 2 then badAcc d ++ oddPair a ++ oddPair b
   else if c ≤ 5 then badAcc d
   else if c ≤ 7 then [3]
   else if c = 8 then badAcc d ++ notZero a ++ notZero b
   else if c = 9 then badAcc d ++ notZero b
   else if c = 10 then badAcc d ++ badAcc a ++ notZero b
   else if c = 11 then badAcc d ++ notZero a ++ immAbove b 63
   else if c = 12 then badAcc a ++ notZero b
   else if c = 13 then badAcc a ++ immAbove b 63
   else if c = 14 then oddPair d ++ badAcc a ++ immAbove b 63
   else if c = 15 then oddPair d ++ badAcc a ++ notZero b
   else if c = 16 then badAcc d ++ oddPair a
   else [3])

/-- F36, opcode 6 (Table 4-9). -/
def udF36 (w : Word) : List Nat :=
  let c := codeOf w
  fnCauses w false ++
  (if c = 15 ∨ 24 ≤ c then [3]
   else if c = 12 then notZero (dstOf w)
   else if c = 4 ∨ c = 10 ∨ c = 11 ∨ c = 13 ∨ (16 ≤ c ∧ c ≤ 22) then notZero (srcBOf w)
   else if c = 23 then oddPair (srcAOf w) ++ notZero (srcBOf w)
   else [])

/-- F72, opcode 7 (Table 4-9). -/
def udF72 (w : Word) : List Nat :=
  let c := codeOf w; let d := dstOf w; let a := srcAOf w; let b := srcBOf w
  fnCauses w false ++
  (if c = 15 ∨ 24 ≤ c then [3]
   else if c = 12 then notZero d ++ oddPair a ++ oddPair b
   else if c = 13 then oddPair a ++ notZero b
   else if c = 23 then oddPair d ++ notZero b
   else if c = 4 ∨ c = 10 ∨ c = 11 ∨ 16 ≤ c then oddPair d ++ oddPair a ++ notZero b
   else oddPair d ++ oddPair a ++ oddPair b)

/-- Loads, stores and atomics, opcodes 16 to 31 (Table 4-11, R109). -/
def udMem (w : Word) : List Nat :=
  let op := opcodeOf w; let d := dstOf w; let b := srcAOf w; let u := updOf w
  let isLoad : Bool := op ≤ 21
  cause (u == 3) 5 ++
  (if op = 29 ∨ op = 30 then cause (u != 0) 5 ++ notZero (fld w 10 0)
   else if op = 31 then cause (u != 0) 5 ++ notZero (fld w 11 0)
   else if op = 22 ∨ op = 28 then cause (7 < d) 6
   else if op = 23 then cause (1 < d) 3
   else (if op = 21 ∨ op = 27 then oddPair d else []) ++
     cause (isLoad && (u == 1 || u == 2) &&
       (d == b || (op == 21 && d % 2 == 0 && d + 1 == b))) 6)

/-- JRL, opcode 34 (R110). -/
def udJrl (w : Word) : List Nat := cause (fld w 10 4 != 0) 3 ++ notZero (srcBOf w)

/-- The RPT and RPTU words themselves (R114 to R116). -/
def udRptWord (w : Word) : List Nat :=
  cause (pairBit w) 2 ++
  (if opcodeOf w = 35 then
    (if fld w 28 28 = 0 then notZero (fld w 27 18)
     else notZero (fld w 27 23) ++ notZero (fld w 16 0))
   else notZero (fld w 28 9) ++ cause (fld w 8 0 == 0 || 256 < fld w 8 0) 10)

/-- The CS numbers that Table 3-5 lists. -/
def csListed (n : Nat) : Bool := n ≤ 20
/-- CS.TIME and CS.EADDR are read as pairs (R85, R618). -/
def csPairRead (n : Nat) : Bool := n == 16 || n == 7

/-- The system operations, opcode 40 (R112, Table 4-13). -/
def udSys (w : Word) : List Nat :=
  let r := dstOf w; let r2 := srcAOf w; let a := argOf w
  match sysfnOf w with
  | 0 => cause (!csListed a) 7 ++ notZero r2 ++ (if csPairRead a then oddPair r else [])
  | 1 => cause (!csListed a) 7 ++ notZero r ++ (if a = 7 then oddPair r2 else [])
  | 2 => cause (!csListed a) 7 ++ (if csPairRead a then oddPair r else []) ++
      (if a = 7 then oddPair r2 else [])
  | 3 => notZero r ++ notZero r2
  | 4 => notZero r ++ notZero r2
  | 5 => notZero r ++ notZero r2 ++ notZero a
  | 6 => notZero r ++ notZero r2 ++ notZero a
  | 7 => notZero r ++ notZero r2 ++ cause (a % 4 == 0) 3 ++ notZero (a / 4)
  | 8 => oddPair r ++ notZero (a / 2)
  | 9 => notZero r ++ cause (a % 4 == 3) 3 ++ notZero (a / 8) ++ (if a % 4 = 2 then notZero r2 else [])
  | 10 => notZero r ++ notZero r2 ++ notZero a
  | 11 => notZero r ++ oddPair r2 ++ cause (a % 4 == 0) 3 ++ notZero (a / 4)
  | 12 => notZero r ++ notZero r2 ++ notZero a
  | _ => [3]

/-- The causes a word carries by itself. `xop` gives the causes of an X-block word under the loaded
Understorey configuration (R113, R210). -/
def udCauses (xop : Word → List Nat) (w : Word) : List Nat :=
  let op := opcodeOf w
  if op = 1 then udInt w
  else if op = 2 then udWide w
  else if op = 3 then udMulDiv w
  else if op = 4 then udLane w
  else if op = 5 then udMac w
  else if op = 6 then udF36 w
  else if op = 7 then udF72 w
  else if op = 13 then notZero (dstOf w)
  else if 8 ≤ op ∧ op ≤ 15 then []
  else if 16 ≤ op ∧ op ≤ 31 then udMem w
  else if op = 32 ∨ op = 33 then []
  else if op = 34 then udJrl w
  else if op = 35 ∨ op = 36 then udRptWord w
  else if op = 40 then udSys w
  else if 56 ≤ op then xop w
  else [1]

/-- The smallest cause, when there is one (R119). -/
def least (l : List Nat) : Option Nat :=
  l.foldl (fun acc n => match acc with | none => some n | some m => some (min m n)) none

/-- A pair breaks R102: two of class MEM, BR in the first slot, or any SYS or PFX. -/
def illegalPair (w1 w2 : Word) : Bool :=
  let c1 := classOf w1; let c2 := classOf w2
  (c1 == .mem && c2 == .mem) || c1 == .br || c1 == .sys || c2 == .sys || c1 == .pfx || c2 == .pfx

/-- UD of a word issued alone: the sub-code and the offending word. An odd word must have P = 0 (R100). -/
def udSingle (xop : Word → List Nat) (oddWord : Bool) (w : Word) : Option (Nat × Word) :=
  (least (cause (oddWord && pairBit w) 2 ++ udCauses xop w)).map (·, w)

/-- UD of a pair (R102, R118, R119): the smallest sub-code, and the first word when the pair rule itself is
broken or when both words carry that sub-code. -/
def udPair (xop : Word → List Nat) (w1 w2 : Word) : Option (Nat × Word) :=
  let c1 := udCauses xop w1
  let c2 := cause (pairBit w2) 2 ++ udCauses xop w2
  let bad := illegalPair w1 w2
  match least (cause bad 2 ++ c1 ++ c2) with
  | none => none
  | some n =>
    if (n = 2 ∧ bad) ∨ n ∈ c1 then some (n, w1) else some (n, w2)

/-- The causes the target of a repeat carries (R116): P = 1, a forbidden kind, and its own. WRRC with selector 0
is forbidden. -/
def udTargetCauses (xop : Word → List Nat) (t : Word) : List Nat :=
  let c := classOf t
  cause (pairBit t) 2 ++
  cause (c == .br || c == .sys || c == .pfx ||
    (opcodeOf t == 1 && codeOf t == 30 && dstOf t == 0)) 9 ++
  udCauses xop t

/-- UD of a repeat and its target: the repeat's own causes are decided first (R119). -/
def udRepeat (xop : Word → List Nat) (w t : Word) : Option (Nat × Word) :=
  match least (udRptWord w) with
  | some n => some (n, w)
  | none => (least (udTargetCauses xop t)).map (·, t)

/-! ## The instruction a word spells (Tables 4-3 to 4-9 and 4-13) -/

def decodeInt (x : At) (w : Word) : Option Instr :=
  match codeOf w with
  | 0 => some (.add x w) | 1 => some (.sub x w) | 2 => some (.addc x w) | 3 => some (.subc x w)
  | 4 => some (.and x w) | 5 => some (.or x w) | 6 => some (.xor x w) | 7 => some (.andn x w)
  | 8 => some (.shl x w) | 9 => some (.shr x w) | 10 => some (.sar x w) | 11 => some (.rol x w)
  | 12 => some (.shli x w) | 13 => some (.shri x w) | 14 => some (.sari x w) | 15 => some (.roli x w)
  | 16 => some (.cmp x w) | 17 => some (.slt x w) | 18 => some (.sltu x w) | 19 => some (.min x w)
  | 20 => some (.max x w) | 21 => some (.minu x w) | 22 => some (.maxu x w) | 23 => some (.abs x w)
  | 24 => some (.neg x w) | 25 => some (.adds x w) | 26 => some (.subs x w) | 27 => some (.clz x w)
  | 28 => some (.popc x w)
  | 29 => some (if srcAOf w = 0 then .rdrc x w else .rdfl x w)
  | 30 => some (if dstOf w = 0 then .wrrc x w else .wrfl x w)
  | _ => none

def decodeWide (x : At) (w : Word) : Option Instr :=
  match codeOf w with
  | 0 => some (.addd x w) | 1 => some (.subd x w) | 2 => some (.addcd x w) | 3 => some (.subcd x w)
  | 4 => some (.shld x w) | 5 => some (.shrd x w) | 6 => some (.sard x w) | 7 => some (.cmpd x w)
  | 8 => some (.movd x w) | 9 => some (.negd x w) | 10 => some (.packh x w) | 11 => some (.exth x w)
  | 12 => some (.exths x w) | 13 => some (.extb x w) | 14 => some (.extbs x w) | 15 => some (.insh x w)
  | 16 => some (.insb x w)
  | _ => none

def decodeMulDiv (x : At) (w : Word) : Option Instr :=
  match codeOf w with
  | 0 => some (.mul x w) | 1 => some (.mulh x w) | 2 => some (.mulhu x w) | 3 => some (.muld x w)
  | 4 => some (.muldu x w) | 5 => some (.mulq x w)
  | 8 => some (.div x w) | 9 => some (.divu x w) | 10 => some (.rem x w) | 11 => some (.remu x w)
  | 12 => some (.divd x w) | 13 => some (.divdu x w) | 14 => some (.remd x w) | 15 => some (.remdu x w)
  | _ => none

def decodeLane (x : At) (w : Word) : Option Instr :=
  match codeOf w % 16 with
  | 0 => some (.ladd x w) | 1 => some (.lsub x w) | 2 => some (.ladds x w) | 3 => some (.lsubs x w)
  | 4 => some (.lmul x w) | 5 => some (.lmax x w) | 6 => some (.lmin x w) | 7 => some (.labs x w)
  | 8 => some (.lshl x w) | 9 => some (.lsar x w) | 10 => some (.lcmpeq x w) | 11 => some (.lcmplt x w)
  | _ => none

def decodeMac (x : At) (w : Word) : Option Instr :=
  match codeOf w with
  | 0 => some (.macH4 x w) | 1 => some (.msuH4 x w) | 2 => some (.maczH4 x w) | 3 => some (.macW x w)
  | 4 => some (.msuW x w) | 5 => some (.maczW x w) | 8 => some (.acclr x w) | 9 => some (.acwr x w)
  | 10 => some (.acadd x w) | 11 => some (.acsar x w) | 12 => some (.acrd x w) | 13 => some (.acrds x w)
  | 14 => some (.acrdd x w) | 15 => some (.acrdx x w) | 16 => some (.acwrx x w)
  | _ => none

def decodeFp (x : At) (w : Word) : Option Instr :=
  let n36 : Bool := opcodeOf w == 6
  match codeOf w with
  | 0 => some (.fadd x w) | 1 => some (.fsub x w) | 2 => some (.fmul x w) | 3 => some (.fdiv x w)
  | 4 => some (.fsqrt x w) | 5 => some (.fma x w) | 6 => some (.fms x w) | 7 => some (.fnma x w)
  | 8 => some (.fmin x w) | 9 => some (.fmax x w) | 10 => some (.fabs x w) | 11 => some (.fneg x w)
  | 12 => some (.fcmp x w) | 13 => some (.fclass x w) | 14 => some (.fsgnj x w)
  | 16 => some (if n36 then .cvt36W x w else .cvt72D x w)
  | 17 => some (if n36 then .cvt36Wu x w else .cvt72Du x w)
  | 18 => some (if n36 then .cvtW36 x w else .cvtD72 x w)
  | 19 => some (if n36 then .cvtWu36 x w else .cvtDu72 x w)
  | 20 => some (if n36 then .cvtW36Z x w else .cvtD72Z x w)
  | 21 => some (if n36 then .cvt36B32 x w else .cvt72B64 x w)
  | 22 => some (if n36 then .cvtB3236 x w else .cvtB6472 x w)
  | 23 => some (if n36 then .cvt3672 x w else .cvt7236 x w)
  | _ => none

def decodeSys (x : At) (w : Word) : Option Instr :=
  let a := argOf w
  match sysfnOf w with
  | 0 => some (.csrr x w) | 1 => some (.csrw x w) | 2 => some (.csrx x w)
  | 3 => some (.syscall x w) | 4 => some (.brk x w) | 5 => some (.eret x w) | 6 => some (.lwait x w)
  | 7 => match a % 4 with
    | 1 => some (.fenceL x w) | 2 => some (.fenceS x w) | 3 => some (.fenceA x w) | _ => none
  | 8 => some (.ifence x w)
  | 9 => match a % 4 with
    | 0 => some (.tlbiByAddress x w) | 1 => some (.tlbiByAsid x w) | 2 => some (.tlbiAll x w) | _ => none
  | 10 => some (.tsync x w)
  | 11 => match a % 4 with
    | 1 => some (.cmoClean x w) | 2 => some (.cmoInvalidate x w)
    | 3 => some (.cmoCleanAndInvalidate x w) | _ => none
  | 12 => some (.wait x w)
  | _ => none

/-- The instruction a fetched word spells; `target` is the word after it, which a repeat takes as its target.
`none` is a word that no row names: the core issues it as an undefined encoding. -/
def decodeCore (x : At) (w target : Word) : Option Instr :=
  match opcodeOf w with
  | 1 => decodeInt x w | 2 => decodeWide x w | 3 => decodeMulDiv x w | 4 => decodeLane x w
  | 5 => decodeMac x w | 6 => decodeFp x w | 7 => decodeFp x w
  | 8 => some (.addi x w) | 9 => some (.andi x w) | 10 => some (.ori x w) | 11 => some (.xori x w)
  | 12 => some (.ldhi x w) | 13 => some (.cmpi x w) | 14 => some (.slti x w) | 15 => some (.sltiu x w)
  | 16 => some (.ldb x w) | 17 => some (.ldbs x w) | 18 => some (.ldh x w) | 19 => some (.ldhs x w)
  | 20 => some (.ldw x w) | 21 => some (.ldd x w) | 22 => some (.ldsg x w) | 23 => some (.pref x w)
  | 24 => some (.stb x w) | 25 => some (.sth x w) | 26 => some (.stw x w) | 27 => some (.std x w)
  | 28 => some (.stsg x w) | 29 => some (.lr x w) | 30 => some (.sc x w) | 31 => some (.tas x w)
  | 32 => some (.br x w) | 33 => some (.call x w) | 34 => some (.jrl x w)
  | 35 => some (.rpt x w target) | 36 => some (.rptu x w target)
  | 40 => decodeSys x w
  | n => if 56 ≤ n then some (.xOperation x w) else none

/-- The host's question: no row of the table has bits, so a word spells no command. -/
def decodeTableWord (_nbits _w : Nat) : Option Instr := none

end Sys2Proof
end

