-- ==== Sys2Proof/Machine/Flags.lean ====
section
/-!
DEFINITION. Sums with carry and overflow, shifts with the bit shifted out, saturation, rounding, and the flags each
writes (Table 5-3, R71, R124, R126).
-/
namespace Sys2Proof.Machine

/-- A register write on its way, with its latency (R122). -/
abbrev Effs := List (Land × Nat)

/-- Z and N of a result (R124). -/
def flZN {n : Nat} (v : BitVec n) : Effs := [(.fl 0 (v == 0), 1), (.fl 1 v.msb, 1)]
def flC (b : Bool) : Effs := [(.fl 2 b, 1)]
def flV (b : Bool) : Effs := [(.fl 3 b, 1)]

/-- A sum with its carry out and its signed overflow (Table 5-3). -/
def addCarry {n : Nat} (a b : BitVec n) (cin : Bool) : BitVec n × Bool × Bool :=
  let s := a.toNat + b.toNat + cin.toNat
  let r : BitVec n := BitVec.ofNat n s
  (r, decide (2 ^ n ≤ s), decide (a.toInt + b.toInt + (cin.toNat : Int) ≠ r.toInt))

/-- A − B as A + NOT B + carry-in (R69). -/
def subCarry {n : Nat} (a b : BitVec n) (cin : Bool) : BitVec n × Bool × Bool := addCarry a (~~~b) cin

/-- The four flags of a sum. -/
def flSum {n : Nat} (r : BitVec n × Bool × Bool) : Effs := flZN r.1 ++ flC r.2.1 ++ flV r.2.2

/-- Saturation to a signed width: the value and whether it clipped (R71). -/
def satTo (n : Nat) (x : Int) : BitVec n × Bool :=
  let hi : Int := 2 ^ (n - 1) - 1
  let lo : Int := -(2 ^ (n - 1))
  if x < lo then (BitVec.ofInt n lo, true) else if hi < x then (BitVec.ofInt n hi, true) else (BitVec.ofInt n x, false)

/-- Sticky saturation, with the latency of the instruction. -/
def flQ (b : Bool) (lat : Nat) : Effs := if b then [(.q, lat)] else []

/-- Rounding shift, half up. -/
def rsh (x : Int) (s : Nat) : Int := if s = 0 then x else (x + 2 ^ (s - 1)) / 2 ^ s

/-- Left shift with the last bit shifted out; none for amount 0 (R126). -/
def shlC {n : Nat} (a : BitVec n) (s : Nat) : BitVec n × Option Bool :=
  (a <<< s, if s = 0 then none else some (decide (s ≤ n) && a.getLsbD (n - s)))

def shrC {n : Nat} (a : BitVec n) (s : Nat) : BitVec n × Option Bool :=
  (a >>> s, if s = 0 then none else some (decide (s ≤ n) && a.getLsbD (s - 1)))

def sarC {n : Nat} (a : BitVec n) (s : Nat) : BitVec n × Option Bool :=
  (a.sshiftRight s, if s = 0 then none else some (if s ≤ n then a.getLsbD (s - 1) else a.msb))

/-- Rotate left; the carry is the result's bit 0, unchanged for amount 0 modulo 36. -/
def rolC (a : Word) (s : Nat) : Word × Option Bool :=
  let r := a.rotateLeft (s % 36)
  (r, if s % 36 = 0 then none else some (r.getLsbD 0))

/-- Flags of a shift or a rotate. -/
def flShift {n : Nat} (r : BitVec n × Option Bool) : Effs :=
  flZN r.1 ++ (match r.2 with | some c => flC c | none => [])

/-- The condition of a branch on FL = Q V C N Z (Table 4-12). -/
def condHolds (c : Nat) (fl : BitVec 5) : Bool :=
  let z := fl.getLsbD 0; let n := fl.getLsbD 1; let cy := fl.getLsbD 2; let v := fl.getLsbD 3
  match c with
  | 0 => true | 1 => z | 2 => !z | 3 => cy | 4 => !cy | 5 => n | 6 => !n | 7 => v | 8 => !v
  | 9 => cy && !z | 10 => !cy || z | 11 => n == v | 12 => n != v | 13 => !z && n == v | 14 => z || n != v
  | _ => fl.getLsbD 4

end Sys2Proof.Machine
end

