-- ==== Sys2Proof/Machine/Operands.lean ====
section
/-!
DEFINITION. Register operands: reading single registers, pairs, accumulators and segment registers, the writes that
reach them, and how writes land (R68, R94, R135, R181, R183).
-/
namespace Sys2Proof.Machine

/-- A general register as an instruction reads it; W0 reads as zero (Table 3-1). -/
def Core.reg (c : Core) (r : Nat) : Word := if r = 0 then 0 else smGet 0 (c.opW.getD c.w) r
/-- A register pair W(r+1):Wr (R68). -/
def Core.regPair (c : Core) (r : Nat) : DWord := c.reg (r + 1) ++ c.reg r
def Core.acc (c : Core) (n : Nat) : Acc := smGet 0 c.ac n
/-- The newest value of an accumulator in program order (R135). -/
def Core.accChain (c : Core) (n : Nat) : Acc := smGet 0 c.acNew n
def Core.seg (c : Core) (n : Nat) : SegDesc := smGet SegDesc.null c.sg n
def Core.srcA (c : Core) (w : Word) : Word := c.reg (srcAOf w)
def Core.srcB (c : Core) (w : Word) : Word := c.reg (srcBOf w)
def Core.srcD (c : Core) (w : Word) : Word := c.reg (dstOf w)
def Core.pairA (c : Core) (w : Word) : DWord := c.regPair (srcAOf w)
def Core.pairB (c : Core) (w : Word) : DWord := c.regPair (srcBOf w)
def Core.pairD (c : Core) (w : Word) : DWord := c.regPair (dstOf w)
def Core.flagC (c : Core) : Bool := c.fl.getLsbD 2
/-- CS.FPCSR.RM. -/
def Core.rm (c : Core) : Nat := (c.fpcsr.extractLsb' 0 3).toNat
/-- Underflow is enabled as a trap. -/
def Core.trapUF (c : Core) : Bool := c.fpcsr.getLsbD 12
/-- EN_NV to EN_NX, in the order of the flags. -/
def Core.fpEnable (c : Core) : BitVec 5 := c.fpcsr.extractLsb' 11 5
def Core.user (c : Core) : Bool := c.status.getLsbD 0
def Core.ie (c : Core) : Bool := c.status.getLsbD 1
def Core.tr (c : Core) : Bool := c.status.getLsbD 2
def Core.ft (c : Core) : Bool := c.status.getLsbD 3

/-- A write of one register. -/
def wr (r : Nat) (v : Word) (lat : Nat) : Effs := [(.w r v, lat)]
/-- A write of a pair: both words land together (R181). -/
def wrPair (r : Nat) (v : DWord) (lat : Nat) : Effs :=
  [(.w r (v.extractLsb' 0 36), lat), (.w (r + 1) (v.extractLsb' 36 36), lat)]
def wrAc (n : Nat) (v : Acc) : Effs := [(.ac n v, 4)]

/-- A general register written at once; a write to W0 is discarded. -/
def Core.setReg (c : Core) (r : Nat) (v : Word) : Core :=
  if r = 0 then c else { c with w := smPut 0 c.w r v }

/-- FL with one of its bits replaced. -/
def setFl (fl : BitVec 5) (i : Nat) (b : Bool) : BitVec 5 :=
  if b then fl ||| ((1 : BitVec 5) <<< i) else fl &&& ~~~((1 : BitVec 5) <<< i)

/-- ORs floating-point flags into CS.FPCSR (R96). -/
def Core.orFp (c : Core) (v : BitVec 5) : Core := { c with fpcsr := c.fpcsr ||| ((v.setWidth 36) <<< 3) }

/-- One landing (R181). -/
def Core.land (c : Core) : Land → Core
  | .w r v => c.setReg r v
  | .ac n v => { c with ac := smPut 0 c.ac n v }
  | .sg n v => { c with sg := smPut SegDesc.null c.sg n v }
  | .fl i b => { c with fl := setFl c.fl i b }
  | .q => { c with fl := setFl c.fl 4 true }
  | .qw b => { c with fl := setFl c.fl 4 b }
  | .fp v => c.orFp v
  | .rc v => { c with rc := v }

/-- Two writes reach the same register or flag. Contributions that are ORed reach none. -/
def Land.same : Land → Land → Bool
  | .w a _, .w b _ => a == b
  | .ac a _, .ac b _ => a == b
  | .sg a _, .sg b _ => a == b
  | .fl a _, .fl b _ => a == b
  | .rc _, .rc _ => true
  | _, _ => false

/-- The writes that land discard the earlier writes, in program order, that have not landed (R181). -/
def Core.discard (c : Core) (landed : List (Land × Nat)) : Core :=
  let dead (l : Land) (seq : Nat) : Bool := landed.any (fun q => q.1.same l && decide (seq < q.2))
  { c with
    pend := c.pend.filter (fun p => !dead p.land p.seq)
    div := c.div.map (fun d => { d with lands := d.lands.filter (fun l => !dead l d.seq) })
    xops := c.xops.map (fun x =>
      { x with
        dropLo := x.dropLo || dead (.w x.dst 0) x.seq
        dropHi := x.dropHi || dead (.w (x.dst + 1) 0) x.seq }) }

/-- The writes that land in pipeline cycle `d`: in program order, each discarding what it overtakes (R181). -/
def Core.landCycle (c : Core) (d : Nat) : Core :=
  let now := c.pend.filter (fun p => p.due == d)
  let c' := { c with pend := c.pend.filter (fun p => !(p.due == d)) }
  now.foldl (fun c p => c.land p.land) (c'.discard (now.map (fun p => (p.land, p.seq))))

/-- A number enters an ascending list without repeats. -/
def insertUp (n : Nat) : List Nat → List Nat
  | [] => [n]
  | m :: r => if n < m then n :: m :: r else if n = m then m :: r else m :: insertUp n r

/-- The pipeline cycles by the present one in which writes land, in order of time. -/
def Core.landCycles (c : Core) : List Nat :=
  ((c.pend.map (·.due)).filter (fun d => decide (d ≤ c.pcyc))).foldr insertUp []

/-- Every write whose latency has passed by the present pipeline cycle lands, cycle by cycle (R181): a contribution to FL.Q that lands
after a WRFL is not lost to it. -/
def Core.landShort (c : Core) : Core := c.landCycles.foldl Core.landCycle c

/-- A fault waits to be delivered, in issue order. A core holds at most one of the divide unit and four of the Understorey (R278); which
fault is lost when there is no room the spec does not say, and the model loses the newest (log entry 101). -/
def Core.record (c : Core) (f : LongFault) : Core :=
  let mine := c.faults.filter (fun g => (g.code == 11) == (f.code == 11))
  if (if f.code = 11 then 4 else 1) ≤ mine.length then c
  else { c with faults := (c.faults.filter (fun g => decide (g.seq < f.seq))) ++ [f] ++
                          (c.faults.filter (fun g => !decide (g.seq < f.seq))) }

/-- A divide-unit operation lands (R183): its result, or its recorded fault; flags in either case (R77). -/
def Core.landDiv (c : Core) (d : DivOp) : Core :=
  let c := { c with div := c.div.filter (·.seq != d.seq) }
  match d.fault with
  | some f => (d.lands.foldl (fun c l => c.land l) c).record f
  | none => d.lands.foldl (fun c l => c.land l) (c.discard (d.lands.map (·, d.seq)))

/-- The divide-unit operations whose core cycle has come land, in issue order. -/
def Core.landDivDue (c : Core) : Core :=
  (c.div.filter (fun d => decide (d.due ≤ c.ccyc))).foldl (fun c d =>
    match c.div.find? (·.seq == d.seq) with
    | some d => c.landDiv d
    | none => c) c

/-- The newest write of each accumulator in program order. -/
def Core.noteAc (c : Core) (l : Land) : Core :=
  match l with
  | .ac n v => { c with acNew := smPut 0 c.acNew n v }
  | _ => c

/-- An instruction's writes set off, from the pipeline cycle in which it starts. -/
def Core.setOff (c : Core) (start : Nat) (es : Effs) : Core :=
  es.foldl (fun c e => (({ c with pend := c.pend ++ [⟨e.1, start + e.2, c.seq⟩] } : Core).noteAc e.1)) c

end Sys2Proof.Machine
end

