-- ==== Sys2Proof/Machine/Reach.lean ====
section
/-!
DEFINITION. Which frames, halves and registers a compartment reaches (R285, Table 11-11, and each block's chapter).
-/
namespace Sys2Proof.Machine

/-- The outcome of the check of R285. -/
inductive Reach where
  | ok
  /-- A user-mode access to a privileged half that the compartment reaches: PGF USER. -/
  | user
  /-- Anything else: PGF PHYS. -/
  | phys
  deriving DecidableEq, Repr

/-- The compartment owns some item of a kind. -/
def State.ownsAny (s : State) (n kind : Nat) : Bool := s.live.res.any (fun r => r.kind == kind && r.owner == n)

/-- An index into an array of per-slot sets, when the offset lies in it. -/
def setIndex (inner base stride count : Nat) : Option Nat :=
  if base ≤ inner ∧ inner < base + stride * count then some ((inner - base) / stride) else none

/-- The compartment reaches the register at this place, in the half it lies in. -/
def State.reaches (s : State) (n : Nat) (l : CtlLoc) : Bool :=
  let g := (l.off - 0x200000) / 0x100000
  let ownsSlot (i : Nat) : Bool := s.ownerOf 1 (g * 20 + i) == some n
  let steward : Bool := match s.cmpSec n with
    | some c => c.steward
    | none => false
  match l.blk with
  | .glb => l.unpriv
  | .cht => l.unpriv || steward
  | .grv => l.unpriv || (match setIndex l.inner 0x1000 16 20 with
      | some i => ownsSlot i
      | none => false)
  | .ust => s.ownerOf 9 g == some n
  | .l3 => (List.range 20).any ownsSlot && (match setIndex l.inner 0x1000 0x20 20 with
      | some i => ownsSlot i
      | none => match setIndex l.inner 0x2000 0x20 20 with
        | some i => ownsSlot i
        | none => true)
  | .pmu => match setIndex l.inner 0x1000 0x100 20 with
      | some i => ownsSlot i
      | none => false
  | .mft => match setIndex l.inner 0x100 0x20 32 with
      | some i => i == n
      | none => false
  | .evl => match setIndex l.inner 0x100 0x10 32 with
      | some i => i == n
      | none => false
  | .eng => s.ownerOf 7 ((l.off - 0x140000) / 0x1000) == some n
  | .qm => s.ownsAny n 4
  | .qmn => s.ownsAny n 4 && (match setIndex l.inner 0 4 240 with
      | some i => s.ownerOf 1 i == some n
      | none => true)
  | .qmd => s.ownsAny n 4
  | .nsws => s.ownsAny n 5
  | .tev => s.ownsAny n 5
  | .msec => s.ownerOf 8 0x1A == some n
  | .hepf => s.ownsAny n 6 && (match setIndex l.inner 0x100 0x10 32 with
      | some i => s.ownerOf 6 i == some n
      | none => true)
  | _ => false

def State.ctlReach (s : State) (n : Nat) (user : Bool) (off : Nat) : Reach :=
  match ctlLoc off with
  | none => .phys
  | some l => if !s.reaches n l then .phys else if user && !l.unpriv then .user else .ok

/-- PF0 answers for a frame: from boot step 4 on, and after a stop of Table 21-4 for four frames (R453, R540). -/
def State.frameUp (s : State) (off : Nat) : Bool :=
  match s.pwr.phase with
  | .run => true
  | .parking => true
  | .boot => decide (4 ≤ s.pwr.step)
  | .stopped => off / 0x10000 == 0 || off / 0x10000 == 5 || off / 0x10000 == 6 || off / 0x10000 == 7
  | _ => false

/-- The sender reaches the register at an offset (R285, R286). -/
def State.reach (s : State) (who : Sender) (off : Nat) : Bool :=
  match who with
  | .host => s.frameUp off
  | .core k => match s.cmpOf k with
    | some n => s.ctlReach n (s.core k).user off == .ok
    | none => false

end Sys2Proof.Machine
end

