-- ==== Sys2Proof/Machine/Translate.lean ====
section
/-!
DEFINITION. Translation (R242 to R270): table entries, the walk, permissions, ownership, marks, location rules and
poison in the order of R259, the translation buffers, and the padded times of fixed-timing mode (Table 7-7).
-/
namespace Sys2Proof.Machine

/-- An exception about to be taken: code, sub-code, CS.EADDR, and for UD the offending word (Table 11-3). -/
structure Exc where
  code : Nat
  sub : Nat
  addr : Nat
  word : Option Word
  deriving DecidableEq, Repr

/-- The kinds of access of R252, with what each needs (Table 10-8). The speculative kinds of R263: a fetch ahead of need, and PREF with
hint 0 and hint 1. -/
inductive XKind where
  | fetch | load | store | lr | sc | tas | cmoClean | cmoInv | fetchAhead | pref | prefOwn
  deriving DecidableEq, Repr

def XKind.needsR : XKind → Bool
  | .load | .lr | .sc | .tas | .cmoClean | .pref | .prefOwn => true
  | _ => false
def XKind.needsW : XKind → Bool
  | .store | .lr | .sc | .tas | .cmoInv | .prefOwn => true
  | _ => false
def XKind.isFetch : XKind → Bool
  | .fetch | .fetchAhead => true
  | _ => false
/-- A speculative walk: it raises nothing, and the marks are no fault of it (R263). -/
def XKind.ahead : XKind → Bool
  | .fetchAhead | .pref | .prefOwn => true
  | _ => false
def XKind.needsD : XKind → Bool
  | .store | .sc | .tas => true
  | _ => false
def XKind.atomic : XKind → Bool
  | .lr | .sc | .tas => true
  | _ => false
def XKind.isCmo : XKind → Bool
  | .cmoClean | .cmoInv => true
  | _ => false

/-! ## Table entries (Table 10-5) -/

def ebit (e : DWord) (i : Nat) : Bool := e.getLsbD i
def efld (e : DWord) (hi lo : Nat) : Nat := e.toNat / 2 ^ lo % 2 ^ (hi + 1 - lo)
def eV (e : DWord) : Bool := ebit e 0
def eLeaf (e : DWord) : Bool := ebit e 1
def eMtype (e : DWord) : Nat := efld e 11 9
def eSize (e : DWord) : Nat := efld e 47 42
/-- Physical address bits 41:12, in place. -/
def eAddr (e : DWord) : Nat := efld e 41 12 * 4096

/-- The page size of a leaf as a power of two (R250, R251). -/
def leafSize (pow2 : Bool) (level : Nat) (e : DWord) : Nat := if pow2 then eSize e else 12 + 9 * (level - 1)

/-- R249. -/
def malformed (pow2 : Bool) (level : Nat) (e : DWord) : Bool :=
  let lo := 12 + 9 * (level - 1)
  let sizeBad : Bool :=
    if pow2 then (if level = 4 then eSize e != 39 else eSize e < lo || lo + 8 < eSize e) else eSize e != 0
  efld e 59 48 != 0 ||
  (if eLeaf e then
    eMtype e > 1 || (ebit e 3 && !ebit e 2) || (!pow2 && level == 4) || sizeBad ||
      (!sizeBad && eAddr e % 2 ^ leafSize pow2 level e != 0)
   else level == 1 || eSize e != 0 || eMtype e != 0 || efld e 8 2 != 0)

/-! ## The walk (R252) -/

/-- Where and for whom a translation is made. -/
structure XCtx where
  tr : Bool
  user : Bool
  root : Nat
  asid : Nat
  cmp : Option Nat
  pow2 : Bool
  deriving DecidableEq, Repr

/-- The outcome of a walk: a leaf with its level, or a fault with its sub-code and, for UNCORR, the poisoned line. -/
inductive Walk where
  | leaf (e : DWord) (level : Nat)
  | fault (code kind level : Nat) (line : Nat)
  deriving DecidableEq, Repr

def State.ownsBy (s : State) (cmp : Option Nat) (pa : Nat) : Bool :=
  match cmp with
  | some n => s.owns n pa
  | none => false

/-- The checks of R254 on a table address: 0 none, 1 DEVICE, 2 BEYOND. -/
def State.tableCheck (s : State) (cmp : Option Nat) (ea : Nat) : Nat :=
  match s.region ea with
  | .control _ => 1
  | .local_ => 1
  | _ => if s.ownsBy cmp ea then 0 else 2

/-- The walk over the levels that remain, from the table at `t`; the addresses read come with the outcome. -/
def State.walkFrom (s : State) (x : XCtx) (la : Nat) : List Nat → Nat → Walk × List Nat
  | [], _ => (.fault 5 4 1 0, [])
  | L :: rest, t =>
    let ea := t + 8 * (la / 2 ^ (12 + 9 * (L - 1)) % 512)
    match s.tableCheck x.cmp ea with
    | 0 =>
      if s.mem.poisoned (lineOf ea) then (.fault 5 3 L (lineOf ea), [ea])
      else
        let e : DWord := BitVec.ofNat 72 (s.mem.read ea 8)
        if !eV e then (.fault 4 1 L 0, [ea])
        else if malformed x.pow2 L e then (.fault 5 4 L 0, [ea])
        else if eLeaf e then (.leaf e L, [ea])
        else
          let r := s.walkFrom x la rest (eAddr e)
          (r.1, ea :: r.2)
    | d => (.fault 5 d L 0, [])

def State.walk (s : State) (x : XCtx) (la : Nat) : Walk × List Nat :=
  s.walkFrom x la [4, 3, 2, 1] (x.root * 4096)

/-! ## Checks at the leaf (R257, R259) -/

/-- A translated access. -/
structure Xl where
  pa : Nat
  device : Bool
  level : Nat
  deriving DecidableEq, Repr

/-- The page lies in the control space; in the local memories. -/
def State.isControl (s : State) (pa : Nat) : Bool := match s.region pa with | .control _ => true | _ => false
def State.isLocal (s : State) (pa : Nat) : Bool := match s.region pa with | .local_ => true | _ => false

/-- Nothing is fetched from the page a leaf maps: memory of type DEVICE, or the control space. The memory type of a mapping to the local
memories is ignored (R197, R260). -/
def State.noExec (s : State) (e : DWord) (pa : Nat) : Bool := s.isControl pa || (eMtype e == 1 && !s.isLocal pa)

/-- Permissions, in the order USER, READ, WRITE, EXEC; the answer is the PGF kind. -/
def permFault (kind : XKind) (user : Bool) (e : DWord) (noExec : Bool) : Option Nat :=
  let u := ebit e 5
  if (user && !u) || (kind.isFetch && !user && u) then some 5
  else if kind.needsR && !ebit e 2 then some 2
  else if kind.needsW && !ebit e 3 then some 3
  else if kind.isFetch && (!ebit e 4 || noExec) then some 4
  else none

/-- The ownership check on a physical address: the PGF kind (R244, R285); the Manifest buffer is closed in a session
(R525). -/
def State.physFault (s : State) (cmp : Option Nat) (user : Bool) (pa : Nat) : Option Nat :=
  match s.region pa with
  | .local_ => none
  | .control off =>
    match cmp with
    | none => some 6
    | some n => match s.ctlReach n user off with
      | .ok => none
      | .user => some 5
      | .phys => some 6
  | _ => if s.ownsBy cmp pa && !(match cmp with | some n => s.inMftBuf n pa | none => false) then none else some 6

/-- The ownership check of an access: a CMO that names the control space or a Clearing has no effect and no fault (R173). -/
def State.physFor (s : State) (x : XCtx) (kind : XKind) (pa : Nat) : Option Nat :=
  if kind.isCmo && (s.isControl pa || isClearing pa) then none else s.physFault x.cmp x.user pa

/-- The marks (R257): the ADT kind. CMO never takes ADT, and the marks are no fault of a speculative walk (R263). -/
def markFault (kind : XKind) (e : DWord) : Option Nat :=
  if kind.isCmo || kind.ahead then none
  else if !ebit e 7 then some 1
  else if kind.needsD && !ebit e 8 then some 2
  else none

/-- The sizes that memory of type DEVICE supports, be it DRAM or a Clearing (Table 9-5): the ALN sub-code. -/
def deviceFault (device : Bool) (size pa : Nat) : Option Nat :=
  if device && size == 16 then some 3
  else if device && size == 8 && pa % 8 != 0 then some 1
  else none

/-- The location rules (R197, R259 step 6, Table 9-5): the ALN sub-code. `size` is the access size in bytes. -/
def State.locFault (s : State) (kind : XKind) (ft device : Bool) (size pa : Nat) : Option Nat :=
  match s.region pa with
  | .local_ =>
    if kind.isCmo then none
    else if !ft || kind.atomic || 0x3FE00020000 ≤ pa then some 2
    else if kind == .fetch && 0x3FE00010000 ≤ pa then some 2
    else none
  | .control _ =>
    if kind.isCmo then none
    else if kind.atomic then some 2
    else if size ≠ 4 then some 3 else none
  | .clearing _ _ =>
    if kind.isCmo then none
    else if kind.atomic then some 2
    else deviceFault device size pa
  | _ =>
    if kind.isCmo then none
    else if device && kind.atomic then some 2
    else deviceFault device size pa

/-- A leaf applied to an address: steps 3 to 5 of R259. -/
def State.useLeaf (s : State) (x : XCtx) (kind : XKind) (la : Nat) (e : DWord) (level size : Nat) :
    Except (Nat × Nat) Xl :=
  let pa := eAddr e / 2 ^ size * 2 ^ size + la % 2 ^ size
  match permFault kind x.user e (s.noExec e pa) with
  | some f => .error (4, f + 8 * level)
  | none =>
    match s.physFor x kind pa with
    | some f => .error (4, f + 8 * level)
    | none =>
      match markFault kind e with
      | some f => .error (6, f + 8 * level)
      | none => .ok { pa := pa, device := s.isControl pa || eMtype e == 1, level := level }

/-- Translation with TR = 0 (R242). -/
def State.flat (s : State) (x : XCtx) (kind : XKind) (la : Nat) : Except (Nat × Nat) Xl :=
  if 2 ^ 42 ≤ la then .error (4, 6)
  else
    match s.physFor x kind la with
    | some f => .error (4, f)
    | none => .ok { pa := la, device := s.isControl la, level := 0 }

/-! ## Translation buffers (R261 to R264) -/

def TlbEntry.covers (t : TlbEntry) (la asid : Nat) : Bool :=
  decide (t.page ≤ la) && decide (la < t.page + 2 ^ t.size) && (ebit t.leaf 6 || t.asid == asid)

def tlbFind (l : List TlbEntry) (la asid : Nat) : Option TlbEntry := l.find? (·.covers la asid)

/-- An entry that has been used becomes the youngest. -/
def tlbUse (l : List TlbEntry) (t : TlbEntry) : List TlbEntry := l.filter (· != t) ++ [t]

/-- A fill: the entry used longest ago of a full set is replaced (R261, log entry 14). -/
def tlbFill (ways : Nat) (set : TlbEntry → Nat) (l : List TlbEntry) (t : TlbEntry) : List TlbEntry :=
  let l := l.filter (fun u => !(u.page == t.page && u.size == t.size && u.asid == t.asid))
  let mine := l.filter (fun u => set u == set t)
  (match mine with
    | v :: _ => if ways ≤ mine.length then l.filter (· != v) else l
    | [] => l) ++ [t]

/-- The buffers of Table 10-9. Which bits of a page's number pick its set of the L2 TLB the spec does not say (log entry 14). -/
def itlbFill : List TlbEntry → TlbEntry → List TlbEntry := tlbFill 32 (fun _ => 0)
def dtlbFill : List TlbEntry → TlbEntry → List TlbEntry := tlbFill 48 (fun _ => 0)
def l2tlbFill : List TlbEntry → TlbEntry → List TlbEntry := tlbFill 8 (fun t => t.page / 2 ^ t.size % 256)

/-- The entries a TLBI removes (Table 10-10). -/
def tlbi (form arg : Nat) (l : List TlbEntry) : List TlbEntry :=
  match form with
  | 0 => l.filter (fun t => !(decide (t.page ≤ arg * 4096) && decide (arg * 4096 < t.page + 2 ^ t.size)))
  | 1 => l.filter (fun t => !(t.asid == arg && !ebit t.leaf 6))
  | _ => []

def Core.tlbi (c : Core) (form arg : Nat) : Core :=
  { c with itlb := Machine.tlbi form arg c.itlb, dtlb := Machine.tlbi form arg c.dtlb,
           l2tlb := Machine.tlbi form arg c.l2tlb }

/-! ## Padded times (Table 7-7, R200) -/

/-- Core cycles at the grade's clock: the SK144 runs at 1.8 GHz (Table 0-1). -/
def State.clk (s : State) (at20 : Nat) : Nat := if s.fuses.part = 0x144 then at20 * 9 / 10 else at20

def State.padded (s : State) (k : Nat) (device : Bool) (pa : Nat) : Nat :=
  match s.region pa with
  | .local_ => 0
  | .control _ => s.clk 3000
  | .window => s.clk 5200
  | .clearing g _ => if device then s.clk 3000 else if g = groveOf k then s.clk 120 else s.clk 900
  | _ => if device then s.clk 3000 else s.clk 2200

/-! ## A core's translation -/

def State.coreCtx (s : State) (k : Nat) : XCtx :=
  let c := s.core k
  let cmp := s.cmpOf k
  { tr := c.tr, user := c.user, root := (c.ptbase.extractLsb' 0 30).toNat, asid := (c.asid.extractLsb' 0 12).toNat,
    cmp := cmp,
    pow2 := match cmp.bind s.cmpSec with
      | some x => x.pow2
      | none => false }

/-- A table line comes through the Stand's L2 (R253); one of the partner window only where the Grove holds it, and a Clearing's not at
all. -/
def State.gainTable (s : State) (stand line : Nat) : State :=
  if isClearing (line * 64) || (s.partnerLine line && (s.mem.gtag (stand / 5) line).isNone) then s else s.gainShared stand line

/-- What a translation comes to: the address; a fault, as code and sub-code; or the table reads of a walk come first. -/
inductive Tr where
  | ok (x : Xl)
  | fault (code sub : Nat)
  | walk
  deriving DecidableEq, Repr

def Tr.of : Except (Nat × Nat) Xl → Tr
  | .ok x => .ok x
  | .error f => .fault f.1 f.2

/-- The first-level buffer of a kind of access takes an entry that it missed. -/
def Core.fill1 (c : Core) (kind : XKind) (t : TlbEntry) : Core :=
  if kind.isFetch then { c with itlb := itlbFill c.itlb t } else { c with dtlb := dtlbFill c.dtlb t }

/-- Translation of one address for a core, from its buffers (R261): the state with the buffers used and filled, the outcome, and the
core cycles it costs. A miss in the first-level buffer costs the 4 cycles of the L2 TLB lookup (R269). An L2 TLB hit fills the
first-level buffer whatever the checks of R259 then find, as a buffer holds no more than the leaf (log entry 14). -/
def State.translateIn (s : State) (k : Nat) (x : XCtx) (kind : XKind) (la : Nat) : State × Tr × Nat :=
  let c := s.core k
  if !x.tr then (s, .of (s.flat x kind la), 0)
  else
    match tlbFind (if kind.isFetch then c.itlb else c.dtlb) la x.asid with
    | some t =>
      (s.modCore k (fun c => if kind.isFetch then { c with itlb := tlbUse c.itlb t } else { c with dtlb := tlbUse c.dtlb t }),
        .of (s.useLeaf x kind la t.leaf t.level t.size), 0)
    | none =>
      let s := s.count k (if kind.isFetch then 0x2A else 0x29) 1
      match tlbFind c.l2tlb la x.asid with
      | some t =>
        (s.modCore k (fun c => { (c.fill1 kind t) with l2tlb := tlbUse c.l2tlb t }), .of (s.useLeaf x kind la t.leaf t.level t.size), 4)
      | none => (s.count k 0x2B 1, .walk, 4)

def State.translate (s : State) (k : Nat) (kind : XKind) (la : Nat) : State × Tr × Nat := s.translateIn k (s.coreCtx k) kind la

/-- The walk of an L2 TLB miss, once its table lines have been served: it reads the entries as they are then (R253), and a walk that
completes without fault fills the L2 TLB and the buffer that missed (R261, R263). A speculative walk consumes no poison (R270). -/
def State.walkFill (s : State) (k : Nat) (x : XCtx) (kind : XKind) (la : Nat) : State × Except (Nat × Nat) Xl :=
  let (w, eas) := s.walk x la
  let s := eas.foldl (fun s ea => s.mftMark k (lineOf ea) false) s
  let s := s.count k 0x2C eas.length
  match w with
  | .fault code kd level line =>
    let s := if kd = 3 ∧ code = 5 ∧ kind.ahead = false then
      s.event 4 0x038 landing x.cmp (line * 64) ((if kind.isFetch then 1 else 0) + 256) 0 else s
    (s, .error (code, kd + 8 * level))
  | .leaf e level =>
    let size := leafSize x.pow2 level e
    match s.useLeaf x kind la e level size with
    | .error f => (s, .error f)
    | .ok r =>
      let t : TlbEntry := { page := la / 2 ^ size * 2 ^ size, size := size, leaf := e, level := level, asid := x.asid }
      (s.modCore k (fun c => { (c.fill1 kind t) with l2tlb := l2tlbFill c.l2tlb t }), .ok r)

/-- On ADT a core discards its own entries for the address, under every ASID (R258, log entry 14). -/
def State.purge (s : State) (k la : Nat) : State := s.modCore k (fun c => c.tlbi 0 (la / 4096))

/-- What an access comes to before it is performed: an answer; an exception; or the walk of an address comes first. -/
inductive Ans (α : Type) where
  | ok (x : α)
  | fault (e : Exc)
  | walk (la : Nat)

/-- Translation of a data access with the location rules of R259; poison is found when the access is performed. -/
def State.access (s : State) (k : Nat) (kind : XKind) (size la : Nat) : State × Ans Xl × Nat :=
  match s.translate k kind la with
  | (s, .walk, cost) => (s, .walk la, cost)
  | (s, .fault code sub, cost) => (if code = 6 then s.purge k la else s, .fault ⟨code, sub, la, none⟩, cost)
  | (s, .ok r, cost) =>
    match s.locFault kind (s.core k).ft r.device size r.pa with
    | some sub => (s, .fault ⟨7, sub, la, none⟩, cost)
    | none => (s, .ok r, cost)

end Sys2Proof.Machine
end

