-- ==== Sys2Proof/Machine/Access.lean ====
section
/-!
DEFINITION. Forming the address of an access: descriptor images (R224 to R228), seg_add and the checks of Table 9-3 (R230 to R232),
and the local memories of fixed-timing mode (R197, R198).
-/
namespace Sys2Proof.Machine

/-! ## Descriptor images (Table 9-1) -/

def SegDesc.image (d : SegDesc) : Nat → Word
  | 0 => d.base.extractLsb' 0 36
  | 1 => (d.base.extractLsb' 36 12).setWidth 36
  | 2 => d.limit
  | _ => BitVec.ofNat 36 (d.mode.toNat * 16 + d.user.toNat * 8 + d.w.toNat * 4 + d.r.toNat * 2 + d.v.toNat)

/-- The LIMIT rule of a mode (R225). -/
def limitOk (mode lim : Nat) : Bool :=
  match mode with
  | 0 => true
  | 1 => (lim + 1) % 4 == 0
  | 2 => (List.range 36).any (fun k => lim + 1 == 2 ^ (k + 1))
  | _ => false

/-- The descriptor of an image; none: not well formed. With V = 0 it is the null descriptor whatever else it holds. -/
def segOfImage (i : Nat → Word) : Option SegDesc :=
  let w3 := i 3
  if !w3.getLsbD 0 then some SegDesc.null
  else if fld (i 1) 35 12 = 0 ∧ fld w3 35 6 = 0 ∧ fld (i 0) 3 0 = 0 ∧ limitOk (fld w3 5 4) (i 2).toNat then
    some { base := (i 1).extractLsb' 0 12 ++ i 0, limit := i 2, mode := w3.extractLsb' 4 2, user := w3.getLsbD 3, w := w3.getLsbD 2,
           r := w3.getLsbD 1, v := true }
  else none

/-! ## Forming the offset (R230) -/

/-- The order of the f lowest bits reversed. -/
def rev : Nat → Nat → Nat
  | 0, _ => 0
  | f + 1, v => v % 2 * 2 ^ f + rev f (v / 2)

/-- seg_add; none: BASE_RANGE. -/
def segAdd (d : SegDesc) (scale x : Nat) (disp : Int) : Option Nat :=
  let lim := d.limit.toNat
  if d.mode = 0 then some (((x : Int) + disp) % 2 ^ 36).toNat
  else if lim < x then none
  else if d.mode = 1 then some (((x : Int) + disp) % ((lim : Int) + 1)).toNat
  else
    let k := Nat.log2 (lim + 1)
    let a := Nat.log2 scale
    if k ≤ a then some x
    else
      let f := k - a
      let xi := rev f (x / 2 ^ a % 2 ^ f)
      let di := rev f ((disp % 2 ^ 36).toNat / 2 ^ a % 2 ^ f)
      some (rev f ((xi + di) % 2 ^ f) * 2 ^ a + x % 2 ^ a)

/-- Size in bytes of an M-format access; PREF names a line by one byte. -/
def sizeOf' (op : Nat) : Nat := if op = 23 then 1 else scaleOf op

/-- Where an access goes: its offset, its linear address, the base register's new value. -/
structure Eff where
  off : Nat
  la : Nat
  newb : Option Nat
  deriving DecidableEq, Repr

/-- Checks 1 to 5 of Table 9-3 for an M-format word; LR, SC and TAS have no displacement. `newb` comes with a failure too when it
can be formed, as PREF makes its update even when it is dropped (R152). -/
def Core.effAddr (c : Core) (w : Word) (needR needW : Bool) : Except Exc Eff :=
  let op := opcodeOf w
  let d := c.seg (segOf w)
  let x := (c.srcA w).toNat
  let size := sizeOf' op
  let disp : Int := if 29 ≤ op then 0 else dispOf w * (scaleOf op : Int)
  let sum := segAdd d (scaleOf op) x disp
  let u := updOf w
  let off := if u = 1 then x else sum.getD x
  let la := (d.base.toNat + off) % 2 ^ 48
  if !d.v then .error ⟨3, 1, off, none⟩
  else if (needR && !d.r) || (needW && !d.w) || (c.user && !d.user) then .error ⟨3, 2, off, none⟩
  else match sum with
    | none => .error ⟨3, 3, x, none⟩
    | some n =>
      if d.limit.toNat < off + size - 1 then .error ⟨3, 4, off, none⟩
      else if off % (if size = 8 then 4 else size) ≠ 0 then .error ⟨7, 1, la, none⟩
      else .ok { off := off, la := la, newb := if u = 0 then none else some n }

/-- The updated base value of a PREF, whenever seg_add can form it. -/
def Core.prefBase (c : Core) (w : Word) : Option Nat :=
  if updOf w = 0 then none else segAdd (c.seg (segOf w)) 64 (c.srcA w).toNat (dispOf w * 64)

/-! ## Local memories (R197, R198) -/

def isLim (pa : Nat) : Bool := decide (pa < 0x3FE00010000)

def Core.localByte (c : Core) (pa : Nat) : Byte :=
  if isLim pa then smGet 0 c.lim (pa % 0x10000) else smGet 0 c.ldm (pa % 0x10000)

def Core.setLocal (c : Core) (pa : Nat) : List Byte → Core
  | [] => c
  | b :: r =>
    let c := if isLim pa then { c with lim := smPut 0 c.lim (pa % 0x10000) b } else { c with ldm := smPut 0 c.ldm (pa % 0x10000) b }
    c.setLocal (pa + 1) r

/-- A byte as the core itself reads it: its own stores come first, the youngest first (R88, R295). -/
def Core.mbByte (c : Core) (pa : Nat) : Option Byte :=
  c.mb.reverse.findSome? (fun e => if e.line = pa / 64 then smFind? e.bytes (pa % 64) else none)

end Sys2Proof.Machine
end

