-- ==== Sys2Proof/Machine/Shaper.lean ====
section
/-!
DEFINITION. Shapers and acceptance (R347 to R356), deadlines and late deliveries (R366, R370).
-/
namespace Sys2Proof.Machine

/-- What one unit of a bucket is worth. -/
def unitTokens : Nat := 16 * 1000 * 55440

/-- The items of the resource that a spread item belongs to (R356). -/
def State.spreadCount (s : State) (item : Nat) : Nat := if item < 32 then 16 else (homeList s.homeGroves).length

def Contract.rate (c : Contract) (write : Bool) : Nat := if write then c.wrate else c.rrate
def Contract.burst (c : Contract) (write : Bool) : Nat := if write then c.wburst else c.rburst

/-- Tokens per nanosecond of a bucket. -/
def State.refill (s : State) (c : Contract) (write : Bool) : Option Nat → Nat
  | none => c.rate write * 55440
  | some i => c.rate write * min 55440 (55440 * 2 ^ c.spread / s.spreadCount i)

/-- The depth of a bucket, in tokens: for a spread bucket max(1, ceil(burst × s)) units. -/
def State.depth (s : State) (c : Contract) (write : Bool) : Option Nat → Nat
  | none => c.burst write * unitTokens
  | some i =>
    let n := s.spreadCount i
    let p := min n (2 ^ c.spread)
    max 1 ((c.burst write * p + n - 1) / n) * unitTokens

def Bucket.isFor (b : Bucket) (ci item : Nat) (write : Bool) (sp : Option Nat) : Bool :=
  b.contract == ci && b.item == item && b.write == write && b.spread == sp

/-- The tokens a bucket holds now. -/
def State.tokens (s : State) (ci : Nat) (c : Contract) (item : Nat) (write : Bool) (sp : Option Nat) : Nat :=
  match s.buckets.find? (·.isFor ci item write sp) with
  | some b => min (s.depth c write sp) (b.tokens + s.refill c write sp * (s.time - b.at_))
  | none => s.depth c write sp

/-- The buckets a request touches under a contract. -/
def HeldReq.buckets (q : HeldReq) : List (Option Nat) := none :: q.items.map some

/-- Nanoseconds until every bucket of a request holds a unit; none: never. -/
def State.waitFor (s : State) (ci : Nat) (c : Contract) (q : HeldReq) : Option Nat :=
  q.buckets.foldl (fun a sp => match a with
    | none => none
    | some n =>
      let t := s.tokens ci c q.item q.write sp
      if unitTokens ≤ t then some n
      else
        let r := s.refill c q.write sp
        if r = 0 then none else some (max n ((unitTokens - t + r - 1) / r))) (some 0)

/-- One unit is taken from each bucket concerned. -/
def State.take (s : State) (ci : Nat) (c : Contract) (q : HeldReq) : State :=
  q.buckets.foldl (fun s sp =>
    let b : Bucket := { contract := ci, item := q.item, write := q.write, spread := sp,
                        tokens := s.tokens ci c q.item q.write sp - unitTokens, at_ := s.time }
    { s with buckets := s.buckets.filter (fun x => !x.isFor ci q.item q.write sp) ++ [b] }) s

/-- The contract of a class that covers a request, with its index. -/
def State.covering (s : State) (q : HeldReq) (hard : Bool) : Option (Nat × Contract) :=
  ((List.range s.live.contracts.length).zip s.live.contracts).find? (fun e =>
    let c := e.2
    c.hard == hard && c.srcKind == q.srcKind && c.target == q.target && c.tgtIndex == q.tgtIndex &&
      decide (c.srcFirst ≤ q.item) && decide (q.item < c.srcFirst + c.srcCount))

/-- What the shaper decides now (R351, R354). -/
inductive Shape where
  | accept (cls : Nat)
  | hold
  deriving DecidableEq, Repr

def State.shape (s : State) (q : HeldReq) : State × Shape :=
  let ready (e : Option (Nat × Contract)) : Option (Nat × Contract) :=
    e.filter (fun e => s.waitFor e.1 e.2 q == some 0)
  let h := s.covering q true
  let v := s.covering q false
  match ready h with
  | some (ci, c) => (s.take ci c q, .accept 0)
  | none => match ready v with
    | some (ci, c) => (s.take ci c q, .accept 1)
    | none =>
      let spills : Bool := match h, v with
        | some _, some _ => false
        | none, some e => e.2.overflow
        | some e, none => e.2.overflow
        | none, none => true
      (s, if spills then .accept 2 else .hold)

/-- The bound of an H request's path in nanoseconds, and whether it is an access to memory of DEVICE type (Table 14-7). -/
def State.boundOf (s : State) (q : HeldReq) (device : Bool) : Nat :=
  let g := groveOf q.item
  if device then 1500
  else match q.srcKind, q.target with
  | 5, _ => 3000
  | 6, _ => if q.write then 2000 else 2500
  | 4, _ => 800
  | 7, _ => 2000
  | sk, 1 => if (sk = 1 ∧ q.tgtIndex = g) ∨ (sk = 3 ∧ q.tgtIndex = q.item) then 60 else 450
  | _, 2 => 2600
  | _, 3 => 1500
  | 1, 0 =>
    match s.mem.gtag g q.line with
    | some t => if !q.write || t.st == CState.e || t.st == CState.m then 60 else 450
    | none => if s.mem.grove.any (fun t => t.line == q.line) then 450 else 1100
  | 3, 0 =>
    if q.write then 1100
    else if (s.mem.gtag q.item q.line).isSome then 60
    else if s.mem.grove.any (fun t => t.line == q.line) then 450 else 1100
  | _, _ => 1100

/-- A core is frozen for the request, an access to memory of DEVICE type. -/
def State.deviceReq (s : State) (q : HeldReq) : Bool :=
  q.srcKind == 1 && (match (s.core q.item).freeze with
    | some f => f.kind == .miss q.line && f.acc.any (·.device)
    | none => false)
def State.pathBound (s : State) (q : HeldReq) : Nat := s.boundOf q (s.deviceReq q)

/-- The Groves at the ends of a request's path: that of its source, and that of the Clearing it names. -/
def HeldReq.groves (q : HeldReq) : List Nat :=
  ((if q.srcKind = 1 then [q.item / 20] else if q.srcKind = 3 then [q.item] else []) ++
    (if q.target = 1 then [q.tgtIndex] else [])).eraseDups

/-- Ring hops of the reroutes that carry the request: those of a Grove with both spoke modules down (R22, R369). -/
def State.detour (s : State) (q : HeldReq) : Nat :=
  if q.groves.length = 1 ∧ q.target = 1 ∧ (q.srcKind = 1 ∨ q.srcKind = 3) then 0
  else (q.groves.map (fun g => ((s.gateway g).map (·.1.length)).getD 0)).foldl (· + ·) 0

/-- The deadline of an H request accepted at a time: on a reroute its bound grows by 100 ns for each hop when its contract has REROUTE, and
it has none (0) when it has not (R369). -/
def State.hDeadline (s : State) (q : HeldReq) (device : Bool) (now : Nat) : Nat :=
  let n := s.detour q
  if n = 0 then now + s.boundOf q device
  else match s.covering q true with
    | some e => if e.2.reroute then now + s.boundOf q device + 100 * n else 0
    | none => 0

/-- The resource kind a late record names (Table 14-10). -/
def HeldReq.resource (q : HeldReq) : Nat :=
  match q.target with
  | 1 => 5
  | 2 => 10
  | 4 => 7
  | 5 => 8
  | 6 => 9
  | 3 => 1
  | _ => 3

/-- The request enters the fabric in a class at a time of its source. -/
def State.accepted (s : State) (q : HeldReq) (cmp cls now : Nat) : State :=
  let deadline := match cls with
    | 0 => s.hDeadline q (s.deviceReq q) now
    | 1 => now + (match s.covering q false with | some e => e.2.targetNs | none => 0)
    | _ => 0
  { s with flight := s.flight ++ [{ cls := cls, cmp := cmp, req := q, accepted := now, deadline := deadline }] }

/-- A request in flight turns out to be an access to memory of DEVICE type. -/
def State.asDevice (s : State) (q : HeldReq) : State :=
  { s with flight := s.flight.map (fun f => if f.req = q ∧ f.cls = 0 then { f with deadline := s.hDeadline q true f.accepted } else f) }

/-- The source offers a request: it is accepted, or held. A request that is held or in flight is not offered again. -/
def State.offer (s : State) (q : HeldReq) (cmp now : Nat) : State :=
  if s.held.contains q || s.flight.any (·.req == q) then s
  else match s.shape q with
    | (s, .accept cls) => s.accepted q cmp cls now
    | (s, .hold) => { s with held := s.held ++ [q] }

/-- A request that has been accepted completes: the state, and whether it had been accepted. A late one is counted and
recorded (R370), but not one that a lost home answers with poison (R374). -/
def State.complete (s : State) (q : HeldReq) (now : Nat) : State × Bool :=
  match s.flight.find? (·.req == q) with
  | none => (s, false)
  | some f =>
    let s := { s with flight := s.flight.filter (·.req != q) }
    let late : Bool := f.deadline != 0 && decide (f.deadline < now) && !(q.target == 0 && s.mem.lostLine q.line)
    if !late then (s, true)
    else if f.cls = 0 then
      let s := s.ctlInc (o_ttLate f.cmp)
      let s := if q.srcKind = 1 then s.count q.item 0x31 1 else s
      let s := match q.items.find? (fun i => decide (32 ≤ i)) with
        | some i => s.ucount (i - 32) 0x08 0 1 (some f.cmp) (some 0)
        | none => s
      (s.event 8 0x060 landing (some f.cmp) 0 q.resource q.resource, true)
    else (s.ctlInc (o_ttSmiss f.cmp), true)

/-- Offer and complete in one: an agent that does not wait inside the step. The answer says whether the request passed. -/
def State.passReq (s : State) (q : HeldReq) (cmp now : Nat) : State × Bool := (s.offer q cmp now).complete q now

/-- The held requests of a source are withdrawn (R374). -/
def State.withdraw (s : State) (srcKind item : Nat) : State :=
  { s with held := s.held.filter (fun q => !(q.srcKind == srcKind && q.item == item)) }

/-- The target, its index and the spread items of a physical address (Table 14-3, R356). -/
def State.reqTarget (s : State) (pa : Nat) : Nat × Nat × List Nat :=
  match s.region pa with
  | .clearing g _ => (1, g, [16 + (pa - 0x3F000000000) % 0x100000000 / 64 % 16])
  | .window => (2, 0, [])
  | .control _ => (3, 0, [])
  | _ => (0, 0, [subchannelOf (lineOf pa), 32 + homeOf s.homeGroves (lineOf pa)])

/-- A request of a source for a physical address. -/
def State.reqFor (s : State) (srcKind item pa : Nat) (write : Bool) : HeldReq :=
  let t := s.reqTarget pa
  { srcKind := srcKind, item := item, target := t.1, tgtIndex := t.2.1, write := write, items := t.2.2, line := lineOf pa }

/-- When and how a held request is accepted: the wait in nanoseconds, and the contract with its index and class, or class B
where no contract covers it; none: never (R351, R354). -/
def State.pickFor (s : State) (q : HeldReq) : Option (Nat × Option (Nat × Contract) × Nat) :=
  let h := s.covering q true
  let v := s.covering q false
  let wh := h.bind (fun e => s.waitFor e.1 e.2 q)
  let wv := v.bind (fun e => s.waitFor e.1 e.2 q)
  match h, wh, v, wv with
  | some e, some n, some f, some m => if n ≤ m then some (n, some e, 0) else some (m, some f, 1)
  | some e, some n, _, _ => some (n, some e, 0)
  | _, _, some f, some m => some (m, some f, 1)
  | none, _, none, _ => some (0, none, 2)
  | _, _, _, _ => none

/-- A held request of a source other than a core is accepted once its buckets have refilled (R354); package time goes on until then. -/
def State.releaseOther (s : State) (q : HeldReq) : State :=
  match s.pickFor q with
  | none => s
  | some (_, none, _) => ({ s with held := s.held.erase q }).accepted q ((s.cmpOf q.item).getD 0) 2 s.time
  | some (n, some (ci, c), cls) =>
    let s := { s with time := s.time + n }
    ({ (s.take ci c q) with held := s.held.erase q }).accepted q c.cmp cls s.time

/-- An agent that waits inside the step: the request is offered, released when held, and completed; the answer says whether it ever
was accepted. -/
def State.passWait (s : State) (q : HeldReq) (cmp : Nat) : State × Bool :=
  let s := s.offer q cmp s.time
  let s := if s.held.contains q then s.releaseOther q else s
  ({ s with held := s.held.erase q }).complete q s.time

/-- The oldest held request of a source. -/
def State.heldOf (s : State) (srcKind item : Nat) : Option HeldReq :=
  s.held.find? (fun q => q.srcKind == srcKind && q.item == item)

end Sys2Proof.Machine
end

