-- ==== Sys2Proof/Machine/Understorey.lean ====
section
/-!
DEFINITION. The Understorey (R208 to R223): the configuration in force, matching a word, acceptance with its loads,
landing, faults, parking, resuming and discarding. What the cells compute is an opaque constant of Config.
-/
namespace Sys2Proof.Machine

/-- The configuration loaded on a Grove. -/
def State.ustCfg (s : State) (g : Nat) : Option UstSec :=
  if (s.ust g).loaded then s.live.usts.find? (·.grove == g) else none

/-- The first entry of the decode table that a word matches (R210). -/
def UstSec.matchWord (u : UstSec) (w : Word) : Option UstEntry :=
  u.entries.find? (fun e => (fld w 34 0) &&& e.mask == e.matchBits)

/-- The entry a core's X word matches, when its compartment owns the Understorey (R113). -/
def State.xEntry (s : State) (k : Nat) (w : Word) : Option UstEntry :=
  match s.cmpOf k with
  | none => none
  | some n => if s.ownerOf 9 (groveOf k) = some n then (s.ustCfg (groveOf k)).bind (·.matchWord w) else none

/-- The causes of UD of an X word under the configuration (R113, R210). -/
def State.xCauses (s : State) (k : Nat) (w : Word) : List Nat :=
  match s.xEntry k w with
  | none => [8]
  | some e =>
    (if e.dstKind = 2 then oddPair (dstOf w) else []) ++ (if e.srcKind = 2 then oddPair (srcAOf w) else [])

/-- Core cycles of n Understorey cycles, rounded up (R212): the core clock is 2.0 GHz, or 1.8 GHz in the SK144. -/
def State.ustCycles (s : State) (n : Nat) : Nat := if s.fuses.part = 0x144 then (n * 9 + 4) / 5 else 2 * n

/-- The latency of an entry (R212). -/
def State.xLatency (s : State) (e : UstEntry) : Nat := s.ustCycles e.lat + 4

/-! ## Cells (Table 8-1) -/

/-- What a context keeps: the cells the image gives it. -/
def UstSec.cellsOf (u : UstSec) (ctx : Nat) (c : CellState) : CellState :=
  { acc := c.acc.filter (fun e => Config.ustCellCtx u.image e.1 == ctx),
    mem := c.mem.filter (fun e => Config.ustCellCtx u.image (e.1 / 1024) == ctx) }

/-- Writes to the cells that `mine` admits. -/
def CellState.write (c : CellState) (mine : Nat → Bool) (d : List (Nat × BitVec 48) × List (Nat × BitVec 18)) : CellState :=
  { acc := (d.1.filter (fun e => decide (e.1 < 256) && mine e.1)).foldl (fun m e => smPut 0 m e.1 e.2) c.acc,
    mem := (d.2.filter (fun e => decide (e.1 < 262144) && mine (e.1 / 1024))).foldl (fun m e => smPut 0 m e.1 e.2) c.mem }

/-- An operation writes the cells of its context. A resumed operation whose context has accepted others since writes what the spec
does not say (log entry 102). -/
def State.xCells (s : State) (g : Nat) (u : UstSec) (x : XOp) : State :=
  let v := s.ust g
  let d := Config.ustCells u.image x.ctx x.operands x.cells.acc x.cells.mem x.loaded
  let now := u.cellsOf x.ctx v.cells
  let d := if smGet 0 v.accepts x.ctx = x.order then d else Config.ustLateCells u.image x.ctx d now.acc now.mem
  s.setUst g { v with cells := v.cells.write (fun c => Config.ustCellCtx u.image c == x.ctx) d }

/-- The cells a configuration starts with: zero, then what the image writes (R221). -/
def State.ustStart (s : State) (g : Nat) : CellState :=
  match s.ustCfg g with
  | some u => CellState.zero.write (fun _ => true) (Config.ustInit u.image)
  | none => CellState.zero

/-! ## Accesses (R216, R217) -/

/-- UFLT kinds PAGE, WALK and ADT, with the sub-code of R255 (R256). -/
def ufltSub (code sub : Nat) : Nat := (if code = 4 then 1 else if code = 5 then 2 else 3) + 16 * sub

/-- The region bit of REGIONS that an address needs (Table 8-3). -/
def State.xRegion (s : State) (g pa : Nat) : Option Nat :=
  match s.region pa with
  | .dram => some 2
  | .clearing h _ => some (if h = g then 0 else 1)
  | _ => none

/-- The translation context of an operation: CS.STATUS.TR and MODE, CS.PTBASE and CS.ASID as they were at issue. -/
def State.xCtx (s : State) (k : Nat) (x : XOp) : XCtx :=
  { s.coreCtx k with tr := x.tr, user := x.user, root := (x.ptbase.extractLsb' 0 30).toNat, asid := (x.asid.extractLsb' 0 12).toNat }

/-- Where an access may go: the owner's DRAM or Clearing ways, of the regions REGIONS names, not of type DEVICE. -/
def State.xPlace (s : State) (g : Nat) (x : XOp) : Except (Nat × Nat) Xl → Except Nat Nat
  | .error (c, sub) => .error (ufltSub c sub)
  | .ok p => match s.xRegion g p.pa with
    | some b => if p.device || x.regions / 2 ^ b % 2 = 0 then .error 4 else .ok p.pa
    | none => .error 4

/-- One access of an operation, through the UTLB of a memory unit: the physical address, or the full UFLT sub-code. -/
def State.xAccess (s : State) (k unit : Nat) (x : XOp) (kind : XKind) (la size : Nat) : State × Except Nat Nat :=
  let g := groveOf k
  let ctx := s.xCtx k x
  if !(size == 2 || size == 4 || size == 8) || la % (if size = 8 then 8 else size) ≠ 0 then (s, .error 4)
  else if !ctx.tr then (s, s.xPlace g x (s.flat ctx kind la))
  else
    let key := g * 4 + unit % 4
    let tlb := smGet [] s.mem.utlb key
    match tlbFind tlb la ctx.asid with
    | some t =>
      (s.setMem { s.mem with utlb := smSet s.mem.utlb key (tlbUse tlb t) }, s.xPlace g x (s.useLeaf ctx kind la t.leaf t.level t.size))
    | none =>
      match (s.walk ctx la).1 with
      | .fault code kd level line =>
        let s := if code = 5 ∧ kd = 3 then s.event 4 0x038 landing ctx.cmp (line * 64) (3 + 256) 0 else s
        (s, .error (ufltSub code (kd + 8 * level)))
      | .leaf e level =>
        let sz := leafSize ctx.pow2 level e
        let r := s.useLeaf ctx kind la e level sz
        let s := match r with
          | .ok _ =>
            let t : TlbEntry := { page := la / 2 ^ sz * 2 ^ sz, size := sz, leaf := e, level := level, asid := ctx.asid }
            s.setMem { s.mem with utlb := smSet s.mem.utlb key (tlbFill 64 (fun _ => 0) tlb t) }
          | .error _ => s
        (s, s.xPlace g x r)

/-- The request of an access in class H (R217): whether the shaper ever accepted it. A replay takes OVERRUN from its records alone. -/
def State.xRequest (s : State) (k pa : Nat) (write : Bool) : State × Bool :=
  let r := s.passWait (s.reqFor 3 (groveOf k) pa write) ((s.cmpOf k).getD 0)
  (r.1, r.2 || s.replaying k)

/-- The home holds the write of a store until the operation lands: it makes the invalidations and keeps the line in MW, so that
requests for it wait (R334). A line of another open transaction, one whose reservation is deferred (R157) and one the partner holds are
not held: the write waits at the home behind that. -/
def State.holdLine (s : State) (g line : Nat) : State × Bool :=
  if !s.homed line || !s.homeFree line || s.anyDeferred line || s.partnerHolds line then (s, false)
  else ((s.backInvalidate line).openT { Txn.idle line g (.wrinv []) with mw := true, grant := .s, held := true } [], true)

/-- Release or cancel: the homes hold the lines no longer. -/
def State.freeLines (s : State) (lines : List Nat) : State :=
  if lines.isEmpty then s
  else s.countUp.setMem { s.mem with txns := s.mem.txns.filter (fun t => !(t.held && lines.contains t.line)) }

/-- The stores of an operation, each translated and sent to its home (R218, R334); the first that meets a fault ends them. -/
def State.xStores (s : State) (k : Nat) (x : XOp) (n : Nat) : List (Nat × Nat × Nat) → State × XOp × List HeldStore
  | [] => (s, x, [])
  | (la, size, v) :: rest =>
    let la := la % 2 ^ 48
    let unit := match s.ustCfg (groveOf k) with
      | some u => Config.ustUnit u.image x.ctx n
      | none => 0
    match s.xAccess k unit x .store la size with
    | (s, .error sub) => (s.freeLines x.lines, { x with outcome := .fault sub la, lines := [] }, [])
    | (s, .ok pa) =>
      let (s, ok) := s.xRequest k pa true
      if !ok then (s.freeLines x.lines, { x with outcome := .overrun, lines := [] }, [])
      else
        let (s, h) := if x.lines.contains (lineOf pa) then (s, false) else s.holdLine (groveOf k) (lineOf pa)
        let x := if h then { x with lines := x.lines ++ [lineOf pa] } else x
        let r := s.xStores k x (n + 1) rest
        (r.1, r.2.1, ⟨pa, size, v⟩ :: r.2.2)

/-- The loads of an operation, one after the other, until none is needed or one meets a fault; the first argument bounds
their number (an operation performs at most one access per unit and Understorey cycle). Then its stores are sent. A request that the
shaper holds past the landing cycle is an overrun (Table 14-4). -/
def State.xRun (u : UstSec) : Nat → State → Nat → XOp → State × XOp
  | 0, s, _, x => (s, x)
  | f + 1, s, k, x =>
    match Config.ustNextLoad u.image x.ctx x.operands x.cells.acc x.cells.mem x.loaded with
    | some (la, size) =>
      let la := la % 2 ^ 48
      match s.xAccess k (Config.ustUnit u.image x.ctx x.loaded.length) x .load la size with
      | (s, .error sub) => (s, { x with outcome := .fault sub la })
      | (s, .ok pa) =>
        let (s, ok) := s.xRequest k pa false
        if !ok then (s, { x with outcome := .overrun })
        else if s.mem.poisoned (lineOf pa) then
          (s.event 4 0x038 landing (s.cmpOf k) pa 3 0, { x with outcome := .poison })
        else
          let s := s.mftMark k (lineOf pa) false
          State.xRun u f s k { x with loaded := x.loaded ++ [s.mem.read pa size] }
    | none =>
      let (s, x, stores) := s.xStores k { x with outcome := .poison } x.loaded.length
        ((Config.ustStores u.image x.ctx x.operands x.cells.acc x.cells.mem x.loaded).take 64)
      match x.outcome with
      | .fault _ _ => (s, x)
      | .overrun => (s, x)
      | _ =>
        (s.xCells (groveOf k) u x,
          { x with outcome := .done (Config.ustResult u.image x.ctx x.operands x.cells.acc x.cells.mem x.loaded) stores })

/-- What an operation that is accepted, or that resumes, comes to. What a fault leaves in the cells the spec does not say: the model
leaves them unwritten until the operation has made its accesses (log entry 102). -/
def State.xPerform (s : State) (k : Nat) (x : XOp) : State × XOp :=
  match s.ustCfg (groveOf k) with
  | none => (s, x)
  | some u =>
    if !x.mem then
      (s.xCells (groveOf k) u x,
        { x with outcome := .done (Config.ustResult u.image x.ctx x.operands x.cells.acc x.cells.mem []) [] })
    else
      let t0 := s.time
      let (s, x) := State.xRun u (4 * x.latency) s k x
      if x.latency / 2 < s.time - t0 && !s.replaying k then (s.freeLines x.lines, { x with outcome := .overrun, lines := [] }) else (s, x)

/-! ## Landing (R215, R218, R219) -/

/-- The operation leaves flight, and the homes release what they hold of it. -/
def State.leaveX (s : State) (k seq : Nat) : State :=
  let lines := ((s.core k).xops.filter (·.seq == seq)).flatMap (·.lines)
  (s.freeLines lines).modCore k (fun c => { c with xops := c.xops.filter (·.seq != seq) })

/-- The operation is gone without landing: the homes cancel its writes, and requests that waited for them go on. -/
def State.dropX (s : State) (k seq : Nat) : State := (s.leaveX k seq).serveWaits

/-- A fault of an operation is recorded at its landing cycle: PAGE, WALK and ADT park it, while fewer than four of its slot are parked
(which goes when there is no room the spec does not say: log entry 101); ACCESS and OVERRUN discard it. -/
def State.xFault (s : State) (k : Nat) (x : XOp) (sub addr : Nat) : State :=
  let room : Bool := decide (((s.core k).xops.filter (·.parked.isSome)).length < 4)
  let s := s.modCore k (fun c => c.record ⟨11, sub, addr, x.seq⟩)
  if sub % 16 ≤ 3 && room then
    s.modCore k (fun c => { c with xops := c.xops.map (fun y => if y.seq = x.seq then { y with parked := some sub } else y) })
  else s.dropX k x.seq

/-- An asynchronous machine check is owed to the core (Table 24-4); MACHINE_CHECK_ASYNC delivers it. -/
def Core.oweMce (c : Core) (sub : Nat) : Core := { c with mce := c.mce ++ [sub] }

/-- An operation whose accesses did not complete in time. What it wrote in the cells stays (log entry 102). -/
def State.xOverrun (s : State) (k : Nat) (x : XOp) : State :=
  let s := (s.ctlInc (o_ustOverruns (groveOf k))).ucount (groveOf k) 0x0C 0 1 (s.cmpOf k) none
  (s.mftEvent k 0x51 (4 + x.reg) []).xFault k x 5 x.addr

/-- One store of an operation that lands: written where its home holds the line for it or nothing else does. -/
def State.xWrite (s : State) (g : Nat) (x : XOp) (st : HeldStore) : State :=
  let bs := valBytes st.val st.size
  if x.lines.contains (lineOf st.pa) then s.wrNow g st.pa bs else s.wrInvFrom g st.pa bs

/-- One operation lands. `late`: a memory access had not completed (OVERRUN). Its stores become visible together, each after the
reservations on its line are cleared (R218, R334). -/
def State.landX (s : State) (k : Nat) (x : XOp) (late : Bool) : State :=
  if late && x.mem then s.xOverrun k x
  else match x.outcome with
    | .overrun => s.xOverrun k x
    | .fault sub la => s.xFault k x sub la
    | .poison => (s.dropX k x.seq).modCore k (fun c => c.oweMce 3)
    | .done v stores =>
      let s := s.leaveX k x.seq
      let s := (stores.foldl (fun s st => (s.xWrite (groveOf k) x st).mftMark k (lineOf st.pa) true) s).serveWaits
      let s := if stores.isEmpty then s else s.mftEvent k 0x51 x.reg []
      let s := s.modCore k (fun c =>
        let lo : List (Land × Nat) := if x.dstKind = 0 || x.dropLo then [] else [(.w x.dst (v.extractLsb' 0 36), x.seq)]
        let hi : List (Land × Nat) := if x.dstKind = 2 && !x.dropHi then [(.w (x.dst + 1) (v.extractLsb' 36 36), x.seq)] else []
        (lo ++ hi).foldl (fun c l => c.land l.1) (c.discard (lo ++ hi)))
      let s := if x.dstKind = 0 then s else s.mftItem k x.dst (v.extractLsb' 0 36).toNat
      if x.dstKind = 2 then s.mftItem k (x.dst + 1) (v.extractLsb' 36 36).toNat else s

/-- The operations whose landing cycle has come, oldest first. -/
def State.landXDue (s : State) (k : Nat) : State :=
  let c := s.core k
  (c.xops.filter (fun x => x.parked.isNone && decide (x.due ≤ c.ccyc))).foldl (fun s x =>
    match (s.core k).xops.find? (·.seq == x.seq) with
    | some x => s.landX k x false
    | none => s) s

/-! ## Landings of a replay (R519) -/

/-- The operation's landing makes stores visible, and so carries a ULAND record. -/
def XOp.stored (x : XOp) : Bool := match x.outcome with
  | .done _ stores => !stores.isEmpty
  | _ => false

/-- The operation of the core with this sequence number lands. -/
def State.landOp (s : State) (k seq : Nat) : State :=
  match (s.core k).div.find? (·.seq == seq) with
  | some d => s.modCore k (fun c => c.landDiv d)
  | none => match (s.core k).xops.find? (fun x => x.seq == seq && x.parked.isNone) with
    | some x => s.landX k x false
    | none => s

/-- Operations land in issue order. -/
def State.landOps (s : State) (k : Nat) (seqs : List Nat) : State := (sortBy id seqs).foldl (fun s q => s.landOp k q) s

/-- The long operations of a core in flight. -/
def Core.longSeqs (c : Core) : List Nat := c.div.map (·.seq) ++ (c.xops.filter (·.parked.isNone)).map (·.seq)

/-- In a replay nothing lands by its cycle; what no reader has landed lands at an LWAIT, and where the core stops. -/
def State.landRest (s : State) (k : Nat) : State := if s.replaying k then s.landOps k (s.core k).longSeqs else s

/-- The operations with a ULAND record at the core's logical time land there, or fail with OVERRUN. -/
def State.landRecorded (s : State) (k : Nat) : Nat → State
  | 0 => s
  | f + 1 => match s.mftNext k with
    | none => s
    | some r =>
      if r.type ≠ 0x51 then s
      else
        let late := bitOf r.data 2
        let fly := (s.core k).xops.filter (fun x => x.parked.isNone && (if late then x.mem else x.stored))
        match (fly.find? (fun x => x.reg == r.data % 4)).orElse (fun _ => fly.head?) with
        | some x => ((s.mftTake k).landX k x late).landRecorded k f
        | none => match s.cmpOf k with
          | some n => s.mftDiverge n 2 (s.rank k) r.chunk r.offset
          | none => s

/-- A fault that a replay delivers now has landed. -/
def State.landFault (s : State) (k : Nat) : State :=
  let c := s.core k
  if s.replaying k && c.faults.isEmpty then
    s.landOps k (((c.div.filter (·.fault.isSome)).map (·.seq) ++ (c.xops.filter (fun x => x.parked.isNone && (match x.outcome with
      | .fault _ _ => true
      | _ => false))).map (·.seq)).take 1)
  else s

/-- A replayed X word that finds every landing register taken lands the oldest operation without a ULAND record (log entry 86). -/
def State.landForRoom (s : State) (k : Nat) : State :=
  let fly := (s.core k).xops.filter (·.parked.isNone)
  if s.replaying k && decide (4 ≤ fly.length) then s.landOps k ((((fly.filter (fun x => !x.stored)) ++ fly).map (·.seq)).take 1) else s

/-! ## Time of a core -/

/-- Package time at a core: 2.0 core cycles to a nanosecond, or 1.8 in the SK144 (Table 0-1). -/
def State.localTime (s : State) (k : Nat) : Nat :=
  let c := s.core k
  c.t0 + (if s.fuses.part = 0x144 then c.ccyc * 5 / 9 else c.ccyc / 2)

/-- Package time is at least the time at every core (log entry 16). -/
def State.sync (s : State) (k : Nat) : State := { s with time := max s.time (s.localTime k) }

/-- The long operations whose core cycle has come land (R183), but in a replay (R519). -/
def State.landLong (s : State) (k : Nat) : State := if s.replaying k then s else (s.modCore k Core.landDivDue).landXDue k

/-- n pipeline cycles pass, each also a core cycle, and what is due lands (R180, R181, R183). -/
def State.advance (s : State) (k n : Nat) : State :=
  ((s.modCore k (fun c => ({ c with pcyc := c.pcyc + n, ccyc := c.ccyc + n } : Core).landShort)).landLong k).sync k

/-- n freeze cycles pass: no stage advances, and long operations go on (R180). -/
def State.freezeFor (s : State) (k n : Nat) : State :=
  if n = 0 then s else
  (((s.cycles k 0x06 n).modCore k (fun c => { c with ccyc := c.ccyc + n })).landLong k).sync k

/-! ## Parking (R220, R221) -/

/-- Every parked operation of a core resumes from the access that faulted; each lands L core cycles later. -/
def State.resumeParked (s : State) (k : Nat) : State :=
  let s := s.modCore k (fun c => { c with unpark := false })
  ((s.core k).xops.filter (·.parked.isSome)).foldl (fun s x =>
    let (s, y) := s.xPerform k { x with parked := none, due := (s.core k).ccyc + x.latency }
    s.modCore k (fun c => { c with xops := c.xops.map (fun z => if z.seq = x.seq then y else z) })) s

/-- UST.PARK_k.DROPPED is set (R220, R221). -/
def State.setDropped (s : State) (k : Nat) : State :=
  let u := s.ust (groveOf k)
  s.setUst (groveOf k) { u with dropped := u.dropped ||| (1 <<< slotOf k) }

/-- Parked operations of a core slot are discarded (R220). -/
def State.discardParked (s : State) (k : Nat) : State :=
  if (s.core k).xops.any (·.parked.isSome) then
    let lines := ((s.core k).xops.filter (·.parked.isSome)).flatMap (·.lines)
    ((s.freeLines lines).serveWaits.setDropped k).modCore k (fun c => { c with xops := c.xops.filter (·.parked.isNone) })
  else s

/-- Every operation of a core is discarded, in flight or parked, with no store made visible (R221, R223). -/
def State.discardAll (s : State) (k : Nat) : State :=
  let s := s.discardParked k
  (s.freeLines ((s.core k).xops.flatMap (·.lines))).serveWaits.modCore k (fun c => { c with xops := [] })

end Sys2Proof.Machine
end

