-- ==== Sys2Proof/Machine/Hold.lean ====
section
/-!
DEFINITION. What a core's requests wait for: its shaper, while its pipeline is frozen or its fetch waits (R355), and the acceptance of
the merging buffer's entries (R294).
-/
namespace Sys2Proof.Machine

/-- The core runs its clock: its operations in flight land. Those of a core that is stopped, halted or in reset have landed or are gone
(R221, R223). -/
def State.clocked (s : State) (k : Nat) : Bool := (s.core k).run == .running || (s.core k).run == .waiting

/-- n core cycles pass while the core issues nothing: freeze cycles, or bubbles of a hold. -/
def State.passCycles (s : State) (k n : Nat) : State :=
  if (s.core k).freeze.isSome then s.freezeFor k n
  else if (s.core k).pair.isSome then s
  else (s.cycles k 0x05 n).advance k n

/-- The core cycle passes up to `c`. -/
def State.passTo (s : State) (k c : Nat) : State := s.passCycles k (c - (s.core k).ccyc)

/-- A held request is accepted once its buckets have refilled (R354); package time goes on until then. A core that waits for it stays
frozen, or its fetch bubbles, meanwhile. -/
def State.releaseHeld (s : State) (q : HeldReq) : State :=
  if q.srcKind ≠ 1 then s.releaseOther q
  else match s.pickFor q with
    | none => s
    | some (_, none, _) => ({ s with held := s.held.erase q }).accepted q ((s.cmpOf q.item).getD 0) 2 s.time
    | some (n, some (ci, c), cls) =>
      let s := { s with time := s.time + n }
      let m := s.clk (2 * n)
      let s := if (s.core q.item).freeze.isSome then (s.freezeFor q.item m).count q.item 0x30 m
        else if (s.core q.item).fwait.isSome then (s.cycles q.item 0x03 m).advance q.item m
        else s
      let s := s.take ci c q
      ({ s with held := s.held.erase q }).accepted q c.cmp cls (s.localTime q.item)

/-! ## The merging buffer's drains and acceptance -/

/-- The entries that are asked to drain start, oldest first: the second entry of a line only after the first has been accepted (R292). -/
def mbStart : List Nat → List MbEntry → List MbEntry
  | _, [] => []
  | older, e :: r => { e with draining := e.draining || (e.asked && !older.contains e.line) } :: mbStart (e.line :: older) r

/-- The entries that `p` picks are asked to drain (R293). -/
def mbAsk (p : MbEntry → Bool) (mb : List MbEntry) : List MbEntry :=
  mbStart [] (mb.map (fun e => if p e then { e with asked := true } else e))

/-- An accepted entry leaves the buffer, and the other entry of its line may start to drain. -/
def mbLeave (mb : List MbEntry) (e : MbEntry) : List MbEntry := mbStart [] (mb.erase e)

/-- Cut a byte list into runs of consecutive addresses: address and bytes. -/
def runsOf : SMap Byte → List (Nat × List Byte)
  | [] => []
  | (o, b) :: r => match runsOf r with
    | (p, bs) :: q => if p = o + 1 then (o, b :: bs) :: q else (o, [b]) :: (p, bs) :: q
    | [] => [(o, [b])]

/-- The Stand's L2, or the Clearing slice, accepts an entry: the visibility point of R88. -/
def State.acceptEntry (s : State) (k : Nat) (e : MbEntry) : State :=
  let base := e.line * 64
  let s := s.clearRes k e.line
  let s :=
    if isClearing base then
      (e.bytes.foldl (fun s b => s.setMem (s.mem.setByte (base + b.1) b.2)) s).ucount ((base - 0x3F000000000) / 0x100000000)
        0x0A 0 1 (s.cmpOf k) none
    else
      let s := s.gainOwn (standOf k) e.line
      (runsOf e.bytes).foldl (fun s r => s.ownedWrite (standOf k) (base + r.1) r.2) s
  let s := if e.bytes.length = 64 then s.setMem (s.mem.setPoison e.line false) else s
  s.mftMarkAt k e.chunk e.line true

/-- An access needs the home of its line: the Grove does not hold it as the access wants it (R319). -/
def State.needsHome (s : State) (k : Nat) (needsW : Bool) (line : Nat) : Bool := match s.mem.gtag (groveOf k) line with
  | some t => needsW && !(t.st == CState.e || t.st == CState.m)
  | none => true

/-- An access to a cached line has to wait: another core defers it (R157); every way that its fill could take is locked (R296, R300); or
it needs the home, where a request of the Grove is open or the line is not free (R326, R332). -/
def State.lineWaits (s : State) (k : Nat) (needsW : Bool) (line : Nat) : Bool :=
  let g := groveOf k
  let stand := standOf k
  let absent : Bool := (s.mem.l2line stand line).isNone
  (s.deferred k line && (needsW || absent)) || (absent && s.fullL2 stand line) ||
  ((s.mem.gtag g line).isNone && s.fullTags g line) ||
  (s.needsHome k needsW line && (s.mem.pending g line || s.homeBlocks g line needsW))

/-- Every entry of a core is accepted at once: what a stop of the core waits for (Table 2-12). -/
def State.drainNow (s : State) (k : Nat) : State :=
  let s := (s.core k).mb.foldl (fun s e => s.acceptEntry k e) s
  (s.modCore k (fun c => { c with mb := [], holdMb := false })).mftRelease k

end Sys2Proof.Machine
end

