-- ==== Sys2Proof/Machine/Ops.lean ====
section
/-!
DEFINITION. How a core issues an instruction (R184 to R191, R202), retires it, takes an exception (R271 to R279) and
returns from one (R176, R617). A command of a core whose conditions do not hold leaves the state unchanged (log entry 1).
-/
namespace Sys2Proof.Machine

/-! ## Taking an exception (R272) -/

/-- What an entry saves (Table 11-3). -/
structure Entry where
  code : Nat
  sub : Nat
  orig : Nat
  epc : Nat
  addr : Nat
  deriving DecidableEq, Repr

/-- Pipeline cycles until every short write in flight has landed (R182). -/
def Core.drainTime (c : Core) : Nat := c.pend.foldl (fun a p => max a (p.due - c.pcyc)) 0

/-- Cycles from the boundary to the handler's first issue (Table 11-4; log entry 13). -/
def entryTime : Nat := 12

/-- The merging-buffer entries all start to drain (R293). -/
def Core.drainAll (c : Core) : Core := { c with mb := mbAsk (fun _ => true) c.mb }

/-- The value of CS.ECAUSE (Table 11-2). -/
def ecauseOf (nest rpt : Bool) (orig sub code : Nat) : Word :=
  BitVec.ofNat 36 (nest.toNat * 2 ^ 33 + rpt.toNat * 2 ^ 32 + orig * 2 ^ 16 + sub % 4096 * 16 + code)

/-- The fields CS.ESTATUS keeps of CS.STATUS (Table 11-12). -/
def statusFields : Word := 0x8F

/-- The registers an entry writes (R272, steps 2 to 6). The repeat mark stands when a repeat is in progress, or has been
restored and not re-issued (R279). -/
def Core.enter (c : Core) (e : Entry) : Core :=
  let rpt : Bool := c.rep.isSome || c.resume
  { c with
    run := .running
    epc := BitVec.ofNat 36 e.epc
    eaddr := BitVec.ofNat 48 e.addr
    ecause := ecauseOf (!c.user && !c.ie) rpt e.orig e.sub e.code
    estatus := c.status &&& statusFields
    status := c.status &&& ~~~3
    savedrc := if rpt then c.rc else c.savedrc
    reservation := none
    holdMb := true
    rep := none, resume := false, unpark := false, pair := none, opW := none, freeze := none, held := false, present := none,
    grant := none, fwait := none, lateUse := none
    pc := (c.vbase.toNat / 1024 * 1024 + 64 * e.code) % 2 ^ 36 }.drainAll

/-- Core cycles until every long operation in flight has landed or parked. -/
def Core.longTime (c : Core) : Nat :=
  max (c.div.foldl (fun a d => max a (d.due - c.ccyc)) 0)
      ((c.xops.filter (·.parked.isNone)).foldl (fun a x => max a (x.due - c.ccyc)) 0)

/-- What a stop leaves of a core: its stores visible, its long operations landed or parked, a repeat saved in RC with PC at
the prefix. -/
def State.stopAt (s : State) (k : Nat) : State :=
  let s := s.modCore k (fun c => { c with freeze := none, held := false, present := none, grant := none, fwait := none, prefs := [] })
  let s := (s.drainNow k).withdraw 1 k
  let n := max (s.core k).longTime (s.core k).drainTime
  let s := (s.advance k n).landRest k
  s.modCore k (fun c => { c with rep := none, pair := none, opW := none, lateUse := none, resume := c.rep.isSome || c.resume })

/-- A compartment goes to HALTED: its cores stop as at quiesce, a recording session ends (R592, Table 20-8). -/
def State.haltCmp (s : State) (n : Nat) : State :=
  if s.cmpState n = .halted || s.cmpState n = .absent then s else
  let s := ((s.coresOf n).foldl (fun s k => if s.clocked k then s.stopAt k else s) s).mftEnd n 4
  let s := s.modCores (fun k c => if s.cmpOf k = some n ∧ c.run ≠ .absent ∧ c.run ≠ .inReset then { c with run := .halted } else c)
  (s.setCmpState n .halted).event 5 0x011 landing (some n) s.live.chartId 6 0

/-- A machine check that halts the compartment (R592): REGFILE, or one in a machine-check handler. -/
def Core.fatalMce (c : Core) (sub : Nat) : Bool :=
  sub == 5 || (!c.user && !c.ie && fld c.ecause 3 0 == 12)

/-- An exception entry. -/
def State.enter (s : State) (k : Nat) (e : Entry) : State :=
  let c := s.core k
  if e.code = 12 && c.fatalMce e.sub then
    match s.cmpOf k with
    | some n => (s.event 5 0x039 (groveOf k) (some n) 0 (k + e.sub * 256) 0).haltCmp n
    | none => s
  else
    let s := (s.cycles k 0x04 entryTime).count k 0x14 1
    let s := if e.code = 0 then s.count k 0x15 1 else s
    let s := (s.advance k (max c.drainTime entryTime)).modCore k (fun c => c.enter e)
    s.modCore k (fun c =>
      if c.dbgStep then { c with dbg := true, dbgStep := false, dbgReason := 3 } else c)

/-! ## Return from an exception (R176, R617) -/

/-- At least one H contract names the core (R196, R353). -/
def State.covered (s : State) (k : Nat) : Bool :=
  s.live.contracts.any (fun c => c.srcKind == 1 && c.hard && decide (c.srcFirst ≤ k) && decide (k < c.srcFirst + c.srcCount))

/-- PC, CS.STATUS and, under the repeat mark, RC; a change of FT then waits for FT_MODE_CHANGE. -/
def Core.eret (c : Core) (covered : Bool) : Core :=
  let es := c.estatus &&& statusFields
  let want : Bool := es.getLsbD 3
  let refused : Bool := want && !covered
  let ft' : Bool := want && covered
  let st : Word := (es &&& ~~~8) ||| (if c.ft then 8 else 0) ||| (if refused then 0x80 else 0)
  let mark : Bool := c.ecause.getLsbD 32
  { c with
    pc := c.epc.toNat / 4 * 4
    status := st
    rc := if mark then c.savedrc else c.rc
    resume := mark
    reservation := none
    holdMb := true
    unpark := true
    ftChange := if ft' = c.ft then none else some ft' }.drainAll

/-! ## Issue -/

/-- The shared units an instruction uses (Table 5-2). -/
structure Use where
  mul : Bool
  acc : Bool
  div : Bool
  fp : Nat
  deriving DecidableEq, Repr

def useOf (w : Word) : Use :=
  let c := codeOf w
  let arith : Bool := c ≤ 2 || (5 ≤ c && c ≤ 7) || c == 12 || (16 ≤ c && c ≤ 23)
  match opcodeOf w with
  | 3 => ⟨decide (c ≤ 5), false, decide (8 ≤ c), 0⟩
  | 4 => ⟨c % 16 == 4, false, false, 0⟩
  | 5 => ⟨decide (c ≤ 5), decide (8 ≤ c), false, 0⟩
  | 6 => ⟨false, false, c == 3 || c == 4, if arith then 1 else 0⟩
  | 7 => ⟨false, false, c == 3 || c == 4, if arith then 2 else 0⟩
  | _ => ⟨false, false, false, 0⟩

/-- Two instructions need more of a unit than the core has. -/
def Use.clash (u v : Use) : Bool := (u.mul && v.mul) || (u.acc && v.acc) || (u.div && v.div) || decide (2 < u.fp + v.fp)

/-- What two instructions need together. -/
def Use.plus (u v : Use) : Use := ⟨u.mul || v.mul, u.acc || v.acc, u.div || v.div, u.fp + v.fp⟩

/-- The second slot of a pair starts one cycle late: the words share a unit, or the core is in fixed-timing mode (R123, R186, R202). -/
def pairLate (ft : Bool) (w w2 : Word) : Bool := ft || (useOf w).clash (useOf w2)

/-- The units a group needs in the cycle in which it issues. -/
def groupUse (ft : Bool) (slot : Slot) (w : Word) : Use :=
  match slot with
  | .first w2 => if pairLate ft w w2 then useOf w else (useOf w).plus (useOf w2)
  | _ => useOf w

/-- The words of a group. -/
def groupWords (slot : Slot) (w : Word) : List Word :=
  match slot with
  | .first w2 => [w, w2]
  | _ => [w]

/-- The next record of a replayed core is of this type and stands at its logical time (R518). -/
def State.replayHas (s : State) (k type : Nat) : Bool :=
  match s.mftNext k with
  | some r => r.type == type
  | none => false
/-- The same for an EXC record with a given CODE. -/
def State.replayExc (s : State) (k code : Nat) : Bool :=
  match s.mftNext k with
  | some r => r.type == 0x31 && r.data % 16 == code
  | none => false

/-- The next record is a machine check on poisoned data with this sub-code. -/
def State.replayMce (s : State) (k sub : Nat) : Bool :=
  match s.mftNext k with
  | some r => r.type == 0x31 && r.data % 65536 == 12 + sub * 16
  | none => false

/-- The source that ends a WAIT (R177, R288); in a replay with IE = 0 its record does. -/
def State.wakes (s : State) (k : Nat) : Bool :=
  if s.replaying k then (s.core k).ie || s.replayHas k 0x32
  else s.pendingSources k != 0 || !(s.core k).faults.isEmpty

/-- A core that waits goes on at the word after its WAIT once a source is pending or a fault recorded (R177). A
recording core journals the end of a WAIT with IE = 0 (Table 20-2). A replay first makes the landings recorded at this place (R519). -/
def State.wake (s : State) (k : Nat) : State :=
  let s := s.landRecorded k 8
  if (s.core k).run = .waiting ∧ (s.core k).dbg = false ∧ s.wakes k then
    let s := s.modCore k (fun c => { c with run := .running, pc := (c.pc + 4) % 2 ^ 36 })
    let s := if (s.core k).ie then s else (s.nondet k 0x32 0 []).1
    (s.mftRetire k 1).count k 0x0E 1
  else s

/-- LONG applies at a boundary (Table 11-5, rank 2). -/
def Core.longDue (c : Core) : Bool :=
  !c.faults.isEmpty && c.ie && !(match c.rep with | some r => r.unint | none => false)

def State.longDue (s : State) (k : Nat) : Bool := if s.replaying k then s.replayExc k 10 else (s.core k).longDue

/-- An interrupt applies at a boundary (rank 3). -/
def State.intDue (s : State) (k : Nat) : Bool :=
  let c := s.core k
  if s.replaying k then s.replayHas k 0x30
  else c.ie && s.pendingSources k != 0 && !(match c.rep with | some r => r.unint | none => false)

/-- An asynchronous machine check applies at a boundary (rank 1). -/
def State.mceDue (s : State) (k : Nat) : Bool :=
  if s.replaying k then s.replayExc k 12 && (match s.mftNext k with | some r => decide (48 ≤ r.data % 65536) | none => false)
  else !(s.core k).mce.isEmpty

/-- The core stands between groups and could go on: it runs, and nothing freezes, holds or stops it. -/
def State.atBoundary (s : State) (k : Nat) : Bool :=
  let c := s.core k
  c.run == .running && !c.dbg && !c.mftFrozen && c.freeze.isNone && c.pair.isNone && c.ftChange.isNone && !s.pwr.crst.contains k &&
    !(s.halts.contains k && !(match c.rep with | some r => r.unint | none => false)) &&
    (!c.holdMb || c.mb.isEmpty) &&
    !(s.mem.bcasts.any (fun b => b.src == k && (match b.kind with | .ifence _ => true | .tlbi _ _ => false)))

/-- No exception of ranks 1 to 3 comes first (R276); during a debug step none of ranks 2 and 3 is taken (R574). -/
def State.noneFirst (s : State) (k : Nat) : Bool :=
  let c := s.core k
  !s.mceDue k && (c.dbgStep || (!s.longDue k && !s.intDue k))

/-- The word stands in its slot as the core has fetched it (R100, R164), and the chunk has room for the group. -/
def State.slotFits (s : State) (k : Nat) (slot : Slot) (w target : Word) : Bool :=
  let c := s.core k
  match slot with
  | .single => s.atBoundary k && s.noneFirst k && c.rep.isNone && !(pairBit w && c.pc % 8 == 0 && classOf w != .pfx) && s.chunkRoom k 1
  | .first _ => s.atBoundary k && s.noneFirst k && c.rep.isNone && pairBit w && classOf w != .pfx && c.pc % 8 == 0 && s.chunkRoom k 2
  | .second => c.run == .running && c.freeze.isNone && (match c.pair with | some p => p.w2 == w | none => false)
  | .iter => s.atBoundary k && s.noneFirst k && s.chunkRoom k 1 &&
      (match c.rep with | some r => r.target == w && target == 0 | none => false)

/-- What the fetch of a word answers: the word is there; a fault (rank 4 of Table 11-5); or it waits for a table walk or a line, until
FETCH_LINE_FILL. -/
inductive Fetch where
  | ok (s : State)
  /-- The physical address is that of poisoned words. -/
  | fault (s : State) (e : Exc) (pa : Nat)
  | wait (s : State)

/-- Fetch enters a line, and the line buffer of normal mode holds it and the line after it, when that is in L1I (R189). -/
def Core.enterLine (c : Core) (la pa : Nat) : Core :=
  if c.ft then c else
  let cur : FetchLine := ⟨la / 64, lineOf pa, c.tr, c.user⟩
  let next : FetchLine := ⟨la / 64 + 1, lineOf pa + 1, c.tr, c.user⟩
  { c with lbuf := cur :: (if la / 64 % 64 ≠ 63 ∧ c.l1i.contains next.line then [next] else c.lbuf.filter (fun l => l.la == next.la)) }

/-- Fetch waits for a word. -/
def State.awaitFetch (s : State) (k la : Nat) : State :=
  s.modCore k (fun c => { c with fwait := some (la, c.ccyc) })

/-- The fetch of a word: translation, location and poison, and the line buffer (R189, R201). Words fetched under another setting of
CS.STATUS.TR, which the line buffer still holds, execute as they are (R204, R270). -/
def State.fetch (s : State) (k la : Nat) : Fetch :=
  let c := s.core k
  if c.lbuf.any (fun l => l.la == la / 64 && l.tr != c.tr && l.user == c.user) then .ok s
  else if c.fwait.any (fun f => f.1 == la) then .wait s
  else
    match s.translate k .fetch la with
    | (s, .walk, cost) => .wait (((s.cycles k 0x03 cost).advance k cost).awaitFetch k la)
    | (s, .fault code sub, cost) =>
      let s := (s.cycles k 0x03 cost).advance k cost
      .fault (if code = 6 then s.purge k la else s) ⟨code, sub, la, none⟩ 0
    | (s, .ok r, cost) =>
      let s := (s.cycles k 0x03 cost).advance k cost
      let c := s.core k
      match s.locFault .fetch c.ft r.device 4 r.pa with
      | some sub => .fault s ⟨7, sub, la, none⟩ r.pa
      | none =>
        if (if s.replaying k then s.replayMce k 2 else s.mem.poisoned (lineOf r.pa)) then .fault s ⟨12, 2, la, none⟩ r.pa
        else if s.isLocal r.pa then .ok s
        else if c.lbuf.any (fun l => l.line == lineOf r.pa) || (!c.ft && c.l1i.contains (lineOf r.pa)) then
          .ok (s.modCore k (fun c => c.enterLine la r.pa))
        else .wait (s.awaitFetch k la)

/-- UD of a group (rank 5): the sub-code and the offending word. -/
def State.udOf (s : State) (k : Nat) (slot : Slot) (w target : Word) : Option (Nat × Word) :=
  let x := s.xCauses k
  match slot with
  | .single => if classOf w = .pfx then udRepeat x w target else udSingle x ((s.core k).pc % 8 == 4) w
  | .first w2 => udPair x w w2
  | _ => none

/-- The address CS.EPC takes for a fault of a slot (Table 11-3). -/
def slotEpc (pc : Nat) : Slot → Nat
  | .second => pc + 4
  | _ => pc

/-- An exception of the word in a slot: SYSCALL saves the word after it (R175). UD saves the offending word. -/
def State.trap (s : State) (k : Nat) (slot : Slot) (e : Exc) : State :=
  let epc := slotEpc (s.core k).pc slot + (if e.code = 13 then 4 else 0)
  let s := match e.word with
    | some w => s.modCore k (fun c => { c with faultword := w })
    | none => s
  let s := if e.code ≠ 12 then s else if s.replaying k then s.mftTake k else s.mftEvent k 0x31 (12 + e.sub * 16) []
  s.enter k { code := e.code, sub := e.sub, orig := 0, epc := epc, addr := e.addr }

/-- A fetch fault in the vector table stops the compartment (R275). -/
def State.vectorFault (s : State) (k : Nat) (e : Exc) : State :=
  match s.cmpOf k with
  | some n =>
    let c := s.core k
    (s.event 5 0x012 (groveOf k) (some n) c.pc ((ecauseOf (!c.user && !c.ie) false 0 e.sub e.code).toNat % 2 ^ 32) 0).haltCmp n
  | none => s

/-- The address lies in the vector table (R271). -/
def Core.inVectors (c : Core) (la : Nat) : Bool :=
  let b := c.vbase.toNat / 1024 * 1024
  decide (b ≤ la) && decide (la < b + 1024)

/-! ### Holds (Table 7-3) -/

/-- The bubbles of the units a group needs: those of a pair whose second slot started late (R186), when the group could issue in the
cycle after it, and the divide unit (R123). `t0` is the first cycle in which the group could have issued. -/
def State.unitHolds (s : State) (k : Nat) (slot : Slot) (w : Word) (t0 : Nat) : State :=
  let s := s.advance k 0
  let need := groupUse (s.core k).ft slot w
  let s := match (s.core k).lateUse with
    | some w2 => if (s.core k).pcyc = t0 && (useOf w2).clash need then (s.cycles k 0x05 1).advance k 1 else s
    | none => s
  let n := if (useOf w).div || need.div then (s.core k).divFree - (s.core k).ccyc else 0
  (s.cycles k 0x05 n).advance k n

/-- The word waits at issue until the core's earlier stores are visible: TAS, LR with ACQ, SC with REL, and an access to the control
space or to DEVICE memory (Table 7-3, R92), as its translation stands. -/
def State.ordersStores (s : State) (k : Nat) (w : Word) : Bool :=
  let op := opcodeOf w
  if op = 31 then true
  else if op = 29 ∨ op = 30 then fld w 11 11 == 1
  else if 16 ≤ op ∧ op ≤ 28 ∧ op ≠ 23 then
    let kind : XKind := if 24 ≤ op then .store else .load
    match (s.core k).effAddr w kind.needsR kind.needsW with
    | .error _ => false
    | .ok e =>
      let x := s.coreCtx k
      let ans : Tr := match (s.translateIn k x kind e.la).2.1 with
        | .walk => .of (s.walkFill k x kind e.la).2
        | r => r
      match ans with
      | .ok p => p.device && !s.isLocal p.pa
      | _ => false
  else false

/-- An X word of the group has not been accepted by its context (R213). -/
def State.xWaits (s : State) (k : Nat) (w : Word) : Option Nat :=
  if opcodeOf w < 56 then none
  else match s.xEntry k w with
    | some e => if (s.core k).grant = some e.ctx then none else some e.ctx
    | none => none

/-- The group is held for one of its words: it does not issue, and the holds end by the merging buffer's drains or by UST_ACCEPT. -/
def State.groupHold (s : State) (k : Nat) (ws : List Word) : Option State :=
  if !(s.core k).mb.isEmpty && ws.any (s.ordersStores k) then
    some (s.modCore k (fun c => { c.drainAll with held := true }))
  else match ws.findSome? (s.xWaits k) with
    | some ctx => some (s.modCore k (fun c => { c with held := true, present := some ctx }))
    | none => none

/-- The group issues, with every hold on it ended: parked operations resume at the target issue of an ERET (R220), and a pair keeps the
registers as they are now for both its slots. -/
def State.begin (s : State) (k : Nat) (slot : Slot) : State :=
  let s := if (s.core k).unpark then s.resumeParked k else s
  s.modCore k (fun c => { c with
    lateUse := none
    holdMb := false
    held := false
    present := none
    opCyc := c.ccyc
    opW := match slot with
      | .first _ => some c.w
      | _ => none })

/-- What the body of an instruction answers. -/
inductive Next where
  | fall
  /-- A branch with its outcome and its target. -/
  | branch (taken : Bool) (target : Nat)
  /-- The body has set PC itself. -/
  | set
  deriving DecidableEq, Repr

inductive Res where
  /-- The instruction executes: its register writes, and where execution goes on. -/
  | done (s : State) (es : Effs) (n : Next)
  /-- It raises an exception. -/
  | trap (s : State) (e : Exc)
  /-- It does not issue: a hold of Table 7-3. -/
  | hold (s : State)
  /-- The pipeline freezes for it, or an X word presents. -/
  | freeze (s : State) (f : FreezeKind) (a : Option MemAcc)

/-! ## Retirement -/

/-- FL in program order: the writes in flight applied to the register. -/
def Core.flNewest (c : Core) (es : Effs) : BitVec 5 :=
  (c.pend.map (·.land) ++ es.map (·.1)).foldl (fun fl l => match l with
    | .fl i b => setFl fl i b
    | .q => setFl fl 4 true
    | .qw b => setFl fl 4 b
    | _ => fl) c.fl

/-- Word 3 of a descriptor image, bits 5:0 (Table 9-1). -/
def SegDesc.low (d : SegDesc) : Nat :=
  d.mode.toNat * 16 + d.user.toNat * 8 + d.w.toNat * 4 + d.r.toNat * 2 + d.v.toNat

/-- The writes of an instruction fed to the state hash (R521). -/
def State.mftEffs (s : State) (k : Nat) (es : Effs) : State :=
  match smFind? s.mftc k with
  | none => s
  | some _ =>
    let c := s.core k
    let s := es.foldl (fun s e => match e.1 with
      | .w r v => if r = 0 then s else s.mftItem k r v.toNat
      | .ac n v => s.mftItem k (64 + n) v.toNat
      | .sg n d => (s.mftItem k (72 + n) d.base.toNat).mftItem k (80 + n) (d.limit.toNat + d.low * 2 ^ 36)
      | .rc v => s.mftItem k 69 v.toNat
      | .fp v => s.mftItem k 70 (c.fpcsr.toNat ||| v.toNat * 8)
      | _ => s) s
    if es.any (fun e => match e.1 with | .fl _ _ => true | .q => true | .qw _ => true | _ => false) then
      s.mftItem k 68 (c.flNewest es).toNat
    else s

/-- The general registers a word reads (Tables 5-4 to 5-13, 4-11, 4-13). -/
def readsOf (w : Word) : List Nat :=
  let c := codeOf w; let d := dstOf w; let a := srcAOf w; let b := srcBOf w; let op := opcodeOf w
  if op = 1 then (if (12 ≤ c ∧ c ≤ 15) ∨ c = 23 ∨ c = 24 ∨ c = 27 ∨ c = 28 ∨ c = 30 then [a] else if c = 29 then [] else [a, b])
  else if op = 2 then
    (if c ≤ 3 ∨ c = 7 then [a, a + 1, b, b + 1] else if c ≤ 6 then [a, a + 1, b] else if c ≤ 9 then [a, a + 1]
     else if c = 10 then [a, b] else if c ≤ 14 then [a] else [a, d])
  else if op = 3 then (if c ≤ 11 then [a, b] else [a, a + 1, b, b + 1])
  else if op = 4 then (if 7 ≤ c % 16 ∧ c % 16 ≤ 9 then [a, a + 1] else [a, a + 1, b, b + 1])
  else if op = 5 then
    (if c ≤ 2 then [a, a + 1, b, b + 1] else if c ≤ 5 then [a, b] else if c = 9 then [a] else if c = 16 then [a, a + 1, b] else [])
  else if op = 6 then
    (if 5 ≤ c ∧ c ≤ 7 then [a, b, d] else if c = 23 then [a, a + 1]
     else if c = 4 ∨ c = 10 ∨ c = 11 ∨ c = 13 ∨ 16 ≤ c then [a] else [a, b])
  else if op = 7 then
    (if 5 ≤ c ∧ c ≤ 7 then [a, a + 1, b, b + 1, d, d + 1] else if c = 23 then [a]
     else if c = 4 ∨ c = 10 ∨ c = 11 ∨ c = 13 ∨ 16 ≤ c then [a, a + 1] else [a, a + 1, b, b + 1])
  else if op = 12 then []
  else if op ≤ 15 then [a]
  else if op ≤ 31 then
    (if op = 27 then [a, d, d + 1] else if op = 24 ∨ op = 25 ∨ op = 26 ∨ op = 30 then [a, d] else [a])
  else if op = 34 then [a]
  else if op = 35 then (if fld w 28 28 = 1 then [a] else [])
  else if op = 40 then
    (match sysfnOf w with
     | 1 => if argOf w = 7 then [a, a + 1] else [a]
     | 2 => if argOf w = 7 then [a, a + 1] else [a]
     | 8 => [d, d + 1, a] | 9 => [a] | 11 => [a, a + 1] | _ => [])
  else if 56 ≤ op then [a]
  else []

/-- The destinations of a long operation, as codes of Table 20-3. -/
def DivOp.dests (d : DivOp) : List Nat := d.lands.flatMap (fun l => match l with | .w r _ => [r] | .fp _ => [70] | _ => [])
def XOp.dests (x : XOp) : List Nat := if x.dstKind = 0 then [] else if x.dstKind = 1 then [x.dst] else [x.dst, x.dst + 1]

/-- The destinations of the long operations in flight. -/
def Core.longDests (c : Core) : List Nat := c.div.flatMap DivOp.dests ++ c.xops.flatMap XOp.dests

/-- What a word reads, CS.FPCSR included, as codes of Table 20-3. -/
def readCodes (w : Word) : List Nat :=
  readsOf w ++ (if opcodeOf w = 40 ∧ (sysfnOf w = 0 ∨ sysfnOf w = 2) ∧ argOf w = 1 then [70] else [])

/-- The EARLY records at the core's logical time are taken. -/
def State.takeEarly (s : State) (k : Nat) : Nat → State
  | 0 => s
  | f + 1 => match s.mftNext k with
    | some r => if r.type = 0x50 then (s.mftTake k).takeEarly k f else s
    | none => s

/-- Reads of the destination of a long operation in flight are journalled (Table 20-2, EARLY). -/
def State.mftEarly (s : State) (k : Nat) (w : Word) : State :=
  match smFind? s.mftc k with
  | none => s
  | some _ =>
    if s.replaying k then s.takeEarly k 8
    else (((s.core k).longDests.eraseDups).filter ((readCodes w).contains ·)).foldl (fun s c => s.mftEvent k 0x50 c []) s

/-- In a replay, the long operations whose destinations a word of the group reads without an EARLY record land before the group issues;
one that carries a ULAND record lands at its record instead (R519). -/
def State.landReaders (s : State) (k : Nat) (slot : Slot) (w : Word) : State :=
  match smFind? s.mftc k with
  | none => s
  | some m =>
    if !s.replaying k then s
    else
      let early (off code : Nat) : Bool :=
        m.replay.any (fun r => r.type == 0x50 && r.chunk == m.chunk && r.offset == off && r.data % 256 == code)
      let due (code : Nat) : Bool := (((groupWords slot w).zip (List.range 2)).any (fun e => (readCodes e.1).contains code && !early (m.len + e.2) code))
      let c := s.core k
      s.landOps k ((c.div.filter (fun d => d.dests.any due)).map (·.seq) ++
        (c.xops.filter (fun x => x.parked.isNone && !x.stored && x.dests.any due)).map (·.seq))

/-- The predictor's entry for a branch: the words of one address modulo 256 make a set of
four, the oldest is replaced (R190, log entry 14: which bits of an address pick the set the spec does not say). -/
def btbLearn (l : List BtbEntry) (pc target : Nat) (taken : Bool) : List BtbEntry :=
  match l.find? (·.pc == pc) with
  | some e =>
    let ctr := if taken then min 3 (e.ctr + 1) else e.ctr - 1
    l.map (fun b => if b.pc = pc then { b with ctr := ctr, target := if taken then target else b.target } else b)
  | none =>
    if !taken then l else
    let mine := l.filter (fun b => b.pc / 4 % 256 == pc / 4 % 256)
    let l := match mine with
      | v :: _ => if 4 ≤ mine.length then l.filter (·.pc != v.pc) else l
      | [] => l
    l ++ [{ pc := pc, target := target, ctr := 2 }]

/-- A return: JRL with srcA W63 and dst W0 (R190). -/
def isReturn (w : Word) : Bool := opcodeOf w == 34 && srcAOf w == 63 && dstOf w == 0

/-- Cycles from the branch to the next group (Table 7-5), with the predictor updated, and whether it was mispredicted. A return that the
buffer holds and predicts not taken pops the stack when it resolves taken, as an absent one does (log entry 14: the spec says so of the
absent one only). -/
def Core.branchCost (c : Core) (w : Word) (pc : Nat) (taken : Bool) (target : Nat) : Core × Nat × Bool :=
  if c.ft then (c, if taken then 4 else 1, false)
  else
    let e := c.btb.find? (·.pc == pc)
    let predTaken : Bool := match e with | some b => decide (2 ≤ b.ctr) | none => false
    let ret := isReturn w
    let predTarget : Nat := if ret then c.ras.headD 0 else match e with | some b => b.target | none => 0
    let pops : Bool := ret && (predTaken || taken)
    let ras := if pops then c.ras.drop 1 else c.ras
    let links : Bool := taken && (opcodeOf w == 33 || (opcodeOf w == 34 && dstOf w != 0))
    let c := { c with ras := if links then ((pc + 4) :: ras).take 8 else ras, btb := btbLearn c.btb pc target taken }
    if !taken && !predTaken then (c, 1, false)
    else if taken && predTaken && predTarget == target then (c, 2, false)
    else (c, 7, true)

/-- A debugger's single step ends with its group (R574). -/
def Core.stepped (c : Core) : Core :=
  if c.dbgStep then { c with dbg := true, dbgStep := false, dbgReason := 2 } else c

/-- The instruction in a slot retires: its writes set off, PC and time go on. -/
def State.retire (s : State) (k : Nat) (slot : Slot) (w : Word) (es : Effs) (n : Next) : State :=
  let c := s.core k
  let late : Bool := match slot, c.pair with
    | .second, some p => p.late
    | _, _ => false
  let iterPc : Nat := match c.rep with | some r => r.pc | none => c.pc
  let own := if slot = .second then c.pc + 4 else c.pc
  let fallPc := match slot with | .second => c.pc + 8 | .iter => iterPc | _ => c.pc + 4
  let s := ((s.mftEarly k w).mftEffs k es).mftRetire k 1
  let s := (s.count k 0x0E 1).count k 0x01 1
  let s := s.modCore k (fun c => { c.setOff (c.pcyc + late.toNat) es with seq := c.seq + 1, resume := n == .set && c.resume })
  match slot with
  | .first w2 =>
    (s.count k 0x10 1).modCore k (fun c => { c with pair := some { w2 := w2, cyc := c.opCyc, late := pairLate c.ft w w2 } })
  | .iter =>
    let s := ((s.count k 0x16 1).count k 0x02 1).count k 0x0F 1
    let s := s.mftItem k 69 (c.rc - 1).toNat
    let s := s.modCore k (fun c =>
      let rc := c.rc - 1
      let c := { c with opW := none }
      if rc = 0 then { c with rc := 0, rep := none, pc := (iterPc + 8) % 2 ^ 36 } else { c with rc := rc })
    (s.advance k 1).modCore k Core.stepped
  | _ =>
    let (c', cost, mis) := match n with
      | .branch t tg => (s.core k).branchCost w own t tg
      | _ => (s.core k, 1, false)
    let s := s.setCore k c'
    let s := match n with
      | .branch _ _ => let s := s.count k 0x11 1; if mis then s.count k 0x12 1 else s
      | _ => s
    let s := s.count k 0x0F 1
    let s := if slot = .single then s.count k 0x02 1 else s
    let s := s.cycles k (if mis then 0x04 else 0x03) (cost - 1)
    let lateCost : Nat := if late && (c.ft || (match n with | .branch _ _ => true | _ => false)) then 1 else 0
    let s := s.cycles k 0x02 lateCost
    let s := s.modCore k (fun c =>
      { c with
        pair := none
        opW := none
        lateUse := if late && lateCost = 0 then some w else none
        pc := match n with
          | .fall => fallPc % 2 ^ 36
          | .branch t tg => (if t then tg else fallPc) % 2 ^ 36
          | .set => c.pc })
    (s.advance k (cost + lateCost)).modCore k Core.stepped

/-- What the body answered becomes the next state. An instruction that freezes keeps its operands as it read them. -/
def State.finish (k : Nat) (slot : Slot) (w : Word) : Res → State
  | .done s es n => s.retire k slot w es n
  | .trap s e => s.trap k slot e
  | .hold s => s
  | .freeze s f a => s.modCore k (fun c =>
      { c with freeze := some { kind := f, slot := slot, word := w, acc := a }, opW := some (c.opW.getD c.w) })

/-! ## One instruction -/

/-- The outcome of everything that comes before an instruction's own effect: ranks 4 and 5 of Table 11-5, and the holds of Table 7-3. -/
inductive Prep where
  /-- The word does not issue. -/
  | stay
  /-- It issues in this state. -/
  | go (s : State)
  /-- A fetch fault or UD has been taken, the vector table cannot be fetched, fetch waits, or the group is held. -/
  | out (s : State)

/-- A fault of the group's fetch or its words is taken, unless the bubbles before it have brought up what comes first (R276). -/
def State.preFault (s : State) (k : Nat) (slot : Slot) (e : Exc) (pa : Nat) : State :=
  if !s.noneFirst k then s
  else
    let s := if e.code = 12 then s.event 4 0x038 landing (s.cmpOf k) pa 1 0 else s
    if e.word.isNone && (s.core k).inVectors e.addr then s.vectorFault k e else s.trap k slot e

/-- The group has been fetched and decoded: its holds, and its issue when nothing of ranks 1 to 3 has come up meanwhile. -/
def State.ready (s : State) (k : Nat) (slot : Slot) (w : Word) (t0 : Nat) : Prep :=
  let s := s.unitHolds k slot w t0
  if !s.noneFirst k then .out s
  else match s.groupHold k (groupWords slot w) with
    | some s => .out s
    | none => .go ((s.landReaders k slot w).begin k slot)

def State.prepare (s : State) (k : Nat) (slot : Slot) (w target : Word) : Prep :=
  let s := s.wake k
  if !s.slotFits k slot w target then .stay
  else
    let t0 := (s.core k).pcyc
    match slot with
    | .second => .go s
    | .iter => s.ready k slot w t0
    | _ =>
      let pc := (s.core k).pc
      match s.fetch k pc with
      | .wait s => .out s
      | .fault s e pa => .out (s.preFault k slot e pa)
      | .ok s =>
        let alone : Option (Nat × Word) :=
          if classOf w = .pfx then (match slot with | .single => (least (udRptWord w)).map (·, w) | _ => none) else none
        match alone with
        | some u => .out (s.preFault k slot ⟨1, u.1, 0, some u.2⟩ 0)
        | none =>
          let more : Fetch :=
            if classOf w = .pfx then (match slot with | .single => s.fetch k ((pc + 4) % 2 ^ 36) | _ => .ok s) else .ok s
          match more with
          | .wait s => .out s
          | .fault s e pa => .out (s.preFault k slot e pa)
          | .ok s =>
            match s.udOf k slot w target with
            | some u => .out (s.preFault k slot ⟨1, u.1, 0, some u.2⟩ 0)
            | none => s.ready k slot w t0

/-- The command of a core's instruction: `spells` says that the word spells the command's row, `body` is the effect. -/
def State.issueT (s : State) (x : At) (w target : Word) (spells : Bool) (body : State → Res) : Out :=
  if !spells then .next s
  else match s.prepare x.core x.slot w target with
    | .stay => .next s
    | .out s => .next s
    | .go s => .next (State.finish x.core x.slot w (body s))

def State.issue (s : State) (x : At) (w : Word) (spells : Bool) (body : State → Res) : Out := s.issueT x w 0 spells body

/-- The body of an instruction that only reads and writes registers. -/
def compute (k : Nat) (f : Core → Effs) (s : State) : Res := .done s (f (s.core k)) .fall

/-- Linear address of the word in a slot: the target of a repeat follows its prefix. -/
def slotAddr (pc : Nat) : Slot → Nat
  | .second => pc + 4
  | .iter => pc + 4
  | _ => pc

/-- The core cycle in which the word in a slot starts: that in which its group issued; a late second slot starts in the pipeline cycle
after that (R123, R202). -/
def Core.startOf (c : Core) (slot : Slot) : Nat :=
  match slot, c.pair with
  | .second, some p => if p.late then c.ccyc + 1 else p.cyc
  | .second, none => c.ccyc
  | _, _ => c.opCyc

/-- The second of a pair of divide-unit operations waits at issue until the first has ended (R123, R145). -/
def State.divWait (s : State) (x : At) : State :=
  let c := s.core x.core
  if x.slot = .second ∧ c.startOf .second < c.divFree then
    let n := c.divFree - c.ccyc
    ((s.cycles x.core 0x05 n).advance x.core n).modCore x.core (fun c =>
      { c with pair := c.pair.map (fun p => { p with late := false, cyc := c.ccyc }) })
  else s

/-- A divide-unit operation starts, in the cycle its slot starts (R123, R183): its writes, its fault, its latency. -/
def longOp (x : At) (lat : Nat) (f : Core → List Land × Option (Nat × Nat)) (s : State) : Res :=
  let k := x.core
  let s := s.divWait x
  let c := s.core k
  let r := f c
  let due := c.startOf x.slot + lat
  let op : DivOp := { lands := r.1, due := due, seq := c.seq,
                      fault := r.2.map (fun e => ⟨e.1, e.2, slotAddr c.pc x.slot, c.seq⟩) }
  .done ((s.modCore k (fun c => { c with div := c.div ++ [op], divFree := due })).count k 0x13 1) [] .fall

/-- The first enabled flag raised, in the order NV DZ OF UF NX (Table 11-3). -/
def fpeSub (hit : BitVec 5) : Nat :=
  if hit.getLsbD 4 then 1 else if hit.getLsbD 3 then 2 else if hit.getLsbD 2 then 3 else if hit.getLsbD 1 then 4 else 5

/-- A precise floating-point operation (R77): its writes with its flags, or FPE with the flags set and nothing written. -/
def fpOp (k : Nat) (lat : Nat) (f : Core → Effs × BitVec 5) (s : State) : Res :=
  let c := s.core k
  let r := f c
  let hit := r.2 &&& c.fpEnable
  if hit ≠ 0 then .trap (s.modCore k (fun c => c.orFp r.2)) ⟨9, fpeSub hit, 0, none⟩
  else .done s (r.1 ++ (if r.2 = 0 then [] else [(.fp r.2, lat)])) .fall

/-- A divide or square root in floating point: the flags land in either case. -/
def fpLong (x : At) (lat : Nat) (f : Core → List Land × BitVec 5) (s : State) : Res :=
  longOp x lat (fun c =>
    let r := f c
    let fl : List Land := if r.2 = 0 then [] else [.fp r.2]
    let hit := r.2 &&& c.fpEnable
    if hit ≠ 0 then (fl, some (9, fpeSub hit)) else (r.1 ++ fl, none)) s

/-- The word has this major opcode and function code. -/
def isFn (w : Word) (op code : Nat) : Bool := opcodeOf w == op && codeOf w == code

end Sys2Proof.Machine
end

