-- ==== Sys2Proof/Machine/Control.lean ====
section
/-!
DEFINITION. Branches, calls, jumps and repeats (R110, R114 to R117, R161 to R167), and words that no row names (R118).
-/
namespace Sys2Proof.Machine

/-- The address of the instruction in a slot (R110). -/
def ownAddr (c : Core) : Slot → Nat
  | .second => c.pc + 4
  | _ => c.pc

/-- The target of BR and CALL: modulo 2^36 (R161). -/
def relTarget (own : Nat) (w : Word) : Nat := (((own : Int) + 4 * disp25Of w) % 2 ^ 36).toNat

/-- The link value (R162): the instruction's own address plus 4. -/
def linkValue (own : Nat) : Word := BitVec.ofNat 36 (own + 4)

/-- BR (R162). -/
def execBr (x : At) (w : Word) (s : State) : Out :=
  s.issue x w (opcodeOf w == 32) fun s =>
    let c := s.core x.core
    .done s [] (.branch (condHolds (condOf w) c.fl) (relTarget (ownAddr c x.slot) w))

/-- CALL (R162): taken, it writes W63 with latency 1. -/
def execCall (x : At) (w : Word) (s : State) : Out :=
  s.issue x w (opcodeOf w == 33) fun s =>
    let c := s.core x.core
    let own := ownAddr c x.slot
    let t := condHolds (condOf w) c.fl
    .done s (if t then wr 63 (linkValue own) 1 else []) (.branch t (relTarget own w))

/-- JRL (R163): the target is read before the link is written; a taken jump to an address that is not a multiple of 4
raises ALN MISALIGNED with the target in CS.EADDR (R236). -/
def execJrl (x : At) (w : Word) (s : State) : Out :=
  s.issue x w (opcodeOf w == 34) fun s =>
    let c := s.core x.core
    let own := ownAddr c x.slot
    let t := condHolds (fld w 3 0) c.fl
    let target := (c.srcA w).toNat
    if t && target % 4 != 0 then .trap s ⟨7, 1, target, none⟩
    else .done s (if t then wr (dstOf w) (linkValue own) 1 else []) (.branch t target)

/-- The count of RPT (R114): immediate, or the register's value. -/
def rptCount (c : Core) (w : Word) : Word :=
  if fld w 28 28 = 1 then c.reg (fld w 22 17) else BitVec.ofNat 36 (fld w 17 0)

/-- A repeat issues (R164): RC receives the count, or after a marked ERET keeps what ERET gave it (R166); a count of 0
goes on after the target. -/
def startRepeat (k : Nat) (w target : Word) (unint : Bool) (count : Core → Word) (s : State) : Res :=
  let c := s.core k
  let n := if c.resume then c.rc else count c
  let s := s.modCore k (fun c =>
    if n = 0 then { c with pc := (c.pc + 8) % 2 ^ 36, resume := false }
    else { c with rep := some { pc := c.pc, word := w, target := target, unint := unint }, resume := false })
  .done s [(.rc n, 1)] .set

/-- RPT (R114, R164). -/
def execRpt (x : At) (w : Word) (target : Word) (s : State) : Out :=
  s.issueT x w target (opcodeOf w == 35) (startRepeat x.core w target false (fun c => rptCount c w))

/-- RPTU (R115, R167). -/
def execRptu (x : At) (w : Word) (target : Word) (s : State) : Out :=
  s.issueT x w target (opcodeOf w == 36) (startRepeat x.core w target true (fun _ => BitVec.ofNat 36 (fld w 8 0)))

/-- A word that is undefined in its group is issued and raises UD (R118); any other word is its own row's. -/
def execUndefinedEncoding (x : At) (w : Word) (target : Word) (s : State) : Out :=
  s.issueT x w target (s.udOf x.core x.slot w target).isSome (fun s => .hold s)

end Sys2Proof.Machine
end

