-- ==== Sys2Proof/Machine/System.lean ====
section
/-!
DEFINITION. The system operations of opcode 40 (R112, R159, R160, R169 to R177), but for CMO, which stands with the memory
instructions.
-/
namespace Sys2Proof.Machine

def isSys (w : Word) (fn : Nat) : Bool := opcodeOf w == 40 && sysfnOf w == fn

/-! ## CS registers (R82, R83, R169, R170) -/

/-- CS.COREID (Table 3-8). -/
def State.coreid (s : State) (k : Nat) : Word :=
  let pair := match s.live.pkg with
    | some p => p.pairIndex
    | none => 0
  BitVec.ofNat 36 (k + ((s.cmpOf k).getD 0) * 2 ^ 8 + pair * 2 ^ 13 + s.rank k * 2 ^ 14)

/-- User mode may read the register (Table 3-5). -/
def csUserRead (n : Nat) : Bool := n == 0 || n == 1 || n == 2 || n == 16 || n == 17
/-- A user-mode write raises nothing: RW in user mode, or RO in both modes. -/
def csUserWrite (n : Nat) : Bool := n == 1 || n == 2 || n == 16 || n == 17

/-- The value of a CS register, with the state after the read: a draw of CS.RNG is used up, and the reads of CS.TIME,
CS.RNG and CS.IPEND are journalled or replayed (R86, R518). -/
def State.csRead (s : State) (k n : Nat) : State × DWord :=
  let c := s.core k
  let one (v : Word) : State × DWord := (s, v.setWidth 72)
  let from_ (r : State × Nat) : State × DWord := (r.1, BitVec.ofNat 72 r.2)
  match n with
  | 0 => one c.status
  | 1 => one c.fpcsr
  | 2 => one (s.coreid k)
  | 3 => one c.faultword
  | 4 => one c.epc
  | 5 => one c.estatus
  | 6 => one c.ecause
  | 7 => (s, c.eaddr.setWidth 72)
  | 8 => one c.vbase
  | 9 => one (smGet 0 c.scratch 0)
  | 10 => one (smGet 0 c.scratch 1)
  | 11 => one (smGet 0 c.scratch 2)
  | 12 => one (smGet 0 c.scratch 3)
  | 13 => one c.segtab
  | 14 => one c.ptbase
  | 15 => one c.asid
  | 16 => from_ (s.nondet k 0x40 (s.time % 2 ^ 72) [s.time / 2 ^ 64 % 256])
  | 17 =>
    let r := s.nondet k 0x41 (Config.rngDraw s.draws).toNat []
    from_ ({ r.1 with draws := r.1.draws + 1 }, r.2)
  | 18 => one (c.imask &&& 0xFFFFFFFF)
  | 19 => from_ (s.nondet k 0x42 (s.ipend k).toNat [])
  | 20 => one c.savedrc
  | _ => (s, 0)

/-- CS.STATUS.CSREJ is set. -/
def Core.csrej (c : Core) : Core := { c with status := c.status ||| 0x80 }

/-- A write of CS.STATUS (Table 3-7): CSREJ is cleared by writing 1, a change of FT waits for FT_MODE_CHANGE (R203), and
FT = 1 on a core that is not covered refuses the whole write (R196). -/
def Core.writeStatus (c : Core) (covered : Bool) (v : Word) : Core :=
  let ft := v.getLsbD 3
  if ft && !covered then c.csrej
  else
    let keep : Word := if v.getLsbD 7 then c.status &&& 0x8 else c.status &&& 0x88
    { c with status := (v &&& 7) ||| keep, ftChange := if ft = c.ft then none else some ft }

/-- A write of a CS register by a mode that may make it (R83). A reserved value leaves the register and sets CSREJ. -/
def Core.csWrite (c : Core) (covered : Bool) (n : Nat) (v : DWord) : Core :=
  let x : Word := v.extractLsb' 0 36
  match n with
  | 0 => c.writeStatus covered x
  | 1 => if 5 ≤ fld x 2 0 then c.csrej else { c with fpcsr := x &&& 0xF8FF }
  | 4 => { c with epc := x }
  | 5 => { c with estatus := x &&& statusFields }
  | 6 =>
    let orig := fld x 19 16
    if fld x 3 0 = 15 ∨ ¬ (orig = 0 ∨ orig = 8 ∨ orig = 9 ∨ orig = 11) then c.csrej
    else { c with ecause := x &&& 0x3000FFFFF }
  | 7 => { c with eaddr := v.extractLsb' 0 48 }
  | 8 => { c with vbase := x &&& 0xFFFFFFC00 }
  | 9 => { c with scratch := smPut 0 c.scratch 0 x }
  | 10 => { c with scratch := smPut 0 c.scratch 1 x }
  | 11 => { c with scratch := smPut 0 c.scratch 2 x }
  | 12 => { c with scratch := smPut 0 c.scratch 3 x }
  | 13 => { c with segtab := x &&& 0xFFFFFF0FF }
  | 14 => { c with ptbase := x &&& 0x3FFFFFFF }
  | 15 => { c with asid := x &&& 0xFFF }
  | 18 => { c with imask := x &&& 0xFFFFFFFF }
  | 20 => { c with savedrc := x }
  | _ => c

/-- The operand of a CS write: CS.EADDR takes a pair (R618). -/
def csOperand (c : Core) (n r : Nat) : DWord := if n = 7 then c.regPair r else (c.reg r).setWidth 72

/-- The writes of a CS read: latency 2, a pair for CS.TIME and CS.EADDR. -/
def csResult (n r : Nat) (v : DWord) : Effs :=
  if csPairRead n then wrPair r v 2 else wr r (v.extractLsb' 0 36) 2

/-- PRIV (code 2): 1 a privileged operation, 2 a CS register refused to user mode. -/
def privExc (sub : Nat) : Exc := ⟨2, sub, 0, none⟩

/-- CSRW and CSRX wait until every short write in flight has landed (R170). -/
def State.settle (s : State) (k : Nat) : State :=
  let n := (s.core k).drainTime
  (s.cycles k 0x05 n).advance k n

/-- A write of a CS register with what follows from it. -/
def State.csPut (s : State) (k n : Nat) (v : DWord) : State :=
  let s := s.modCore k (fun c => c.csWrite (s.covered k) n v)
  let s := if ((s.core k).ftChange).isSome then s.modCore k Core.drainAll else s
  s.mftItem k (0x100 + n) v.toNat

/-- CSRR (R169). -/
def execCsrr (x : At) (w : Word) (s : State) : Out :=
  s.issue x w (isSys w 0) fun s =>
    let k := x.core; let n := argOf w
    if (s.core k).user && !csUserRead n then .trap s (privExc 2)
    else
      let r := s.csRead k n
      .done r.1 (csResult n (dstOf w) r.2) .fall

/-- CSRW (R169, R170). -/
def execCsrw (x : At) (w : Word) (s : State) : Out :=
  s.issue x w (isSys w 1) fun s =>
    let k := x.core; let n := argOf w
    if (s.core k).user && !csUserWrite n then .trap s (privExc 2)
    else
      let s := s.settle k
      .done (s.csPut k n (csOperand (s.core k) n (srcAOf w))) [] .fall

/-- CSRX (R169): both, with the operand read at issue. -/
def execCsrx (x : At) (w : Word) (s : State) : Out :=
  s.issue x w (isSys w 2) fun s =>
    let k := x.core; let n := argOf w
    if (s.core k).user && !(csUserRead n && csUserWrite n) then .trap s (privExc 2)
    else
      let s := s.settle k
      let v := csOperand (s.core k) n (srcAOf w)
      let r := s.csRead k n
      .done (r.1.csPut k n v) (csResult n (dstOf w) r.2) .fall

/-! ## Exceptions by instruction, return, waiting (R160, R175 to R177) -/

/-- SYSCALL (R175): CS.EPC takes the word after it. -/
def execSyscall (x : At) (w : Word) (s : State) : Out :=
  s.issue x w (isSys w 3) fun s => .trap s ⟨13, argOf w, 0, none⟩

/-- BREAK (R175). -/
def execBrk (x : At) (w : Word) (s : State) : Out :=
  s.issue x w (isSys w 4) fun s => .trap s ⟨14, argOf w, 0, none⟩

/-- The short writes in flight land before the target of an ERET issues, in the cycle after the last of them at the earliest (R182). -/
def State.eretDrain (s : State) (k : Nat) : State :=
  let n := (s.core k).drainTime - 1
  (s.cycles k 0x05 n).advance k n

/-- ERET (R176, R617). -/
def execEret (x : At) (w : Word) (s : State) : Out :=
  s.issue x w (isSys w 5) fun s =>
    if (s.core x.core).user then .trap s (privExc 1)
    else .done ((s.eretDrain x.core).modCore x.core (fun c => c.eret (s.covered x.core))) [] .set

/-- LWAIT (R160, R277): it holds until the long operations have landed; the oldest recorded fault is then delivered with
its own code. In a replay the landings are made here (R519). -/
def execLwait (x : At) (w : Word) (s : State) : Out :=
  s.issue x w (isSys w 6) fun s =>
    let k := x.core
    let n := (s.core k).longTime
    let landed := ((s.cycles k 0x05 n).advance k n).landRest k
    match (landed.core k).faults with
    | f :: rest => .trap (landed.modCore k (fun c => { c with faults := rest })) ⟨f.code, f.sub, f.addr, none⟩
    | [] => .done (((s.cycles k 0x05 (n - 1)).advance k (n - 1)).landRest k) [] .fall

/-- WAIT (R177): issue stops with PC at the WAIT. -/
def execWait (x : At) (w : Word) (s : State) : Out :=
  s.issue x w (isSys w 12) fun s =>
    if (s.core x.core).user then .trap s (privExc 1)
    else .hold (s.modCore x.core (fun c => { c with run := .waiting }))

/-! ## Fences (R159) -/

/-- Every entry starts to drain, and later instructions wait until the merging buffer is empty. -/
def fenceBody (k : Nat) (s : State) : Res :=
  .done (s.modCore k (fun c => { c.drainAll with holdMb := true })) [] .fall

/-- FENCE.L. -/
def execFenceL (x : At) (w : Word) (s : State) : Out := s.issue x w (isSys w 7 && argOf w % 4 == 1) (fenceBody x.core)
/-- FENCE.S. -/
def execFenceS (x : At) (w : Word) (s : State) : Out := s.issue x w (isSys w 7 && argOf w % 4 == 2) (fenceBody x.core)
/-- FENCE.A. -/
def execFenceA (x : At) (w : Word) (s : State) : Out := s.issue x w (isSys w 7 && argOf w % 4 == 3) (fenceBody x.core)

/-! ## Translation maintenance (R171, R172) -/

/-- An instruction that waits at issue until every earlier store is visible: the drain starts, and it does not issue while
an entry is left. -/
def afterDrain (k : Nat) (body : State → Res) (s : State) : Res :=
  if (s.core k).mb.isEmpty then body s else .hold (s.modCore k (fun c => { c.drainAll with held := true }))

/-- The agents a broadcast of core k addresses: the other cores of its compartment; for TLBI also its DMA engines and
Understoreys. -/
def State.bcastAgents (s : State) (k : Nat) (engines : Bool) : List Agent :=
  match s.cmpOf k with
  | none => []
  | some n =>
    ((s.coresOf n).filter (· != k)).map Agent.core ++
    (if engines then
      ((List.range 12).filter (fun g => s.ownerOf 9 g == some n)).map Agent.understorey ++
      ((List.range 64).filter (fun e => s.ownerOf 7 e == some n)).map Agent.engine
     else [])

def State.broadcast (s : State) (k : Nat) (engines : Bool) (kind : BcastKind) : State :=
  s.setMem { s.mem with bcasts := s.mem.bcasts ++ (s.bcastAgents k engines).map (fun a => ⟨k, a, kind⟩) }

/-- TLBI of one form: locally at once, and with bit 2 of arg to every agent of the compartment. -/
def tlbiBody (k form : Nat) (w : Word) (s : State) : Res :=
  if (s.core k).user then .trap s (privExc 1)
  else afterDrain k (fun s =>
    let v := (s.core k).srcA w
    let arg := if form = 0 then v.toNat else fld v 11 0
    let s := s.modCore k (fun c => c.tlbi form arg)
    let s := if fld w 2 2 = 1 then s.broadcast k true (.tlbi form arg) else s
    .done s [] .fall) s

/-- TLBI by address. -/
def execTlbiByAddress (x : At) (w : Word) (s : State) : Out :=
  s.issue x w (isSys w 9 && argOf w % 4 == 0) (tlbiBody x.core 0 w)
/-- TLBI by ASID. -/
def execTlbiByAsid (x : At) (w : Word) (s : State) : Out :=
  s.issue x w (isSys w 9 && argOf w % 4 == 1) (tlbiBody x.core 1 w)
/-- TLBI all. -/
def execTlbiAll (x : At) (w : Word) (s : State) : Out :=
  s.issue x w (isSys w 9 && argOf w % 4 == 2) (tlbiBody x.core 2 w)

/-- A TLBI of this core has not reached every agent. -/
def State.tlbiOpen (s : State) (k : Nat) : Bool :=
  s.mem.bcasts.any (fun b => b.src == k && (match b.kind with | .tlbi _ _ => true | .ifence _ => false))

/-- Bubbles of TSYNC when nothing is outstanding: with its TLBI the typical 12 cycles of Table 6-3 (log entry 15). -/
def tsyncTime : Nat := 10

/-- TSYNC (R172). -/
def execTsync (x : At) (w : Word) (s : State) : Out :=
  s.issue x w (isSys w 10) fun s =>
    if (s.core x.core).user then .trap s (privExc 1)
    else if s.tlbiOpen x.core then .hold s
    else .done ((s.cycles x.core 0x05 tsyncTime).advance x.core tsyncTime) [] .fall

/-! ## IFENCE (R174, R194) -/

/-- The physical ranges that a linear range maps to, page by page of 4 Kibyte; pages that are not mapped are skipped. The
first argument bounds the number of pages. -/
def State.mappedRanges (s : State) (ctx : XCtx) : Nat → Nat → Nat → List (Nat × Nat)
  | 0, _, _ => []
  | f + 1, la, len =>
    if len = 0 then [] else
    let n := min len (4096 - la % 4096)
    let rest := s.mappedRanges ctx f ((la + n) % 2 ^ 48) (len - n)
    if !ctx.tr then (la, la + n) :: rest
    else match (s.walk ctx la).1 with
      | .leaf e level =>
        let sz := leafSize ctx.pow2 level e
        let pa := eAddr e / 2 ^ sz * 2 ^ sz + la % 2 ^ sz
        (pa, pa + n) :: rest
      | .fault _ _ _ _ => rest

/-- The line holds bytes of a range. -/
def lineIn (ranges : List (Nat × Nat)) (line : Nat) : Bool :=
  ranges.any (fun r => decide (r.1 < line * 64 + 64) && decide (line * 64 < r.2))

/-- A core discards the L1I lines of the ranges and its whole line buffer. -/
def Core.ifence (c : Core) (ranges : List (Nat × Nat)) : Core :=
  { c with l1i := c.l1i.filter (fun l => !lineIn ranges l), lbuf := [] }

/-- Cycles of a local IFENCE: the greatest of Table 6-3 (log entry 15). -/
def ifenceTime (len : Nat) : Nat := 8 + min ((len + 63) / 64) 256

/-- IFENCE. A broadcast holds later instructions until every addressed core has been reached. -/
def execIfence (x : At) (w : Word) (s : State) : Out :=
  s.issue x w (isSys w 8) fun s =>
    let k := x.core
    afterDrain k (fun s =>
      let c := s.core k
      let la := ((c.pairD w).extractLsb' 0 48).toNat
      let len := (c.srcA w).toNat
      let ranges := s.mappedRanges (s.coreCtx k) (len / 4096 + 2) la len
      let s := s.modCore k (fun c => c.ifence ranges)
      let s := if fld w 0 0 = 1 then s.broadcast k false (.ifence ranges) else s
      let n := ifenceTime len - 1
      .done ((s.cycles k 0x05 n).advance k n) [] .fall) s

end Sys2Proof.Machine
end

