-- ==== Sys2Proof/Machine/Events.lean ====
section
/-!
DEFINITION. What happens to a core besides its own instructions: entries at a boundary (R276 to R281), landings (R183),
fills (R189), the change of mode (R203), timers and inter-core interrupts (R282), broadcasts that arrive (R194, R270), and
the merging buffer (R293, R294).
-/
namespace Sys2Proof.Machine

/-! ## Entries at a boundary -/

/-- The core stands at a boundary; a group that is held has not issued. -/
def State.interruptible (s : State) (k : Nat) : Bool := s.atBoundary k

/-- A chunk that has reached its limit ends before an entry (R533). -/
def State.chunkFull (s : State) (k : Nat) : State :=
  match smFind? s.mftc k, s.cmpOf k with
  | some c, some n => if s.recording n && decide (65536 ≤ c.len) then s.mftEndChunk k 1 else s
  | _, _ => s

/-- The data of an EXC record. -/
def excData (code sub orig : Nat) : Nat := code + sub % 4096 * 16 + orig * 65536

/-- An interrupt is taken (rank 3, R281): the lowest-numbered source pending and unmasked; in a replay the recorded one. -/
def execInterruptEntry (core : Nat) (s : State) : Out :=
  let k := core
  let s1 := s.wake k
  if s1.interruptible k && !s1.mceDue k && !s1.longDue k && s1.intDue k && !(s1.core k).dbgStep then
    let s1 := s1.chunkFull k
    let (s1, src) := s1.nondet k 0x30 ((lowestBit (s1.pendingSources k)).getD 0) []
    .next (s1.enter k { code := 0, sub := src % 32, orig := 0, epc := (s1.core k).pc, addr := 0 })
  else .next s

/-- A recorded fault of a long operation is delivered imprecisely (rank 2, R277). -/
def execLong (core : Nat) (s : State) : Out :=
  let k := core
  let s1 := s.wake k
  if s1.interruptible k && !s1.mceDue k && s1.longDue k && !(s1.core k).dbgStep then
    let s1 := s1.landFault k
    match (s1.core k).faults with
    | f :: rest =>
      let s1 := s1.chunkFull k
      let (s1, _) := s1.nondet k 0x31 (excData 10 f.sub f.code) []
      let s1 := s1.modCore k (fun c => { c with faults := rest })
      .next (s1.enter k { code := 10, sub := f.sub, orig := f.code, epc := (s1.core k).pc, addr := f.addr })
    | [] => .next s
  else .next s

/-- An uncorrectable error of the cell memory under the core's oldest operation in flight (Table 24-2): the context's cells are
zeroed, and every other core with an operation in flight on it owes CELL_UE. -/
def State.cellError (s : State) (k : Nat) : State :=
  match (s.core k).xops with
  | [] => s
  | x :: _ =>
    let g := groveOf k
    let u := s.ust g
    let mine (cell : Nat) : Bool := match s.ustCfg g with
      | some v => Config.ustCellCtx v.image cell == x.ctx
      | none => false
    let s := s.setUst g { u with cells := { acc := u.cells.acc.filter (fun e => !mine e.1),
                                            mem := u.cells.mem.filter (fun e => !mine (e.1 / 1024)) } }
    s.modCores (fun j c => if j ≠ k ∧ groveOf j = g ∧ c.xops.any (·.ctx == x.ctx) ∧ !c.mce.contains 4 then { c with mce := c.mce ++ [4] } else c)

/-- An asynchronous machine check is taken (rank 1, R591): POISON_LONG when one is owed, CELL_UE and REGFILE when the
hardware finds the error. A core that stands at a WAIT is at a boundary. -/
def execMachineCheckAsync (core sub : Nat) (s : State) : Out :=
  let k := core
  let s := s.landRecorded k 8
  let c := s.core k
  let s1 := if c.run = .waiting then s.modCore k (fun c => { c with run := .running }) else s
  let due : Bool := if s.replaying k then s.mceDue k else c.mce.contains sub || sub == 4 || sub == 5
  if s1.interruptible k && due && 3 ≤ sub && sub ≤ 5 then
    let s1 := s1.chunkFull k
    let (s1, _) := s1.nondet k 0x31 (excData 12 sub 0) []
    let s1 := if sub = 4 ∧ !c.mce.contains 4 then s1.cellError k else s1
    let s1 := s1.modCore k (fun c => { c with mce := c.mce.erase sub })
    .next (s1.enter k { code := 12, sub := sub, orig := 0, epc := (s1.core k).pc, addr := 0 })
  else .next s

/-- A chunk holds its limit of units, or has no room for a pair: it ends at the boundary (R513). -/
def execChunkLimit (core : Nat) (s : State) : Out :=
  match smFind? s.mftc core, s.cmpOf core with
  | some c, some n =>
    if s.recording n && decide (65535 ≤ c.len) && (s.core core).pair.isNone then .next (s.mftEndChunk core 1) else .next s
  | _, _ => .next s

/-! ## Landings and fills -/

/-- The oldest divide-unit operation in flight lands in its core cycle (R183). -/
def execLongOperationLanding (core : Nat) (s : State) : Out :=
  match (s.core core).div with
  | d :: _ => .next (s.passTo core d.due)
  | [] => .next s

/-- A line enters the line buffer, which keeps the two read last (R201). -/
def Core.bufferLine (c : Core) (la line : Nat) : Core :=
  { c with lbuf := (⟨la / 64, line, c.tr, c.user⟩ :: c.lbuf.filter (fun l => l.la != la / 64)).take 2 }

/-- A line enters L1I, four lines to a set (Table 12-1); the one that entered first gives way (log entry 14). -/
def Core.fillFetch (c : Core) (line : Nat) : Core :=
  let others := c.l1i.filter (· != line)
  let mine := others.filter (fun l => l % 256 == line % 256)
  let kept := match mine with
    | v :: _ => if 4 ≤ mine.length then others.filter (· != v) else others
    | [] => others
  { c with l1i := kept ++ [line] }

/-! ## The change of mode (R203) -/

/-- What a change of CS.STATUS.FT leaves: local memories zero, nothing cached, the L2 TLB kept. -/
def Core.changeFt (c : Core) (ft : Bool) : Core :=
  { c with
    status := (c.status &&& ~~~8) ||| (if ft then 8 else 0)
    ftChange := none
    fwait := none, lim := [], ldm := [], lbuf := [], l1i := [], l1d := [], btb := [], ras := [], itlb := [], dtlb := [] }

/-- Core cycles of the change. -/
def ftTime (ft : Bool) : Nat := if ft then 1040 else 40

def execFtModeChange (core : Nat) (s : State) : Out :=
  let c := s.core core
  match c.ftChange with
  | some ft =>
    if c.run = .running ∧ c.mb = [] ∧ c.prefs = [] ∧ c.pair = none ∧ c.freeze = none then
      let n := max c.longTime c.drainTime + ftTime ft
      let s := ((s.cycles core 0x07 n).advance core n).landRest core
      .next (s.modCore core (fun c => c.changeFt ft))
    else .next s
  | none => .next s

/-! ## Timer and inter-core interrupts (R282, R283) -/

/-- Package time reaches a slot's compare value, and TIMER becomes pending, within 10 ns. -/
def execTimer (core : Nat) (s : State) : Out :=
  let t := s.compare core + Config.timerLag core (s.compare core) % 11
  if s.present core && decide (s.time < t) then .next { s with time := t } else .next s

/-- A write of 1 to GRV.IPI_i.SET makes PEND 1. -/
def State.ipiSet (s : State) (k : Nat) : State := s.ctlMod (o_grvIpi (groveOf k) (slotOf k)) (fun v => fone v 0 true)

def execIpiSet (core : Nat) (s : State) : Out :=
  if s.present core then .next ((s.ipiSet core).slotWritten s core) else .next s

/-! ## Broadcasts -/

/-- The broadcast has done its work at its agent. -/
def State.dropBcast (s : State) (b : Bcast) : State := s.setMem { s.mem with bcasts := s.mem.bcasts.erase b }

/-- A broadcast IFENCE reaches a core, between groups (R194). -/
def execIfenceBroadcastArrival (src core : Nat) (s : State) : Out :=
  match s.mem.bcasts.find? (fun b => b.src == src && b.dst == .core core &&
      (match b.kind with | .ifence _ => true | .tlbi _ _ => false)) with
  | some b =>
    if (s.core core).pair = none then
      match b.kind with
      | .ifence r => .next ((s.modCore core (fun c => c.ifence r)).dropBcast b)
      | .tlbi _ _ => .next s
    else .next s
  | none => .next s

/-- The core is frozen for an access that it has translated already: TSYNC waits for the access to finish (R172, R268). -/
def Core.translated (c : Core) : Bool :=
  match c.freeze with
  | some f => f.acc.isSome
  | none => false

/-- A broadcast TLBI reaches a core, the UTLBs of an Understorey or the translation cache of a DMA engine (R171, R270). A walk for which
a core is frozen is made afresh when its reads are served. -/
def execTlbiBroadcastArrival (src : Nat) (dst : Agent) (s : State) : Out :=
  match s.mem.bcasts.find? (fun b => b.src == src && b.dst == dst &&
      (match b.kind with | .tlbi _ _ => true | .ifence _ => false)) with
  | some b =>
    match b.kind with
    | .tlbi form arg =>
      let drop := s.dropBcast b
      match dst with
      | .core k =>
        if (s.core k).translated then .next s
        else .next (drop.modCore k (fun c => c.tlbi form arg))
      | .understorey g =>
        let utlb := (List.range 4).foldl (fun m i => smSet m (g * 4 + i) (tlbi form arg (smGet [] m (g * 4 + i)))) drop.mem.utlb
        .next (drop.setMem { drop.mem with utlb := utlb })
      | .engine e => .next (drop.setMem { drop.mem with dtc := smSet drop.mem.dtc e (tlbi form arg (smGet [] drop.mem.dtc e)) })
    | .ifence _ => .next s
  | none => .next s

/-- The 64-cycle deferral of competing requests ends (R157). -/
def execReservationDeferralEnd (core : Nat) (s : State) : Out :=
  match (s.core core).reservation with
  | some r =>
    let s := if r.deferUntil = 0 then s else s.passTo core r.deferUntil
    .next (s.modCore core (fun c => { c with reservation := c.reservation.map (fun r => { r with deferUntil := 0 }) }))
  | none => .next s

end Sys2Proof.Machine
end

