-- ==== Sys2Proof/Machine/Range.lean ====
section
/-!
DEFINITION. Cleaning and invalidating lines (R173, R310) and the range maintenance engines (R307 to R311).
-/
namespace Sys2Proof.Machine

/-! ## One line (R310) -/

/-- The Grove holds the line's data dirty. -/
def Mem.groveDirty (m : Mem) (g line : Nat) : Bool :=
  match m.gtag g line with
  | some t => t.st == .m || t.st == .o
  | none => false

/-- A Grove discards its copies; dirty data is lost and ownership released without it. -/
def State.discardGrove (s : State) (g line : Nat) : State :=
  if s.mem.groveDirty g line then
    let s := s.dropGrove g line
    s.setMem ((s.mem.dropDirty line).dirRelease g line)
  else s.groveEvict g line

/-- One operation of a Grove cache engine: 1 clean, 2 invalidate, 3 clean and invalidate. -/
def State.groveAct (s : State) (op g line : Nat) : State :=
  match op with
  | 1 => s.cleanGrove g line
  | 2 => s.discardGrove g line
  | 3 => (s.cleanGrove g line).groveEvict g line
  | _ => s

/-- A Stand's L2 writes its dirty copy to the home and keeps it clean. -/
def State.cleanStand (s : State) (stand line : Nat) : State :=
  match s.mem.l2line stand line with
  | some t => if t.dirty then s.cleanGrove (stand / 5) line else s
  | none => s

/-- One operation of an L2 engine. -/
def State.standAct (s : State) (op stand line : Nat) : State :=
  match s.mem.l2line stand line with
  | none => s.modCores (fun k c => if standOf k = stand ∧ op ≠ 1 then c.lose line else c)
  | some t =>
    match op with
    | 1 => s.cleanStand stand line
    | 2 => if t.dirty then s.discardGrove (stand / 5) line else s.l2Evict stand line
    | 3 => s.l2Evict stand line
    | _ => s

/-- CMO (R173): throughout the compartment's caches, which is every Grove that can hold the line. The partner gives its copy up when BInv
reaches it, for a clean only a copy that may be dirty; of a line of the window its home is told (log entry 107). -/
def State.cmoLine (s : State) (op line : Nat) : State :=
  let owned : Bool := match s.mem.dirEnt line with
    | some e => e.resp == 13 && e.st != .sh
    | none => false
  let s := if op = 1 ∧ owned = false then s else s.setMem (s.mem.tellPartner line)
  let s := if s.spanLine line then s.emit (.request 7 12 line [(0, BitVec.ofNat 9 op)]) else s
  (List.range 12).foldl (fun s g => s.groveAct op g line) s

/-! ## The register sets (Tables 12-3 to 12-7) -/

def oMctrl (l3 : Bool) (g i : Nat) : Nat := if l3 then o_l3L3mCtrl g i else o_l3L2mCtrl g i
def oMstatus (l3 : Bool) (g i : Nat) : Nat := oMctrl l3 g i + 4
def oMstartLo (l3 : Bool) (g i : Nat) : Nat := oMctrl l3 g i + 8
def oMstartHi (l3 : Bool) (g i : Nat) : Nat := oMctrl l3 g i + 0xC
def oMlength (l3 : Bool) (g i : Nat) : Nat := oMctrl l3 g i + 0x10
def oMdone (l3 : Bool) (g i : Nat) : Nat := oMctrl l3 g i + 0x14
def oMskipped (l3 : Bool) (g i : Nat) : Nat := oMctrl l3 g i + 0x18

def RangeCmd.isSet (r : RangeCmd) (l3 : Bool) (g i : Nat) : Bool := r.l3 == l3 && r.grove == g && r.slot == i
def State.rangeOf (s : State) (l3 : Bool) (g i : Nat) : Option RangeCmd := s.mem.ranges.find? (·.isSet l3 g i)
def State.setRange (s : State) (r : RangeCmd) : State :=
  s.setMem { s.mem with ranges := s.mem.ranges.map (fun q => if q.isSet r.l3 r.grove r.slot then r else q) }

/-- A command ends: BUSY clears, DONE sets, RESULT tells how. -/
def State.rangeEnd (s : State) (l3 : Bool) (g i result : Nat) : State :=
  (s.setMem { s.mem with ranges := s.mem.ranges.filter (fun q => !q.isSet l3 g i) }).ctlMod (oMstatus l3 g i)
    (fun v => fset (fone (fone v 31 false) 30 true) 27 24 result)

/-- GO (R308). The host's SPACE is taken as 0; a linear command keeps the translation of the writing core (R309). -/
def State.rangeGo (s : State) (who : Sender) (l3 : Bool) (g i op : Nat) (space : Bool) : State :=
  match s.rangeOf l3 g i with
  | some _ => s.ctlMod (oMstatus l3 g i) (fun v => fone v 29 true)
  | none =>
    let linear : Bool := match who with
      | .core _ => space
      | .host => false
    let s := s.ctlMod (oMctrl l3 g i) (fun v => fone (fset v 27 26 op) 25 linear)
    let s := ((s.ctlSet (oMdone l3 g i) 0).ctlSet (oMskipped l3 g i) 0).ctlMod (oMstatus l3 g i)
      (fun v => fset (fone (fone v 31 true) 30 false) 27 24 0)
    let start := ((s.ctlGet (oMstartLo l3 g i)).toNat + 2 ^ 32 * fget (s.ctlGet (oMstartHi l3 g i)) 15 0) / 64 * 64
    let n := (s.ctlGet (oMlength l3 g i)).toNat
    let lines := if n = 0 then 2 ^ 32 else n
    if (if linear then 2 ^ 48 else 2 ^ 42) < start + 64 * lines then s.rangeEnd l3 g i 1
    else
      let c : Core := match who with
        | .core k => s.core k
        | .host => Core.zero
      let r : RangeCmd :=
        { grove := g, slot := i, l3 := l3, op := op, linear := linear, start := start, lines := lines,
          owner := s.cmpOf (g * 20 + i), tr := c.tr, ptbase := c.ptbase, asid := c.asid, done := 0, skipped := 0 }
      s.setMem { s.mem with ranges := s.mem.ranges ++ [r] }

/-- ABORT: the command ends at the next line (R308). -/
def State.rangeAbort (s : State) (l3 : Bool) (g i : Nat) : State :=
  match s.rangeOf l3 g i with
  | some _ => s.rangeEnd l3 g i 2
  | none => s

/-- The commands of a compartment's slots end with ABORTED at its quiesce (R312). -/
def State.rangeQuiesce (s : State) (n : Nat) : State :=
  (s.mem.ranges.filter (fun r => s.cmpOf (r.grove * 20 + r.slot) == some n)).foldl (fun s r =>
    s.rangeAbort r.l3 r.grove r.slot) s

/-! ## One visit of an engine (R309, R311) -/

/-- The physical line that line j of a command names, when it may be touched (R309). -/
def State.rangeLine (s : State) (r : RangeCmd) (j : Nat) : Option Nat :=
  let a := r.start + 64 * j
  let mine (pa : Nat) : Bool := (match s.region pa with | .dram => true | _ => false) && s.ownsBy r.owner pa
  if !r.linear || !r.tr then (if mine a then some (lineOf a) else none)
  else
    let pow2 : Bool := match r.owner.bind s.cmpSec with
      | some x => x.pow2
      | none => false
    let ctx : XCtx := { tr := true, user := false, root := (r.ptbase.extractLsb' 0 30).toNat,
                        asid := (r.asid.extractLsb' 0 12).toNat, cmp := r.owner, pow2 := pow2 }
    match (s.walk ctx a).1 with
    | .leaf e level =>
      let sz := leafSize pow2 level e
      let pa := eAddr e / 2 ^ sz * 2 ^ sz + a % 2 ^ sz
      let perm : Bool := if r.op = 1 then ebit e 2 else ebit e 3
      if perm && mine pa then some (lineOf pa) else none
    | .fault _ _ _ _ => none

def State.engineAct (s : State) (r : RangeCmd) (line : Nat) : State :=
  s.asEngine r.grove line (fun s => if r.l3 then s.groveAct r.op r.grove line else s.standAct r.op (r.grove * 5 + r.slot / 4) line)

/-! ### Fills that are open when an engine visits their set (R311) -/

/-- The lines for which a Stand's cores have a fill or a drain open. -/
def State.openFills (s : State) (stand : Nat) : List Nat :=
  (s.cores.filter (fun e => standOf e.1 == stand)).flatMap (fun e =>
    (match e.2.freeze with
      | some f => match f.kind with
        | .miss line => [line]
        | _ => []
      | none => []) ++ (e.2.mb.filter (·.draining)).map (·.line))

/-- An engine marks the open fills of its cache among the lines that `p` picks. -/
def State.markFills (s : State) (r : RangeCmd) (p : Nat → Bool) : State :=
  if r.l3 then
    s.setMem { s.mem with gpend := s.mem.gpend.map (fun q => if q.grove = r.grove ∧ p q.line then { q with mark := r.op } else q) }
  else
    let stand := r.grove * 5 + r.slot / 4
    let new := ((s.openFills stand).filter p).eraseDups.map (fun l => (⟨stand, l, r.op⟩ : FillMark))
    s.setMem { s.mem with marks := s.mem.marks.filter (fun m => !(m.stand == stand && p m.line)) ++ new }

/-- The operation with which an L2 engine marked a fill. -/
def State.markOf (s : State) (stand line : Nat) : Nat := match s.mem.marks.find? (fun m => m.stand == stand && m.line == line) with
  | some m => m.op
  | none => 0
def State.unmark (s : State) (stand line : Nat) : State :=
  s.setMem { s.mem with marks := s.mem.marks.filter (fun m => !(m.stand == stand && m.line == line)) }

/-- A marked fill has given its data to the access that waits: it is installed invalid, or cleaned. -/
def State.finishFill (s : State) (k line : Nat) : State :=
  match s.markOf (standOf k) line with
  | 0 => s
  | op => (s.unmark (standOf k) line).asEngine (groveOf k) line (fun s => s.standAct op (standOf k) line)

/-- A drain whose fill was marked: after a clean the line is cleaned, the drain with it; one whose fill was to be installed invalid has
asked for the line again. End records of chunks that waited for the drain are written (R513). -/
def State.finishDrain (s : State) (k line : Nat) : State :=
  let s := match s.markOf (standOf k) line with
    | 0 => s
    | 1 => (s.unmark (standOf k) line).asEngine (groveOf k) line (fun s => s.standAct 1 (standOf k) line)
    | _ => s.unmark (standOf k) line
  s.mftRelease k

/-- Tag entries of an engine's cache (R311). -/
def RangeCmd.entries (r : RangeCmd) : Nat := if r.l3 then 524288 else 32768
/-- The engine walks its cache set by set instead of probing line by line. -/
def RangeCmd.walks (r : RangeCmd) : Bool := !r.linear && decide (r.entries ≤ r.lines)

/-- The lines of one set that the engine's cache holds and the range covers. -/
def State.setLines (s : State) (r : RangeCmd) (set : Nat) : List Nat :=
  let inRange (l : Nat) : Bool := decide (r.start / 64 ≤ l) && decide (l < r.start / 64 + r.lines) && l % 2048 == set
  if r.l3 then ((s.mem.grove.filter (·.grove == r.grove)).map (·.line)).filter inRange
  else ((s.mem.l2.filter (·.stand == r.grove * 5 + r.slot / 4)).map (·.line)).filter inRange

/-- The lines of a physical command's range that its owner does not have in DRAM (R309). -/
def State.rangeForeign (s : State) (r : RangeCmd) : Nat :=
  let stop := min (r.start + 64 * r.lines) s.dramBytes
  let mine := (s.live.res.filter (fun q => q.kind == 2 && r.owner == some q.owner)).map (fun q =>
    min stop (q.first + q.count) / 64 - max r.start q.first / 64)
  r.lines - mine.sum

/-- The engine's next visit: one line, or one set of a walk. The command ends at its last. -/
def State.rangeStep (s : State) (r : RangeCmd) : State :=
  if r.walks then
    let s := s.markFills r (fun l => decide (r.start / 64 ≤ l) && decide (l < r.start / 64 + r.lines) && l % 2048 == r.done &&
      (s.rangeLine r (l - r.start / 64)).isSome)
    let s := (s.setLines r r.done).foldl (fun s l =>
      match s.rangeLine r (l - r.start / 64) with
      | some line => s.engineAct r line
      | none => s) s
    let r := { r with done := r.done + 1 }
    let s := s.setRange r
    if 2048 ≤ r.done then
      ((s.ctlSet (oMdone r.l3 r.grove r.slot) (r32 r.lines)).ctlSet (oMskipped r.l3 r.grove r.slot) (r32 (s.rangeForeign r))).rangeEnd
        r.l3 r.grove r.slot 0
    else s
  else
    let x := s.rangeLine r r.done
    let s := match x with
      | some line => (s.markFills r (· == line)).engineAct r line
      | none => s
    let r := { r with done := r.done + 1, skipped := r.skipped + (if x.isNone then 1 else 0) }
    let s := (s.setRange r).ctlSet (oMdone r.l3 r.grove r.slot) (r32 r.done)
    let s := s.ctlSet (oMskipped r.l3 r.grove r.slot) (r32 r.skipped)
    if r.lines ≤ r.done then s.rangeEnd r.l3 r.grove r.slot 0 else s

/-! ## Commands -/

/-- The set exists and the sender reaches its control register. -/
def State.setOk (s : State) (who : Sender) (l3 : Bool) (g i : Nat) : Bool :=
  decide (g < 12) && decide (i < 20) && s.reach who (oMctrl l3 g i)

def rangeStart (who : Sender) (l3 : Bool) (grove slot op : Nat) (space : Bool) (s : State) : Out :=
  if s.setOk who l3 grove slot then .next (s.rangeGo who l3 grove slot op space) else .next s

/-- GO with OP clean. -/
def execRangeClean (who : Sender) (l3 : Bool) (grove slot : Nat) (space : Bool) (s : State) : Out :=
  rangeStart who l3 grove slot 1 space s
/-- GO with OP invalidate. -/
def execRangeInvalidate (who : Sender) (l3 : Bool) (grove slot : Nat) (space : Bool) (s : State) : Out :=
  rangeStart who l3 grove slot 2 space s
/-- GO with OP clean and invalidate. -/
def execRangeCleanAndInvalidate (who : Sender) (l3 : Bool) (grove slot : Nat) (space : Bool) (s : State) : Out :=
  rangeStart who l3 grove slot 3 space s
/-- ABORT. -/
def execRangeAbort (who : Sender) (l3 : Bool) (grove slot : Nat) (s : State) : Out :=
  if s.setOk who l3 grove slot then .next (s.rangeAbort l3 grove slot) else .next s
/-- The engine that serves a register set: of L2s by Stand, of Grove caches from 60. -/
def engineOf (l3 : Bool) (grove slot : Nat) : Nat := if l3 then 60 + grove else grove * 5 + slot / 4

/-- The slot whose turn it is at an engine: the next after the one served last, round robin, among those with a command (R307). -/
def State.rangeTurn (s : State) (l3 : Bool) (grove slot : Nat) : Option Nat :=
  let e := engineOf l3 grove slot
  let last := smGet 19 s.mem.engLast e
  ((s.mem.ranges.filter (fun r => r.l3 == l3 && r.grove == grove && engineOf l3 grove r.slot == e)).map (·.slot)).foldl (fun a q =>
    match a with
    | none => some q
    | some b => if (q + 20 - last - 1) % 20 < (b + 20 - last - 1) % 20 then some q else some b) none

/-- The engine acts on the next line or set of the command of a register set, when it is that set's turn. -/
def execRangeEngineLine (l3 : Bool) (grove slot : Nat) (s : State) : Out :=
  match s.rangeOf l3 grove slot with
  | some r =>
    if s.rangeTurn l3 grove slot = some slot then
      .next ((s.setMem { s.mem with engLast := smPut 19 s.mem.engLast (engineOf l3 grove slot) slot }).rangeStep r)
    else .next s
  | none => .next s

end Sys2Proof.Machine
end

