-- ==== Sys2Proof/Machine/Messages.lean ====
section
/-!
DEFINITION. The coherence protocol message by message (R320 to R333, R339, R341): requests as they reach a home, forwards and
invalidations at holders, fills and replies. An access of a core (Coh.lean) is the whole of such a transaction in one step; it is made
only while its line has no open transaction.
-/
namespace Sys2Proof.Machine

/-- A violation by the partner package or the witness: counted and recorded (R496, R504, R597). -/
def State.xngViolation (s : State) (port addr : Nat) : State := (s.ctlInc (o_xngProterr port)).event 7 0x055 landing none addr port 0

/-- The Crossing agent may ask only for DRAM of a compartment spanned on both sides (R315, R496). -/
def State.strange (s : State) (port line : Nat) : Bool :=
  port == 13 && !(match s.region (line * 64), s.ownerOfPa (line * 64) with
    | .dram, some n => s.live.pairMode n == 2 && s.links.pair == 2 && !s.links.spanOff.contains n
    | _, _ => false)

/-- A request of a port arrives at its home, which serves it or queues it (R326); one that the partner may not make is answered with
poison. -/
def State.ask (s : State) (port line : Nat) (k : ReqKind) : Out :=
  if s.strange port line then .next (s.xngViolation (line % 2) (line * 64))
  else if s.homed line then .next (s.request port line k) else .next s

/-- A request of a Grove: it enters its transient state (Table 13-9), and the request goes to the line's home, here or on the partner. A
Grove has one request for a line open at a time. -/
def State.askGrove (s : State) (port line : Nat) (k : ReqKind) (kind : Nat) : Out :=
  if port = 13 then s.ask port line k
  else if s.mem.pending port line || s.moving port (if s.partnerLine line then 12 else s.homeFor line) then .next s
  else if s.partnerLine line then .next (s.outRequest port line kind)
  else if s.homed line then
    (s.pendGrove port line (if kind = 0 then .is else if kind = 1 then .im else .sm)).ask port line k
  else .next s

/-- What the partner sends of a line: 64 bytes, or poison. -/
def State.windowValue (s : State) (line : Nat) (bytes : List Byte) (dirty : Bool) : State :=
  if bytes.length = 64 then
    let m := if dirty then s.mem.write (line * 64) bytes
      else if s.mem.isDirty line then s.mem else s.mem.writeDram (line * 64) bytes
    s.setMem (m.setPoison line false)
  else s.setMem (s.mem.setPoison line true)

/-- The state that a Data message of the partner grants: 0 M, 1 E, 2 F, 3 S, 4 O. -/
def grantOf (n : Nat) : CState := match n with
  | 0 => .m
  | 1 => .e
  | 2 => .f
  | 3 => .s
  | _ => .o

/-- A fill enters the Grove cache. One that a range engine marked while it was open is installed invalid, its dirty data written to the
home first (or lost, by an invalidation); by a clean it is cleaned after installation (R311). -/
def State.install (s : State) (g line : Nat) (st : CState) (mark : Nat) : State :=
  let s := (((if (s.mem.gtag g line).isNone then s.roomGrove g line else s).putTag g line st true).takeCls g line
    (s.rankOf g line)).settleData g line
  match mark with
  | 1 => s.cleanGrove g line
  | 2 => if s.mem.groveDirty g line then (s.dropGrove g line).setMem (((s.dropGrove g line).mem.dropDirty line).dirRelease g line)
         else s.groveEvict g line
  | 3 => s.groveEvict g line
  | _ => s

/-- Data of the partner: the fill of a Grove that waits for it, which answers Cmp, or the current value for an agent that keeps no
copy. -/
def State.windowData (s : State) (port line st : Nat) (bytes : List Byte) : State :=
  if !s.spanLine line then s
  else match s.mem.gpend.find? (fun p => p.grove == port && p.line == line) with
    | none => s.windowValue line bytes false
    | some p =>
      let s := s.unpend port line
      let s := if p.tr == .sm then s else s.windowValue line bytes (st == 0)
      if port = 12 then s.send [⟨.data .s false, line, 12⟩]
      else
        let g : CState := if p.tr == .is then grantOf st else if s.mem.isDirty line then .m else .e
        (s.install port line g p.mark).send [⟨.cmp, line, port⟩]

/-- A forward or an invalidation of the partner's home reaches a Grove that may hold a line of the window; the reply goes back. -/
def State.windowForward (s : State) (holder line : Nat) (f : State → State × MsgKind) : Out :=
  if decide (holder < 12) && s.spanLine line then
    match f s with
    | (s, k) => .next (s.send [⟨k, line, 13⟩])
  else .next s

/-- The Grove gives a line of the window up to the partner. -/
def State.windowDrop (s : State) (g line : Nat) (reply : MsgKind) : State × MsgKind :=
  match s.holderDrop g line with
  | (s, false) => (s, .ack true false)
  | (s, true) => (s.setMem (s.mem.flushLine line), reply)

/-- RdS of a Grove that does not hold the line, or of the Crossing agent. -/
def execRds (port line : Nat) (s : State) : Out :=
  if (port < 12 ∧ s.mem.gtag port line = none) ∨ port = 13 then
    s.askGrove port line .rds 0
  else .next s

/-- RdX. -/
def execRdx (port line : Nat) (s : State) : Out :=
  if (port < 12 ∧ s.mem.gtag port line = none) ∨ port = 13 then
    s.askGrove port line .rdx 1
  else .next s

/-- Upg of a Grove that holds S, F or O. -/
def execUpg (port line : Nat) (s : State) : Out :=
  let ok : Bool := port == 13 || (match s.mem.gtag port line with
    | some t => t.st == .s || t.st == .f || t.st == .o
    | none => false)
  if ok then s.askGrove port line .upg 2 else .next s

/-- RdCur of the Landing (12) or of an Understorey (its Grove's port); for a line of the window the Landing's goes to the partner. -/
def execRdcur (port line : Nat) (s : State) : Out :=
  if 12 < port then .next s
  else if s.partnerLine line then .next (if port = 12 then s.outRequest 12 line 3 else s)
  else s.ask port line .rdcur

/-- WrInv of the Landing or of an Understorey; for a line of the window it goes to the partner. -/
def execWrinv (port line : Nat) (bytes : List (Nat × Byte)) (s : State) : Out :=
  if 12 < port then .next s
  else if s.spanLine line then .next ((runsOf (maskedBytes bytes)).foldl (fun s r => s.wrNow port (line * 64 + r.1) r.2) s)
  else s.ask port line (.wrinv (maskedBytes bytes))

/-- A line that the partner package returns dirty: 64 bytes, or none. -/
def State.remoteLine (s : State) (line : Nat) (bytes : List Byte) : State :=
  if bytes.length = 64 then s.setMem (s.mem.write (line * 64) bytes) else s

/-- WB (R326, rule 1): accepted at once, whatever is open on the line; its data reaches DRAM with MWr. The Grove that gives its copy up is
in MI until then (Table 13-9; log entry 106). A line of the partner window is written back to the partner. -/
def execWb (port line : Nat) (keep : Bool) (bytes : List Byte) (s : State) : Out :=
  let dirty : Bool := if port = 13 then (match s.mem.dirEnt line with | some e => e.resp == 13 && e.st != .sh | none => false)
    else s.mem.groveDirty port line
  if s.homed line && dirty && !s.switching && !(decide (port < 12) && s.moving port (s.homeFor line)) then
    let s := if port = 13 then s.remoteLine line bytes else s
    let wasOw : Bool := match s.mem.dirEnt line with | some e => e.st == .ow | none => false
    let s := if port < 12 then
        (if keep then
          let s := s.setMem (s.mem.cleanL2 port line)
          match s.mem.gtag port line with
          | some t => s.setMem (s.mem.setTag { t with st := if t.st == .m then .e else .s })
          | none => s
         else (s.dropGrove port line).pendGrove port line .mi)
      else s
    let m := s.mem
    let m := match m.dirEnt line with
      | some e =>
        if e.resp ≠ port then m
        else if keep then (if wasOw then m.setDir { e with st := .sh, resp := 15 } else m)
        else if wasOw then
          m.setDir { e with st := .sh, vec := e.vec &&& ~~~(vecBit port), xp := e.xp && port != 13, resp := 15 }
        else m.freeDir line
      | none => m
    let s := s.countUp.setMem { m with txns := m.txns ++ [{ Txn.idle line port (.wb keep) with mw := true, rank := s.rankOf port line }] }
    let s := s.send [⟨.mwr, line, port⟩]
    .next (if port < 12 then s.ucount port 0x03 0 1 (s.ownerOfPa (line * 64)) none else s)
  else if dirty && decide (port < 12) && s.spanLine line then
    .next (if keep then s.cleanGrove port line else s.groveEvict port line)
  else .next s

/-- EvC: a Grove gives up a clean copy and tells its ring neighbour's home (R331), where the hint waits like a request (R326). -/
def execEvc (port line : Nat) (s : State) : Out :=
  let clean : Bool := match s.mem.gtag port line with
    | some t => t.st == .e || t.st == .f || t.st == .s
    | none => false
  if port < 12 && clean && s.evHint port line && !s.mem.pending port line && !s.moving port (s.homeFor line) then .next (s.groveEvict port line) else .next s

/-! ## At the holders -/

/-! A holder acts on a forward or an invalidation once no reservation of its cores defers it (R157, R330). One that no home of this
package sent is the partner's, for a line of the window. -/

/-- The requester of a forward, as the transaction of the line has it; Data to it. -/
def State.fill (s : State) (line : Nat) (dirty : Bool) : State :=
  match s.txnOf line with
  | some t =>
    let s := s.setTxn { t with fw := none }
    match t.kind with
    | .wrinv _ => s.progress line
    | _ => s.send [⟨.data (if t.grant == .e && dirty then .m else t.grant) dirty, line, t.port⟩]
  | none => s

def notHeld (line port : Nat) : Msg := ⟨.ack true false, line, port⟩

/-- FwdS at a holder. Under MOESI the reply decides between OW and SH (Table 13-7). -/
def execFwds (holder line : Nat) (bytes : List Byte) (s : State) : Out :=
  if s.groveDeferred holder line then .next s
  else match s.recv line holder (fun k => match k with | .fwdS _ => true | _ => false) with
  | none => s.windowForward holder line (fun s => match s.holderFwdS holder line with
    | (s, false, _) => (s, .ack true false)
    | (s, true, dirty) => (s, .data .s dirty))
  | some (_, s) =>
    let r : State × Bool × Bool := if holder = 13 then (s.remoteLine line bytes, true, bytes.length == 64)
      else s.holderFwdS holder line
    match r with
    | (s, false, _) => .next (s.send [notHeld line holder])
    | (s, true, dirty) =>
      let s := if s.moesi && dirty then
          match s.mem.dirEnt line with
          | some e => s.setMem (s.mem.setDir { e with st := .ow, resp := holder })
          | none => s
        else s
      .next (s.fill line dirty)

/-- FwdX at a holder: it gives the line up. -/
def execFwdx (holder line : Nat) (bytes : List Byte) (s : State) : Out :=
  if s.groveDeferred holder line then .next s
  else match s.recv line holder (fun k => match k with | .fwdX _ => true | _ => false) with
  | none => s.windowForward holder line (fun s =>
    let dirty := s.mem.groveDirty holder line
    s.windowDrop holder line (.data (if dirty then .m else .e) dirty))
  | some (_, s) =>
    if holder = 13 then .next ((s.remoteLine line bytes).fill line (bytes.length == 64))
    else
      let dirty := s.mem.groveDirty holder line
      match s.holderDrop holder line with
      | (s, false) => .next (s.send [notHeld line holder])
      | (s, true) => .next (s.fill line dirty)

/-- FwdC at a holder: its state does not change. -/
def execFwdc (holder line : Nat) (bytes : List Byte) (s : State) : Out :=
  if s.groveDeferred holder line then .next s
  else match s.recv line holder (fun k => match k with | .fwdC _ => true | _ => false) with
  | none => s.windowForward holder line (fun s => (s, if (s.mem.gtag holder line).isSome then .data .s false else .ack true false))
  | some (_, s) =>
    if holder = 13 then .next ((s.remoteLine line bytes).fill line false)
    else match s.mem.gtag holder line with
      | some _ => .next (s.fill line false)
      | none => .next (s.send [notHeld line holder])

/-- Inv at a holder. -/
def execInvMsg (holder line : Nat) (s : State) : Out :=
  if s.groveDeferred holder line then .next s
  else match s.recv line holder (fun k => k == .inv) with
  | none => s.windowForward holder line (fun s => s.windowDrop holder line (.ack false false))
  | some (_, s) =>
    match s.holderDrop holder line with
    | (s, held) => .next (s.send [⟨.ack (!held && holder != 13) false, line, holder⟩])

/-- BInv at a holder: a dirty line goes back with the reply (R332). -/
def execBinv (holder line : Nat) (bytes : List Byte) (s : State) : Out :=
  if s.groveDeferred holder line then .next s
  else match s.recv line holder (fun k => k == .binv) with
  | none => s.windowForward holder line (fun s => s.windowDrop holder line (.ack false (s.mem.groveDirty holder line)))
  | some (_, s) =>
    let dirty : Bool := if holder = 13 then bytes.length == 64 else s.mem.groveDirty holder line
    let s := if holder = 13 then s.remoteLine line bytes else s
    let s := if holder = 13 ∧ s.txnOf line = none then s.setMem ((s.mem.flushLine line).releasePartner line) else s
    match s.holderDrop holder line with
    | (s, held) => .next (s.send [⟨.ack (!held && holder != 13) dirty, line, holder⟩])

/-! ## Fills and replies -/

/-- The fill reaches the requester: a Grove installs the line and answers Cmp; an agent that keeps no copy is served.
Ownership is not granted while an Ack is outstanding (R325), and a fill waits while every way of its set is locked (R300). A line of the partner window comes with the state that the partner grants
and its bytes (64, or none where it is poisoned). -/
def execDataMsg (port line st : Nat) (bytes : List Byte) (s : State) : Out :=
  match s.txnOf line with
  | none =>
    if port = 13 then .next ((s.recv line 13 (fun k => match k with | .data _ _ => true | _ => false)).elim s (·.2))
    else .next (s.windowData port line st bytes)
  | some t =>
    if !t.acks.isEmpty || (decide (port < 12) && (s.mem.gtag port line).isNone && s.fullTags port line) then .next s
    else match s.recv line port (fun k => match k with | .data _ _ => true | _ => false) with
      | none => .next s
      | some (m, s) =>
        match t.kind with
        | .rdcur => .next (s.closeTxn line).serveWaits
        | _ =>
          let s := if port < 12 then
              let st : CState := match m.kind with
                | .data st dirty => if t.grant == .e && dirty then .m else st
                | _ => t.grant
              let mark := ((s.mem.gpend.find? (fun p => p.grove == port && p.line == line)).map (·.mark)).getD 0
              (s.unpend port line).install port line st mark
            else s
          .next ((s.setTxn { t with cp := true, fw := none, mr := false }).send [⟨.cmp, line, port⟩])

/-- A reply reaches the home (R327): NOTHELD turns a forward into a DRAM read. -/
def execAckMsg (port line : Nat) (s : State) : Out :=
  match s.recv line port (fun k => match k with | .ack _ _ => true | _ => false) with
  | none => .next s
  | some (m, s) =>
    match m.kind, s.txnOf line with
    | .ack nh withLine, some t =>
      let h := s.homeFor line
      let s := if nh then s.ctlInc (o_dirNotheld h) else s
      if nh && t.fw == some port then
        .next ((s.setTxn { t with fw := none, mr := true }).send [⟨.mrd, line, t.port⟩])
      else
        let s := s.setTxn { t with acks := t.acks.erase port, mw := t.mw || withLine }
        let s := if withLine then s.send [⟨.mwr, line, port⟩] else s
        .next (s.progress line).serveWaits
    | _, _ => .next s

/-- Cmp closes the transaction (R325). -/
def execCmpMessage (port line : Nat) (s : State) : Out :=
  match s.recv line port (fun k => k == .cmp) with
  | none => .next s
  | some (_, s) => .next (s.closeTxn line).serveWaits

/-! ## Switching state sets (R341) -/

/-- No transaction is open at a home or in flight, and none of a Grove but those whose request is held (R341, step 2). -/
def State.fabricQuiet (s : State) : Bool :=
  s.mem.txns.isEmpty && s.mem.msgs.isEmpty &&
    s.mem.gpend.all (fun p => s.mem.waits.any (fun w => w.port == p.grove && w.line == p.line))

/-- Every F becomes S, or every O is written back and becomes F. -/
def State.renameSet (s : State) (moesi : Bool) : State :=
  let m := s.mem
  if moesi then
    s.setMem { m with
      grove := m.grove.map (fun t => if t.st = .f then { t with st := .s } else t)
      l2 := m.l2.map (fun t => if t.st = .f then { t with st := .s } else t)
      dir := m.dir.map (fun e => if e.st = .sh then { e with resp := 15 } else e) }
  else
    let held := m.grove.filter (·.st == .o)
    let shared := (m.l2.filter (·.st == .o)).map (fun t => (t.stand / 5, t.line))
    let s := held.foldl (fun s t => s.sendWb t.grove t.line true) s
    let m := (held.map (·.line) ++ (m.dir.filter (·.st == .ow)).map (·.line)).foldl (fun m l => m.flushLine l) s.mem
    let s := s.setMem { m with
      grove := m.grove.map (fun t => if t.st = .o then { t with st := .f } else t)
      l2 := m.l2.map (fun t => if t.st = .o then { t with st := .f } else t)
      dir := m.dir.map (fun e => if e.st = .ow then { e with st := .sh } else e) }
    shared.foldl (fun s e => s.settleData e.1 e.2) s

/-- DIR.STATUS of every Grove: the state set, and whether a switch is under way. -/
def State.setStatus (s : State) (moesi switching : Bool) : State :=
  (List.range 12).foldl (fun s g => s.ctlMod (o_dirStatus g) (fun v => fone (fone v 29 moesi) 30 switching)) s

/-- The Keeper's command (R341): every new request is held, and once no transaction is open the copies are renamed, STATESET is set and the
requests are released. Until then SWITCHING reads 1, and the Keeper's next command goes on; back to the set in force, the requests
are released at once (log entry 116). -/
def State.switchSet (s : State) (moesi : Bool) : State :=
  if s.moesi == moesi then (if s.switching then (s.setStatus moesi false).serveWaits else s)
  else if s.fabricQuiet then ((s.renameSet moesi).setStatus moesi false).serveWaits
  else s.setStatus (!moesi) true

def execStateSetSwitch (moesi : Bool) (s : State) : Out := .next (s.switchSet moesi)

/-! ## Lost homes (R339) -/

/-- Grove g is isolated: lines homed on it are poison, and no copy of them is left; other homes forget it. -/
def State.loseHome (s : State) (g : Nat) : State :=
  let gone := (s.mem.dir.filter (fun e => s.homeFor e.line == g || (e.resp == g && e.st != .sh))).map (·.line)
  let s := gone.foldl (fun s l =>
    let s := s.dropAll l (List.range 12)
    let s := s.setMem (s.mem.dropDirty l)
    s.setMem ((s.mem.setPoison l true).freeDir l)) s
  let m := s.mem
  (s.countUp.setMem { m with
    lost := m.lost ++ [(s.homeGroves, g)]
    healed := m.healed.filter (fun l => homeOf s.homeGroves l != g)
    grove := m.grove.filter (fun t => t.grove != g && s.homeFor t.line != g)
    l2 := m.l2.filter (fun t => t.stand / 5 != g && s.homeFor t.line != g)
    txns := m.txns.filter (fun t => t.port != g && s.homeFor t.line != g)
    waits := m.waits.filter (fun t => t.port != g && s.homeFor t.line != g)
    msgs := m.msgs.filter (fun x => x.port != g && s.homeFor x.line != g)
    dir := m.dir.map (fun e => { e with vec := e.vec &&& ~~~(vecBit g), resp := if e.resp = g then 15 else e.resp }) }).serveWaits

end Sys2Proof.Machine
end

