-- ==== Sys2Proof/Machine/Dram.lean ====
section
/-!
DEFINITION. The DRAM controllers (R375 to R401): the code of a line, the place of a line, reads and their outcomes, the write
queues, refresh and its companions, the scrubbers, the initialiser, retraining.
-/
namespace Sys2Proof.Machine

/-! ## The code (R379) -/

/-- The 8-bit values with n bits set, in ascending order. -/
def weightList (n : Nat) : List Nat :=
  (List.range 256).filter (fun v => ((List.range 8).filter (fun i => v / 2 ^ i % 2 == 1)).length == n)

/-- V(i), the column of data bit i. -/
def hsiao (i : Nat) : Nat := if i < 56 then (weightList 3).getD i 0 else (weightList 5).getD (i - 56) 0

/-- The check bits of 72 data bits. -/
def checkBits (d : Nat) : Nat := (List.range 72).foldl (fun c i => if d / 2 ^ i % 2 = 1 then c ^^^ hsiao i else c) 0

/-- What a syndrome says of its codeword. -/
inductive CwClass where
  | clean
  /-- Data bit i is flipped back. -/
  | dataBit (i : Nat)
  | checkBit (j : Nat)
  | uncorrectable
  deriving DecidableEq, Repr

def classify (syn : Nat) : CwClass :=
  if syn = 0 then .clean
  else match (List.range 72).find? (fun i => hsiao i == syn) with
    | some i => .dataBit i
    | none => match (List.range 8).find? (fun j => 2 ^ j == syn) with
      | some j => .checkBit j
      | none => .uncorrectable

/-- The outcome of reading a line, from the syndromes of its eight codewords (Table 15-5): bit k of a mask is codeword k. -/
inductive LineClass where
  | clean
  | corrected (mask syn : Nat)
  | poison
  | uncorrectable (mask syn : Nat) (bad : List Nat)
  deriving DecidableEq, Repr

def lineClass (syns : List Nat) : LineClass :=
  let at_ (k : Nat) : Nat := syns.getD k 0 % 256
  let ks := List.range 8
  let marked := ks.filter (fun k => at_ k != 0)
  let mask := (marked.map (2 ^ ·)).foldl (· + ·) 0
  let syn := match marked with | k :: _ => at_ k | [] => 0
  let bad := ks.filter (fun k => classify (at_ k) == .uncorrectable)
  if marked.isEmpty then .clean
  else if ks.all (fun k => at_ k == 255) then .poison
  else if bad.isEmpty then .corrected mask syn else .uncorrectable mask syn bad

/-! ## The place of a line (R383) -/

/-- Table 15-1: the columns c and b. -/
def Board.colBits (b : Board) : Nat := if b.x8 then 6 else 7
def Board.bankBits (b : Board) : Nat := if b.density = 0 then 1 else 2

structure DramPlace where
  sc : Nat
  rank : Nat
  bg : Nat
  ba : Nat
  row : Nat
  column : Nat
  deriving DecidableEq, Repr

/-- Where line x of DRAM lies on its subchannel. -/
def Board.place (b : Board) (x : Nat) : DramPlace :=
  let m := b.log2Lines
  let y := x / 16 % 2 ^ m
  let c := b.colBits
  let r := b.ranks2.toNat
  let lo := c + 3 + b.bankBits
  let row := y / 2 ^ lo % 2 ^ (m - r - lo)
  { sc := subchannelOf x, rank := if b.ranks2 then y / 2 ^ (m - 1) else 0,
    bg := (y / 2 ^ c % 8) ^^^ (row % 8), ba := y / 2 ^ (c + 3) % 2 ^ b.bankBits, row := row,
    column := y % 2 ^ c * 16 }

/-- Line y of subchannel c. -/
def subLine (c y : Nat) : Nat := y * 16 + (c ^^^ (y / 16 % 16) ^^^ (y / 4096 % 16) ^^^ (y / 1048576 % 16))

/-! ## Subchannels -/

def subReg (c : Nat) : Nat := o_dmcSubstate (c / 2) (c % 2)
/-- DMC.SUBSTATE.STATE: 0 UNTRAINED, 1 SERVICE, 2 RETRAIN, 3 FAILED, 4 SELFREF, 5 MPSM. -/
def State.subState (s : State) (c : Nat) : Nat := fget (s.ctlGet (subReg c)) 31 29
def State.setSub (s : State) (c st : Nat) : State := s.ctlMod (subReg c) (fun v => fset v 31 29 st)

/-- The granule of a line is fresh (R392). -/
def State.freshLine (s : State) (line : Nat) : Bool :=
  s.dram.fresh.any (fun r => decide (r.1 ≤ line / 32768) && decide (line / 32768 < r.2))

/-- The queue of the line's subchannel has room (R384). -/
def State.queueRoom (s : State) (line : Nat) : Bool := decide ((smGet [] s.dram.wq (subchannelOf line)).length < 64)

/-- An error is entered in the subchannel's registers and in the event log (R387, R400). KIND: 0 corrected, 1 recovered,
2 uncorrectable. -/
def State.dramError (s : State) (line kind mask syn : Nat) (scrub : Bool) : State :=
  let c := subchannelOf line
  let own := s.ownerOfPa (line * 64)
  let info := kind * 2 ^ 30 + scrub.toNat * 2 ^ 29 + (own.getD 0) * 2 ^ 24 + own.isSome.toNat * 2 ^ 23 + mask % 256 * 2 ^ 8 + syn % 256
  let s := s.ctlSet (o_dmcErraddrLo (c / 2) (c % 2)) (r32 (line * 64 % 2 ^ 32))
  let s := s.ctlSet (o_dmcErraddrHi (c / 2) (c % 2)) (r32 (line * 64 / 2 ^ 32))
  let s := s.ctlSet (o_dmcErrinfo (c / 2) (c % 2)) (r32 info)
  s.event (kind + 1) (0x030 + kind) landing own (line * 64) (info + c * 2 ^ 16) 0

/-- A corrected line: counted once, and a correction write queued (R389). -/
def State.dramCorrected (s : State) (line : Nat) : State :=
  let c := subchannelOf line
  (s.ctlInc (o_dmcCecount (c / 2) (c % 2))).modDram (fun d => { d with corr := smSet d.corr c (smGet [] d.corr c ++ [line]) })

/-- The bytes of codewords that nothing had given check bits: undefined data, used as read (R392). -/
def Mem.blurWords (m : Mem) (line : Nat) (bad : List Nat) : Mem :=
  { m with dram := m.dram.filter (fun e => !(e.1 / 64 == line && bad.contains (e.1 % 64 / 8))) }

/-- A read of a line, with the syndromes of the first read and of the retry (R387, R388, R392). A line whose write is queued is
served from that write's data, and not from the array (R384). -/
def State.dramRead (s : State) (line : Nat) (syn retry : List Nat) (scrub : Bool) : State :=
  let c := subchannelOf line
  if s.mem.poisoned line then s.setMem (s.mem.setPoison line true)
  else if (smGet [] s.dram.wq c).any (·.1 == line) then s
  else match lineClass syn with
    | .clean => s
    | .poison => s.setMem (s.mem.setPoison line true)
    | .corrected mask sy => (s.dramError line 0 mask sy scrub).dramCorrected line
    | .uncorrectable mask sy bad =>
      if s.freshLine line then
        let s := s.setMem (s.mem.blurWords line bad)
        let good := ((List.range 8).filter (fun k => mask / 2 ^ k % 2 == 1 && !bad.contains k))
        match good with
        | [] => s
        | k :: _ => (s.dramError line 0 ((good.map (2 ^ ·)).foldl (· + ·) 0) (syn.getD k 0) scrub).dramCorrected line
      else match lineClass retry with
        | .clean => s.dramError line 1 mask sy scrub
        | .corrected _ _ => (s.dramError line 1 mask sy scrub).dramCorrected line
        | .poison => s.setMem (s.mem.setPoison line true)
        | .uncorrectable mask' sy' _ =>
          let s := s.setMem (s.mem.setPoison line true)
          let s := s.ctlInc (o_dmcUecount (c / 2) (c % 2))
          let s := s.modDram (fun d => { d with ue := smSet d.ue c ((smGet [] d.ue c).filter (fun t => decide (s.time < t + 1000000)) ++ [s.time]) })
          s.dramError line 2 mask' sy' scrub

/-- The subchannel answers commands: it is in service, or has FAILED and answers with poison (R395, R396). -/
def State.subAnswers (s : State) (line : Nat) : Bool :=
  let st := s.subState (subchannelOf line)
  st == 1 || st == 3

/-! ## The order of a subchannel's commands (R363, R365) -/

def Board.ranks (b : Board) : Nat := if b.ranks2 then 2 else 1
def State.rankOk (s : State) (sub rank : Nat) : Bool := decide (sub < 16) && decide (rank < s.board.ranks) && s.subState sub == 1

/-- The interval of a rank, in nanoseconds. -/
def State.refreshInterval (s : State) (key : Nat) : Nat := if s.dram.hot.contains key then 1950 else 3900

/-- The refresh of a rank is due (R385). -/
def State.rankDue (s : State) (sub rank : Nat) : Bool :=
  s.rankOk sub rank && decide (smGet 0 s.dram.refAt (2 * sub + rank) + s.refreshInterval (2 * sub + rank) ≤ s.time)
def State.refreshDue (s : State) (sub : Nat) : Bool := (List.range 2).any (s.rankDue sub)

/-- The bank that a line lies in, and the row it needs open there. -/
def State.bankOf (s : State) (line : Nat) : Nat :=
  let p := s.board.place line
  64 * p.sc + 32 * p.rank + 4 * p.bg + p.ba
def State.rowHit (s : State) (line : Nat) : Bool := smFind? s.dram.rows (s.bankOf line) == some (s.board.place line).row
def State.openRow (s : State) (line : Nat) : State :=
  s.modDram (fun d => { d with rows := smSet d.rows (s.bankOf line) (s.board.place line).row })

/-- The reads for a subchannel, in the order in which they came: line and rank. The first 64 are in its queue (R384). -/
def State.readsAt (s : State) (sub : Nat) : List (Nat × Rank) :=
  (s.mem.msgs.filter (fun m => m.kind == .mrd && subchannelOf m.line == sub)).map (fun m =>
    (m.line, match s.txnOf m.line with
      | some t => t.rank
      | none => s.rankOf m.port m.line))

/-- The command that a subchannel performs now may be this one: it has an entry of the read queue, no refresh is due, and nothing in the queue comes before it, but for older
commands of its class that miss an open row which it hits, when none of the class misses its deadline for it. -/
def State.mayIssue (s : State) (line : Nat) (r : Rank) : Bool :=
  let c := subchannelOf line
  let queue := (s.readsAt c).take 64
  let others := queue.filter (·.1 != line)
  let room : Bool := queue.any (·.1 == line) || decide (queue.length < 64)
  let spare : Bool := others.all (fun o => o.2.cls != r.cls || o.2.deadline == 0 || decide (o.2.deadline < s.time) ||
    decide (s.time + 3 ≤ o.2.deadline))
  room && !s.refreshDue c && others.all (fun o => !o.2.before s.time r || (o.2.cls == r.cls && s.rowHit line && !s.rowHit o.1 && spare))

/-- A command of class B may be issued: no refresh is due, and no H or S read waits. -/
def State.mayIssueB (s : State) (sub : Nat) : Bool := !s.refreshDue sub && (s.readsAt sub).all (fun o => o.2.cls == 2)

/-! ## Reads and writes of the homes -/

/-- A DRAM controller reads a line for the home: never before an earlier write of the line (R327). Requests for a
subchannel out of service wait. -/
def execMrd (line : Nat) (syn retry : List Nat) (s : State) : Out :=
  if s.mem.msgs.any (fun m => m.line == line && m.kind == .mwr) || !s.subAnswers line then .next s
  else match s.txnOf line with
    | none => .next s
    | some t => match s.recv line t.port (fun k => k == .mrd) with
      | none => .next s
      | some (_, s') =>
        if !s.mayIssue line t.rank then .next s else
        let s := ((s'.setTxn { t with mr := false }).openRow line).dramRead line syn retry false
        match t.kind with
        | .wrinv _ => .next (s.progress line)
        | _ => .next (s.send [⟨.data t.grant false, line, t.port⟩])

/-- A DRAM controller accepts a whole-line write into its queue (R384). -/
def execMwr (line : Nat) (s : State) : Out :=
  match s.mem.msgs.find? (fun m => m.line == line && m.kind == .mwr) with
  | none => .next s
  | some m =>
    if !s.queueRoom line then .next s else
    let s := s.setMem { s.mem with msgs := s.mem.msgs.erase m }
    let wb := s.mem.txns.find? (fun t => t.line == line && t.mw && t.kind.isWb)
    let s := (s.setMem (s.mem.flushLine line)).queueWrite line
      (((wb.orElse (fun _ => s.txnOf line)).map (·.rank)).getD (s.rankOf m.port line))
    match wb with
    | some w =>
      let s := s.countUp.setMem { s.mem with
        txns := s.mem.txns.erase w
        gpend := s.mem.gpend.filter (fun p => !(p.grove == w.port && p.line == line && p.tr == .mi)) }
      .next s.serveWaits
    | none => match s.txnOf line with
      | none => .next s
      | some t => match t.kind with
        | .wrinv b =>
          let base := line * 64
          let m := b.foldl (fun m e => m.setDram (base + e.1) e.2) s.mem
          let m := if b.length = 64 then m.setPoison line false else m
          .next ((s.setMem (m.freeDir line)).closeTxn line).serveWaits
        | _ => .next ((s.setTxn { t with mw := false }).progress line).serveWaits

/-- A batch of writes has its cause (R384): 48 entries are occupied, no read waits, or a write's deadline leaves no more than the
controller's share of the bound (Table 15-4). -/
def State.batchDue (s : State) (sub : Nat) : Bool :=
  let q := smGet [] s.dram.wq sub
  decide (48 ≤ q.length) || (s.readsAt sub).isEmpty || q.any (fun e => e.2.deadline != 0 && decide (e.2.deadline ≤ s.time + 820))

/-- A batch of n writes, at 2.5 ns each, leaves every waiting H read its deadline. -/
def State.batchFits (s : State) (sub n : Nat) : Bool :=
  (s.readsAt sub).all (fun o => o.2.cls != 0 || decide (o.2.deadline < s.time) || decide (2 * s.time + 5 * n ≤ 2 * o.2.deadline))

/-- A batch of n queued writes of a subchannel is issued; with the subchannel FAILED they are discarded (R384, R396). -/
def execWriteBatch (sub n : Nat) (s : State) : Out :=
  if sub < 16 ∧ (s.subState sub = 3 ∨ (s.subState sub = 1 ∧ s.batchDue sub ∧ s.batchFits sub n ∧ s.refreshDue sub = false)) then
    .next (s.modDram (fun d => { d with wq := smPut [] d.wq sub (batchRest s.time n (smGet [] d.wq sub)) }))
  else .next s

/-- The oldest correction write of a subchannel is issued: the line already reads as corrected (R389). -/
def execCorrectionWrite (sub : Nat) (s : State) : Out :=
  if sub < 16 ∧ s.subState sub = 1 ∧ s.mayIssueB sub then
    .next (s.modDram (fun d => { d with corr := smPut [] d.corr sub ((smGet [] d.corr sub).drop 1) }))
  else .next s

/-! ## Refresh and what follows it (R385) -/

/-- REFab to a rank whose interval has expired, before any other command; it closes the rank's rows. -/
def execRefresh (sub rank : Nat) (s : State) : Out :=
  let key := 2 * sub + rank
  if s.rankDue sub rank then
    .next (s.modDram (fun d => { d with refAt := smSet d.refAt key s.time, rows := d.rows.filter (fun e => e.1 / 32 != key) }))
  else .next s

/-- MR4 of a rank is read every 16 ms: at or above 85 degrees its interval halves. -/
def execMr4Read (sub rank : Nat) (hot : Bool) (s : State) : Out :=
  let key := 2 * sub + rank
  if s.rankOk sub rank && decide (smGet 0 s.dram.mr4At key + 16000000 ≤ s.time) then
    let s := s.modDram (fun d =>
      let others := d.hot.filter (· != key)
      { d with mr4At := smSet d.mr4At key s.time, hot := if hot then others ++ [key] else others })
    .next (s.ctlMod (subReg sub) (fun v => fone v 28 (s.dram.hot.any (fun k => k / 2 == sub))))
  else .next s

/-- A maintenance window is open on the rank: its refresh was at most 440 ns ago. -/
def State.inWindow (s : State) (key : Nat) : Bool :=
  match smFind? s.dram.refAt key with
  | some t => decide (s.time ≤ t + 440)
  | none => false

/-- A ZQ latch, every 128 ms, directly after a refresh. -/
def execZqCalibration (sub rank : Nat) (s : State) : Out :=
  let key := 2 * sub + rank
  if s.rankOk sub rank && s.inWindow key && decide (smGet 0 s.dram.zqAt key + 128000000 ≤ s.time) then
    .next (s.modDram (fun d => { d with zqAt := smSet d.zqAt key s.time }))
  else .next s

/-- The interval oscillator is read, every 16 ms, directly after a refresh; drift beyond periodic adjustment sends the
subchannel to retraining (R395). -/
def execDqsOscillatorRead (sub rank : Nat) (drift : Bool) (s : State) : Out :=
  let key := 2 * sub + rank
  if s.rankOk sub rank && s.inWindow key && decide (smGet 0 s.dram.oscAt key + 16000000 ≤ s.time) then
    .next (s.modDram (fun d => { d with oscAt := smSet d.oscAt key s.time,
                                        drift := if drift then sub :: d.drift.filter (· != sub) else d.drift }))
  else .next s

/-! ## Scrubbing (R391) -/

/-- The channel's scrub period in nanoseconds. -/
def State.scrubPeriod (s : State) (sub : Nat) : Nat := fget (s.ctlGet (o_dmcScrub (sub / 2))) 4 0 * 3600000000000

/-- The scrubber reads its next line once its share of the period has passed. -/
def execScrubRead (sub : Nat) (syn retry : List Nat) (s : State) : Out :=
  let lines := 2 ^ s.board.log2Lines
  if sub < 16 ∧ s.subState sub = 1 ∧ s.mayIssueB sub ∧ smGet 0 s.dram.scrubAt sub + s.scrubPeriod sub / lines ≤ s.time then
    let y := smGet 0 s.dram.scrubY sub
    let s := s.dramRead (subLine sub y) syn retry true
    let s := s.modDram (fun d => { d with scrubY := smSet d.scrubY sub ((y + 1) % lines), scrubAt := smSet d.scrubAt sub s.time })
    -- the corrected line is rewritten with its read (R391)
    .next (s.modDram (fun d => { d with corr := smSet d.corr sub ((smGet [] d.corr sub).filter (· != subLine sub y)) }))
  else .next s

/-! ## Fresh memory (R392, R393) -/

/-- The first fresh granule at or after g. -/
def nextFresh (fresh : List (Nat × Nat)) (g : Nat) : Option Nat :=
  fresh.foldl (fun a r =>
    let c := max r.1 g
    if c < r.2 then (match a with | some b => some (min b c) | none => some c) else a) none

/-- Granules of installed DRAM. -/
def State.granules (s : State) : Nat := s.dramBytes / 0x200000

/-- The granule in which a channel's initialiser stands, or would start next. -/
def State.initGranule (s : State) (ch : Nat) : Option Nat :=
  (nextFresh s.dram.fresh (smGet 0 s.dram.initAt ch / 32768)).filter (fun g => decide (g < s.granules))

/-- Granules that a channel has yet to initialise (DMC.INIT.REMAINING). -/
def State.initRemaining (s : State) (ch : Nat) : Nat :=
  match s.initGranule ch with
  | none => 0
  | some g => (s.dram.fresh.map (fun r => min r.2 s.granules - max r.1 g)).foldl (· + ·) 0

/-- A granule is fresh until every channel has passed it. -/
def State.trimFresh (s : State) : State :=
  let done := (List.range 8).foldl (fun a ch => min a (smGet 0 s.dram.initAt ch / 32768)) (2 ^ 18)
  s.modDram (fun d => { d with fresh := (d.fresh.map (fun r => (max r.1 done, r.2))).filter (fun r => decide (r.1 < r.2)) })

/-- The initialiser of a channel gives its next fresh line a valid codeword: what the line reads as does not change. -/
def execInitialiserLine (channel : Nat) (syn retry : List Nat) (s : State) : Out :=
  if channel < 8 then
    match s.initGranule channel with
    | none => .next s
    | some g =>
      let at_ := max (smGet 0 s.dram.initAt channel) (g * 32768)
      match ((List.range 32).map (at_ + ·)).find? (fun x => subchannelOf x / 2 == channel) with
      | none => .next s
      | some line =>
        if s.subState (subchannelOf line) ≠ 1 ∨ s.mayIssueB (subchannelOf line) = false then .next s else
        let s := s.dramRead line syn retry false
        let c := subchannelOf line
        let s := s.modDram (fun d => { d with corr := smSet d.corr c ((smGet [] d.corr c).filter (· != line)) })
        let nxt := match ((List.range 32).map (line + 1 + ·)).find? (fun x => subchannelOf x / 2 == channel) with
          | some x => x
          | none => line + 1
        .next ((s.modDram (fun d => { d with initAt := smSet d.initAt channel nxt })).trimFresh)
  else .next s

/-! ## Retraining (R395, R396) -/

/-- The Keeper has cause to retrain a subchannel. -/
def State.retrainDue (s : State) (sub : Nat) : Bool :=
  s.dram.drift.contains sub ||
    decide (4 ≤ ((smGet [] s.dram.ue sub).filter (fun t => decide (s.time < t + 1000000))).length)

/-- Steps 1 and 2: once MOESI is in force and the subchannel has no read queued, its queued writes are performed and it goes out of
service. The Keeper's next command goes on where that is not yet so. -/
def State.retrainBegin (s : State) (sub : Nat) : State :=
  let s := s.switchSet true
  if !s.moesi || s.switching || !(s.readsAt sub).isEmpty then s
  else
    let s := (s.setSub sub 2).modDram (fun d => { d with wq := smPut [] d.wq sub [], ue := smErase d.ue sub,
                                                         drift := d.drift.filter (· != sub), fails := smErase d.fails sub })
    s.event 0 0x033 landing none 0 sub 0

/-- The package returns to MESIF when no other subchannel is out of service. -/
def State.retrainEnd (s : State) : State :=
  if (List.range 16).any (fun c => s.subState c == 2) then s else s.switchSet false

/-- The outcome of one attempt at retraining: success returns the subchannel to service, a third failure ends it. -/
def State.retrainAttempt (s : State) (sub : Nat) (ok : Bool) : State :=
  let s := s.ctlMod (subReg sub) (fun v => fset v 27 24 (min 15 (fget v 27 24 + 1)))
  if ok then (s.setSub sub 1).retrainEnd
  else
    let n := smGet 0 s.dram.fails sub + 1
    let s := s.modDram (fun d => { d with fails := smSet d.fails sub n })
    if n < 3 then s
    else
      let s := (s.setSub sub 3).setMem { s.mem with failed := sub :: s.mem.failed.filter (· != sub) }
      (s.event 8 0x034 landing none 0 sub 0).retrainEnd

def execSubchannelRetrain (sub : Nat) (ev : RetrainEv) (s : State) : Out :=
  if sub < 16 then
    match ev with
    | .begin => if s.subState sub = 1 && s.retrainDue sub then .next (s.retrainBegin sub) else .next s
    | .attempt ok => if s.subState sub = 2 then .next (s.retrainAttempt sub ok) else .next s
  else .next s

end Sys2Proof.Machine
end

