-- ==== Sys2Proof/Machine/Rings.lean ====
section
/-!
DEFINITION. Queues: contexts and commands (R402 to R407), doorbells (R408 to R410), the device's index and notifications
(R404, R411), completion records (R417, R418), messages (R421, R422).
-/
namespace Sys2Proof.Machine

/-! ## Accessors -/

def State.queue (s : State) (q : Nat) : Queue := smGet Queue.reset s.qm.queues q
def State.setQueue (s : State) (q : Nat) (x : Queue) : State := { s with qm := { s.qm with queues := smPut Queue.reset s.qm.queues q x } }
def State.modQueue (s : State) (q : Nat) (f : Queue → Queue) : State := s.setQueue q (f (s.queue q))

def Queue.reg (q : Queue) (off : Nat) : Reg32 := smGet 0 q.regs off
def Queue.kind (q : Queue) : Nat := fget (q.reg 0x20) 31 29
def Queue.logSize (q : Queue) : Nat := fget (q.reg 0x20) 28 25
def Queue.size (q : Queue) : Nat := 2 ^ q.logSize
def Queue.pack (q : Queue) : Nat := fget (q.reg 0x20) 24 23
def Queue.user (q : Queue) : Bool := fbit (q.reg 0x20) 22
def Queue.fullWait (q : Queue) : Bool := fbit (q.reg 0x20) 21
def Queue.okRec (q : Queue) : Bool := fbit (q.reg 0x20) 20
def Queue.base (q : Queue) : Nat := (q.reg 0x24).toNat + 2 ^ 32 * fget (q.reg 0x28) 9 0
def Queue.shadow (q : Queue) : Nat := (q.reg 0x2C).toNat + 2 ^ 32 * fget (q.reg 0x30) 9 0
def Queue.other (q : Queue) : Nat := fget (q.reg 0x34) 31 16
def Queue.arg (q : Queue) : Nat := fget (q.reg 0x34) 15 0
def Queue.engine (q : Queue) : Nat := q.arg % 64
def Queue.nEn (q : Queue) : Bool := fbit (q.reg 0x38) 31
def Queue.nVec (q : Queue) : Nat := fget (q.reg 0x38) 12 8
def Queue.nCore (q : Queue) : Nat := fget (q.reg 0x38) 7 0
/-- The doorbell moves PI, and the device CI (Table 16-1). -/
def Queue.produced (q : Queue) : Bool := q.kind == 1 || q.kind == 3 || q.kind == 6
/-- Bytes of an entry. -/
def Queue.entrySize (q : Queue) : Nat := if q.kind ≤ 2 then 32 else 64
/-- Entries the ring holds, with the software index at `sw`. -/
def Queue.heldAt (q : Queue) (sw : Nat) : Nat :=
  if q.produced then (sw + 65536 - q.dev) % 65536 else (q.dev + 65536 - sw) % 65536
def Queue.held (q : Queue) : Nat := q.heldAt q.sw
def Queue.full (q : Queue) : Bool := decide (q.size ≤ q.held)
/-- Address of the entry at the index the device moves. -/
def Queue.entryAt (q : Queue) : Nat := q.base + q.entrySize * (q.dev % q.size)

def State.qOwner (s : State) (q : Nat) : Option Nat := s.ownerOf 4 q

/-- The bytes lie in DRAM or Clearing ways that the compartment owns. -/
def State.ownsRange (s : State) (n pa len : Nat) : Bool :=
  let ok (a : Nat) : Bool := (match s.region a with | .dram => true | .clearing _ _ => true | _ => false) && s.owns n a
  decide (0 < len) && ok pa && ok (pa + len - 1) &&
    ((List.range ((pa + len - 1) / 0x200000 - pa / 0x200000)).all (fun i => ok ((pa / 0x200000 + i + 1) * 0x200000)))

/-! ## Writes of the Landing's agents -/

/-- Bytes written by an agent outside the cores into memory of a compartment: line by line, journalled when the compartment
records (R516, R517). Sources: 0 DMA engine, 1 queue manager, 2 network switch, 3 host window, 4 Keeper image. -/
def State.inWrite (s : State) (cmp : Option Nat) (pa : Nat) (bs : List Byte) (source : Nat) (hash : Bool) : State :=
  (byLine (bs.length / 64 + 2) pa bs).foldl (fun s e =>
    let s := s.wrInv e.1 e.2
    match cmp with
    | some n => s.mftInput n (lineOf e.1) ((2 ^ e.2.length - 1) * 2 ^ (e.1 % 64)) source hash
    | none => s) s

/-- A word written by the queue manager. -/
def State.qmWord (s : State) (cmp : Option Nat) (pa v : Nat) : State := s.inWrite cmp pa (valBytes v 4) 1 false

/-! ## The device's index (R404, R411) -/

def State.notify (s : State) (q : Queue) : State :=
  s.ctlMod (o_qmNpend q.nCore) (fun v => fone v q.nVec true)

/-- The device moves its index to `v`: the shadow word, then the notification of an armed queue. -/
def State.moveDev (s : State) (q v : Nat) : State :=
  let x := s.queue q
  let s := s.setQueue q { x with dev := v % 65536 }
  let s := s.qmWord (s.qOwner q) x.shadow (v % 65536)
  if x.nEn && x.armed then (s.modQueue q (fun y => { y with armed := false })).notify x else s

/-- The queue stops (Table 16-8, CAUSE). -/
def State.haltQueue (s : State) (q cause : Nat) : State := s.modQueue q (fun x => { x with st := 2, cause := cause })

/-! ## Records (R417, R418) -/

/-- The 32 bytes of a record's eight words. -/
def wordsBytes (l : List Nat) : List Byte := l.flatMap (fun w => valBytes w 4)

/-- The request of an engine for one access of a ring (R416); the queue manager's own accesses need none. -/
def State.ringPass (s : State) (engine : Option Nat) (pa : Nat) (write : Bool) : State :=
  match engine with
  | some e => match s.ownerOf 7 e with
    | some n => (s.passWait (s.reqFor 2 e pa write) n).1
    | none => s
  | none => s

/-- A record enters its COMPLETE queue, which has room. -/
def State.putRecord (s : State) (r : HeldRec) : State :=
  let x := s.queue r.cq
  let s := (s.ringPass r.engine x.entryAt true).ringPass r.engine x.shadow true
  let s := s.inWrite (s.qOwner r.cq) x.entryAt (wordsBytes r.words) 1 false
  s.moveDev r.cq (x.dev + 1)

/-- Nothing takes the record: its COMPLETE queue is DISABLED, or is not its source's owner's. -/
def State.recLost (s : State) (r : HeldRec) : Bool :=
  let x := s.queue r.cq
  x.st == 0 || x.kind != 2 || s.qOwner r.cq != s.qOwner r.src || (s.qOwner r.cq).isNone

/-- The held records that nothing takes any more are discarded. -/
def State.dropRecords (s : State) : State :=
  let lost := s.qm.recs.filter s.recLost
  lost.foldl (fun s _ => s.ctlInc o_qmLostrec) { s with qm := { s.qm with recs := s.qm.recs.filter (fun r => !s.recLost r) } }

/-- A record is written, held while its queue is full, or discarded. -/
def State.record1 (s : State) (r : HeldRec) : State :=
  let x := s.queue r.cq
  if s.recLost r then s.ctlInc o_qmLostrec
  else if x.full || s.qm.recs.any (·.cq == r.cq) then { s with qm := { s.qm with recs := s.qm.recs ++ [r] } }
  else s.putRecord r

/-- Space has appeared in a COMPLETE queue: the records held for it are written in order. -/
def State.flushRecords (s : State) (cq : Nat) : Nat → State
  | 0 => s
  | f + 1 => match s.qm.recs.find? (·.cq == cq) with
    | none => s
    | some r =>
      if (s.queue cq).full then s
      else (({ s with qm := { s.qm with recs := s.qm.recs.erase r } }).putRecord r).flushRecords cq f

/-- A held record keeps its source queue from being served. -/
def State.recHeld (s : State) (q : Nat) : Bool := s.qm.recs.any (·.src == q)

/-- The words of a record (Table 16-5). -/
def recordWords (tag status sub queue done faddr index engine : Nat) : List Nat :=
  [tag % 2 ^ 36, status * 2 ^ 28 + sub % 4096 * 2 ^ 16 + queue % 65536, done % 2 ^ 36, faddr % 2 ^ 36, faddr / 2 ^ 36 % 2 ^ 28,
   index % 65536 * 2 ^ 6 + engine % 64, 0, 0]

/-! ## Commands of QM.QCMD (R406, Table 16-2) -/

/-- The writer of a QM register: compartment n as n, PF0 as 32. -/
def State.writerId (s : State) : Sender → Nat
  | .core k => (s.cmpOf k).getD 32
  | .host => 32

/-- A writer may act on a queue: PF0 on any, a compartment on its own. -/
def State.mayUse (s : State) (w q : Nat) : Bool := w == 32 || s.qOwner q == some w

/-- The checks of ENABLE (R406, R437). -/
def State.contextOk (s : State) (q : Nat) : Bool :=
  let x := s.queue q
  match s.qOwner q with
  | none => false
  | some n =>
    let k := x.kind
    decide (1 ≤ k) && decide (k ≤ 6) && decide (4 ≤ x.logSize) && x.base % 64 == 0 && x.shadow % 4 == 0 &&
    s.ownsRange n x.base (x.entrySize * x.size) && s.ownsRange n x.shadow 4 &&
    (if k ≤ 4 then x.pack == 0 else x.pack == 1 || x.pack == 2) &&
    (!x.nEn || s.cmpOf x.nCore == some n) &&
    (if k = 1 ∨ k = 3 then (s.queue x.other).kind == 2 && s.qOwner x.other == some n else true) &&
    (if k = 1 then s.ownerOf 7 x.engine == some n &&
        decide ((s.qm.queues.filter (fun e => e.2.st != 0 && e.2.kind == 1 && e.2.engine == x.engine)).length < 8) else true) &&
    (if 5 ≤ k then s.ownerOf 5 x.other == some n &&
        !(s.qm.queues.any (fun e => e.2.st != 0 && decide (5 ≤ e.2.kind) && e.2.other == x.other)) else true)

def State.qEnable (s : State) (q : Nat) : State :=
  if (s.queue q).st ≠ 0 then s
  else if s.contextOk q then s.modQueue q (fun x => { x with st := 1, cause := 0, armed := false, sw := 0, dev := 0 })
  else s.modQueue q (fun x => { x with cause := 1 })

/-- The cause of a halt persists (Table 16-2). -/
def State.causePersists (s : State) (q : Nat) : Bool :=
  let x := s.queue q
  (x.cause == 4 && !s.bme (1 + x.fn)) || (x.cause == 5 && (s.inFlr (1 + x.fn) || !s.bme (1 + x.fn))) ||
    (x.kind == 1 && s.ownerOf 7 x.engine != s.qOwner q)

def State.qRearm (s : State) (q : Nat) : State :=
  if (s.queue q).st = 2 && !s.causePersists q then s.modQueue q (fun x => { x with st := 1, cause := 0 }) else s

def State.qHalt (s : State) (q : Nat) : State := if (s.queue q).st = 1 then s.haltQueue q 2 else s

/-- The queue that a command of QCMD acts on: the one its writer has selected, when the writer may use it. -/
def State.selected (s : State) (who : Sender) : Option Nat :=
  let w := s.writerId who
  let q := smGet 0 s.qm.qsel w
  if s.reach who o_qmQcmd && s.mayUse w q then some q else none

def execQmEnable (who : Sender) (s : State) : Out := match s.selected who with
  | some q => .next (s.qEnable q)
  | none => .next s
def execQmRearm (who : Sender) (s : State) : Out := match s.selected who with
  | some q => .next (s.qRearm q)
  | none => .next s
def execQmHalt (who : Sender) (s : State) : Out := match s.selected who with
  | some q => .next (s.qHalt q)
  | none => .next s

/-! ## Doorbells (R408 to R410) -/

/-- A doorbell by a queue its writer does not own, or on a DISABLED one (R410). -/
def State.bellRefused (s : State) (cmp : Option Nat) (off : Nat) : State :=
  (s.ctlInc o_qmOwnerr).event 8 0x020 landing cmp off 1 (off / 0x10000)

/-- Messages announced by a doorbell pass the queue's shaper one by one (R409). -/
def State.passMessages (s : State) (q n first : Nat) : Nat → State
  | 0 => s
  | f + 1 =>
    let r : HeldReq := { srcKind := 4, item := q, target := 4, tgtIndex := 0, write := true, items := [], line := (first + n - (f + 1)) % 65536 }
    let s := s.offer r ((s.qOwner q).getD 0) s.time
    let s := if s.held.contains r then s.releaseHeld r else s
    s.passMessages q n first f

/-- A doorbell: `cmp` none is PF0. It moves the software index, or is refused; `arm`: DBARM (R411). -/
def State.doorbell (s : State) (cmp : Option Nat) (off q idx : Nat) (arm : Bool) : State :=
  let x := s.queue q
  let mine : Bool := match cmp with
    | none => true
    | some n => s.qOwner q == some n
  if !mine || x.st = 0 then s.bellRefused cmp off
  else
    let step := (idx + 65536 - x.sw) % 65536
    if decide (x.size < x.heldAt idx) || decide (x.size < step) then s.haltQueue q 6
    else
      let s := if x.kind = 3 then s.passMessages q step x.sw step else s
      let s := s.modQueue q (fun y => { y with sw := idx % 65536 })
      let s := if x.kind = 2 then s.flushRecords q (s.qm.recs.length + 1) else s
      if !arm then s
      else
        let y := s.queue q
        if !y.produced && y.held != 0 && y.nEn then (s.modQueue q (fun z => { z with armed := false })).notify y
        else s.modQueue q (fun z => { z with armed := true })

/-- The compartment a doorbell of a sender counts for. -/
def State.senderCmp (s : State) : Sender → Option Nat
  | .core k => s.cmpOf k
  | .host => none

/-- A write of QM.DB. -/
def execDbRing (who : Sender) (queue index : Nat) (s : State) : Out :=
  if s.reach who o_qmDb ∨ s.reach who (o_qmDb + 0x8000) then .next (s.doorbell (s.senderCmp who) o_qmDb (queue % 65536) (index % 65536) false)
  else .next s
/-- A write of QM.DBARM. -/
def execDbarm (who : Sender) (queue index : Nat) (s : State) : Out :=
  if s.reach who o_qmDbarm ∨ s.reach who (o_qmDbarm + 0x8000) then .next (s.doorbell (s.senderCmp who) o_qmDbarm (queue % 65536) (index % 65536) true)
  else .next s

/-! ## Messages (R421, R422) -/

/-- The bytes of memory from an address, as a list. -/
def Mem.bytes (m : Mem) (pa n : Nat) : List Byte := (List.range n).map (fun i => m.byte (pa + i))

/-- A ring entry that reads as poison stops its queue with CAUSE RING (R407); a record goes to its COMPLETE queue. `reader`: the
row of Table 24-3. -/
def State.ringPoison (s : State) (q : Nat) (engine reader : Option Nat) (withRecord : Bool) : State :=
  let x := s.queue q
  let s := match reader with
    | some r => s.event 4 0x038 landing (s.qOwner q) x.entryAt r 0
    | none => s
  let s := if withRecord then
      s.record1 { src := q, cq := x.other, engine := engine, words := recordWords 0 4 0 q 0 0 x.dev (engine.getD 0) }
    else s
  s.haltQueue q 7

/-- The next message of a SEND queue: refused with a status, delivered to a queue, or held. -/
def State.messageFate (s : State) (q : Nat) : Option Nat :=
  let x := s.queue q
  let r := s.queue x.arg
  if r.st ≠ 1 then some 16
  else if r.kind ≠ 4 ∨ r.other ≠ q then some 18
  else if !r.full then some 0
  else if x.fullWait then none else some 17

/-- The queue manager can serve a SEND queue: it has a message, and no record of its own or full RECEIVE queue holds it. -/
def State.sendReady (s : State) (q : Nat) : Bool :=
  let x := s.queue q
  x.st == 1 && x.kind == 3 && x.held != 0 && !s.recHeld q && (s.messageFate q).isSome

/-- The rank of the next message of a SEND queue, its source number the queue's (R363). -/
def State.messageRank (s : State) (q : Nat) : Rank :=
  match s.flight.find? (fun f => f.req.srcKind == 4 && f.req.item == q && f.req.line == (s.queue q).dev) with
  | some f => ⟨f.cls, f.accepted, f.deadline, q⟩
  | none => ⟨2, s.time, 0, q⟩

/-- The queue manager delivers, holds or refuses the next message of a SEND queue: among those it can serve, in the order of R363. Its
reads and writes of the rings take their places at their homes (R333). -/
def execMessageDelivery (queue : Nat) (s : State) : Out :=
  let q := queue % 65536
  let x := s.queue q
  if !s.sendReady q then .next s
  else if s.qm.queues.any (fun e => e.1 != q && s.sendReady e.1 && (s.messageRank e.1).before s.time (s.messageRank q)) then .next s
  else if s.mem.poisoned (lineOf x.entryAt) then .next (s.ringPoison q none none true)
  else match s.messageFate q with
    | none => .next s
    | some status =>
      let at_ := (s.queue x.arg).entryAt
      match s.takeAll ((lineOf x.entryAt, false) :: (if status = 0 then [(lineOf at_, true)] else [])) with
      | (s, false) => .next s
      | (s, true) =>
        let msg := s.mem.bytes x.entryAt 64
        let r : HeldReq := { srcKind := 4, item := q, target := 4, tgtIndex := 0, write := true, items := [], line := x.dev }
        let s := if status = 0 then
            let y := s.queue x.arg
            let s := s.inWrite (s.qOwner x.arg) y.entryAt msg 1 false
            s.moveDev x.arg (y.dev + 1)
          else s
        let s := (s.complete r s.time).1
        let tag := bytesVal (fun i => msg.getD i 0) 0 4
        let s := if status ≠ 0 ∨ x.okRec then
            s.record1 { src := q, cq := x.other, engine := none, words := recordWords tag status 0 q 0 0 x.dev 0 }
          else s
        .next (s.moveDev q (x.dev + 1))

end Sys2Proof.Machine
end

