-- ==== Sys2Proof/Machine/Dma.lean ====
section
/-!
DEFINITION. The DMA engines (R412 to R428): descriptors, their progress line by line, host reads, parks and aborts.
-/
namespace Sys2Proof.Machine

def State.engine (s : State) (e : Nat) : Engine := smGet Engine.reset s.qm.engines e
def State.setEngine (s : State) (e : Nat) (x : Engine) : State := { s with qm := { s.qm with engines := smPut Engine.reset s.qm.engines e x } }
def State.modEngine (s : State) (e : Nat) (f : Engine → Engine) : State := s.setEngine e (f (s.engine e))
def State.eOwner (s : State) (e : Nat) : Option Nat := s.ownerOf 7 e

/-! ## The descriptor (R412, R413) -/

structure Desc where
  op : Nat
  srcSp : Nat
  dstSp : Nat
  pack : Nat
  notify : Bool
  func : Nat
  tag : Nat
  src : Nat
  dst : Nat
  length : Nat
  pattern : Nat
  deriving DecidableEq, Repr

def descOf (l : List Nat) : Desc :=
  let w (i : Nat) : Nat := l.getD i 0 % 2 ^ 36
  { op := w 0 / 2 ^ 32, srcSp := w 0 / 2 ^ 30 % 4, dstSp := w 0 / 2 ^ 28 % 4, pack := w 0 / 2 ^ 26 % 4,
    notify := w 0 / 2 ^ 25 % 2 == 1, func := w 0 / 2 ^ 19 % 32, tag := w 1,
    src := w 2 + 2 ^ 36 * (w 3 % 2 ^ 28), dst := w 4 + 2 ^ 36 * (w 5 % 2 ^ 28), length := w 6, pattern := w 7 }

def Desc.host (d : Desc) : Bool := d.srcSp == 2 || d.dstSp == 2
def Desc.dense (d : Desc) : Bool := d.pack == 2
def Engine.d (e : Engine) : Desc := descOf e.desc

/-- Well formed (R413). -/
def descOk (user : Bool) (l : List Nat) : Bool :=
  let w (i : Nat) : Nat := l.getD i 0 % 2 ^ 36
  let d := descOf l
  let addrOk (sp a : Nat) : Bool := if sp = 0 then decide (a < 2 ^ 42) else if sp = 1 then decide (a < 2 ^ 48) else true
  let zeros : Bool := w 0 % 2 ^ 19 == 0 && decide (w 3 < 2 ^ 28) && decide (w 5 < 2 ^ 28)
  decide (d.op ≤ 2) && d.srcSp != 3 && d.dstSp != 3 && d.pack != 3 && zeros &&
    (d.op == 1 || d.pattern == 0) &&
    (if d.host then d.srcSp != d.dstSp && (d.pack == 1 || d.pack == 2) else d.pack == 0) &&
    (d.op == 2 || (addrOk d.srcSp d.src && addrOk d.dstSp d.dst)) &&
    (if d.pack = 2 then (if d.srcSp = 2 then d.dst else d.src) % 8 == 0 else true) &&
    (if d.op = 1 then decide (d.dstSp ≤ 1) && d.dst % 4 == 0 && d.length % 4 == 0 && d.src == 0 else true) &&
    (if d.op = 2 then d.src == 0 && d.dst == 0 && d.length == 0 else decide (1 ≤ d.length) && decide (d.length < 2 ^ 32)) &&
    (!user || (d.srcSp != 0 && d.dstSp != 0))

/-! ## Translation (R415) -/

inductive DmaX where
  | ok (pa : Nat)
  /-- The engine parks: exception code and sub-code. -/
  | park (code sub : Nat)
  | access
  deriving DecidableEq, Repr

/-- Where an engine may go: the owner's DRAM, Clearing ways or partner window (R315); a write never into the Manifest buffer in a session (R525). -/
def State.dmaMay (s : State) (n pa : Nat) (write : Bool) : Bool :=
  (match s.region pa with | .dram => true | .clearing _ _ => true | .window => true | _ => false) && s.owns n pa && !(write && s.inMftBuf n pa)

/-- A leaf as an engine uses it. A DEVICE page is refused before its marks are looked at: the spec gives no order of the two
(log entry 104). -/
def State.dmaLeaf (s : State) (x : XCtx) (n la : Nat) (write : Bool) (e : DWord) (level size : Nat) : DmaX :=
  let kind : XKind := if write then .store else .load
  let pa := eAddr e / 2 ^ size * 2 ^ size + la % 2 ^ size
  match permFault kind x.user e true with
  | some f => .park 4 (f + 8 * level)
  | none =>
    if eMtype e == 1 || !s.dmaMay n pa write then .access
    else match markFault kind e with
      | some f => .park 6 (f + 8 * level)
      | none => .ok pa

/-- One address of a descriptor. -/
def State.dmaAddr (s : State) (e sp a : Nat) (write : Bool) : State × DmaX :=
  match s.eOwner e with
  | none => (s, .access)
  | some n =>
    if sp = 0 then (s, if s.dmaMay n a write then .ok a else .access)
    else
      let q := s.queue (s.engine e).queue
      let pow2 : Bool := match s.cmpSec n with
        | some c => c.pow2
        | none => false
      let x : XCtx := { tr := true, user := q.user, root := fget (q.reg 0x3C) 29 0, asid := fget (q.reg 0x40) 11 0,
                        cmp := some n, pow2 := pow2 }
      let cache := smGet [] s.mem.dtc e
      match tlbFind cache a x.asid with
      | some t => (s.setMem { s.mem with dtc := smSet s.mem.dtc e (tlbUse cache t) }, s.dmaLeaf x n a write t.leaf t.level t.size)
      | none => match (s.walk x a).1 with
        | .fault code kd level line =>
          let s := if code = 5 ∧ kd = 3 then s.event 4 0x038 landing (some n) (line * 64) (4 + 256) 0 else s
          (s, .park code (kd + 8 * level))
        | .leaf lf level =>
          let size := leafSize pow2 level lf
          match s.dmaLeaf x n a write lf level size with
          | .ok pa =>
            let t : TlbEntry := { page := a / 2 ^ size * 2 ^ size, size := size, leaf := lf, level := level, asid := x.asid }
            (s.setMem { s.mem with dtc := smSet s.mem.dtc e (tlbFill 64 (fun _ => 0) cache t) }, .ok pa)
          | r => (s, r)

/-! ## Ends and parks (R417 to R420, R424) -/

/-- Requests to the host that are outstanding for an engine: what arrives is discarded. -/
def State.killReads (s : State) (e : Nat) : State :=
  s.modHep (fun h => { h with reads := h.reads.map (fun r => if r.engine = e then { r with dead := true } else r) })

/-- The record of the descriptor in progress. -/
def State.dmaRecord (s : State) (e status sub faddr : Nat) : State :=
  let x := s.engine e
  s.record1 { src := x.queue, cq := (s.queue x.queue).other, engine := some e,
              words := recordWords x.d.tag status sub x.queue x.done faddr x.index e }

/-- The descriptor ends with a status (Table 16-6). -/
def State.dmaEnd (s : State) (e status : Nat) : State :=
  let x := s.engine e
  let s := s.killReads e
  let s := if status ≠ 0 ∨ x.d.notify then s.dmaRecord e status 0 0 else s
  let s := s.withdraw 2 e
  let s := if status = 6 ∨ status = 7 then
      s.modQueue x.queue (fun q => { q with st := 2, cause := if status = 6 then 4 else 5, fn := x.d.func })
    else s
  s.modEngine e (fun y => { y with st := 0, desc := [], issued := 0 })

/-- A fault of translation parks the engine (R420). -/
def State.dmaPark (s : State) (e code sub la : Nat) : State :=
  let s := (s.killReads e).withdraw 2 e
  let s := s.modEngine e (fun y => { y with st := 2, sub := code * 256 + sub, faddr := la, issued := y.done })
  s.dmaRecord e 1 (code * 256 + sub) la

/-- A function cannot serve: the status its descriptors end with. -/
def State.fnAbort (s : State) (v : Nat) : Option Nat :=
  if s.inFlr (1 + v) then some 7 else if !s.bme (1 + v) then some 6 else none

/-! ## Progress -/

/-- What one step of a descriptor did. -/
inductive DmaStep where
  | go (s : State)
  /-- The engine waits: for its shaper, or for the host. -/
  | wait (s : State)
  | ended (s : State)

/-- Units from `done` that share a line of internal memory: bytes, or octets under PACK. -/
def lineUnits (dense : Bool) (base o : Nat) : Nat :=
  if dense then 9 * (8 - (base / 8 + o / 9) % 8) - o % 9 else 64 - (base + o) % 64

/-- The internal address of unit o, and the line it lies on. -/
def unitAddr (dense : Bool) (base o : Nat) : Nat := if dense then base + 8 * (o / 9) else base + o

def State.hostReq (e addr : Nat) (write : Bool) : HeldReq :=
  { srcKind := 2, item := e, target := 6, tgtIndex := 0, write := write, items := [], line := addr / 64 }

/-- The line requests of one step pass their shapers together, and then their homes (R333), or wait. -/
def State.dmaPass (s : State) (e : Nat) (l : List HeldReq) : State × Bool :=
  let s := l.foldl (fun s q => s.offer q ((s.eOwner e).getD 0) s.time) s
  if !l.all (fun q => s.flight.any (·.req == q)) then (s, false)
  else
    let r := s.takeAll ((l.filter (fun q => q.target != 6)).map (fun q => (q.line, q.write)))
    if r.2 then (l.foldl (fun s q => (s.complete q s.time).1) r.1, true) else r

/-- Max_Payload_Size and Max_Read_Request_Size of a function (R456, R467). -/
def State.maxPayload (s : State) (fn : Nat) : Nat := min 512 (128 * 2 ^ (s.cfg fn 0x78 / 2 ^ 5 % 8))
def State.maxRead (s : State) (fn : Nat) : Nat := min 4096 (128 * 2 ^ (s.cfg fn 0x78 / 2 ^ 12 % 8))
/-- Reads a function may have outstanding. -/
def State.maxTags (s : State) (fn : Nat) : Nat := if s.cfgBit fn 0x98 12 then 768 else 256

/-- An internal address of a descriptor, with its consequences when it cannot be used. -/
def State.dmaGet (s : State) (e sp a : Nat) (write : Bool) (k : State → Nat → DmaStep) : DmaStep :=
  match s.dmaAddr e sp a write with
  | (s, .ok pa) => k s pa
  | (s, .access) => .ended (s.dmaEnd e 2)
  | (s, .park code sub) => .ended (s.dmaPark e code sub a)

/-- The source line reads as poison: the descriptor ends at DONE (R419, R428). -/
def State.dmaPoison (s : State) (e pa : Nat) : DmaStep :=
  .ended ((s.event 4 0x038 landing (s.eOwner e) pa 4 0).dmaEnd e 4)

/-- n more units are done. -/
def State.dmaDone (s : State) (e n : Nat) : State := s.modEngine e (fun y => { y with done := y.done + n })

/-- One line of a COPY inside the package, or of a FILL. -/
def State.dmaInner (s : State) (e : Nat) (fill : Bool) : DmaStep :=
  let x := s.engine e
  let d := x.d
  let left := d.length - x.done
  let da := d.dst + x.done
  let n := min left (64 - da % 64)
  let n := if fill then n else min n (64 - (d.src + x.done) % 64)
  let put (s : State) (reads : List HeldReq) (bs : List Byte) : DmaStep :=
    s.dmaGet e d.dstSp da true (fun s pa =>
      match s.dmaPass e (reads ++ [s.reqFor 2 e pa true]) with
      | (s, false) => .wait s
      | (s, true) => .go ((s.inWrite (s.eOwner e) pa bs 0 true).dmaDone e n))
  if fill then put s [] ((List.range n).map (fun i => BitVec.ofNat 9 (d.pattern / 512 ^ ((x.done + i) % 4))))
  else s.dmaGet e d.srcSp (d.src + x.done) false (fun s pa =>
    if s.mem.poisoned (lineOf pa) then s.dmaPoison e pa
    else put s [s.reqFor 2 e pa false] (s.mem.bytes pa n))

/-- One line of a COPY to host memory. -/
def State.dmaToHost (s : State) (e : Nat) : DmaStep :=
  let x := s.engine e
  let d := x.d
  let ha := d.dst + x.done
  let n := min (min (d.length - x.done) (lineUnits d.dense d.src x.done)) (min (s.maxPayload (1 + d.func)) (4096 - ha % 4096))
  s.dmaGet e d.srcSp (unitAddr d.dense d.src x.done) false (fun s pa =>
    if s.mem.poisoned (lineOf pa) then s.dmaPoison e pa
    else match s.dmaPass e [s.reqFor 2 e pa false, State.hostReq e ha true] with
      | (s, false) => .wait s
      | (s, true) =>
        let octs := if d.dense then s.mem.octets true pa (x.done % 9) n else s.mem.octets false pa 0 n
        .go ((s.emit (.hostWrite d.func ha octs)).dmaDone e n))

/-- The read of an engine whose data is wanted next. -/
def State.readAt (s : State) (e : Nat) : Option HostRead :=
  s.hep.reads.find? (fun r => r.engine == e && !r.dead && r.off == (s.engine e).done)

/-- One line of a COPY from host memory: data that has arrived is written; otherwise the next read is issued. -/
def State.dmaFromHost (s : State) (e : Nat) : DmaStep :=
  let x := s.engine e
  let d := x.d
  match s.readAt e with
  | some r =>
    if !r.got.isEmpty then
      let n := min r.got.length (lineUnits d.dense d.dst x.done)
      s.dmaGet e d.dstSp (unitAddr d.dense d.dst x.done) true (fun s pa =>
        match s.dmaPass e [s.reqFor 2 e pa true] with
        | (s, false) => .wait s
        | (s, true) =>
          let octs := r.got.take n
          let p := if d.dense then s.mem.packed true pa (x.done % 9) octs else s.mem.packed false pa 0 octs
          let s := s.inWrite (s.eOwner e) p.1 p.2 0 false
          let s := s.modHep (fun h => { h with reads := (h.reads.map (fun q =>
            if q = r then { q with off := q.off + n, len := q.len - n, got := q.got.drop n } else q)).filter (fun q => q.len != 0) })
          .go (s.dmaDone e n))
    else .wait s
  | none => .wait s

/-- The lines that an outstanding read of host memory has yet to bring. -/
def HostRead.lines (r : HostRead) : Nat := (r.len + 63) / 64

/-- Line transactions that an engine has open (R416). -/
def State.engOpen (s : State) (e : Nat) : Nat :=
  (s.flight.filter (fun f => f.req.srcKind == 2 && f.req.item == e)).length +
    ((s.hep.reads.filter (fun r => r.engine == e && !r.dead)).map HostRead.lines).sum

/-- The next read of host memory is issued, when the descriptor has one to issue, a tag is free, and no more than 128 lines are then
open. -/
def State.dmaIssue (s : State) (e : Nat) : DmaStep :=
  let x := s.engine e
  let d := x.d
  let fn := 1 + d.func
  let busy := s.hep.reads.filter (·.fn == fn)
  if d.srcSp ≠ 2 ∨ d.length ≤ x.issued ∨ s.maxTags fn ≤ busy.length then .wait s
  else
    let a := d.src + x.issued
    let n := min (d.length - x.issued) (min (s.maxRead fn) (4096 - a % 4096))
    if 128 < s.engOpen e + (n + 63) / 64 then .wait s
    else match s.dmaPass e [State.hostReq e a false] with
    | (s, false) => .wait s
    | (s, true) =>
      let tag := ((List.range (busy.length + 1)).find? (fun t => !busy.any (·.tag == t))).getD 0
      let r : HostRead := { fn := fn, tag := tag, engine := e, off := x.issued, len := n, got := [], dead := false }
      .go (((s.emit (.hostRead d.func tag a n)).modHep (fun h => { h with reads := h.reads ++ [r] })).modEngine e
        (fun y => { y with issued := y.issued + n }))

/-- One step of the descriptor in progress. -/
def State.dmaStep (s : State) (e : Nat) : DmaStep :=
  let x := s.engine e
  let d := x.d
  if d.op = 2 ∨ d.length ≤ x.done then .ended (s.dmaEnd e 0)
  else if d.op = 1 then s.dmaInner e true
  else if d.srcSp = 2 then
    match s.dmaFromHost e with
    | .wait s => s.dmaIssue e
    | r => r
  else if d.dstSp = 2 then s.dmaToHost e
  else s.dmaInner e false

/-- Up to n steps. -/
def State.dmaRun (s : State) (e : Nat) : Nat → State
  | 0 => s
  | n + 1 => match s.dmaStep e with
    | .go s => s.dmaRun e n
    | .wait s => s
    | .ended s => s

/-! ## Taking a descriptor (R416) -/

/-- The queue an idle engine serves next: round robin among the RUNNING SUBMIT queues that name it. -/
def State.nextQueue (s : State) (e : Nat) : Option Nat :=
  let last := (s.engine e).last
  let dist (q : Nat) : Nat := (q + 65536 - last - 1) % 65536
  ((s.qm.queues.filter (fun p => p.2.st == 1 && p.2.kind == 1 && p.2.engine == e && p.2.held != 0 && !s.recHeld p.1 &&
    s.qOwner p.1 == s.eOwner e)).map (·.1)).foldl (fun a q => match a with
      | none => some q
      | some b => if dist q < dist b then some q else some b) none

/-- The words of the descriptor at the head of a queue. -/
def State.descAt (s : State) (q : Nat) : List Nat := (List.range 8).map (fun i => s.mem.read ((s.queue q).entryAt + 4 * i) 4)

/-- The engine takes the descriptor: it ends at once when it is malformed, names a function its owner lacks, or one that
cannot serve. -/
def State.dmaTake (s : State) (e q : Nat) : State :=
  let x := s.queue q
  let desc := s.descAt q
  let s := s.ringPass (some e) x.entryAt false
  let s := s.modEngine e (fun y =>
    { y with st := 1, queue := q, index := x.dev, desc := desc, done := 0, sub := 0, faddr := 0, issued := 0, last := q })
  let s := (s.ringPass (some e) x.shadow true).moveDev q (x.dev + 1)
  let d := descOf desc
  if !descOk x.user desc then s.dmaEnd e 3
  else if d.host && s.ownerOf 6 d.func != s.eOwner e then s.dmaEnd e 2
  else match (if d.host then s.fnAbort d.func else none) with
    | some st => s.dmaEnd e st
    | none => s

/-- An engine works on a descriptor with the OP the row names: it takes one when idle, and makes up to `steps` steps. -/
def State.dmaWork (s : State) (e steps : Nat) (p : Nat → Bool) : State :=
  let x := s.engine e
  if x.st = 1 then (if p x.d.op then s.dmaRun e steps else s)
  else if x.st = 0 ∧ e < 64 then
    match s.nextQueue e with
    | none => s
    | some q =>
      if s.mem.poisoned (lineOf (s.queue q).entryAt) then s.ringPoison q (some e) (some 4) true
      else if p (descOf (s.descAt q)).op then
        let s := s.dmaTake e q
        if (s.engine e).st = 1 then s.dmaRun e steps else s
      else s
  else s

/-- An engine performs a COPY descriptor. -/
def execCopy (engine steps : Nat) (s : State) : Out := .next (s.dmaWork engine steps (· == 0))
/-- An engine performs a FILL descriptor. -/
def execFill (engine steps : Nat) (s : State) : Out := .next (s.dmaWork engine steps (· == 1))
/-- An engine performs a NOP descriptor. -/
def execNop (engine : Nat) (s : State) : Out := .next (s.dmaWork engine 1 (· == 2))
/-- An engine takes a descriptor whose OP is reserved. -/
def execDescriptorReservedOp (engine : Nat) (s : State) : Out := .next (s.dmaWork engine 1 (fun op => decide (3 ≤ op)))

/-! ## Commands of ENG.CTRL (R420) -/

def State.engResume (s : State) (e : Nat) : State :=
  if (s.engine e).st = 2 then
    let s := s.setMem { s.mem with dtc := smErase s.mem.dtc e }
    s.modEngine e (fun x => { x with st := 1, issued := x.done })
  else s
def State.engDiscard (s : State) (e : Nat) : State := if (s.engine e).st = 2 then s.dmaEnd e 9 else s

def execEngResume (who : Sender) (engine : Nat) (s : State) : Out :=
  if engine < 64 && s.reach who (o_engCtrl engine) then .next (s.engResume engine) else .next s
def execEngDiscard (who : Sender) (engine : Nat) (s : State) : Out :=
  if engine < 64 && s.reach who (o_engCtrl engine) then .next (s.engDiscard engine) else .next s

/-! ## Aborts and stops (R406, R424, R425) -/

/-- Every descriptor in progress that names function v ends with the status. -/
def State.dmaAbort (s : State) (v status : Nat) : State :=
  (List.range 64).foldl (fun s e =>
    let x := s.engine e
    if x.st ≠ 0 && x.d.host && x.d.func == v then s.dmaEnd e status else s) s

/-- DISABLE (Table 16-2). -/
def State.qDisable (s : State) (q : Nat) : State :=
  let s := (List.range 64).foldl (fun s e =>
    let x := s.engine e
    if x.st ≠ 0 ∧ x.queue = q then s.dmaEnd e 9 else s) s
  (s.modQueue q (fun x => { x with st := 0, cause := 0 })).dropRecords

def execQmDisable (who : Sender) (s : State) : Out := match s.selected who with
  | some q => .next (s.qDisable q)
  | none => .next s

/-- At quiesce of a compartment its engines park, and its queues halt with CAUSE STOP. -/
def State.dmaQuiesce (s : State) (n : Nat) : State :=
  let s := (List.range 64).foldl (fun s e =>
    if s.eOwner e == some n && (s.engine e).st == 1 then
      ((s.killReads e).withdraw 2 e).modEngine e (fun x => { x with st := 2, sub := 0, issued := x.done })
    else s) s
  { s with qm := { s.qm with queues := s.qm.queues.map (fun p =>
      if s.qOwner p.1 == some n && p.2.st != 0 then (p.1, { p.2 with st := 2, cause := 3 }) else p) } }

/-- A moved engine's parked descriptor ends with ABORT_CHART; the record is written when its COMPLETE queue stays with the
old owner (R425). Called before the assignments change; `stays` says which queues stay. -/
def State.engineMoved (s : State) (e : Nat) (stays : Nat → Bool) : State :=
  let x := s.engine e
  let s := s.setMem { s.mem with dtc := smErase s.mem.dtc e }
  if x.st = 0 then s.setEngine e Engine.reset
  else
    let s := if stays (s.queue x.queue).other then s.dmaRecord e 8 0 0 else s
    (s.killReads e).setEngine e Engine.reset

/-- A moved queue becomes DISABLED with its context zeroed. -/
def State.queueMoved (s : State) (q : Nat) : State := s.setQueue q Queue.reset

/-- QNOTIFY of the queues that name a moved core is cleared. -/
def State.notifyMoved (s : State) (moved : Nat → Bool) : State :=
  { s with qm := { s.qm with queues := s.qm.queues.map (fun p =>
      if p.2.nEn && moved p.2.nCore then (p.1, { p.2 with regs := smPut 0 p.2.regs 0x38 0 }) else p) } }

end Sys2Proof.Machine
end

