-- ==== Sys2Proof/Machine/Net.lean ====
section
/-!
DEFINITION. The vehicle network switch (R429 to R451): the NETSCHED section, the frame path, the internal port, transmission
selection, gates, time, MACsec.
-/
namespace Sys2Proof.Machine

/-! ## The NETSCHED section (R434) -/

/-- A little-endian field of an octet string. -/
def le (o : List Nat) (at_ n : Nat) : Nat := octVal ((o.drop at_).take n)

def netNin (o : List Nat) : Nat := le o 0 2
def netNeg (o : List Nat) : Nat := le o 2 2
def netNgcl (o : List Nat) : Nat := le o 4 2
def netPvid (o : List Nat) : Nat := le o 6 2 % 4096
def netDefPcp (o : List Nat) : Nat := le o 6 2 / 4096 % 8
def netBase (o : List Nat) : Nat := le o 8 8
def netCycle (o : List Nat) : Nat := le o 0x10 4
def netPreempt (o : List Nat) (c : Nat) : Bool := bitOf (le o 0x14 1) c
def netMacsec (o : List Nat) : Bool := bitOf (le o 0x15 1) 0
def netSlope (o : List Nat) (c : Nat) : Nat := le o (0x20 + 8 * c) 4

structure InRule where
  mac : List Nat
  vid : Nat
  bySrc : Bool
  frer : Bool
  toInt : Bool
  stream : Nat
  maxSdu : Nat
  ports : Nat
  cir : Nat
  cbs : Nat
  deriving DecidableEq, Repr

def netIn (o : List Nat) (i : Nat) : InRule :=
  let b := 0x60 + 24 * i
  { mac := (o.drop b).take 6, vid := le o (b + 6) 2 % 4096, bySrc := le o (b + 8) 1 == 1, frer := bitOf (le o (b + 9) 1) 0,
    toInt := bitOf (le o (b + 9) 1) 1, stream := le o (b + 10) 2, maxSdu := le o (b + 12) 2, ports := le o (b + 14) 2,
    cir := le o (b + 16) 4, cbs := le o (b + 20) 2 }

structure EgRule where
  stream : Nat
  tc : Nat
  rtag : Bool
  untagged : Bool
  tag : Nat
  deriving DecidableEq, Repr

def netEg (o : List Nat) (i : Nat) : EgRule :=
  let b := 0x60 + 24 * netNin o + 8 * i
  { stream := le o b 2, tc := le o (b + 2) 1 % 8, rtag := bitOf (le o (b + 3) 1) 0, untagged := bitOf (le o (b + 3) 1) 1,
    tag := le o (b + 4) 2 % 32768 }

def netGates (o : List Nat) : List Gate :=
  (List.range (netNgcl o)).map (fun i =>
    let b := 0x60 + 24 * netNin o + 8 * netNeg o + 8 * i
    { gates := le o b 1, op := le o (b + 1) 1, interval := le o (b + 4) 4 })

/-- The section of a port in force; a port without one has no rules and every gate open. -/
def State.netSec (s : State) (p : Nat) : Option (List Nat) := (s.live.nets.find? (·.1 == p)).map (·.2)

/-! ## Ports and counts -/

def State.modNet (s : State) (f : Net → Net) : State := { s with net := f s.net }
def State.port (s : State) (p : Nat) : NetPort := smGet NetPort.reset s.net.ports p
def State.setPort (s : State) (p : Nat) (x : NetPort) : State := s.modNet (fun n => { n with ports := smPut NetPort.reset n.ports p x })
/-- NSW.PORTSTAT.STATE: 0 OFF, 1 DOWN, 2 UP, 3 SLEEP. -/
def State.portState (s : State) (p : Nat) : Nat := fget (s.ctlGet (o_nswPortstat p)) 31 29
def State.portUp (s : State) (p : Nat) : Bool := s.portState p == 2
/-- The declared MAC rate in Mbit/s. -/
def State.portRate (s : State) (p : Nat) : Nat := smGet 10000 s.board.netRate p

/-- A frame is dropped: counted by port and cause, and by stream (R450, R597). -/
def State.netDrop (s : State) (p cause : Nat) (stream : Option Nat) : State :=
  let k := p * 32 + cause
  let s := s.modNet (fun n => { n with drops := smSet n.drops k (min (smGet 0 n.drops k + 1) (2 ^ 32 - 1)) })
  let s := match stream with
    | some t => if t < 4096 then s.ctlInc (o_nswSdrops t) else s
    | none => s
  if cause ≤ 5 then s.event 7 0x075 landing (stream.bind (fun t => s.ownerOf 5 t)) 0 (cause * 16 + p) 0 else s

def State.streamCount (s : State) (t : Nat) : State := if t < 4096 then s.ctlInc (o_nswSframes t) else s

/-- The Keeper's streams (R436). -/
def State.witnessStream (s : State) : Option Nat := match s.live.pkg with
  | some p => if p.paired then some p.witness else none
  | none => none

/-! ## Time (R445) -/

/-- A 64-bit value as a signed number. -/
def signed64 (v : Nat) : Int := if v < 2 ^ 63 then (v : Int) else (v : Int) - 2 ^ 64
def State.gptp (s : State) : Int :=
  (s.time : Int) + signed64 ((s.ctlGet o_nswToffsetLo).toNat + 2 ^ 32 * (s.ctlGet o_nswToffsetHi).toNat)

/-- NETTIME becomes pending on every core whose compartment owns a stream. -/
def State.netTime (s : State) : State :=
  { s with nettime := (List.range 240).filter (fun k => s.nettime.contains k || (match s.cmpOf k with
      | some n => s.ownsAny n 5
      | none => false)) }

/-- The first cycle start after a time: origin + k × cycle. -/
def nextCycle (base cycle : Nat) (now : Int) : Int :=
  let b : Int := base
  let c : Int := cycle
  if now < b then b else b + ((now - b) / c + 1) * c

/-! ## Egress queues (R432, R433) -/

/-- Octets of a waiting frame on the wire. -/
def NetFrame.wire (f : NetFrame) : Nat := f.left
def qOctets (l : List NetFrame) : Nat := (l.map (·.wire)).foldl (· + ·) 0
def State.enqueue (s : State) (p c : Nat) (f : NetFrame) : State :=
  let x := s.port p
  s.setPort p { x with queues := smSet x.queues c (smGet [] x.queues c ++ [f]) }

/-! ## MACsec (R447) -/

/-- EtherType after the addresses. -/
def etherType (o : List Nat) : Nat := o.getD 12 0 * 256 + o.getD 13 0

/-- Big-endian octets. -/
def beVal (l : List Nat) : Nat := l.foldl (fun a o => a * 256 + o % 256) 0
def beOct (v n : Nat) : List Nat := (valOct v n).reverse

/-- 802.1AS and MKA frames pass in the clear. -/
def macClear (o : List Nat) : Bool := etherType o == 0x88F7 || etherType o == 0x888E

/-- Octets that MACsec adds to a frame of a port with this section: SecTAG with SCI, and ICV. -/
def macExtra (sec : Option (List Nat)) (o : List Nat) : Nat := match sec with
  | some v => if netMacsec v && !macClear o then 32 else 0
  | none => 0
/-- Octets on the wire of a frame that a port sends, FCS included, padded to 64. -/
def State.wireOn (s : State) (p : Nat) (o : List Nat) : Nat := max 64 (o.length + 4 + macExtra (s.netSec p) o)

/-! ### Room for a frame (R433) -/

/-- Octets that an egress queue of a port holds: those of its waiting frames, and of a frame on the wire or pre-empted until it has left. -/
def State.egressHeld (s : State) (p c : Nat) : Nat :=
  let x := s.port p
  let one (e : Option (Nat × NetFrame)) : Nat := match e with
    | some (d, f) => if d = c then s.wireOn p f.octs else 0
    | none => 0
  qOctets (smGet [] x.queues c) + (if s.time < x.curEnd then one x.cur else 0) + one x.part

/-- Octets of the shared pool in use. -/
def State.poolUsed (s : State) : Nat :=
  (s.net.ports.flatMap (fun p => (List.range 8).map (fun c => s.egressHeld p.1 c - 12288))).foldl (· + ·) 0

/-- A frame of w octets may enter the egress queue of a class. -/
def State.egressRoom (s : State) (p c w : Nat) : Bool :=
  let occ := s.egressHeld p c
  decide (occ + w ≤ 262144) &&
    (decide (occ + w ≤ 12288) || decide (s.poolUsed - (occ - 12288) + (occ + w - 12288) ≤ 2326528))

/-- The packet number of a received frame: an extended one is completed from the association's (XPN). -/
def MacSa.fullPn (a : MacSa) (low : Nat) : Nat :=
  if !a.xpn then low
  else
    let hi := a.pn / 2 ^ 32
    if low + 2 ^ 31 < a.pn % 2 ^ 32 then (hi + 1) * 2 ^ 32 + low else hi * 2 ^ 32 + low

def MacSa.iv (a : MacSa) (sci : List Nat) (pn : Nat) : List Nat :=
  if a.xpn then valOct a.salt 12 ++ beOct pn 8 else sci ++ beOct pn 4

/-- A protected frame is verified: the clear frame, or none. SecTAG with SCI: 16 octets; ICV: 16 octets. -/
def State.macReceive (s : State) (p : Nat) (o : List Nat) : State × Option (List Nat) :=
  if etherType o ≠ 0x88E5 ∨ o.length < 12 + 16 + 16 then (s, none)
  else
    let an := o.getD 14 0 % 4
    let low := beVal ((o.drop 16).take 4)
    let sci := (o.drop 20).take 8
    let aad := o.take 28
    let body := (o.drop 28).take (o.length - 44)
    let tag := o.drop (o.length - 16)
    let win := (s.ctlGet (o_nswMswin p)).toNat
    let found := s.net.sas.findSome? (fun a =>
      if a.port = p ∧ a.rx = true ∧ a.an = an then
        let pn := a.fullPn low
        if pn < a.pn then none
        else (Config.gcmDecrypt a.key (a.iv sci pn) aad body tag).map (fun x => (a, pn, x))
      else none)
    match found with
    | none => (s, none)
    | some (a, pn, x) =>
      let s := s.modNet (fun n => { n with sas := n.sas.map (fun b => if b = a then { a with pn := max a.pn (pn + 1 - win) } else b) })
      (s, some (o.take 12 ++ x))

/-- The transmit association in use. -/
def State.macTx (s : State) (p : Nat) : Option MacSa := s.net.sas.find? (fun a => a.port == p && !a.rx && a.active)
def MacSa.limit (a : MacSa) : Nat := if a.xpn then 2 ^ 64 - 1 else 2 ^ 32 - 1

/-- A frame is protected for its port. -/
def State.macProtect (s : State) (p : Nat) (a : MacSa) (o : List Nat) : State × List Nat :=
  let sci := Config.sci p
  let sectag := beOct 0x88E5 2 ++ [0x2C + a.an, 0] ++ beOct (a.pn % 2 ^ 32) 4 ++ sci
  let x := Config.gcmEncrypt a.key (a.iv sci a.pn) (o.take 12 ++ sectag) (o.drop 12)
  (s.modNet (fun n => { n with sas := n.sas.map (fun b => if b = a then { a with pn := a.pn + 1 } else b) }), o.take 12 ++ sectag ++ x)

/-- MSCMD.INSTALL: the staged key becomes the association named, and the staged registers are cleared. A channel keeps two. -/
def State.macInstall (s : State) (p : Nat) (cmd : Reg32) : State :=
  let word (f : Nat → Nat) (n : Nat) : Nat := (List.range n).foldl (fun v i => v + (s.ctlGet (f i)).toNat * 2 ^ (32 * i)) 0
  let rx := fbit cmd 29
  let sc := if rx then fget cmd 28 27 else 0
  let an := fget cmd 26 25
  let a : MacSa := { port := p, rx := rx, sc := sc, an := an, xpn := fbit cmd 30, key := word (o_nswMskey p) 8,
                     salt := word (o_nswMssalt p) 3, pn := (s.ctlGet (o_nswMspn p)).toNat, active := !rx && fbit cmd 24 }
  let mine (b : MacSa) : Bool := b.port == p && b.rx == rx && b.sc == sc
  let s := s.modNet (fun n =>
    let others := n.sas.filter (fun b => !mine b)
    let kept := n.sas.filter (fun b => mine b && b.an != an)
    let kept := if 2 ≤ kept.length then kept.drop (kept.length - 1) else kept
    let kept := if a.active then kept.map (fun b => { b with active := false }) else kept
    { n with sas := others ++ kept ++ [a] })
  let s := (List.range 8).foldl (fun s i => s.ctlSet (o_nswMskey p i) 0) s
  ((List.range 3).foldl (fun s i => s.ctlSet (o_nswMssalt p i) 0) s).ctlSet (o_nswMspn p) 0

/-- A write of MSCMD with INSTALL 1: the RW fields are kept, and the association installed. -/
def execMacsecInstall (who : Sender) (port : Nat) (cmd : BitVec 32) (s : State) : Out :=
  if port < 16 && s.reach who (o_nswMscmd port) then
    .next ((s.macInstall port cmd).ctlSet (o_nswMscmd port) (cmd &&& 0x7F000000))
  else .next s

/-! ## Tags of a frame -/

/-- What the ingress stages learn of a frame: its tag's PCP and VID, whether it has a VLAN tag, its sequence number, and the
frame without VLAN tag and R-TAG. -/
structure Parsed where
  pcp : Nat
  vid : Nat
  seq : Option Nat
  bare : List Nat
  deriving DecidableEq, Repr

/-- VLAN (stage 3 of R431) and the R-TAG of 802.1CB. -/
def parseTags (pvid defPcp : Nat) (o : List Nat) : Parsed :=
  let tagged := etherType o == 0x8100
  let tci := o.getD 14 0 * 256 + o.getD 15 0
  let vid := if tagged ∧ tci % 4096 ≠ 0 then tci % 4096 else pvid
  let pcp := if tagged then tci / 8192 % 8 else defPcp
  let o1 := if tagged then o.take 12 ++ o.drop 16 else o
  if etherType o1 = 0xF1C1 then
    { pcp := pcp, vid := vid, seq := some (o1.getD 16 0 * 256 + o1.getD 17 0), bare := o1.take 12 ++ o1.drop 18 }
  else { pcp := pcp, vid := vid, seq := none, bare := o1 }

/-- The first ingress rule that matches. -/
def findRule (sec o : List Nat) (vid : Nat) : Option (Nat × InRule) :=
  (List.range (netNin sec)).findSome? (fun i =>
    let r := netIn sec i
    let mac := if r.bySrc then (o.drop 6).take 6 else o.take 6
    if mac = r.mac ∧ vid = r.vid then some (i, r) else none)

/-! ## Meter and sequence recovery (stage 5) -/

/-- The flow meter of a rule: the frame is green when the bucket holds its octets. -/
def State.meter (s : State) (key cir cbs len : Nat) : State × Bool :=
  if cir = 0 then (s, true)
  else
    let m := smGet (0, 0) s.net.meters key
    let short := m.1 - cir * (s.time - m.2)
    let cost := len * 8000000
    if short + cost ≤ cbs * 8000000 then (s.modNet (fun n => { n with meters := smSet n.meters key (short + cost, s.time) }), true)
    else (s.modNet (fun n => { n with meters := smSet n.meters key (short, s.time) }), false)

/-- The vector recovery algorithm with history 32: whether the frame is taken. -/
def State.recover (s : State) (stream : Nat) (seq : Option Nat) : State × Bool :=
  match seq with
  | none => (s, false)
  | some q =>
    let put (r : Recovery) : State := s.modNet (fun n => { n with recovery := smSet n.recovery stream r })
    match smFind? s.net.recovery stream with
    | none => (put { last := q, hist := 1 }, true)
    | some r =>
      let d := (q + 65536 - r.last) % 65536
      if d = 0 ∨ 32768 ≤ d then
        let back := (65536 - d) % 65536
        if 32 ≤ back ∨ bitOf r.hist back then (s, false) else (put { r with hist := r.hist + 2 ^ back }, true)
      else if 32 ≤ d then (s, false)
      else (put { last := q, hist := (r.hist * 2 ^ d + 1) % 2 ^ 32 }, true)

/-! ## Delivery to a NETIN queue (R437 to R441) -/

/-- The enabled queue of a kind that names a stream. -/
def State.streamQueue (s : State) (kind stream : Nat) : Option Nat :=
  (s.qm.queues.find? (fun e => e.2.st != 0 && e.2.kind == kind && e.2.other == stream)).map (·.1)

/-- Words 3 to 7 of a NETIN or NETOUT entry. -/
def State.entryDone (s : State) (own : Option Nat) (pa status outlen : Nat) (ts : Int) (w6 seq : Nat) : State :=
  let t := (ts % 2 ^ 64).toNat
  s.inWrite own (pa + 12) (wordsBytes [status * 2 ^ 32 + outlen % 2 ^ 32, t % 2 ^ 36, t / 2 ^ 36, w6, seq]) 2 false

/-- The units of a delivery: the lines of the buffer, the entry and the shadow word. -/
def State.netUnits (s : State) (stream buf len : Nat) (entry shadow : Nat) : List HeldReq :=
  (List.range ((len + 63) / 64)).map (fun i => s.reqFor 5 stream (buf + 64 * i) true) ++
    [s.reqFor 5 stream entry true, s.reqFor 5 stream shadow true]

/-- The shaper's answer to several units taken together: the class, or none when they are held. -/
def State.shapeAll (s : State) (l : List HeldReq) : State × Option Nat :=
  let r := l.foldl (fun (a : State × Option Nat) q => match a.2 with
    | none => a
    | some c => match a.1.shape q with
      | (t, .accept d) => (t, some (max c d))
      | (t, .hold) => (t, none)) (s, some 0)
  match r.2 with
  | some 2 => (s, some 2)
  | some c => (r.1, some c)
  | none => (s, none)

/-- A frame is offered to the entries of its NETIN queue: entries with a bad buffer end with BADBUF and take none. -/
def State.netDeliver (s : State) (p stream q : Nat) (f : Parsed) (ts : Int) : Nat → State
  | 0 => s.netDrop p 10 (some stream)
  | n + 1 =>
    let x := s.queue q
    let own := s.qOwner q
    if x.full then s.netDrop p 10 (some stream)
    else
      let pa := x.entryAt
      if s.mem.poisoned (lineOf pa) then s.netDrop p 11 (some stream)
      else
        let buf := s.mem.read pa 4 + 2 ^ 36 * (s.mem.read (pa + 4) 4 % 64)
        let cap := s.mem.read (pa + 8) 4
        let dense := x.pack == 2
        let okBuf : Bool := buf % 64 == 0 && s.mem.read (pa + 4) 4 < 64 && (match own with
          | some c => s.ownsRange c buf (packedLen dense cap) && !s.inMftBuf c buf
          | none => false)
        if !okBuf then ((s.entryDone own pa 1 0 0 0 0).moveDev q (x.dev + 1)).netDeliver p stream q f ts n
        else if cap < f.bare.length then s.netDrop p 11 (some stream)
        else
          let len := packedLen dense f.bare.length
          match s.shapeAll (s.netUnits stream buf len pa x.shadow) with
          | (s, none) => s.netDrop p 9 (some stream)
          | (s, some cls) =>
            let b := s.mem.packed dense buf 0 f.bare
            let s := s.inWrite own b.1 b.2 2 false
            let s := s.entryDone own pa (if cls = 2 then 5 else 0) f.bare.length ts (p * 2 ^ 16 + f.pcp * 2 ^ 12 + f.vid) (f.seq.getD 0)
            (s.moveDev q (x.dev + 1)).streamCount stream

/-- Delivery to the internal port. -/
def State.toInternal (s : State) (p stream : Nat) (f : Parsed) (ts : Int) : State :=
  if s.witnessStream.map (· + 1) = some stream then s.modNet (fun n => { n with keeper := n.keeper ++ [f.bare] })
  else
    let running : Bool := match s.ownerOf 5 stream with
      | some n => s.serving n
      | none => false
    match s.streamQueue 5 stream with
    | some q => if running then s.netDeliver p stream q f ts ((s.queue q).size + 1) else s.netDrop p 12 (some stream)
    | none => s.netDrop p 12 (some stream)

/-- Forwarding of a copy to one port (R432). -/
def State.forward (s : State) (q c : Nat) (o : List Nat) (stream : Option Nat) : State :=
  let f : NetFrame := { octs := o, left := s.wireOn q o, ent := none, stream := stream }
  if !s.portUp q then s.netDrop q 14 stream
  else if s.egressRoom q c f.wire then s.enqueue q c f
  else s.netDrop q 13 stream

/-! ## The frame path (R431) -/

/-- Stages 5 and 6 for a frame whose rule is known. -/
def State.ruled (s : State) (p i : Nat) (r : InRule) (o : List Nat) (f : Parsed) (ts : Int) : State :=
  let st : Option Nat := if r.stream = 0xFFFF then none else some r.stream
  let len := max 64 (o.length + 4)
  let s1 : State × Option Nat := match st with
    | none => (s, none)
    | some t =>
      if (if r.maxSdu = 0 then 9216 else r.maxSdu) < len then (s, some 3)
      else match s.meter (p * 1024 + i) r.cir r.cbs len with
        | (s, false) => (s, some 7)
        | (s, true) => if r.frer then (match s.recover t f.seq with
            | (s, true) => (s, none)
            | (s, false) => (s, some 8)) else (s, none)
  match s1 with
  | (s, some cause) => s.netDrop p cause st
  | (s, none) =>
    let s := match st with
      | some t => if r.toInt then s.toInternal p t f ts else s
      | none => s
    ((List.range 16).filter (fun q => q != p && bitOf r.ports q)).foldl (fun s q => s.forward q f.pcp o st) s

/-- A frame received on a port: octets from the destination address to the last before the FCS; whether the FCS is good and
the fragments in order; gPTP time of its first octet; octets of the ingress reserve in use when it arrived. -/
def execFrameReceive (port : Nat) (octs : List Nat) (fcs frag : Bool) (busy : Nat) (s : State) : Out :=
  if 16 ≤ port ∨ !s.portUp port then .next s
  else
    let o := octs.map (· % 256)
    let len := o.length + 4
    let ts := s.gptp
    if 18432 < busy + 9216 then .next (s.netDrop port 15 none)
    else if !fcs then .next (s.netDrop port 1 none)
    else if len < 64 then .next (s.netDrop port 2 none)
    else if 9216 < len then .next (s.netDrop port 3 none)
    else if !frag then .next (s.netDrop port 4 none)
    else match s.netSec port with
      | none => .next (s.netDrop port 6 none)
      | some sec =>
        let clear : State × Option (List Nat) :=
          if netMacsec sec && !macClear o then s.macReceive port o else (s, some o)
        match clear with
        | (s, none) => .next (s.netDrop port 5 none)
        | (s, some o) =>
          let f := parseTags (netPvid sec) (netDefPcp sec) o
          match findRule sec o f.vid with
          | none => .next (s.netDrop port 6 none)
          | some (i, r) => .next (s.ruled port i r o f ts)

/-! ## NETOUT (R439, R442) -/

/-- The port and rule of an egress stream. -/
def State.egressOf (s : State) (stream : Nat) : Option (Nat × List Nat × EgRule) :=
  s.live.nets.findSome? (fun e =>
    ((List.range (netNeg e.2)).map (netEg e.2)).findSome? (fun r => if r.stream = stream then some (e.1, e.2, r) else none))

/-- Entries of a NETOUT queue whose frames wait in an egress queue. -/
def State.outWaiting (s : State) (q : Nat) : Nat :=
  (s.net.ports.flatMap (fun p => p.2.queues.flatMap (fun c => c.2.filter (fun f => match f.ent with
    | some e => e.1 == q
    | none => false)))).length

/-- An entry of a NETOUT queue ends without a frame: words 3 to 7, then CI. -/
def State.outEnd (s : State) (q pa status : Nat) (seq : Nat) : State :=
  ((s.entryDone (s.qOwner q) pa status 0 s.gptp 0 seq)).moveDev q ((s.queue q).dev + 1)

/-- The octets of an outgoing frame, with the fields its rule inserts; one that would be shorter than 64 octets on the wire, with
the octets that MACsec adds, is padded (R438). -/
def buildFrame (r : EgRule) (seq mac : Nat) (o : List Nat) : List Nat :=
  let vlan := if r.untagged then [] else beOct 0x8100 2 ++ beOct (r.tag / 4096 * 8192 + r.tag % 4096) 2
  let rt := if r.rtag then beOct 0xF1C1 2 ++ [0, 0] ++ beOct seq 2 else []
  let f := o.take 12 ++ vlan ++ rt ++ o.drop 12
  f ++ List.replicate (60 - mac - f.length) 0

/-- The next entry of a NETOUT queue is accepted and its frame placed in its class's egress queue; an entry that cannot be
sent ends with its status once earlier ones have ended. A dense buffer must start on a multiple of 8 bytes (R238); the spec names no
STATUS for one that does not, and the model reports BADBUF (DESIGN CHOICE, log entry 111). -/
def execEgressDequeue (queue : Nat) (s : State) : Out :=
  let q := queue % 65536
  let x := s.queue q
  let waiting := s.outWaiting q
  if x.st ≠ 1 ∨ x.kind ≠ 6 ∨ x.held ≤ waiting then .next s
  else
    let pa := x.base + 64 * ((x.dev + waiting) % x.size)
    if s.mem.poisoned (lineOf pa) then .next (if waiting = 0 then s.ringPoison q none (some 6) false else s)
    else match s.egressOf x.other with
      | none => .next s
      | some (p, sec, r) =>
        let buf := s.mem.read pa 4 + 2 ^ 36 * (s.mem.read (pa + 4) 4 % 64)
        let len := s.mem.read (pa + 8) 4
        let dense := x.pack == 2
        let mac := macExtra (some sec) (buildFrame r 0 0 (s.mem.octets dense buf 0 14))
        let w := max 64 (len + (if r.untagged then 0 else 4) + (if r.rtag then 6 else 0) + 4 + mac)
        let n := packedLen dense len
        let own := s.qOwner q
        let okBuf : Bool := decide (12 ≤ len) && (!dense || buf % 8 == 0) && (match own with
          | some c => s.ownsRange c buf n
          | none => false)
        let bad (st : Nat) : Out := .next (if waiting = 0 then s.outEnd q pa st 0 else s)
        if 9216 < w ∨ 9200 < len then bad 2
        else if !s.portUp p then bad 3
        else if !okBuf then bad 1
        else if ((List.range (n / 64 + 2)).any (fun i => decide (64 * i < n + buf % 64) && s.mem.poisoned (lineOf buf + i))) then
          (if waiting = 0 then .next ((s.event 4 0x038 landing own buf 6 0).outEnd q pa 4 0) else .next s)
        else if !s.egressRoom p r.tc w then .next s
        else
          let unit (i : Nat) : HeldReq :=
            { srcKind := 7, item := q, target := 5, tgtIndex := p, write := false, items := [], line := i }
          match s.shapeAll ((List.range ((w + 63) / 64)).map unit) with
          | (s, none) => .next s
          | (s, some _) =>
            let seq := smGet 0 s.net.seqs x.other
            let s := if r.rtag then s.modNet (fun m => { m with seqs := smSet m.seqs x.other ((seq + 1) % 65536) }) else s
            let o := buildFrame r seq mac (s.mem.octets dense buf 0 len)
            .next (s.enqueue p r.tc { octs := o, left := w, ent := some (q, pa, x.other, if r.rtag then seq else 0),
                                         stream := some x.other })

/-! ## Transmission selection (R443) -/

/-- Nanoseconds that n octets and the gap of 20 octets take. -/
def State.wireTime (s : State) (p n : Nat) : Nat :=
  let r := max 1 (s.portRate p)
  ((n + 20) * 8000 + r - 1) / r

/-- The gate of a class is open. -/
def NetPort.isOpen (x : NetPort) (c : Nat) : Bool := match x.list[x.gate]? with
  | some g => bitOf g.gates c
  | none => true

/-- The entry that follows the one in force. -/
def NetPort.succ (x : NetPort) : Nat := if x.last then 0 else (x.gate + 1) % x.list.length

/-- Nanoseconds until the gate of an open class closes; none: it does not close within a cycle. -/
def NetPort.untilClose (x : NetPort) (c : Nat) (now : Int) : Option Nat :=
  let n := x.list.length
  if n = 0 then none
  else
    let rec_ := (List.range n).foldl (fun (a : Nat × Bool) i =>
      if a.2 then a
      else match x.list[(x.succ + i) % n]? with
        | some g => if bitOf g.gates c then (a.1 + g.interval, false) else (a.1, true)
        | none => a) ((x.gateEnd - now).toNat, false)
    if rec_.2 then some rec_.1 else none

/-- Credits brought up to now: a waiting class gains its slope while its gate is open; an empty one keeps no positive credit. -/
def State.credits (s : State) (p : Nat) (sec : Option (List Nat)) : SMap Int :=
  let x := s.port p
  (List.range 8).foldl (fun (m : SMap Int) c =>
    let slope : Int := match sec with
      | some o => netSlope o c
      | none => 0
    if slope = 0 then m
    else
      let v := smGet 0 m c
      let waits : Bool := !(smGet [] x.queues c).isEmpty
      let v := if x.isOpen c then v + slope * ((s.time - x.creditAt : Nat) : Int) else v
      let v := if !waits && decide (0 < v) then 0 else v
      smPut 0 m c v) x.credit

/-- The sent frame of an entry is reported: words 3 to 7, then CI (R439). -/
def State.outSent (s : State) (f : NetFrame) : State := match f.ent with
  | none => s
  | some (q, pa, stream, seq) =>
    if (s.queue q).st = 0 then s else (s.outEnd q pa 0 seq).streamCount stream

/-- A waiting frame is dropped as MACSEC: counted, and its entry ended with a STATUS that the spec does not give (log entry 95). -/
def State.macDrop (s : State) (p : Nat) (f : NetFrame) : State :=
  let s := s.netDrop p 5 f.stream
  match f.ent with
  | none => s
  | some (q, pa, stream, seq) => if (s.queue q).st = 0 then s else s.outEnd q pa (Config.netoutDropStatus stream % 16) seq

/-- A transmit packet number has reached its limit: PNEXH, and the waiting frames that would be protected are dropped (R447). -/
def State.macStop (s : State) (p : Nat) : State :=
  let x := s.port p
  let gone := x.queues.flatMap (fun e => e.2.filter (fun f => !macClear f.octs))
  let kept := (x.queues.map (fun e => (e.1, e.2.filter (fun f => macClear f.octs)))).filter (fun e => !e.2.isEmpty)
  let s := (s.setPort p { x with queues := kept }).ctlMod (o_nswPortstat p) (fun v => fone v 26 true)
  gone.foldl (fun s f => s.macDrop p f) (s.event 8 0x074 landing none 0 p 0)

/-- The frame leaves the port: protected when the port has MACsec; a port whose packet numbers are used up drops it. -/
def State.putOnWire (s : State) (p c : Nat) (f : NetFrame) (sec : Option (List Nat)) : State :=
  let mac : Bool := match sec with
    | some o => netMacsec o && !macClear f.octs
    | none => false
  let go (s : State) (o : List Nat) : State :=
    let n := max 64 (o.length + 4)
    let d := s.wireTime p n
    let x := s.port p
    let slope : Int := match sec with
      | some v => netSlope v c
      | none => 0
    let credit : SMap Int := if slope = 0 then x.credit
      else smPut 0 x.credit c (smGet 0 x.credit c - ((s.portRate p * 1000 : Nat) : Int) * (d : Int))
    let s := s.setPort p { x with cur := some (c, { f with left := n }), curStart := s.time, curEnd := s.time + d, credit := credit }
    (s.emit (.frame p o)).outSent f
  if !mac then go s f.octs
  else match s.macTx p with
    | none => s.macDrop p f
    | some a =>
      if a.limit ≤ a.pn then
        let s := s.macDrop p f
        if fbit (s.ctlGet (o_nswPortstat p)) 26 then s else s.macStop p
      else
        let (s, o) := s.macProtect p a f.octs
        let s := go s o
        if a.limit ≤ a.pn + 1 then s.macStop p else s

/-- A preemptable frame on the wire gives way at a fragment boundary to an express one. -/
def State.preemptCur (s : State) (p : Nat) : State :=
  let x := s.port p
  match x.cur with
  | none => s
  | some (c, f) =>
    let sent := ((s.time - x.curStart) * s.portRate p / 8000 + 63) / 64 * 64
    if f.left ≤ sent + 64 then s
    else s.setPort p { x with cur := none, curEnd := x.curStart + sent * 8000 / max 1 (s.portRate p), part := some (c, { f with left := f.left - sent }) }

/-- The classes that may start a frame now, highest first. -/
def State.eligible (s : State) (p : Nat) (sec : Option (List Nat)) : List Nat :=
  let x := s.port p
  let pre (c : Nat) : Bool := match sec with
    | some o => netPreempt o c
    | none => false
  let slope (c : Nat) : Nat := match sec with
    | some o => netSlope o c
    | none => 0
  (List.range 8).reverse.filter (fun c =>
    match smGet [] x.queues c with
    | [] => false
    | f :: _ =>
      x.isOpen c && (slope c == 0 || decide (0 ≤ smGet 0 x.credit c)) && !(pre c && (x.hold || x.part.isSome)) &&
      (match x.untilClose c s.gptp with
        | some t => decide (s.wireTime p f.wire ≤ t)
        | none => true))

/-- A port chooses and starts its next frame. -/
def State.select (s : State) (p : Nat) : State :=
  let sec := s.netSec p
  let x := s.port p
  let s := s.setPort p { x with credit := s.credits p sec, creditAt := s.time }
  let pre (c : Nat) : Bool := match sec with
    | some o => netPreempt o c
    | none => false
  let busy : Bool := decide (s.time < x.curEnd)
  let express := (s.eligible p sec).filter (fun c => !pre c)
  let start (s : State) (c : Nat) : State :=
    let x := s.port p
    match smGet [] x.queues c with
    | [] => s
    | f :: rest => (s.setPort p { x with queues := smPut [] x.queues c rest }).putOnWire p c f sec
  if busy then
    match x.cur with
    | some (c, _) =>
      if !pre c then s
      else match express with
        | e :: _ =>
          let t := s.preemptCur p
          if (t.port p).part.isSome then start t e else s
        | [] => if x.hold then s.preemptCur p else s
    | none => s
  else
    match s.eligible p sec with
    | c :: _ => start s c
    | [] => match x.part with
      | some (c, f) =>
        let fits : Bool := match x.untilClose c s.gptp with
          | some t => decide (s.wireTime p f.left ≤ t)
          | none => true
        if x.hold || !x.isOpen c || !fits then s
        else
          let y := s.port p
          s.setPort p { y with part := none, cur := some (c, f), curStart := s.time, curEnd := s.time + s.wireTime p f.left }
      | none => s

def execTransmissionSelection (port : Nat) (s : State) : Out :=
  if port < 16 && s.portUp port then .next (s.select port) else .next s

/-! ## Gates (R444, R446) -/

def NetPort.setGate (x : NetPort) (i : Nat) (until_ : Int) : NetPort :=
  let hold := match x.list[i]? with
    | some g => if g.op = 1 then true else if g.op = 2 then false else x.hold
    | none => x.hold
  { x with gate := i, gateEnd := until_, last := false, hold := hold }

/-- A port's section is committed: its list begins at its first cycle start (R444). -/
def State.netLoad (s : State) (p : Nat) : State :=
  let x := s.port p
  match s.netSec p with
  | none => s.setPort p { x with list := [], cycle := 0, next := none, gate := 0, last := false, hold := false }
  | some o =>
    if netCycle o = 0 then s.setPort p { x with list := [], cycle := 0, next := none, gate := 0, last := false, hold := false }
    else s.setPort p { x with next := some (netBase o, netCycle o, nextCycle (netBase o) (netCycle o) s.gptp, netGates o) }

/-- The interval of the entry in force has expired: the next takes effect. -/
def execGateEntry (port : Nat) (s : State) : Out :=
  if 16 ≤ port then .next s
  else
    let x := s.port port
    match x.next with
    | some (b, c, t, l) =>
      if t ≤ s.gptp then
        let x := { x with list := l, base := b, cycle := c, next := none }
        .next (s.setPort port (x.setGate 0 (t + ((match l with | g :: _ => g.interval | [] => 0 : Nat) : Int))))
      else if x.list.isEmpty ∨ s.gptp < x.gateEnd then .next s
      else
        let i := x.succ
        let d : Nat := match x.list[i]? with | some g => g.interval | none => 0
        .next (s.setPort port (x.setGate i (x.gateEnd + (d : Int))))
    | none =>
      if x.list.isEmpty ∨ s.gptp < x.gateEnd then .next s
      else
        let i := x.succ
        let d : Nat := match x.list[i]? with | some g => g.interval | none => 0
        .next (s.setPort port (x.setGate i (x.gateEnd + (d : Int))))

/-- The Keeper writes NSW.TOFFSET: gate cycles end at their recomputed end, and NETTIME becomes pending. -/
def execToffsetWrite (value : Nat) (s : State) : Out :=
  let s := (s.ctlSet o_nswToffsetLo (r32 value)).ctlSet o_nswToffsetHi (r32 (value / 2 ^ 32))
  let s := (List.range 16).foldl (fun s p =>
    let x := s.port p
    let x := { x with next := x.next.map (fun e => (e.1, e.2.1, nextCycle e.1 e.2.1 s.gptp, e.2.2.2)) }
    if x.list.isEmpty then s.setPort p x
    else s.setPort p { x with gateEnd := nextCycle x.base x.cycle s.gptp, last := true }) s
  .next s.netTime

/-- NSW.STATUS.SYNCED changes. -/
def execSyncedChange (synced : Bool) (s : State) : Out :=
  if fbit (s.ctlGet o_nswStatus) 30 = synced then .next s
  else .next (s.ctlMod o_nswStatus (fun v => fone v 30 synced)).netTime

/-- A core's read of NSW.TEVENT ends its NETTIME. -/
def State.teventRead (s : State) (k : Nat) : State := { s with nettime := s.nettime.filter (· != k) }
def execTeventRead (core : Nat) (s : State) : Out :=
  if s.reach (.core core) o_nswTevent ∨ s.reach (.core core) (o_nswTevent + 0x8000) then .next (s.teventRead core) else .next s

/-! ## Links (R429, R451) -/

/-- NETOUT entries whose frames wait for a port that has gone down end with LINKDOWN. -/
def State.linkDrop (s : State) (p : Nat) : State :=
  let x := s.port p
  let waiting : List (Nat × Nat × Nat × Nat) := x.queues.flatMap (fun e => e.2.filterMap (·.ent))
  let s := match x.cur with
    | some (_, f) => if s.time < x.curEnd then s.netDrop p 14 f.stream else s
    | none => s
  let s := match x.part with
    | some (_, f) => s.netDrop p 14 f.stream
    | none => s
  let s := s.setPort p { s.port p with cur := none, part := none, curEnd := 0,
                                       queues := (x.queues.map (fun e => (e.1, e.2.filter (·.ent.isNone)))).filter (fun e => !e.2.isEmpty) }
  waiting.foldl (fun (s : State) e => if (s.queue e.1).st = 0 then s else s.outEnd e.1 e.2.1 3 0) s

/-- An external port goes up or down as its PHY reports; it stays down at another rate than the declared one. -/
def execPortLinkChange (port : Nat) (up : Bool) (rate : Nat) (s : State) : Out :=
  if 16 ≤ port ∨ s.portRate port = 0 then .next s
  else
    let st : Nat := if up && rate == s.portRate port then 2 else 1
    let was := s.portState port
    let s := s.ctlMod (o_nswPortstat port) (fun v =>
      let v := fone (fset v 31 29 st) 28 (fbit v 28 || (up && rate != s.portRate port))
      let preempt : Bool := match s.netSec port with
        | some o => le o 0x14 1 != 0 && bitOf (le o 0x15 1) 3
        | none => false
      fone v 25 (st == 2 && preempt))
    let s := if was = 2 ∧ st ≠ 2 then s.linkDrop port else s
    .next (if was = st then s else s.event 0 0x073 landing none 0 (st * 256 + port) 0)

end Sys2Proof.Machine
end

