-- ==== Sys2Proof/Machine/Host.lean ====
section
/-!
DEFINITION. The host endpoint (R452 to R477): windows, requests from the host and from the engines, interrupts, doorbells,
resets of functions and of the link. A data function is numbered v (0 PF1, v VF v); among all functions it is 1 + v.
-/
namespace Sys2Proof.Machine

/-! ## Error reports (R476) -/

/-- A status bit of configuration space is set. -/
def State.cfgOne (s : State) (fn off bit : Nat) : State :=
  if s.cfgBit fn off bit then s else s.setCfg fn off (s.cfg fn off + 2 ^ bit)

/-- An error message of a severity (0 correctable, 1 non-fatal, 2 fatal), as Device Control and SERR# Enable allow. -/
def State.errMsg (s : State) (fn sev : Nat) (ur : Bool) : State :=
  let serr : Bool := s.cfgBit fn 0x04 8 && sev != 0
  let on : Bool := s.cfgBit fn 0x78 sev && (!ur || s.cfgBit fn 0x78 3)
  if serr || on then (if serr then s.cfgOne fn 0x04 30 else s).emit (.err fn sev) else s

/-- A correctable error: AER's status, Device Status, and the message. -/
def State.aerCor (s : State) (fn bit : Nat) : State :=
  let s := (s.cfgOne fn 0x110 bit).cfgOne fn 0x78 16
  if s.cfgBit fn 0x114 bit then s else s.errMsg fn 0 false

/-- The first unmasked error: its pointer, and the header of its TLP when it has one. -/
def State.aerFirst (s : State) (fn bit : Nat) : State :=
  let s := s.setCfg fn 0x118 (s.cfg fn 0x118 / 32 * 32 + bit)
  if bit = 14 then s
  else
    let n := s.hep.hdr
    let s := (List.range 4).foldl (fun s i => s.setCfg fn (0x11C + 4 * i) (Config.tlpHeader n i).toNat) s
    s.modHep (fun h => { h with hdr := n + 1 })

/-- An uncorrectable error of a function: AER's status, the first error's pointer and header log, Device Status, and the message
of its severity; an advisory one that is non-fatal is reported as correctable. -/
def State.aer (s : State) (fn : Nat) (advisory : Bool) (bit : Nat) : State :=
  let masked := s.cfgBit fn 0x108 bit
  let held := s.cfgBit fn 0x104 (s.cfg fn 0x118 % 32)
  let ur := bit == 20
  let s := s.cfgOne fn 0x104 bit
  let s := if masked || held then s else s.aerFirst fn bit
  let s := if ur then s.cfgOne fn 0x78 19 else s
  let tell (s : State) (sev : Nat) : State := if masked then s else s.errMsg fn sev ur
  if s.cfgBit fn 0x10C bit then tell (s.cfgOne fn 0x78 18) 2
  else if advisory then
    let s := (s.cfgOne fn 0x110 13).cfgOne fn 0x78 16
    if s.cfgBit fn 0x114 13 then s else tell s 0
  else tell (s.cfgOne fn 0x78 17) 1

/-- A received TLP that cannot be used: with EP set, with an ECRC mismatch, or malformed; or an error of the flow-control or data link
protocol, which no function owns and which is logged and counted for PF0 in the row of malformed TLPs. -/
def State.tlpError (s : State) (fn : Nat) : TlpErr → State
  | .none => s
  | .poisoned => ((s.cfgOne fn 0x04 31).aer fn false 12).hepCount 4 fn
  | .ecrc => (s.aer fn false 19).hepCount 8 fn
  | .malformed => (s.aer fn false 18).hepCount 3 fn
  | .flowControl => (s.aer 0 false 13).hepCount 3 0
  | .dataLink => (s.aer 0 false 4).hepCount 3 0

/-- The error of a received TLP as the function sees it: ECRC is checked when the host enables it (R476). -/
def State.seen (s : State) (fn : Nat) (err : TlpErr) : TlpErr := if err == .ecrc && !s.cfgBit fn 0x118 8 then .none else err

/-- Unsupported Request, for a write to a closed window. -/
def State.closedWrite (s : State) (fn : Nat) : State := (s.aer fn false 20).hepCount 1 fn

/-! ## The window table (R459 to R464) -/

def winKey (v w : Nat) : Nat := v * 256 + w
def State.win (s : State) (v w : Nat) : Win := smGet ⟨0, 0⟩ s.hep.wins (winKey v w)
def Win.en (w : Win) : Bool := fbit w.cfg 31
def Win.bell (w : Win) : Bool := fbit w.cfg 30
def Win.pack (w : Win) : Nat := fget w.cfg 29 28
def Win.cls (w : Win) : Nat := fget w.cfg 27 26
def Win.rd (w : Win) : Bool := fbit w.cfg 25
def Win.wr (w : Win) : Bool := fbit w.cfg 24
def Win.octets (w : Win) : Nat := (fget w.cfg 15 0 + 1) * 4096
def Win.base (w : Win) : Nat := w.tgt * 4096

/-- The owner of a data function. -/
def State.fOwner (s : State) (v : Nat) : Option Nat := s.ownerOf 6 v

/-- A function is open: owned by a RUNNING compartment, with memory space enabled and no reset in progress (R464). -/
def State.fnOpen (s : State) (v : Nat) : Bool :=
  (match s.fOwner v with
    | some n => s.serving n
    | none => false) && s.mse (1 + v) && !s.inFlr (1 + v) && fbit (s.ctlGet o_hepStatus) 30

/-- The window is open at an octet offset, and still lies in memory of the function's owner. -/
def State.winOpen (s : State) (v w off len : Nat) : Bool :=
  let x := s.win v w
  s.fnOpen v && x.en && decide (off + len ≤ x.octets) && (x.bell || (match s.fOwner v with
    | some n => s.ownsRange n x.base (packedLen (x.pack == 2) x.octets)
    | none => false))

/-- The entry may be committed (R460): no reserved value; an owner; a MEM target within the owner's memory. -/
def State.winOk (s : State) (v : Nat) (tgt : Nat) (cfg : Reg32) : Bool :=
  let x : Win := { cfg := cfg, tgt := tgt }
  let mem : Bool := x.en && !x.bell
  x.cls != 3 && (!mem || x.pack == 1 || x.pack == 2) && (!x.bell || !x.en || (tgt == 0 && fget cfg 15 0 == 0)) &&
    (match s.fOwner v with
      | none => false
      | some n => !mem || s.ownsRange n x.base (packedLen (x.pack == 2) x.octets))

def State.hepWrej (s : State) : State := s.ctlMod o_hepStatus (fun v => fone v 31 true)

/-- A write of WSEL (R461): a compartment selects entries of its own functions only. -/
def State.wselWrite (s : State) (w v win : Nat) : State :=
  if w = 32 || s.fOwner v == some w then s.modHep (fun h => { h with wsel := smSet h.wsel w (winKey (v % 32) (win % 256)) })
  else s.hepWrej

/-- A write of WCFG commits it with the staged WTGT, or is refused (R460). -/
def State.wcfgWrite (s : State) (w : Nat) (cfg : Reg32) : State :=
  let key := smGet 0 s.hep.wsel w
  let v := key / 256
  let tgt := smGet 0 s.hep.wtgt w
  let cfg := cfg &&& 0xFF00FFFF
  if (w = 32 || s.fOwner v == some w) && s.winOk v tgt cfg then
    s.modHep (fun h => { h with wins := smPut ⟨0, 0⟩ h.wins key ⟨cfg, tgt⟩ })
  else s.hepWrej

def execHepWselWrite (who : Sender) (fn win : Nat) (s : State) : Out :=
  if s.reach who o_hepWsel then .next (s.wselWrite (s.writerId who) (fn % 32) (win % 256)) else .next s
def execHepWcfgWrite (who : Sender) (cfg : BitVec 32) (s : State) : Out :=
  if s.reach who o_hepWcfg then .next (s.wcfgWrite (s.writerId who) cfg) else .next s

/-! ## Requests from the host (R462, R465, R466) -/

/-- The lines that n octets of a window touch. -/
def winLines (x : Win) (off n : Nat) : List Nat :=
  if n = 0 then [] else
  let a := unitAddr (x.pack == 2) x.base off
  let b := unitAddr (x.pack == 2) x.base (off + n - 1)
  (List.range (lineOf b - lineOf a + 1)).map (lineOf a + ·)

/-- The answer of a function's shaper in the class its window names (R462): class B where no contract of that class covers. -/
def State.shapeIn (s : State) (cls : Nat) (q : HeldReq) : State × Shape :=
  match (if cls ≤ 1 then s.covering q (cls == 0) else none) with
  | none => (s, .accept 2)
  | some (ci, c) =>
    if s.waitFor ci c q = some 0 then (s.take ci c q, .accept cls)
    else (s, if c.overflow then .accept 2 else .hold)

/-- All the units of a request, or none of them. -/
def State.shapeWin (s : State) (cls : Nat) (l : List HeldReq) : State × Bool :=
  let r := l.foldl (fun (a : State × Bool) q => if !a.2 then a else match a.1.shapeIn cls q with
    | (t, .accept _) => (t, true)
    | (t, .hold) => (t, false)) (s, true)
  if r.2 then r else (s, false)

/-- The same, waiting for the buckets as long as it takes. -/
def State.shapeWait (s : State) (cls : Nat) (l : List HeldReq) : State × Bool :=
  l.foldl (fun (a : State × Bool) q => if !a.2 then a else match a.1.shapeIn cls q with
    | (t, .accept _) => (t, true)
    | (t, .hold) => match a.1.covering q (cls == 0) with
      | none => (t, true)
      | some (ci, c) => match a.1.waitFor ci c q with
        | none => (t, false)
        | some n =>
          let u := { a.1 with time := a.1.time + n }
          (u.take ci c q, true)) (s, true)

def State.winReqs (s : State) (v : Nat) (x : Win) (off n : Nat) (write : Bool) : List HeldReq :=
  (winLines x off n).map (fun l => s.reqFor 6 v (l * 64) write)

/-- An accepted write is performed: the octets are converted and written by the Landing. -/
def State.winWrite (s : State) (v : Nat) (x : Win) (off : Nat) (octs : List Nat) : State :=
  match s.fOwner v with
  | none => s
  | some n =>
    let p := s.mem.packed (x.pack == 2) x.base off octs
    s.inWrite (some n) p.1 p.2 3 false

/-- The octets reach the Manifest buffer of a compartment in session (R525). -/
def State.winMft (s : State) (v : Nat) (x : Win) (off n : Nat) : Bool := match s.fOwner v with
  | some c => (winLines x off n).any (fun l => s.inMftBuf c (l * 64))
  | none => false

/-! ### Writes to BAR0 of a data function (Table 18-7) -/

/-- A host write of HEP.F_HDBSET; HOST is pending up to 1.5 microseconds later (R471). -/
def State.hdbSet (s : State) (v : Nat) (bits : Reg32) : State :=
  if s.fnOpen v then
    let t := s.ctlMod (o_hepHdb v) (fun r => r ||| bits)
    let c := s.ctlGet (o_hepHdbctl v)
    if fbit c 31 then t.lag (1000 + fget c 7 0) 1500 (s.srcBell (fget c 7 0)) else t
  else s.closedWrite (1 + v)

/-- A dword of an MSI-X table entry is written: the low address keeps bits 31:2, the vector control its mask bit. What is unmasked
is sent (R469). -/
def State.msixWrite (s : State) (fn i v : Nat) : State :=
  let v := if i % 4 = 0 then v % 2 ^ 32 / 4 * 4 else if i % 4 = 3 then v % 2 else v % 2 ^ 32
  (s.modHep (fun h => { h with msix := smSet h.msix (fn * 8192 + i) v })).sendInts fn

/-- A write of BAR0 of data function v. -/
def State.fWrite (s : State) (v off val : Nat) : State :=
  if off < 0x8000 then s.msixWrite (1 + v) (off / 4) val
  else if off = 0xC004 then s.hdbSet v (r32 val)
  else if off = 0xC008 ∧ v = 0 then
    (s.modHep (fun h => { h with fint := (BitVec.ofNat 32 h.fint &&& ~~~(r32 val)).toNat })).intaSync s
  else s

/-- A doorbell in a window (R466). -/
def State.bellWrite (s : State) (v o : Nat) (octs : List Nat) : State :=
  if octs.length = 4 && (o == 0 || o == 4) then
    let val := octVal octs
    s.doorbell (s.fOwner v) (if o = 0 then o_qmDb else o_qmDbarm) (val % 65536) (val / 65536) (o == 4)
  else s.hepCount 2 (1 + v)

/-- A posted write waits in its function's holding buffer. -/
def State.holdWrite (s : State) (v : Nat) (r : HostWrite) : State :=
  let waiting := smGet [] s.hep.hold v
  if waiting.length < 16 then s.modHep (fun h => { h with hold := smSet h.hold v (waiting ++ [r]) }) else s

/-- A posted write to BAR2 of a data function; it waits in the holding buffer behind earlier writes to the function, for its shaper and for the
homes of its lines (R333, R465, R468). -/
def State.hostWrite (s : State) (v off : Nat) (octs : List Nat) : State :=
  let w := off / 2 ^ 28 % 256
  let o := off % 2 ^ 28
  let x := s.win v w
  let fn := 1 + v
  if !s.winOpen v w o octs.length || !x.wr then s.closedWrite fn
  else if x.bell then (if (smGet [] s.hep.hold v).isEmpty then s.bellWrite v o octs else s.holdWrite v ⟨w, o, octs⟩)
  else if s.winMft v x o octs.length then s.closedWrite fn
  else
    if !(smGet [] s.hep.hold v).isEmpty || !(winLines x o octs.length).all (fun l => s.landingReady l true) then
      s.holdWrite v ⟨w, o, octs⟩
    else match s.shapeWin x.cls (s.winReqs v x o octs.length true) with
      | (s, true) => s.winWrite v x o octs
      | (s, false) => s.holdWrite v ⟨w, o, octs⟩

/-- The link has posted credits: no function's holding buffer is full (R465). -/
def State.credited (s : State) : Bool := s.hep.hold.all (fun e => decide (e.2.length < 16))

/-- A posted write from the host; with posted credits withheld none is sent. -/
def execHostMemWrite (fn off : Nat) (octs : List Nat) (err : TlpErr) (s : State) : Out :=
  if 32 ≤ fn ∨ !fbit (s.ctlGet o_hepStatus) 30 ∨ octs.isEmpty ∨ !s.credited then .next s
  else if s.seen (1 + fn) err ≠ .none then .next (s.tlpError (1 + fn) err)
  else .next (s.hostWrite fn off (octs.map (· % 256)))

/-- A write to BAR0 of a data function, in its turn among the posted writes to the function (R468). -/
def State.fnWrite (s : State) (v off val : Nat) : State :=
  if (smGet [] s.hep.hold v).isEmpty then s.fWrite v off val else s.holdWrite v ⟨256, off, valOct val 4⟩

/-- The oldest write in a function's holding buffer is accepted once its buckets have refilled. -/
def State.releaseWrite (s : State) (v : Nat) : State :=
  match smGet [] s.hep.hold v with
  | [] => s
  | r :: rest =>
    let x := s.win v r.win
    let drop (s : State) : State := s.modHep (fun h => { h with hold := smPut [] h.hold v rest })
    if r.win = 256 then (drop s).fWrite v r.off (octVal r.octs)
    else if x.bell then
      (if s.winOpen v r.win r.off r.octs.length && x.wr then (drop s).bellWrite v r.off r.octs else (drop s).closedWrite (1 + v))
    else if !s.winOpen v r.win r.off r.octs.length || !x.wr || s.winMft v x r.off r.octs.length then (drop s).closedWrite (1 + v)
    else match s.takeAll ((winLines x r.off r.octs.length).map (fun l => (l, true))) with
      | (s, false) => s
      | (s, true) => match s.shapeWait x.cls (s.winReqs v x r.off r.octs.length true) with
        | (s, true) => (drop s).winWrite v x r.off r.octs
        | (s, false) => s

/-- The writes of every holding buffer are accepted, oldest first, as their buckets refill. -/
def State.drainWrites (s : State) : State :=
  (List.range 32).foldl (fun s v => (List.range 16).foldl (fun s _ => s.releaseWrite v) s) s

/-- A read is performed after every posted write received earlier, to any function (R468): the held writes are performed first;
whether none is left. -/
def State.readTurn (s : State) : State × Bool :=
  let waits (s : State) : Bool := s.hep.hold.any (fun e => !e.2.isEmpty)
  let t := if waits s then s.drainWrites else s
  (t, !waits t)

/-- A held request of a source is accepted (R354): of a host function, the oldest write of its holding buffer. -/
def execShaperAccept (srcKind item : Nat) (s : State) : Out :=
  if srcKind = 6 then .next (s.releaseWrite item)
  else match s.heldOf srcKind item with
    | none => .next s
    | some q => .next (s.releaseHeld q)

/-- Octets as completions of at most n, the first ending at the read completion boundary. -/
def chunkOctets (first n : Nat) : Nat → List Nat → List (List Nat)
  | 0, _ => []
  | f + 1, l => if l.isEmpty then [] else l.take first :: chunkOctets n n f (l.drop first)

/-- A read of BAR2 of a data function. -/
def State.hostRead (s : State) (v off n : Nat) : State :=
  let w := off / 2 ^ 28 % 256
  let o := off % 2 ^ 28
  let x := s.win v w
  let fn := 1 + v
  if !s.winOpen v w o n || !x.rd then (s.aer fn true 20).emit (.completion 1 [] false)
  else if x.bell then s.emit (.completion 0 (List.replicate n 0) false)
  else match s.takeAll ((winLines x o n).map (fun l => (l, false))) with
  | (s, false) => s
  | (s, true) => match s.shapeWait x.cls (s.winReqs v x o n false) with
    | (s, false) => s
    | (s, true) =>
      let bad := (winLines x o n).filter s.mem.poisoned
      let s := match bad with
        | [] => s
        | l :: _ => s.event 4 0x038 landing (s.fOwner v) (l * 64) 5 0
      let octs := s.mem.octets (x.pack == 2) x.base o n
      let mp := s.maxPayload fn
      ((chunkOctets (mp - off % 128) mp (n + 1) octs).foldl (fun (a : State × Nat) c =>
        let ep := (winLines x (o + a.2) c.length).any bad.contains
        ((if ep then a.1.hepCount 5 fn else a.1).emit (.completion 0 c ep), a.2 + c.length)) (s, 0)).1

/-- A read from the host, performed after every posted write received earlier (R468). -/
def execHostMemRead (fn off len : Nat) (err : TlpErr) (s : State) : Out :=
  if 32 ≤ fn ∨ !fbit (s.ctlGet o_hepStatus) 30 ∨ len = 0 then .next s
  else if s.seen (1 + fn) err ≠ .none then .next (s.tlpError (1 + fn) err)
  else
    let (s, turn) := s.readTurn
    .next (if turn then s.hostRead fn off len else s)

/-! ## Completions of the engines' reads (R467) -/

/-- The descriptor of an outstanding read ends with HOSTERR. -/
def State.readFails (s : State) (r : HostRead) : State :=
  let s := s.modHep (fun h => { h with reads := h.reads.filter (· != r) })
  if r.dead then s else s.dmaEnd r.engine 5

/-- A completion: status 0 successful, otherwise UR or CA. -/
def execHostCompletion (fn tag status : Nat) (octs : List Nat) (err : TlpErr) (s : State) : Out :=
  if s.seen (1 + fn) err ≠ .none then .next (s.tlpError (1 + fn) err)
  else match s.hep.reads.find? (fun r => r.fn == 1 + fn && r.tag == tag) with
    | none => .next ((s.aer (if fn < 32 then 1 + fn else 0) true 16).hepCount 6 (if fn < 32 then 1 + fn else 0))
    | some r =>
      if status ≠ 0 then .next ((s.cfgOne r.fn 0x04 (if status = 4 then 28 else 29)).readFails r)
      else
        let take := min octs.length (r.len - r.got.length)
        let r' : HostRead := if r.dead then { r with len := r.len - take }
          else { r with got := r.got ++ (octs.take take).map (· % 256) }
        .next (s.modHep (fun h => { h with reads := (h.reads.map (fun q => if q = r then r' else q)).filter (fun q => q.len != 0) }))

/-- A read passes its completion timeout. -/
def execCompletionTimeout (fn tag : Nat) (s : State) : Out :=
  match s.hep.reads.find? (fun r => r.fn == 1 + fn && r.tag == tag) with
  | none => .next s
  | some r => .next (((s.aer r.fn false 14).hepCount 7 r.fn).readFails r)

/-! ## Resets of functions, Bus Master Enable, power states (R424, R472 to R475) -/

/-- A function-level reset begins: no new request, DMA aborts, pending vectors clear, FLRSEEN is set. -/
def State.flrBegin (s : State) (fn : Nat) : State :=
  if s.inFlr fn then s else
  let s := s.modHep (fun h => { h with flr := fn :: h.flr, pend := smErase h.pend fn, hold := if fn = 0 then h.hold else smErase h.hold (fn - 1) })
  let s := if fn = 0 then s.ctlSet o_hepP0Intpend 0 else if fn = 1 then s.modHep (fun h => { h with fint := 0 }) else s
  if fn = 0 then s
  else
    let s := (s.dmaAbort (fn - 1) 7).ctlMod (o_hepFnstate (fn - 1)) (fun v => fone v 26 true)
    s.event 0 0x071 landing (s.fOwner (fn - 1)) 0 fn 0

/-- It completes: configuration space and the MSI-X table at their reset values. -/
def State.flrEnd (s : State) (fn : Nat) : State :=
  if !s.inFlr fn then s
  else s.modHep (fun h => { (h.clearCfg fn) with flr := h.flr.filter (· != fn), msix := h.msix.filter (fun e => e.1 / 8192 != fn) })

/-- The functions a reset of one function applies to: PF1's reaches every VF (R473). -/
def flrScope (fn : Nat) : List Nat := if fn = 1 then (List.range 32).map (· + 1) else [fn]

def State.flrStart (s : State) (fn : Nat) : State := (flrScope fn).foldl State.flrBegin s

def execFunctionLevelReset (fn : Nat) (done : Bool) (s : State) : Out :=
  if 33 ≤ fn then .next s
  else if done then .next ((flrScope fn).foldl State.flrEnd s)
  else .next ((s.flrStart fn).intaSync s)

/-- Bus Master Enable of a function written: 0 aborts its DMA, 1 lets its interrupts go (R424, R469). -/
def State.bmeWrite (s : State) (fn : Nat) (on : Bool) : State :=
  let old := s.cfg fn 0x04
  let new := if bitOf old 2 = on then old else if on then old + 4 else old - 4
  let s := s.setCfg fn 0x04 new
  if on then s.sendInts fn
  else if fn = 0 then s else s.dmaAbort (fn - 1) 6

def execBusMasterEnableWrite (fn : Nat) (on : Bool) (s : State) : Out :=
  if 33 ≤ fn ∨ s.inFlr fn then .next s else .next (s.bmeWrite fn on)

/-- VF Enable written: 0 resets every VF (R473). -/
def State.vfWrite (s : State) (on : Bool) : State :=
  let was := s.cfgBit 1 0x268 0
  let s := if was = on then s else s.setCfg 1 0x268 (if on then s.cfg 1 0x268 + 1 else s.cfg 1 0x268 - 1)
  if was && !on then ((List.range 31).map (· + 2)).foldl (fun s fn => (s.flrBegin fn)) s else s

def execVfEnableWrite (on : Bool) (s : State) : Out := if s.inFlr 1 then .next s else .next (s.vfWrite on)

/-! ## The link (R453, R474) -/

/-- The link leaves L0: every function is reset at once. -/
def State.linkLost (s : State) : State :=
  let was := fbit (s.ctlGet o_hepStatus) 30
  let s := ((List.range 33).foldl State.flrBegin s).intaSync s
  let s := s.ctlMod o_hepStatus (fun v => fset v 30 22 0)
  let s := s.modHep (fun h => { h with ready := false })
  if was then s.event 0 0x070 landing none 0 (s.ctlGet o_hepStatus).toNat 0 else s

/-- A hot reset, or DL_Down. -/
def execHotReset (s : State) : Out := .next (s.linkLost.modHep (fun h => { h with training := !h.perst }))
def execPerstAssert (s : State) : Out := .next (s.linkLost.modHep (fun h => { h with perst := true, training := false }))
/-- Training begins after PERST# is released, 60 ms after PWROK at the earliest. -/
def execPerstDeassert (s : State) : Out := .next (s.modHep (fun h => { h with perst := false, training := true }))

/-- The link reaches L0 at a rate (code 1 to 5) and width that both ends support; configuration space becomes ready. -/
def execHostLinkUp (rate width : Nat) (s : State) : Out :=
  let ok : Bool := s.hep.training && !s.hep.perst && decide (60000000 ≤ s.time) && decide (1 ≤ rate) && decide (rate ≤ 5) &&
    (width == 1 || width == 4 || width == 8 || width == 16) && decide (width ≤ s.board.pexLanes)
  if !ok then .next s
  else
    let s := (List.range 33).foldl State.flrEnd s
    let s := s.ctlMod o_hepStatus (fun v => fset (fset (fone v 30 true) 29 27 rate) 26 22 width)
    let s := s.modHep (fun h => { h with training := false, ready := true })
    .next (s.event 0 0x070 landing none 0 (s.ctlGet o_hepStatus).toNat 0)

/-- A link-layer retry: receiver error, bad TLP, bad DLLP, replay rollover, replay timeout (0 to 4). -/
def execLinkLayerRetry (kind : Nat) (s : State) : Out :=
  match [0, 6, 7, 8, 12][kind]? with
  | some bit => .next ((s.aerCor 0 bit).hepCount 9 0)
  | none => .next s

/-! ## Configuration requests (R455) -/

/-- What a read of configuration space returns. -/
def State.cfgRead (s : State) (fn off : Nat) : Nat :=
  match off with
  | 0x64 => (smGet [] s.hep.pend fn).foldl (fun a v =>
      let m := v % 2 ^ (s.cfg fn 0x50 / 2 ^ 20 % 8)
      if m < 32 && !bitOf a m then a + 2 ^ m else a) 0
  | 0x80 => s.cfg fn 0x80 % 2 ^ 16 + fget (s.ctlGet o_hepStatus) 29 27 * 2 ^ 16 + fget (s.ctlGet o_hepStatus) 26 22 * 2 ^ 20
  | _ => s.cfg fn off

/-- A write of a configuration register, with what it sets off. -/
def State.cfgWrite (s : State) (fn off v : Nat) : State :=
  let old := s.cfg fn off
  let m := cfgMask fn off
  let rw := if off = 0x270 ∧ s.cfgBit 1 0x268 0 then 0 else m.1
  let new := ((BitVec.ofNat 32 old &&& ~~~(BitVec.ofNat 32 rw)) ||| (BitVec.ofNat 32 v &&& BitVec.ofNat 32 rw)) &&&
    ~~~(BitVec.ofNat 32 v &&& BitVec.ofNat 32 m.2)
  let wasBme := s.bme fn
  let wasVf := s.cfgBit 1 0x268 0
  let t := s.setCfg fn off new.toNat
  let t := if off = 0x78 ∧ bitOf v 15 then t.flrStart fn else t
  let t := if wasBme && !t.bme fn && fn != 0 && !t.inFlr fn then t.dmaAbort (fn - 1) 6 else t
  let t := if fn = 1 ∧ off = 0x268 ∧ wasVf && !t.cfgBit 1 0x268 0 then
      ((List.range 31).map (· + 2)).foldl (fun s f => s.flrBegin f) t else t
  (t.sendInts fn).intaSync s

/-- A configuration request: `write` none is a read; `be` the byte enables. -/
def execHostConfigRequest (fn off : Nat) (write : Option Nat) (be : Nat) (s : State) : Out :=
  let off := off % 4096 / 4 * 4
  if !fbit (s.ctlGet o_hepStatus) 30 then .next s
  else if !s.hep.ready || s.inFlr fn then .next (s.emit (.completion 2 [] false))
  else if 33 ≤ fn ∨ (2 ≤ fn ∧ !s.vfOn fn) then .next ((s.aer 0 true 20).emit (.completion 1 [] false))
  else match write with
    | none => .next (s.emit (.completion 0 (valOct (s.cfgRead fn off) 4) false))
    | some v =>
      let old := s.cfg fn off
      let w1c := (cfgMask fn off).2
      let merged := (List.range 4).foldl (fun a i =>
        a + (if bitOf be i then v / 2 ^ (8 * i) % 256 else (if bitOf w1c (8 * i) then 0 else old / 2 ^ (8 * i) % 256)) * 2 ^ (8 * i)) 0
      .next ((s.cfgWrite fn off merged).emit (.completion 0 [] false))

/-! ## Interrupts and doorbells (R470, R471) -/

/-- A compartment, or the host, requests a vector of a data function. -/
def execMsisend (who : Sender) (fn vector : Nat) (s : State) : Out :=
  if fn < 32 && s.reach who (o_hepMsisend fn) then .next (s.irq (1 + fn) (vector % 2048)) else .next s

/-- A host write of HEP.F_HDBSET of a data function. -/
def execHdbset (fn : Nat) (bits : BitVec 32) (s : State) : Out :=
  if fn < 32 && fbit (s.ctlGet o_hepStatus) 30 && s.credited then .next (s.fnWrite fn 0xC004 bits.toNat) else .next s

/-! ## A function or a core moves (R461) -/

/-- The entries, HDBCTL and held writes of a moved function are cleared. -/
def State.functionMoved (s : State) (v : Nat) : State :=
  let s := s.modHep (fun h => { h with wins := h.wins.filter (fun e => e.1 / 256 != v) })
  s.ctlSet (o_hepHdbctl v) 0

/-- HDBCTL of functions whose CORE names a core taken from their owner is cleared. Called before the assignments change. -/
def State.hdbMoved (s : State) (taken : Nat → Bool) : State :=
  (List.range 32).foldl (fun s v =>
    let c := s.ctlGet (o_hepHdbctl v)
    if c ≠ 0 && taken (fget c 7 0) && s.cmpOf (fget c 7 0) == s.fOwner v then s.ctlSet (o_hepHdbctl v) 0 else s) s

/-- At quiesce, the writes in the holding buffers of a compartment's functions are discarded and counted (R477). -/
def State.hostQuiesce (s : State) (n : Nat) : State :=
  (List.range 32).foldl (fun s v =>
    if s.fOwner v = some n then
      let l := smGet [] s.hep.hold v
      let s := s.modHep (fun h => { h with hold := smErase h.hold v })
      l.foldl (fun s _ => s.closedWrite (1 + v)) s
    else s) s

end Sys2Proof.Machine
end

