-- ==== Sys2Proof/Machine/Quiesce.lean ====
section
/-!
DEFINITION. Stopping a core and a compartment (quiesce, Table 2-12), starting them cold (Table 11-6) and resuming them.
-/
namespace Sys2Proof.Machine

/-! ## One core -/

/-- The core can stop now: it stands at a boundary, outside RPTU, with no change of mode pending, no broadcast of its
own in flight and no store to a line whose reservation another core defers (R157). A core that issues nothing can stop at once. -/
def State.stoppable (s : State) (k : Nat) : Bool :=
  let c := s.core k
  if c.run == .waiting then true
  else if c.run != .running then true
  else if c.dbg then true
  else
    c.freeze.isNone && !c.mb.any (fun e => !isClearing (e.line * 64) && s.lineWaits k true e.line) && c.pair.isNone && c.ftChange.isNone && !(match c.rep with | some r => r.unint | none => false) &&
    !(s.mem.bcasts.any (fun b => b.src == k))

/-- A core stops with its compartment. -/
def State.stopCore (s : State) (k : Nat) : State :=
  let c := s.core k
  if c.run = .running ∨ c.run = .waiting then (s.stopAt k).modCore k (fun c => { c with run := .stopped, mftFrozen := false }) else s

/-- A core's clock goes on from the package's time. -/
def State.clockFrom (s : State) (c : Core) : Core :=
  { c with t0 := s.time - (if s.fuses.part = 0x144 then c.ccyc * 5 / 9 else c.ccyc / 2) }

/-- A stopped core goes on at its saved state. -/
def State.resumeCore (s : State) (k : Nat) : State :=
  if (s.core k).run = .stopped ∨ (s.core k).run = .halted then s.modCore k (fun c => { s.clockFrom c with run := .running }) else s

/-- The interrupt registers of a slot at their reset values (Table 11-9). -/
def State.slotReset (s : State) (k : Nat) : State :=
  let g := groveOf k; let i := slotOf k
  { s with ctl := smErase (smErase (smErase s.ctl (o_grvTcmpl g i)) (o_grvTcmph g i)) (o_grvIpi g i),
           lags := smErase (smErase s.lags (2 * k)) (2 * k + 1) }

/-- HOLD of GRV.CRST of a slot (Table 21-6). -/
def State.hold (s : State) (k : Nat) : Bool := fbit (s.ctlGet (o_grvCrst (groveOf k) (slotOf k))) 30

/-- A core in the initial architectural state, running or held (R280, R545). -/
def State.coldCore (s : State) (k entry : Nat) (ft : Bool) : State :=
  let s := ((s.slotReset k).withdraw 1 k).discardAll k
  { (s.setCore k { Core.initial entry ft with t0 := s.time, run := if s.hold k then .held else .running }) with
      nettime := s.nettime.filter (· != k) }

/-- A core that no compartment owns is in reset (R46). -/
def State.releaseSlot (s : State) (k : Nat) : State := (((s.slotReset k).withdraw 1 k).discardAll k).setCore k Core.zero

/-- The Understoreys of a compartment that starts cold begin with the cells their images set (R221, R222). -/
def State.cellsAfresh (s : State) (n : Nat) : State :=
  ((List.range 12).filter (fun g => s.ownerOf 9 g == some n)).foldl (fun s g => s.setUst g { s.ust g with cells := s.ustStart g }) s

/-! ## A compartment -/

/-- Every core of a compartment can stop. -/
def State.cmpStoppable (s : State) (n : Nat) : Bool := (s.coresOf n).all s.stoppable

/-- A session goes on across a stop: every chunk ends with cause 4 and the last block is flushed (R526). -/
def State.mftQuiesce (s : State) (n : Nat) : State :=
  if s.recording n then
    let s := (s.coresOf n).foldl (fun s k => s.mftEndChunk k 4) s
    s.mftFlush n ((s.sess n).slots.length + 1)
  else s

/-- What a compartment has outside its cores stops: range engines, DMA engines and queues, host windows. -/
def State.quiesceDevices (s : State) (n : Nat) : State := ((s.rangeQuiesce n).dmaQuiesce n).hostQuiesce n

/-- Step 3 of Table 2-12 for one compartment. `ends` is the cause with which a session ends, when it does. -/
def State.quiesce (s : State) (n : Nat) (ends : Option Nat) : State :=
  let s := (s.coresOf n).foldl State.stopCore s
  let s := match ends with
    | some c => s.mftEnd n c
    | none => s.mftQuiesce n
  s.quiesceDevices n

/-- The change of a compartment's state is recorded (Table 24-6). -/
def CmpState.code : CmpState → Nat
  | .absent => 0 | .running => 1 | .stopping => 2 | .stopped => 3 | .changing => 4 | .fenced => 5 | .halted => 6

def State.enterCmp (s : State) (n : Nat) (c : CmpState) : State :=
  if s.cmpState n = c then s
  else (s.setCmpState n c).event (if c = .halted then 5 else 0) 0x011 landing (some n) s.live.chartId c.code 0

/-- Every core goes on at its saved state. -/
def State.resumeCmp (s : State) (n : Nat) : State := ((s.coresOf n).foldl State.resumeCore s).enterCmp n .running

end Sys2Proof.Machine
end

