-- ==== Sys2Proof/Machine/Manifest.lean ====
section
/-!
DEFINITION. Sessions (R522 to R528) and replays (R529 to R531) of the Manifest, and the cold raise of a compartment, with
which a session begins. The event journal itself is in Journal.lean.
-/
namespace Sys2Proof.Machine

/-! ## The start of a session (R526, R527) -/

/-- 8-octet fields, least significant octet first. -/
def words8 (l : List Nat) : List Nat := l.flatMap (fun v => valOct v 8)

/-- The records of a kind that a compartment owns, in ascending FIRST. -/
def Chart.recsOf (c : Chart) (n kind : Nat) : List ResRec :=
  sortBy (·.first) (c.res.filter (fun r => r.kind == kind && r.owner == n))

/-- The replay signature of a compartment, 48 octets. -/
def State.signature (s : State) (n : Nat) : List Nat :=
  match s.cmpSec n with
  | none => []
  | some c =>
    let cores := s.coresOf n
    let dram := (s.live.recsOf n 2).flatMap (fun r => [r.first, r.count])
    let ways := (s.live.recsOf n 3).flatMap (fun r => (List.range r.count).map (r.first + ·))
    let usts := cores.flatMap (fun k => match s.live.usts.find? (fun u => u.grove == groveOf k && u.cmp == n) with
      | some u => Config.sha384 u.octets
      | none => List.replicate 48 0)
    Config.sha384 (words8 ([c.entry, c.pow2.toNat, c.ftStart.toNat, cores.length] ++ dram ++ ways ++ [c.mftBase, c.mftLen]) ++ usts)

/-- The lines that the IMAGE sections most recently applied for a compartment cover, with the mask of bytes written. -/
def State.imageLines (s : State) (n : Nat) : List (Nat × Nat) :=
  let mine := s.live.images.filter (·.cmp == n)
  let last := mine.foldl (fun a i => max a i.stamp) 0
  (mine.filter (·.stamp == last)).flatMap (fun i =>
    let len := packedLen i.dense i.payload.length
    (byLine (len / 64 + 2) i.dest (List.replicate len (0 : Byte))).map (fun e =>
      (lineOf e.1, (2 ^ e.2.length - 1) * 2 ^ (e.1 % 64))))

/-- A session begins: key and number, the START record, and the lines of the images as input chunk 0. -/
def State.mftStart (s : State) (n : Nat) : State :=
  let num := ((s.sess n).session + 1) % 2 ^ 32
  let key := (List.range 8).foldl (fun a i => a + (Config.rngDraw (s.draws + i)).toNat * 2 ^ (36 * i)) 0 % 2 ^ 256
  let s := { s with draws := s.draws + 8 }
  let s := s.setSess n { MftSess.none with session := num, key := key }
  let s := { s with sec := { s.sec with wraps := smSet s.sec.wraps n (Config.keyWrap key (octVal (smGet [] s.sec.slots 10))) } }
  let s := s.ctlSet (o_mftCstate n) (r32 (2 * 2 ^ 29 + num % 65536))
  let s := ((s.ctlSet (o_mftWidx n) 0).ctlSet (o_mftRidx n) 0)
  let s := (s.coresOf n).foldl (fun s k => s.setMftc k MftCore.start) s
  let sig := s.signature n
  let s := s.mftPut n ⟨0x71, 255, (s.coresOf n).length, 0, octVal (sig.take 8),
    [octVal ((sig.drop 8).take 16), octVal ((sig.drop 24).take 16), octVal ((sig.drop 40).take 8)]⟩
  let s := (s.imageLines n).foldl (fun s e =>
    let v := e.2 + octVal (lineOctets e.1 e.2 s.mem.byte) * 2 ^ 64
    let m := s.sess n
    let s := s.mftPut n ⟨0x20, 255, m.inCount, 0, e.1 + 4 * 2 ^ 37, (List.range 5).map (fun i => v / 2 ^ (128 * i) % 2 ^ 128)⟩
    let m := s.sess n
    s.setSess n { m with inCount := m.inCount + 1, inLines := e.1 :: m.inLines }) s
  s.mftSpace n

/-- Every core of a compartment starts at ENTRY (R50); a session begins when the compartment records from the start, or is
ARMED and raised by START. -/
def State.raise (s : State) (n : Nat) (byStart : Bool) : State :=
  match s.cmpSec n with
  | none => s
  | some c =>
    let s := if s.recording n then s.mftEnd n 1 else s
    let s := if c.manifest || (byStart && s.mftMode n == 1) then s.mftStart n else s
    let s := ((s.coresOf n).foldl (fun s k => s.coldCore k c.entry c.ftStart) s).cellsAfresh n
    s.enterCmp n .running

/-! ## The writer and its registers (R524, R532) -/

def State.mftWrej (s : State) : State := s.ctlMod o_mftStatus (fun v => fone v 31 true)

/-- The writer writes one block once enough records wait; of a session that has ended, what the full ring left waiting. A full ring
ends the session under FULLPOL 1. -/
def execManifestBlockWrite (cmp : Nat) (s : State) : Out :=
  if s.recording cmp && decide (34 ≤ (s.sess cmp).slots.length) then
    if s.mftFull cmp then .next (if fbit (s.ctlGet (o_mftCtrl cmp)) 30 then s.mftEnd cmp 2 else s)
    else .next (s.mftBlock cmp)
  else if s.mftMode cmp = 4 ∧ !(s.sess cmp).slots.isEmpty ∧ !s.mftFull cmp then .next (s.mftBlock cmp)
  else .next s

/-- A write of RIDX releases blocks; cores frozen by the writer go on. -/
def State.ridxWrite (s : State) (n v : Nat) : State :=
  let old := (s.ctlGet (o_mftRidx n)).toNat
  if s.mftUsed n < (v + 2 ^ 32 - old) % 2 ^ 32 then s.mftWrej
  else
    let s := (s.ctlSet (o_mftRidx n) (r32 v)).mftSpace n
    if s.mftFull n then s
    else s.modCores (fun k c => if s.cmpOf k = some n ∧ c.mftFrozen ∧ s.recording n then { c with mftFrozen := false } else c)

def execRidxWrite (who : Sender) (cmp value : Nat) (s : State) : Out :=
  if cmp < 32 && s.reach who (o_mftRidx cmp) then .next (s.ridxWrite cmp (value % 2 ^ 32)) else .next s

def execMftStop (who : Sender) (cmp : Nat) (s : State) : Out :=
  if cmp < 32 && s.reach who (o_mftCtrl cmp) then .next (s.mftEnd cmp 1) else .next s

def State.mftArm (s : State) (n : Nat) : State :=
  if s.cmpState n = .stopped ∧ (s.mftMode n = 0 ∨ s.mftMode n = 4) then s.ctlMod (o_mftCstate n) (fun v => fset v 31 29 1) else s.mftWrej

def State.mftDisarm (s : State) (n : Nat) : State :=
  if s.mftMode n = 1 then s.ctlMod (o_mftCstate n) (fun v => fset v 31 29 0)
  else if s.recording n then s.mftEnd n 1
  else s.mftWrej

/-- MFT.CMD is in the package area: the host alone reaches it. -/
def execArm (cmp : Nat) (s : State) : Out := if cmp < 32 && s.reach .host o_mftCmd then .next (s.mftArm cmp) else .next s
def execDisarm (cmp : Nat) (s : State) : Out := if cmp < 32 && s.reach .host o_mftCmd then .next (s.mftDisarm cmp) else .next s

/-! ## Replay (R529 to R531) -/

/-- Continuations of a record by its first slot; none: the type does not exist. -/
def contCount (slot : Nat) : Option Nat :=
  let t := slot % 256
  if (1 ≤ t ∧ t ≤ 5) ∨ t = 0x10 ∨ t = 0x30 ∨ t = 0x31 ∨ t = 0x32 ∨ (0x41 ≤ t ∧ t ≤ 0x43) ∨ (0x50 ≤ t ∧ t ≤ 0x53) ∨ t = 0x72 then some 0
  else if t = 0x20 then some (if slot / 2 ^ 100 % 2 = 1 then 1 else 5)
  else if t = 0x40 then some 1
  else if t = 0x71 then some 3
  else none

/-- The records that slots spell, and how they end: 0 with END, 6 malformed, 7 before END. -/
def parseRecs : Nat → List Nat → List MftRec × Nat
  | 0, _ => ([], 7)
  | _ + 1, [] => ([], 7)
  | f + 1, x :: r => match contCount x with
    | none => ([], 6)
    | some n =>
      if r.length < n then ([], 7)
      else
        let m : MftRec := ⟨x % 256, x / 2 ^ 8 % 256, x / 2 ^ 16 % 65536, x / 2 ^ 32 % 2 ^ 32, x / 2 ^ 64, r.take n⟩
        if m.type = 0x72 then ([m], 0)
        else let (l, e) := parseRecs f (r.drop n); (m :: l, e)

/-- The slots of block j, decrypted; none: the tag, BSEQ, SESSION or CMP is wrong. -/
def blockSlots (key session cmp j : Nat) (o : List Nat) : Option (List Nat) :=
  let head := o.take 16
  let nrec := head.getD 12 0
  if o.length ≠ 576 ∨ octVal (head.take 8) ≠ j ∨ octVal ((head.drop 8).take 4) ≠ session ∨ head.getD 13 0 ≠ cmp ∨ nrec = 0 ∨ 34 < nrec then none
  else match Config.gcmDecrypt key ((head.drop 8).take 4 ++ head.take 8) head ((o.drop 16).take 544) (o.drop 560) with
    | none => none
    | some p => some ((List.range nrec).map (fun i => octVal ((p.drop (16 * i)).take 16)))

/-- The slots of the blocks up to the first that is wrong, and whether one was. -/
def allSlots (key session cmp : Nat) : Nat → List (List Nat) → List Nat × Bool
  | _, [] => ([], false)
  | j, o :: r => match blockSlots key session cmp j o with
    | none => ([], true)
    | some l => let (m, b) := allSlots key session cmp (j + 1) r; (l ++ m, b)

/-- An ORDER record names a chunk that does not exist. -/
def orderBad (l : List MftRec) (m : MftRec) : Bool :=
  m.type == 0x10 && m.data % 256 != 255 &&
    decide ((l.filter (fun r => decide (1 ≤ r.type) && decide (r.type ≤ 5) && r.agent == m.data % 256)).length ≤ m.data / 256 % 2 ^ 32)

/-- The replay of a stopped compartment starts from exported blocks, as the engine fetches them. -/
def State.mftReplay (s : State) (n : Nat) (blocks : List (List Nat)) : State :=
  match s.cmpSec n with
  | none => s.mftWrej
  | some c =>
    if s.cmpState n ≠ .stopped ∨ c.manifest ∨ fbit (s.ctlGet o_mftStatus) 30 then s.mftWrej
    else
      let blocks := blocks.take (s.ctlGet o_mftRsrcLen).toNat
      let first := blocks.headD []
      let session := octVal ((first.drop 8).take 4)
      match Config.keyUnwrap (octVal (smGet [] s.sec.slots 10)) (smGet [] s.sec.staged n) with
      | none => s.mftDiverge n 6 255 0 0
      | some key =>
        let (slots, bad) := allSlots key session n 0 blocks
        let (recs, e) := parseRecs (slots.length + 1) slots
        let ending := if e = 7 ∧ bad then 6 else e
        match recs with
        | [] => s.mftDiverge n (if ending = 0 then 6 else ending) 255 0 0
        | st :: rest =>
          let sig := s.signature n
          let same : Bool := st.type == 0x71 && st.offset == (s.coresOf n).length && st.data == octVal (sig.take 8) &&
            st.cont == [octVal ((sig.drop 8).take 16), octVal ((sig.drop 24).take 16), octVal ((sig.drop 40).take 8)]
          if st.type ≠ 0x71 then s.mftDiverge n 6 255 0 0
          else if !same then s.mftDiverge n 5 255 0 0
          else match rest.find? (orderBad rest) with
            | some m => s.mftDiverge n 6 m.agent m.chunk m.offset
            | none =>
              let cores := s.coresOf n
              let s := cores.foldl (fun s k => s.coldCore k c.entry c.ftStart) s
              let s := cores.foldl (fun s k =>
                let r := s.rank k
                (s.setMftc k { MftCore.start with
                  replay := sortBy (·.chunk) (rest.filter (fun m => m.agent == r && m.type != 0x10 && m.type != 0x20 && m.type != 0x72)) }).modCore k
                  (fun c => { c with mftFrozen := true })) s
              let s := s.cellsAfresh n
              let s := s.setSess n { MftSess.none with
                session := (s.sess n).session, key := (s.sess n).key,
                orders := (rest.filter (·.type == 0x10)).map (fun m => (m.data % 256, m.data / 256 % 2 ^ 32, m.agent, m.chunk)),
                lines := rest.filter (·.type == 0x20), ending := ending }
              let s := s.ctlMod (o_mftCstate n) (fun v => fset (fset v 31 29 3) 28 25 0)
              let s := s.ctlMod o_mftStatus (fun v => fone v 30 true)
              s.enterCmp n .running

def execReplay (cmp : Nat) (blocks : List (List Nat)) (s : State) : Out :=
  if cmp < 32 && s.reach .host o_mftCmd then .next (s.mftReplay cmp blocks) else .next s

/-- Every chunk that ORDER records place before chunk `lc` of agent `la` has ended. -/
def State.mftReady (s : State) (n la lc : Nat) : Bool :=
  let m := s.sess n
  m.orders.all (fun o => !(o.2.2.1 == la && o.2.2.2 == lc) ||
    (if o.1 = 255 then decide (o.2.1 < m.inChunk)
     else match (s.coresOf n).find? (fun k => s.rank k == o.1) with
      | some k => decide (o.2.1 < s.chunkOf k)
      | none => true))

/-- Everything recorded has been replayed: the compartment stops (R529), or the records were cut short (Table 20-7). -/
def State.mftReplayEnd (s : State) (n : Nat) : State :=
  let m := s.sess n
  let busy : Bool := !m.lines.isEmpty || (s.coresOf n).any (fun k => match smFind? s.mftc k with
    | some c => !c.replay.isEmpty
    | none => false)
  if busy || s.mftMode n != 3 then s
  else if m.ending ≠ 0 then s.mftDiverge n m.ending 255 m.inChunk 0
  else
    let s := (s.coresOf n).foldl State.stopCore s
    let s := { s with mftc := s.mftc.filter (fun e => s.cmpOf e.1 != some n) }
    let s := s.ctlMod (o_mftCstate n) (fun v => fset (fset v 31 29 4) 28 25 6)
    let s := s.ctlMod o_mftStatus (fun v => fone v 30 false)
    s.enterCmp n .stopped

/-- One LINE record is applied. A line that was journalled as a hash is written as the engine computes it again (`again`), and
its hash compared. -/
def State.mftLine (s : State) (n : Nat) (r : MftRec) (again : List Nat) : State :=
  let line := r.data % 2 ^ 36
  let hashOnly : Bool := r.data / 2 ^ 36 % 2 == 1
  let mask := r.cont.headD 0 % 2 ^ 64
  let val := if hashOnly then octVal again
    else ((List.range 5).foldl (fun a i => a + r.cont.getD i 0 * 2 ^ (128 * i)) 0) / 2 ^ 64 % 2 ^ 576
  let bytes (q : Nat) : Byte := BitVec.ofNat 9 (val / 2 ^ (9 * q))
  if hashOnly && r.cont.headD 0 / 2 ^ 64 != crcOctets 0xFFFFFFFFFFFFFFFF
      (lineOctets line mask (fun pa => bytes (pa % 64))) then
    s.mftDiverge n 4 255 r.chunk r.offset
  else (List.range 64).foldl (fun s q => if mask / 2 ^ q % 2 = 1 then s.wrInv (line * 64 + q) [bytes q] else s) s

/-- The lines of one input chunk. -/
def State.mftLines (s : State) (n : Nat) : List (List Nat) → List MftRec → State
  | _, [] => s
  | again, r :: rest =>
    let hashOnly : Bool := r.data / 2 ^ 36 % 2 == 1
    let t := s.mftLine n r (again.headD [])
    if t.mftMode n = 3 then t.mftLines n (if hashOnly then again.drop 1 else again) rest else t

/-- A chunk of a replay: of a core, it starts once its predecessors have ended, and ends at its recorded length with its hash
compared; of the input agent (255), its lines are applied. `again` holds the lines computed again for HASHONLY records. -/
def State.mftChunk (s : State) (n agent : Nat) (again : List (List Nat)) : State :=
  if s.mftMode n ≠ 3 then s
  else if agent = 255 then
    let m := s.sess n
    if !s.mftReady n 255 m.inChunk then s
    else
      let mine := m.lines.filter (·.chunk == m.inChunk)
      let t := s.setSess n { m with lines := m.lines.filter (·.chunk != m.inChunk), inChunk := m.inChunk + 1 }
      (t.mftLines n again mine).mftReplayEnd n
  else match (s.coresOf n).find? (fun k => s.rank k == agent) with
    | none => s
    | some k => match smFind? s.mftc k with
      | none => s
      | some _ =>
        let s := if (s.core k).mftFrozen then s else s.landRecorded k 8
        match smFind? s.mftc k with
        | none => s
        | some c =>
        if (s.core k).mftFrozen then
          (if c.replay.isEmpty then s
           else if s.mftReady n agent c.chunk then s.modCore k (fun x => { x with mftFrozen := false }) else s)
        else match c.replay with
          | [] => s
          | r :: rest =>
            if r.chunk = c.chunk ∧ r.offset < c.len % 65536 ∧ ¬(1 ≤ r.type ∧ r.type ≤ 5) then s.mftDiverge n 2 agent r.chunk r.offset
            else if 1 ≤ r.type ∧ r.type ≤ 5 ∧ r.offset = c.len % 65536 ∧ (c.len = 0 → r.type ≠ 1) then
              let crc := crcItem c.crc 0x300 (s.core k).pc
              if crc % 2 ^ 64 ≠ r.data then s.mftDiverge n 1 agent c.chunk r.offset
              else
                let s := s.setMftc k { MftCore.start with chunk := c.chunk + 1, replay := rest }
                (s.modCore k (fun x => { x with mftFrozen := true })).mftReplayEnd n
            else s

def execReplayChunk (cmp agent : Nat) (again : List (List Nat)) (s : State) : Out := .next (s.mftChunk cmp agent again)

end Sys2Proof.Machine
end

