-- ==== Sys2Proof/Machine/Chart.lean ====
section
/-!
DEFINITION. The Chart container (R37 to R45): parsing its sections, the checks of Table 2-6 in their order, and the Chart that
committing an update leaves (R51, R57).
-/
namespace Sys2Proof.Machine

/-- n octets of a container from an offset. -/
def sub (o : List Nat) (at_ n : Nat) : List Nat := (o.drop at_).take n
def zeros (o : List Nat) (at_ n : Nat) : Bool := (sub o at_ n).all (· == 0)

/-- Codes of Table 2-6, with the section named. -/
structure Fail where
  code : Nat
  section_ : Nat
  deriving DecidableEq, Repr

def noSection : Nat := 0x7FF

/-- A directory entry (R39), with its index. -/
structure DirEntry where
  idx : Nat
  type : Nat
  inst : Nat
  cmp : Nat
  octs : List Nat
  deriving DecidableEq, Repr

/-! ## Sections (Tables 2-3 to 2-5, 8-2, 8-3, 14-2; R45) -/

def parsePackage (o : List Nat) : PackageSec :=
  { pairIndex := le o 0 1, paired := bitOf (le o 1 1) 0, senior := bitOf (le o 1 1) 1, homeGroves := BitVec.ofNat 12 (le o 2 2),
    witness := le o 4 2 }
def packageOk (o : List Nat) : Bool :=
  o.length == 32 && decide (le o 0 1 ≤ 1) && decide (le o 1 1 < 4) && decide (0 < le o 2 2) && decide (le o 2 2 < 4096) && zeros o 6 26 &&
    (!bitOf (le o 1 1) 0 || decide (le o 4 2 ≤ 4094))

def parseCmp (o : List Nat) : CmpSec :=
  let f := le o 1 1
  { id := le o 0 1, pow2 := bitOf f 0, manifest := bitOf f 1, steward := bitOf f 2, pairMode := f / 8 % 4, ftStart := bitOf f 5,
    resume := le o 2 1 == 1, authority := BitVec.ofNat 32 (le o 4 4), entry := le o 8 8, mftBase := le o 0x10 8, mftLen := le o 0x18 8,
    name := sub o 0x20 16 }
def cmpOk (update : Bool) (o : List Nat) : Bool :=
  let f := le o 1 1
  o.length == 64 && decide (f < 64) && f / 8 % 4 != 3 && decide (le o 2 1 ≤ if update then 1 else 0) && zeros o 3 1 && zeros o 0x30 16 &&
    (bitOf f 1 || le o 0x18 8 == 0)

def parseRes (o : List Nat) : ResRec :=
  { kind := le o 0 1, owner := le o 1 1, attr := le o 2 2, first := le o 8 8, count := le o 16 8 }
def resOk (o : List Nat) : Bool :=
  let r := parseRes o
  decide (1 ≤ r.kind) && decide (r.kind ≤ 9) && decide (r.owner ≤ 31) && decide (r.attr < if r.kind = 2 then 2 else 1) &&
    zeros o 4 4 && decide (1 ≤ r.count)

def parseContract (n : Nat) (o : List Nat) : Contract :=
  { cmp := n, srcKind := le o 0 1, hard := le o 1 1 == 0, target := le o 2 1, tgtIndex := le o 3 1, srcFirst := le o 4 4,
    srcCount := le o 8 2, overflow := bitOf (le o 10 1) 0, reroute := bitOf (le o 10 1) 1, spread := le o 11 1, rrate := le o 12 4,
    wrate := le o 16 4, rburst := le o 20 2, wburst := le o 22 2, targetNs := le o 24 4 }
/-- Table 14-3: the targets of a kind of source. -/
def targetsOf : Nat → List Nat
  | 1 => [0, 1, 2, 3] | 2 => [0, 1, 2, 6] | 3 => [0, 1] | 4 => [4] | 5 => [0, 1] | 6 => [0, 1] | 7 => [5] | _ => []
def contractOk (o : List Nat) : Bool :=
  let c := parseContract 0 o
  (targetsOf c.srcKind).contains c.target && decide (le o 1 1 ≤ 1) &&
    decide (c.tgtIndex ≤ if c.target = 1 then 11 else if c.target = 5 then 15 else 0) && decide (1 ≤ c.srcCount) && decide (le o 10 1 < 4) &&
    decide (c.spread ≤ 4) && decide (1 ≤ c.rburst) && decide (c.rburst ≤ 4096) && decide (1 ≤ c.wburst) && decide (c.wburst ≤ 4096) &&
    (if c.hard then c.targetNs == 0 else decide (100 ≤ c.targetNs) && decide (c.targetNs ≤ 1000000)) && zeros o 28 4

/-- Octets cut into records of n. -/
def records (n : Nat) : Nat → List Nat → List (List Nat)
  | 0, _ => []
  | f + 1, l => if l.isEmpty then [] else l.take n :: records n f (l.drop n)
def recs (n : Nat) (o : List Nat) : List (List Nat) := records n (o.length / n + 1) o

def parseUstEntry (o : List Nat) : UstEntry :=
  let k := le o 11 1
  { matchBits := le o 0 5, mask := le o 5 5, ctx := le o 10 1, dstKind := k % 4, srcKind := k / 4 % 4, dstIn := bitOf k 4, mem := bitOf k 5,
    lat := le o 12 2, ii := le o 14 2, regions := le o 16 1 }
def parseUst (g n : Nat) (o : List Nat) : UstSec :=
  { grove := g, cmp := n, contexts := le o 2 1, configId := le o 0x10 4,
    entries := (recs 24 (sub o (le o 4 4) (24 * le o 0 2))).map parseUstEntry, image := sub o (le o 8 4) (le o 12 4), octets := o }
def ustEntryOk (contexts : Nat) (o : List Nat) : Bool :=
  let e := parseUstEntry o
  let k := le o 11 1
  decide (e.matchBits < 2 ^ 35) && decide (e.mask < 2 ^ 35) && e.mask / 2 ^ 29 == 63 && decide (56 ≤ e.matchBits / 2 ^ 29) &&
    decide (e.ctx < contexts) && decide (k < 64) && e.dstKind != 3 && e.srcKind != 3 && decide (1 ≤ e.lat) && decide (e.lat ≤ 4095) &&
    decide (1 ≤ e.ii) && decide (e.ii ≤ 255) && decide (e.regions < 8) && (e.mem || e.regions == 0) && zeros o 17 7
def ustOk (o : List Nat) : Bool :=
  let n := le o 0 2; let c := le o 2 1; let dt := le o 4 4; let im := le o 8 4; let il := le o 12 4
  decide (32 ≤ o.length) && decide (1 ≤ n) && decide (n ≤ 64) && decide (1 ≤ c) && decide (c ≤ 16) && zeros o 3 1 && zeros o 0x14 12 &&
    dt % 8 == 0 && im % 8 == 0 && decide (dt + 24 * n ≤ o.length) && decide (im + il ≤ o.length) &&
    (recs 24 (sub o dt (24 * n))).all (ustEntryOk c) && Config.ustImageSound (sub o im il) &&
    (List.range c).all (fun x => decide (Config.ustImageStores (sub o im il) x ≤ 64))

def parseImage (n stamp : Nat) (o : List Nat) : ImageSec :=
  { cmp := n, dest := le o 0 8, dense := le o 8 1 == 1, payload := o.drop 16, stamp := stamp }
def imageOk (o : List Nat) : Bool := decide (16 ≤ o.length) && decide (le o 8 1 ≤ 1) && zeros o 9 7

/-- Table 17-2 to 17-5 and the rules of R435 that concern one section. `known`: the stream is owned, or a Keeper stream. -/
def netOk (known : Nat → Bool) (o : List Nat) : Bool :=
  let nin := netNin o; let neg := netNeg o; let ngc := netNgcl o; let cyc := netCycle o
  let ins := (List.range nin).map (netIn o)
  let egs := (List.range neg).map (netEg o)
  let gs := netGates o
  decide (96 ≤ o.length) && decide (nin ≤ 1024) && decide (neg ≤ 512) && decide (ngc ≤ 256) &&
    o.length == 96 + 24 * nin + 8 * neg + 8 * ngc &&
    decide (1 ≤ netPvid o) && decide (netPvid o ≤ 4094) && decide (le o 6 2 < 2 ^ 15) &&
    (if cyc = 0 then ngc == 0 else decide (1000 ≤ cyc) && decide (cyc ≤ 100000000)) &&
    decide (le o 0x15 1 < 16) && zeros o 0x16 10 && (List.range 8).all (fun c => zeros o (0x24 + 8 * c) 4) &&
    (List.range nin).all (fun i =>
      let b := 0x60 + 24 * i
      let r := netIn o i
      decide (le o (b + 6) 2 < 4096) && decide (le o (b + 8) 1 ≤ 1) && decide (le o (b + 9) 1 < 4) &&
      (decide (r.stream < 4096) || (le o (b + 10) 2 == 0xFFFF && le o (b + 9) 1 == 0 && le o (b + 12) 2 == 0 && le o (b + 16) 4 == 0 && le o (b + 20) 2 == 0)) &&
      (le o (b + 12) 2 == 0 || (decide (64 ≤ le o (b + 12) 2) && decide (le o (b + 12) 2 ≤ 9216))) &&
      (if le o (b + 16) 4 = 0 then le o (b + 20) 2 == 0 else decide (1522 ≤ le o (b + 20) 2)) && zeros o (b + 22) 2 &&
      (!bitOf (le o (b + 9) 1) 1 || known r.stream)) &&
    (List.range neg).all (fun i =>
      let b := 0x60 + 24 * nin + 8 * i
      decide (le o b 2 < 4096) && decide (le o (b + 2) 1 < 8) && decide (le o (b + 3) 1 < 4) && decide (le o (b + 4) 2 < 2 ^ 15) && zeros o (b + 6) 2 &&
      known (le o b 2)) &&
    (List.range ngc).all (fun i =>
      let b := 0x60 + 24 * nin + 8 * neg + 8 * i
      decide (le o (b + 1) 1 ≤ 2) && zeros o (b + 2) 2 && decide (64 ≤ le o (b + 4) 4) && decide (le o (b + 4) 4 ≤ 100000000) &&
      (le o (b + 1) 1 == 0 || le o 0x14 1 != 0)) &&
    (cyc == 0 || (gs.map (·.interval)).foldl (· + ·) 0 == cyc) &&
    egs.all (fun e => (egs.filter (fun f => f.stream == e.stream)).length == 1 && !ins.any (fun r => r.stream == e.stream))

/-- The rules of R435 across the sections of all ports: a stream of a TOINT rule, or of an egress rule, has one place, but for FRER. -/
def netsOk (nets : List (Nat × List Nat)) : Bool :=
  let ins := nets.flatMap (fun p => (List.range (netNin p.2)).map (fun i =>
    (p.1, (netIn p.2 i).stream, bitOf (le p.2 (0x60 + 24 * i + 9) 1) 0)))
  let egs := nets.flatMap (fun p => (List.range (netNeg p.2)).map (fun i => (netEg p.2 i).stream))
  ins.all (fun x => x.2.1 == 0xFFFF || (!egs.contains x.2.1 &&
    (x.2.2 || ins.all (fun y => y.2.1 != x.2.1 || (y.1 == x.1)))))

/-! ## Items and memory of a set of records -/

/-- The records without the items a to b − 1. -/
def minus (r : ResRec) (a b : Nat) : List ResRec :=
  if r.first + r.count ≤ a ∨ b ≤ r.first then [r]
  else
    (if r.first < a then [{ r with count := a - r.first }] else []) ++
    (if b < r.first + r.count then [{ r with first := b, count := r.first + r.count - b }] else [])

/-- RESOURCE records of an update move their items (R51). -/
def moveItems (old new : List ResRec) : List ResRec :=
  new.foldl (fun l u => l.flatMap (fun r => if r.kind = u.kind then minus r u.first (u.first + u.count) else [r])) old ++ new

def ResRec.meets (r u : ResRec) : Bool :=
  r.kind == u.kind && decide (r.first < u.first + u.count) && decide (u.first < r.first + r.count)

/-- Byte ranges of the DRAM, and of the Clearing ways, that a compartment owns: start and end, ascending. -/
def memOf (res : List ResRec) (n : Nat) (dramOnly : Bool) : List (Nat × Nat) :=
  sortBy (·.1) ((res.filter (·.owner == n)).flatMap (fun r =>
    if r.kind = 2 then [(r.first, r.first + r.count)]
    else if r.kind = 3 ∧ !dramOnly then (List.range r.count).map (fun i =>
      let w := r.first + i
      let b := 0x3F000000000 + w / 16 * 0x100000000 + (w % 16 - 4) * 0x200000
      (b, b + 0x200000))
    else []))

/-- The bytes lo to hi − 1 lie within the ranges. -/
def within (l : List (Nat × Nat)) (lo hi : Nat) : Bool :=
  decide (hi ≤ l.foldl (fun p e => if e.1 ≤ p ∧ p < e.2 then e.2 else p) lo)

def ImageSec.end_ (i : ImageSec) : Nat := i.dest + packedLen i.dense i.payload.length
/-- The compartment still owns every byte of the destination. -/
def imageKept (res : List ResRec) (i : ImageSec) : Bool := within (memOf res i.cmp false) i.dest i.end_

def coresIn (res : List ResRec) (n : Nat) : List Nat :=
  (List.range 240).filter (fun k => res.any (fun r => r.owner == n && r.holds 1 k))

/-- A later section of the same key replaces an earlier one. -/
def replaceBy {α : Type} (key : α → Nat) (old new : List α) : List α := old.filter (fun x => !new.any (fun y => key y == key x)) ++ new

/-- The Chart that committing an update on another leaves (R51). -/
def Chart.merge (old up : Chart) : Chart :=
  let res := moveItems old.res up.res
  let own (g : Nat) : Option Nat := (res.find? (·.holds 9 g)).map (·.owner)
  { pkg := match up.pkg with | some p => some p | none => old.pkg
    cmps := sortBy (·.id) (replaceBy (·.id) old.cmps up.cmps)
    res := res
    contractCmps := replaceBy id old.contractCmps up.contractCmps
    contracts := old.contracts.filter (fun c => !up.contractCmps.contains c.cmp) ++ up.contracts
    nets := replaceBy (·.1) old.nets up.nets
    usts := (replaceBy (·.grove) old.usts up.usts).filter (fun u => own u.grove == some u.cmp)
    images := (old.images ++ up.images).filter (imageKept res)
    digest := up.digest, chartId := up.chartId, svn := up.svn, index := [] }

/-- The targets of an update (R57). -/
def Chart.targets (old up : Chart) : List Nat :=
  (List.range 32).filter (fun n =>
    up.cmps.any (·.id == n) || up.contractCmps.contains n || up.usts.any (·.cmp == n) || up.images.any (·.cmp == n) ||
    up.res.any (fun r => r.owner == n || old.res.any (fun o => o.owner == n && o.meets r && o.owner != r.owner)))

/-! ## Verification (R47, Table 2-6) -/

/-- Who submits a container: the boot load, the host, or a compartment. -/
inductive From where
  | boot
  | host
  | cmp (n : Nat)
  deriving DecidableEq, Repr

def slotSet (s : Sec) (i : Nat) : Bool := (smFind? s.slots i).isSome && !s.badTags.contains i

/-- The directory entries of a container, or the entry at fault (check 6). -/
def parseDir (o : List Nat) (n dirEnd sigAt : Nat) : Nat → List DirEntry → Except Fail (List DirEntry)
  | 0, acc => .ok acc.reverse
  | f + 1, acc =>
    let i := n - (f + 1)
    let e := sub o (128 + 16 * i) 16
    let off := le e 8 4; let len := le e 12 4
    if !zeros e 5 3 || off % 8 != 0 || decide (off < dirEnd) || decide (sigAt < off + len) then .error ⟨6, i⟩
    else parseDir o n dirEnd sigAt f (⟨i, le e 0 2, le e 2 2, le e 4 1, sub o off len⟩ :: acc)

/-- Offsets and lengths again, for the overlap rule: the entry that begins inside an earlier one is at fault. -/
def overlapAt (o : List Nat) (n : Nat) : Option Nat :=
  let l := sortBy (·.1) (((List.range n).map (fun i => (le o (128 + 16 * i + 8) 4, le o (128 + 16 * i + 12) 4, i))).filter (fun e => e.2.1 != 0))
  (l.zip (l.drop 1)).findSome? (fun p => if p.2.1 < p.1.1 + p.1.2.1 then some p.2.2.2 else none)

/-- The key under which Table 2-2 allows a type once. -/
def DirEntry.key (e : DirEntry) : Option Nat :=
  if e.type = 1 then some 0x10000 else if e.type = 2 ∨ e.type = 4 then some (e.type * 0x10000 + e.cmp)
  else if e.type = 5 ∨ e.type = 6 then some (e.type * 0x10000 + e.inst) else none

/-- Check 7 of one entry. -/
def typeOk (update : Bool) (all : List DirEntry) (own : Nat → Option Nat) (e : DirEntry) : Bool :=
  let wide : Bool := e.type == 1 || e.type == 3 || e.type == 5
  decide (1 ≤ e.type) && decide (e.type ≤ 7) && (if wide then e.cmp == 0xFF else decide (e.cmp ≤ 31)) && !(update && e.type == 1) &&
    (match e.key with
      | some k => !all.any (fun f => decide (f.idx < e.idx) && f.key == some k)
      | none => true) &&
    (e.type != 5 || decide (e.inst ≤ 15)) && (e.type != 2 || e.octs.headD e.cmp == e.cmp) &&
    (e.type != 6 || (decide (e.inst ≤ 11) && own e.inst == some e.cmp))

/-- Check 8 of one entry. -/
def fieldOk (update : Bool) (known : Nat → Bool) (e : DirEntry) : Bool :=
  let o := e.octs
  match e.type with
  | 1 => packageOk o
  | 2 => cmpOk update o
  | 3 => o.length % 24 == 0 && (recs 24 o).all resOk
  | 4 => o.length % 32 == 0 && decide (o.length ≤ 32 * 1024) && (recs 32 o).all contractOk
  | 5 => netOk known o
  | 6 => ustOk o
  | _ => imageOk o

/-- The sections of a container. -/
def sections (es : List DirEntry) (stamp : Nat) (digest : List Nat) (chartId svn : Nat) : Chart :=
  { pkg := (es.find? (·.type == 1)).map (fun e => parsePackage e.octs)
    cmps := sortBy (·.id) ((es.filter (·.type == 2)).map (fun e => parseCmp e.octs))
    res := (es.filter (·.type == 3)).flatMap (fun e => (recs 24 e.octs).map parseRes)
    contractCmps := (es.filter (·.type == 4)).map (·.cmp)
    contracts := (es.filter (·.type == 4)).flatMap (fun e => (recs 32 e.octs).map (parseContract e.cmp))
    nets := (es.filter (·.type == 5)).map (fun e => (e.inst, e.octs))
    usts := (es.filter (·.type == 6)).map (fun e => parseUst e.inst e.cmp e.octs)
    images := (es.filter (·.type == 7)).map (fun e => parseImage e.cmp stamp e.octs)
    digest := digest, chartId := chartId, svn := svn,
    index := es.map (fun e => (e.type, if e.type = 5 ∨ e.type = 6 then e.inst else e.cmp, e.idx)) }

/-- How many items a kind has (check 9); DRAM and frames are judged under check 11. -/
def kindItems : Nat → Nat
  | 1 => 240 | 3 => 192 | 4 => 65536 | 5 => 4096 | 6 => 32 | 7 => 64 | 9 => 12 | _ => 2 ^ 64

/-- The first entry of a type with a record that fails. -/
def firstRec (es : List DirEntry) (bad : ResRec → Bool) : Option Nat :=
  ((es.filter (·.type == 3)).find? (fun e => (recs 24 e.octs).any (fun o => bad (parseRes o)))).map (·.idx)

/-- Records in order, each with its entry. -/
def recList (es : List DirEntry) : List (Nat × ResRec) :=
  (es.filter (·.type == 3)).flatMap (fun e => (recs 24 e.octs).map (fun o => (e.idx, parseRes o)))

/-- An item given to two owners (check 10). -/
def twoOwners : List (Nat × ResRec) → List (Nat × ResRec) → Option Nat
  | _, [] => none
  | seen, x :: r => if seen.any (fun y => y.2.meets x.2 && y.2.owner != x.2.owner) then some x.1 else twoOwners (seen ++ [x]) r

/-- Checks 7 to 16 on the sections of a container. -/
def State.checkSections (s : State) (who : From) (update : Bool) (base : List Nat) (es : List DirEntry) (digest : List Nat)
    (chartId svn : Nat) : Except Fail Chart :=
  let committed := s.store
  let old := committed.getD Chart.empty
  let stamp := (old.images.foldl (fun a i => max a i.stamp) 0) + 1
  let up := sections es stamp digest chartId svn
  let res := if update then moveItems old.res up.res else up.res
  let own (g : Nat) : Option Nat := (res.find? (·.holds 9 g)).map (·.owner)
  let find (p : DirEntry → Bool) (code : Nat) (k : Unit → Except Fail Chart) : Except Fail Chart :=
    match es.find? (fun e => !p e) with
    | some e => .error ⟨code, e.idx⟩
    | none => k ()
  let fails (x : Option Nat) (code : Nat) (k : Unit → Except Fail Chart) : Except Fail Chart :=
    match x with
    | some i => .error ⟨code, i⟩
    | none => k ()
  let pkg := match up.pkg with | some p => some p | none => old.pkg
  let keeper (t : Nat) : Bool := match pkg with | some p => t == p.witness || t == p.witness + 1 | none => false
  let known (t : Nat) : Bool := keeper t || res.any (·.holds 5 t)
  find (typeOk update es own) 7 fun _ =>
  if !update && !(es.any (·.type == 1)) then .error ⟨7, noSection⟩ else
  find (fieldOk update known) 8 fun _ =>
  let m := if update then old.merge up else up
  if !netsOk m.nets then .error ⟨8, ((es.find? (·.type == 5)).map (·.idx)).getD noSection⟩ else
  fails (firstRec es (fun r => decide (kindItems r.kind < r.first + r.count) ||
    (r.kind == 1 && (List.range r.count).any (fun i => !s.present (r.first + i))))) 9 fun _ =>
  fails (firstRec es (fun r => r.kind == 5 && (List.range r.count).any (fun i => keeper (r.first + i)))) 10 fun _ =>
  fails (twoOwners [] (recList es)) 10 fun _ =>
  fails (firstRec es (fun r =>
    (r.kind == 2 && (r.first % 0x200000 != 0 || r.count % 0x200000 != 0 || decide (s.dramBytes < r.first + r.count))) ||
    (r.kind == 3 && (decide (r.first % 16 < 4) || r.first / 16 != (r.first + r.count - 1) / 16)) ||
    (r.kind == 8 && !(r.first == 0x1A && r.count == 1)))) 11 fun _ =>
  if decide (256 < (res.filter (·.kind == 2)).length) then .error ⟨11, noSection⟩ else
  fails (((es.filter (·.type == 2)).find? (fun e =>
    let c := parseCmp e.octs
    c.manifest && (c.mftBase % 512 != 0 || c.mftLen % 512 != 0 || decide (c.mftLen < 65536)))).map (·.idx)) 11 fun _ =>
  fails (((es.filter (·.type == 7)).find? (fun e =>
    let i := parseImage e.cmp 0 e.octs
    (i.dense && i.dest % 8 != 0) || !imageKept res i)).map (·.idx)) 11 fun _ =>
  let section2 (n : Nat) : Nat := ((es.find? (fun e => e.type == 2 && e.cmp == n)).map (·.idx)).getD noSection
  fails ((m.cmps.find? (fun c =>
    (coresIn res c.id).isEmpty || (memOf res c.id false).isEmpty || c.entry % 4 != 0 || decide (2 ^ 36 ≤ c.entry) ||
    !within (memOf res c.id true) c.entry (c.entry + 4) ||
    (c.manifest && !within (memOf res c.id true) c.mftBase (c.mftBase + c.mftLen)))).map (fun c => section2 c.id)) 12 fun _ =>
  if update && committed.isSome && old.digest != base then .error ⟨13, noSection⟩
  else if update == committed.isNone then .error ⟨14, noSection⟩ else
  fails (if update then (up.cmps.find? (fun c => c.resume && (match old.cmpSec c.id with
      | none => true
      | some p => coresIn old.res c.id != coresIn res c.id || p.pow2 != c.pow2))).map (fun c => section2 c.id) else none) 15 fun _ =>
  match who with
  | .cmp n =>
    let tg := if update then Chart.targets old up else up.cmps.map (·.id)
    match old.cmpSec n with
    | some c => if c.steward && tg.all (fun t => c.authority.getLsbD t) then .ok up else .error ⟨16, noSection⟩
    | none => .error ⟨16, noSection⟩
  | _ => .ok up

/-- A container verified from check 1: its sections, whether it is an update, or the first check that fails. -/
def State.verify (s : State) (who : From) (o : List Nat) : Except Fail (Bool × Chart) :=
  let n := o.length
  let flags := le o 0x0E 2
  let update := bitOf flags 1
  let enc := bitOf flags 0
  let sigAt := n - 96
  let slot := le o 0x20 1
  let eslot := le o 0x21 1
  if n < 224 ∨ le o 0 4 ≠ 0x32414B53 ∨ le o 4 2 ≠ 1 ∨ le o 6 2 ≠ 128 ∨ le o 8 4 ≠ n ∨ n % 8 ≠ 0 ∨
      (if update then 0x100000 else 0x800000) < n ∨ 4 ≤ flags ∨ 3 < slot ∨ (enc ∧ 3 < eslot) ∨ !zeros o 0x17 1 ∨ !zeros o 0x22 14 ∨
      !zeros o 0x3C 4 ∨ (!update ∧ !zeros o 0x50 48) then .error ⟨1, noSection⟩
  else if !slotSet s.sec slot || s.sec.revoked.contains slot ||
      !Config.ecdsaVerify (smGet [] s.sec.slots slot) (o.take sigAt) (o.drop sigAt) then .error ⟨2, noSection⟩
  else if le o 0x10 4 < s.sec.svnFloor then .error ⟨3, noSection⟩
  else
    let clear : Option (List Nat) :=
      if !enc then some o
      else if !slotSet s.sec (4 + eslot) then none
      else (Config.gcmDecrypt (octVal (smGet [] s.sec.slots (4 + eslot))) (sub o 0x30 12) (o.take 128) (sub o 128 (sigAt - 128))
        (sub o 0x40 16)).map (fun p => o.take 128 ++ p ++ o.drop sigAt)
    match clear with
    | none => .error ⟨4, noSection⟩
    | some p =>
      if le o 0x14 2 ≠ s.fuses.part ∨ le o 0x16 1 ≠ 0xA then .error ⟨5, noSection⟩
      else
        let k := le o 0x0C 2
        let dirEnd := 128 + 16 * k
        if k = 0 ∨ 1024 < k ∨ sigAt < dirEnd then .error ⟨6, noSection⟩
        else match parseDir p k dirEnd sigAt k [] with
          | .error e => .error e
          | .ok es => match overlapAt p k with
            | some i => .error ⟨6, i⟩
            | none => match s.checkSections who update (sub o 0x50 48) es (Config.sha384 (o.take sigAt)) (le o 0x18 8) (le o 0x10 4) with
              | .error e => .error e
              | .ok c => .ok (update, c)

end Sys2Proof.Machine
end

