-- ==== Sys2Proof/Machine/Admit.lean ====
section
/-!
DEFINITION. Admission (R349 to R362, R423, R500): the charges of Table 14-6, the ceilings of Table 14-5, exactly. A resource is
named by the number that TT.LOADSEL gives it: KIND in bits 15:12, DIR in bit 11, INDEX in bits 9:0.
-/
namespace Sys2Proof.Machine

/-- Shares are numbers of 55,440ths: 16 and every n from 1 to 12 divide it. -/
def wholeShare : Nat := 55440
def shareOf (spread n : Nat) : Nat := min wholeShare (wholeShare * 2 ^ spread / n)

/-- One unit of a rate in 1/16, with units in tenths and shares in 55,440ths. -/
def loadUnit : Nat := 16 * 10 * 55440

/-- What one unit of a contract costs a resource: tenths of a unit, at a share. -/
structure Charge where
  key : Nat
  tenths : Nat
  share : Nat
  deriving DecidableEq, Repr

def resKey (kind dir idx : Nat) : Nat := kind * 4096 + dir * 2048 + idx
def keyKind (k : Nat) : Nat := k / 4096
/-- Home agents and the Landing table are judged by occupancy. -/
def isOcc (k : Nat) : Bool := keyKind k == 4 || keyKind k == 6

/-- Both modules of a spoke carry the whole of its load (R359). -/
def spoke (g up down share : Nat) : List Charge :=
  [2 * g, 2 * g + 1].flatMap (fun m => [⟨resKey 1 0 m, 10 * up, share⟩, ⟨resKey 1 1 m, 10 * down, share⟩])
def ring (k units share : Nat) : List Charge := [⟨resKey 2 0 k, 10 * units, share⟩, ⟨resKey 2 1 k, 10 * units, share⟩]
/-- The first hops of a reroute of Grove g (R360). -/
def hops (g up down share : Nat) : List Charge :=
  spoke ((g + 1) % 12) up down share ++ spoke ((g + 11) % 12) up down share ++ ring g (up + down) share ++ ring ((g + 11) % 12) (up + down) share
/-- Landing table occupancy of one request. -/
def landTable : List Charge := [⟨resKey 6 0 0, 11, wholeShare⟩]

/-- What the charges depend on besides the contract: the homes, and the Crossing ports with their share. -/
structure Fabric where
  homes : List Nat
  xports : List (Nat × Nat)
  deriving DecidableEq, Repr

/-- The DRAM rows; `g` is the source Grove, none for a Landing source; `mult` requests to one unit. -/
def dramCharges (f : Fabric) (c : Contract) (g : Option Nat) (write : Bool) (mult : Nat) : List Charge :=
  let hs := shareOf c.spread f.homes.length
  let ss := shareOf c.spread 16
  let (hu, hd, mem) := match g, write with
    | some _, false => (2, 3, 1)
    | some _, true => (3, 4, 2)
    | none, _ => (2, 2, 1)
  let (su, sd) := if write then (3, 1) else (2, 1)
  (match g with
    | some g =>
      spoke g (su * mult) (sd * mult) wholeShare ++ (if c.reroute then hops g (su * mult) (sd * mult) wholeShare else []) ++
      (if f.homes.contains ((g + 1) % 12) then ring g ((hu + hd) * mult) hs else []) ++
      (if f.homes.contains ((g + 11) % 12) then ring ((g + 11) % 12) ((hu + hd) * mult) hs else []) ++
      (if c.reroute && f.homes.contains g then hops g (hu * mult) (hd * mult) hs else [])
    | none => landTable.map (fun x => { x with tenths := x.tenths * mult })) ++
  f.homes.flatMap (fun h => spoke h (hu * mult) (hd * mult) hs ++ [⟨resKey 4 0 h, 11 * mult, hs⟩]) ++
  (List.range 16).map (fun i => ⟨resKey 3 0 i, 10 * mem * mult, ss⟩)

/-- The Clearing rows for the Clearing of Grove t. -/
def clearCharges (c : Contract) (g : Option Nat) (t : Nat) : List Charge :=
  (match g with
    | none => spoke t 1 1 wholeShare ++ landTable
    | some g => if g = t then [] else
        spoke g 1 1 wholeShare ++ spoke t 1 1 wholeShare ++ (if c.reroute then hops g 1 1 wholeShare else [])) ++
  (List.range 16).map (fun i => ⟨resKey 5 0 (16 * t + i), 10, shareOf c.spread 16⟩)

/-- One line on the Crossing ports. -/
def crossing (f : Fabric) (bothWays : Bool) : List Charge :=
  f.xports.flatMap (fun p => ⟨resKey 10 0 p.1, 10, p.2⟩ :: (if bothWays then [⟨resKey 10 1 p.1, 10, p.2⟩] else []))

/-- The charges of one unit of a contract (Table 14-6). `mirrored`: its compartment is mirrored and active here (R500). -/
def charges (f : Fabric) (c : Contract) (g : Option Nat) (write mirrored : Bool) : List Charge :=
  (match c.target with
    | 0 => dramCharges f c g write 1 ++ (if write && mirrored then crossing f false else [])
    | 1 => clearCharges c g c.tgtIndex
    | 2 => (match g with
        | some g => let (su, sd) := if write then (3, 1) else (2, 1)
                    spoke g su sd wholeShare ++ (if c.reroute then hops g su sd wholeShare else [])
        | none => landTable) ++ crossing f true
    | 3 => (match g with
        | some g => spoke g 1 1 wholeShare ++ (if c.reroute then hops g 1 1 wholeShare else [])
        | none => [])
    | 4 => ⟨resKey 7 0 0, 10, wholeShare⟩ :: (dramCharges f c none false 1 ++ dramCharges f c none true 2)
    | 5 => [⟨resKey 8 0 c.tgtIndex, 10, wholeShare⟩]
    | _ => ⟨resKey 9 0 0, 10, wholeShare⟩ :: landTable) ++
  (if c.srcKind = 6 then [⟨resKey 9 0 0, 10, wholeShare⟩] else [])

/-- Source items by Grove: the Grove, none for a Landing source, and how many. -/
def sources (c : Contract) : List (Option Nat × Nat) :=
  let a := c.srcFirst; let b := c.srcFirst + c.srcCount
  if c.srcKind = 1 then
    (List.range 12).filterMap (fun g => let n := min b (20 * g + 20) - max a (20 * g); if n = 0 then none else some (some g, n))
  else if c.srcKind = 3 then (List.range c.srcCount).map (fun i => (some (a + i), 1))
  else [(none, c.srcCount)]

/-- A contract's share of a resource's load and burst. -/
structure Booking where
  key : Nat
  cmp : Nat
  hard : Bool
  load : Nat
  burst : Nat
  deriving DecidableEq, Repr

def Contract.bookings (f : Fabric) (mirrored : Bool) (c : Contract) : List Booking :=
  (sources c).flatMap (fun e => [false, true].flatMap (fun w =>
    (charges f c e.1 w mirrored).map (fun x =>
      { key := x.key, cmp := c.cmp, hard := c.hard, load := c.rate w * x.tenths * x.share * e.2,
        burst := if isOcc x.key then 0 else (c.burst w * x.tenths * x.share + 10 * wholeShare - 1) / (10 * wholeShare) * e.2 })))

def sumBy {α : Type} (f : α → Nat) (l : List α) : Nat := l.foldl (fun a x => a + f x) 0

/-- Capacity of Table 14-5 per microsecond, as a fraction. -/
def State.capacity (s : State) (key : Nat) : Nat × Nat :=
  match keyKind key with
  | 3 => (if s.board.rate = 0 then 400 else if s.board.rate = 1 then 350 else 300, 1)
  | 1 => (1600, 1) | 2 => (1600, 1) | 5 => (500, 1) | 7 => (250, 1) | 10 => (800, 1)
  | 8 => (195 * s.portRate (key % 1024), 100000)
  | 9 =>
    let st := s.ctlGet o_hepStatus
    let rate : Nat := ([25, 25, 50, 80, 160, 320][fget st 29 27]?).getD 320
    if fbit st 30 then (700 * fget st 26 22 * rate, 16 * 320) else (700 * s.board.pexLanes, 16)
  | 4 => (2048, 1)
  | _ => (8192, 1)

/-- The load passes the H ceiling (below 6,400 MT/s no H load is admitted on a subchannel, R376), the H+S ceiling or the burst allowance. -/
def State.overH (s : State) (key load : Nat) : Bool :=
  match keyKind key with
  | 4 => decide (1024 * loadUnit < load)
  | 6 => decide (4096 * loadUnit < load)
  | 3 => if s.board.rate = 0 then decide (400 * loadUnit * 40 < load * 100) else decide (0 < load)
  | _ => let c := s.capacity key
         decide (c.1 * loadUnit * 50 < load * c.2 * 100)
def State.overHs (s : State) (key load : Nat) : Bool :=
  match keyKind key with
  | 4 => decide (1536 * loadUnit < load)
  | 6 => decide (7168 * loadUnit < load)
  | _ => let c := s.capacity key
         decide (c.1 * loadUnit * 90 < load * c.2 * 100)
def allowance : Nat → Nat
  | 1 => 1024 | 2 => 1024 | 8 => 144 | 7 => 512 | 9 => 512 | 10 => 512 | _ => 128
def overBurst (key burst : Nat) : Bool := !isOcc key && decide (allowance (keyKind key) < burst)

/-- The compartment of the first booking that takes the running total over. -/
def firstOver (exceeds : Nat → Bool) (f : Booking → Nat) : Nat → List Booking → Nat
  | _, [] => 0
  | acc, b :: r => if exceeds (acc + f b) then b.cmp else firstOver exceeds f (acc + f b) r

/-- Admission fails: the compartment concerned, the resource, or none, and the Grove whose UNDERSTOREY section is at fault. -/
structure AdmitFail where
  cmp : Nat
  key : Option Nat
  grove : Option Nat
  deriving DecidableEq, Repr

/-- One resource checked. -/
def State.checkRes (s : State) (key : Nat) (bs : List Booking) : Option AdmitFail :=
  let h := bs.filter (·.hard)
  if s.overH key (sumBy (·.load) h) then some ⟨firstOver (s.overH key) (·.load) 0 h, some key, none⟩
  else if s.overHs key (sumBy (·.load) bs) then some ⟨firstOver (s.overHs key) (·.load) 0 bs, some key, none⟩
  else if overBurst key (sumBy (·.burst) bs) then some ⟨firstOver (overBurst key) (·.burst) 0 bs, some key, none⟩
  else none

def resOfSource : Nat → Nat
  | 1 => 1 | 2 => 7 | 3 => 9 | 5 => 5 | 6 => 6 | _ => 4

/-- Source items and target are owned by the contract's compartment (R351). -/
def Chart.contractOwned (ch : Chart) (c : Contract) : Bool :=
  let items := sortBy (·.1) ((ch.res.filter (fun r => r.owner == c.cmp && r.kind == resOfSource c.srcKind)).map (fun r => (r.first, r.first + r.count)))
  within items c.srcFirst (c.srcFirst + c.srcCount) &&
    (match c.target with
      | 0 => ch.res.any (fun r => r.owner == c.cmp && r.kind == 2)
      | 1 => ch.res.any (fun r => r.owner == c.cmp && r.kind == 3 && r.first / 16 == c.tgtIndex)
      | 2 => ch.pairMode c.cmp == 2
      | _ => true)

def Contract.twin (c d : Contract) : Bool :=
  c.hard == d.hard && c.srcKind == d.srcKind && c.target == d.target && c.tgtIndex == d.tgtIndex &&
    decide (c.srcFirst < d.srcFirst + d.srcCount) && decide (d.srcFirst < c.srcFirst + c.srcCount)

/-- The first contract refused under R351. -/
def Chart.badContract (ch : Chart) : List Contract → List Contract → Option Nat
  | _, [] => none
  | seen, c :: r => if !ch.contractOwned c || seen.any (·.twin c) then some c.cmp else ch.badContract (seen ++ [c]) r

/-- The compartment owns ways of a Grove's Clearing. -/
def Chart.ownsWays (ch : Chart) (n g : Nat) : Bool := ch.res.any (fun r => r.owner == n && r.kind == 3 && r.first / 16 == g)

/-- The LAT check, with the bounds of Table 14-7 of the entry's regions, and the contracts of an Understorey: one for each other Grove in
whose Clearing the owner has ways, where REGIONS names those (R211). -/
def Chart.badUst (ch : Chart) : Option UstSec :=
  (ch.usts.find? (fun u => u.entries.any (fun e =>
    let bound (b ns : Nat) : Nat := if bitOf e.regions b then ns else 0
    decide (e.lat < Config.ustImageBound u.image e.ctx e.regions (bound 0 60, bound 1 450, bound 2 1100)) ||
    (e.mem && !(
      let cov (t : Nat) (p : Nat → Bool) : Bool := ch.contracts.any (fun c => c.cmp == u.cmp && c.hard && c.srcKind == 3 && c.target == t &&
        p c.tgtIndex && decide (c.srcFirst ≤ u.grove) && decide (u.grove < c.srcFirst + c.srcCount))
      (!bitOf e.regions 0 || cov 1 (· == u.grove)) && (!bitOf e.regions 1 || (List.range 12).all (fun h => h == u.grove || !ch.ownsWays u.cmp h || cov 1 (· == h))) && (!bitOf e.regions 2 || cov 0 (fun _ => true)))))))

/-- The Crossing ports that carry traffic, with their shares (R26, R500). -/
def State.xshares (s : State) : List (Nat × Nat) :=
  let up := [0, 1].filter (fun p => let st := (smGet XngPort.reset s.links.ports p).st; st == 2 || st == 3)
  match up with
  | [p] => [(p, wholeShare)]
  | _ => [(0, wholeShare / 2), (1, wholeShare / 2)]

def State.fabric (s : State) (ch : Chart) : Fabric :=
  { homes := match ch.pkg with | some p => homeList p.homeGroves | none => homeList 0xFFF
    xports := s.xshares }

/-- Every booking of a Chart. -/
def State.bookings (s : State) (ch : Chart) : List Booking :=
  let f := s.fabric ch
  ch.contracts.flatMap (fun c => c.bookings f (ch.pairMode c.cmp == 1 && s.links.active == some true))

/-- Every resource key, ascending. -/
def allKeys : List Nat :=
  let row (kind dirs n : Nat) : List Nat := (List.range dirs).flatMap (fun d => (List.range n).map (resKey kind d))
  row 1 2 24 ++ row 2 2 12 ++ row 3 1 16 ++ row 4 1 12 ++ row 5 1 192 ++ row 6 1 1 ++ row 7 1 1 ++ row 8 1 16 ++ row 9 1 1 ++ row 10 2 2

/-- Admission of a Chart's contracts (R362); `ft` lists the cores that are or will start in fixed-timing mode. -/
def State.admission (s : State) (ch : Chart) (ft : List Nat) : Option AdmitFail :=
  match ch.badContract [] ch.contracts with
  | some n => some ⟨n, none, none⟩
  | none =>
    let bs := s.bookings ch
    match allKeys.findSome? (fun k => s.checkRes k (bs.filter (·.key == k))) with
    | some f => some f
    | none =>
      match ft.find? (fun k => !ch.contracts.any (fun c => c.srcKind == 1 && c.hard && decide (c.srcFirst ≤ k) && decide (k < c.srcFirst + c.srcCount))) with
      | some k => some ⟨(ch.ownerOf 1 k).getD 0, none, none⟩
      | none => ch.badUst.map (fun u => ⟨u.cmp, none, some u.grove⟩)

/-- TT.LASTFAIL of a failure (Table 14-11). -/
def AdmitFail.reg (f : AdmitFail) : Reg32 :=
  r32 (2 ^ 31 + f.cmp % 32 * 2 ^ 24 + (match f.key with
    | some k => (isOcc k).toNat * 2 ^ 16 + k
    | none => 0))

/-- TT.LOAD of a resource: H+S in bits 31:16 and H in bits 15:0, in per mille (R372). -/
def State.ttLoad (s : State) (key : Nat) : Reg32 :=
  let bs := (s.bookings s.live).filter (·.key == key)
  let c := s.capacity key
  let mille (l : Nat) : Nat := l * c.2 * 1000 / (c.1 * loadUnit)
  r32 (mille (sumBy (·.load) bs) % 65536 * 65536 + mille (sumBy (·.load) (bs.filter (·.hard))) % 65536)

end Sys2Proof.Machine
end

