-- ==== Sys2Proof/Machine/Keeper.lean ====
section
/-!
DEFINITION. The Keeper's CHT operations (R52 to R65): APPLY, STOP, START and RESUME step by step, their reversal, and the load of a
full Chart (R49), which boot shares.
-/
namespace Sys2Proof.Machine

/-! ## Images and memory that moves -/

/-- An IMAGE section is written (R45). -/
def State.writeImage (s : State) (i : ImageSec) : State := s.wrOctets i.dense i.dest 0 i.payload

/-- The items of a kind that an update gives to a new owner. -/
def movedItems (old : Chart) (up : Chart) (kind : Nat) : List Nat :=
  (up.res.filter (·.kind == kind)).flatMap (fun r => ((List.range r.count).map (r.first + ·)).filter (fun i => old.ownerOf kind i != some r.owner))

/-- The 2 Mibyte granules of DRAM that an update gives to a new owner. -/
def movedGranules (old : Chart) (up : Chart) : List Nat :=
  (up.res.filter (·.kind == 2)).flatMap (fun r =>
    ((List.range (r.count / 0x200000)).map (r.first / 0x200000 + ·)).filter (fun g => old.ownerOf 2 (g * 0x200000) != some r.owner))

/-- Moved DRAM: its lines leave every cache and its key is chosen anew (Table 2-12). -/
def State.moveGranule (s : State) (g : Nat) : State :=
  let lines := (s.mem.dir.filter (fun e => e.line * 64 / 0x200000 == g)).map (·.line)
  let s := lines.foldl State.backInvalidate s
  s.setMem (s.mem.rekey g)

/-- First byte of a carved way, by its number g × 16 + w (R44). -/
def wayBase (w : Nat) : Nat := 0x3F000000000 + w / 16 * 0x100000000 + (w % 16 - 4) * 0x200000

/-- A way is carved, released, or passed on (R306): every entry whose data lies in it is replaced, and it is zeroed. -/
def State.zeroWay (s : State) (w : Nat) : State :=
  let s := s.emptyWay (w / 16) (w % 16)
  let inWay (pa : Nat) : Bool := decide (wayBase w ≤ pa) && decide (pa < wayBase w + 0x200000)
  let s := s.modCores (fun _ c => { c with l1d := c.l1d.filter (fun l => !inWay (l * 64)) })
  s.setMem { s.mem with clr := s.mem.clr.filter (fun e => !inWay e.1), poison := s.mem.poison.filter (fun l => !inWay (l * 64)) }

/-! ## The pair -/

def Chart.pairIndex (c : Chart) : Nat := match c.pkg with | some p => p.pairIndex | none => 0

/-- This side lost the last split. -/
def State.lastLost (s : State) : Bool := let r := fget (s.ctlGet o_xngSplitinfo) 27 25; r == 2 || r == 4

/-- A compartment may run here: local; mirrored and active on this side; or spanned, its half not the one a split fenced (R497, R498, R508). -/
def State.mayRaise (s : State) (n : Nat) : Bool :=
  let linked : Bool := s.links.pair == 2 || s.links.pair == 3 || s.links.pair == 4
  match s.live.pairMode n with
  | 0 => true
  | 1 => linked && s.links.active == some true
  | _ => linked && !(s.links.spanOff.contains n && s.lastLost)

/-! ## The load of a full Chart (R49) -/

/-- Granules that Park has kept under their key (R398). -/
def Chart.retained (c : Chart) (g : Nat) : Bool :=
  c.res.any (fun r => r.kind == 2 && bitOf r.attr 0 && decide (r.first ≤ g * 0x200000) && decide (g * 0x200000 < r.first + r.count))

/-- A Grove's Understorey as a Chart configures it (R221): parked operations are discarded, the UTLBs emptied, and every cell zeroed
before the image is written. -/
def State.loadUst (s : State) (g : Nat) : State :=
  let s := (List.range 20).foldl (fun s i => s.discardAll (20 * g + i)) s
  let s := s.setMem { s.mem with utlb := (List.range 4).foldl (fun m i => smErase m (g * 4 + i)) s.mem.utlb }
  let s := s.setUst g { Ust.reset with loaded := s.live.usts.any (·.grove == g), dropped := (s.ust g).dropped }
  s.setUst g { s.ust g with cells := s.ustStart g }

/-- Steps 1 to 8 of R49, without the admission. `kept`: PARK_RETAIN ranges have come through Park. Every compartment is left STOPPED. -/
def State.loadChart (s : State) (c : Chart) (kept : Bool) : State :=
  let s := { s with live := c }
  let s := s.setMem { s.mem with clr := [] }
  let s := { s with cores := (List.range 240).map (fun k => (k, { Core.zero with run := if s.present k then .inReset else .absent })) }
  let s := (List.range 12).foldl State.loadUst s
  let keep (g : Nat) : Bool := kept && c.retained g
  let s := s.setMem (s.mem.rekeyAll keep ((List.range (s.dramBytes / 0x200000)).filter keep))
  let stays (i : ImageSec) : Bool := kept && decide (i.dest < s.dramBytes) && decide (i.dest < i.end_) &&
    (List.range (i.end_ / 0x200000 + 1)).all (fun g => decide (g < i.dest / 0x200000) || decide (i.end_ ≤ g * 0x200000) || c.retained g)
  let s := (c.images.filter (fun i => !stays i)).foldl State.writeImage s
  let s := (List.range 16).foldl State.netLoad s
  let s := { s with store := some c, buckets := [], cmps := c.cmps.map (fun (m : CmpSec) => (m.id, CmpState.stopped)) }
  let s := s.modHep (fun h => { h with admitted := some (fget (s.ctlGet o_hepStatus) 29 27, fget (s.ctlGet o_hepStatus) 26 22) })
  { s with links := { s.links with
      pair := match c.pkg with | some p => if p.paired then (if s.links.pair = 0 then 1 else s.links.pair) else 0 | none => 0 } }

/-- Step 9: the compartments are raised in ascending ID; those that wait for a join are left STOPPED. -/
def State.raiseAll (s : State) : State :=
  s.live.cmps.foldl (fun s m =>
    if s.mayRaise m.id then s.raise m.id false
    else { s with links := { s.links with unraised := s.links.unraised ++ [m.id] } }) s

/-- PWR.BOOTSTAT.STEP (Table 21-11). -/
def State.bootStep (s : State) (n : Nat) : State := s.ctlMod o_pwrBootstat (fun v => fset v 31 28 n)

/-- Boot is complete: Run, with the time to step 9 in units of 100 microseconds. -/
def State.bootDone (s : State) : State :=
  let s := s.ctlMod o_pwrBootstat (fun v => fset (fset v 19 0 ((s.time - s.pwr.began) / 100000)) 31 28 10)
  let s := { s with pwr := { s.pwr with phase := .run } }
  s.event 0 0x001 landing none 0 (s.ctlGet o_pwrBootstat).toNat 0

/-! ## Registers of an operation -/

def State.chtStep (s : State) (op : ChtOp) (step : Nat) : State :=
  { s with cht := some { op with step := step }, ctl := (s.ctlMod o_chtStatus (fun v => fset v 27 24 step)).ctl }

def State.setTargets (s : State) (l : List Nat) : State := s.ctlSet o_chtTargets (r32 (l.foldl (fun a n => a + 2 ^ n) 0))

/-- CHART_ID of the container in hand, or of the committed Chart. -/
def State.chtId (s : State) (op : ChtOp) : Nat := if op.kind = .apply ∧ 2 ≤ op.step then le op.octets 0x18 8 else s.live.chartId

/-- RAISE_SVN: the floor rises to the committed Chart's SVN; the operation of the security block ends with OK (Table 22-5). -/
def State.raiseSvn (s : State) : State :=
  let s := { s with sec := { s.sec with svnFloor := max s.sec.svnFloor (min 64 s.live.svn) } }
  ((List.range 24).foldl (fun s i => s.ctlSet (o_secProvdata i) 0) ((s.ctlSet o_secResult 0).ctlMod o_secStatus (fun v => fone v 27 false)))

/-- A RAISE_SVN that arrived during an APPLY is performed once the operation has ended (R575). -/
def State.svnWaits (s : State) : State := if fbit (s.ctlGet o_secStatus) 27 then s.raiseSvn else s

/-- An operation ends (R53, R54): its code, its step and the section at fault. -/
def State.chtEnd (s : State) (op : ChtOp) (code section_ : Nat) : State :=
  let v := code * 2 ^ 24 + op.step * 2 ^ 20 + section_
  let s := s.ctlSet o_chtResult (r32 v)
  let s := s.ctlMod o_chtStatus (fun w => fone (fset (fone w 31 false) 27 24 0) 29 true)
  ({ s with cht := none }.event (if code = 0 then 0 else 8) 0x010 landing none (s.chtId op) v 0).svnWaits

/-- The Chart that the operation will commit. -/
def State.chtNext (s : State) (op : ChtOp) : Chart := if op.full then op.update else s.live.merge op.update

/-- A target is mirrored or spanned, before or after (R63). -/
def State.paired (s : State) (op : ChtOp) : Bool :=
  !op.full && op.kind == .apply && op.targets.any (fun n => s.live.pairMode n != 0 || (s.chtNext op).pairMode n != 0)

/-! ## Reversal (R60) -/

/-- A target goes on at its saved state, as by RESUME: one that the pair keeps from running stays STOPPED; one that was HALTED before, or
has been halted or fenced, stays so. -/
def State.releaseSaved (s : State) (op : ChtOp) (n : Nat) : State :=
  let go (s : State) : State := if s.mayRaise n then s.resumeCmp n else s.enterCmp n .stopped
  match s.cmpState n with
  | .stopping => s.resumeCmp n
  | .stopped => go s
  | .changing => if op.preHalted.contains n then s.enterCmp n .halted else go s
  | _ => s

/-- Step 4 is undone: moved memory has lost its contents, and what images wrote in memory that stays is written back. -/
def State.undoMemory (s : State) (op : ChtOp) : State :=
  let s := (movedGranules s.live op.update).foldl State.moveGranule s
  let ways := movedItems s.live op.update 3
  let s := ways.foldl State.zeroWay s
  let hit (pa : Nat) : Bool := ways.any (fun w => decide (wayBase w ≤ pa) && decide (pa < wayBase w + 0x200000))
  let s := op.update.images.foldl (fun s i =>
    (List.range (i.end_ - i.dest)).foldl (fun s o =>
      if isClearing (i.dest + o) && hit (i.dest + o) then s.setMem (s.mem.setByte (i.dest + o) (Config.undefByte s.mem.keys (i.dest + o))) else s) s) s
  let s := op.undo.foldl (fun s b => s.wrInv b.1 [b.2]) s
  s.setMem (op.poisoned.foldl (fun m l => m.setPoison l true) s.mem)

/-- The operation ends before its commit. -/
def State.chtReverse (s : State) (op : ChtOp) (code section_ : Nat) : State :=
  let s := if op.kind = .apply ∧ 5 ≤ op.step ∧ !op.full then s.undoMemory op else s
  let s := if op.full then s.bootStep 6 else s
  (op.targets.foldl (fun s n => s.releaseSaved op n) s).chtEnd op code section_

/-- ABORT, a fence or an isolation: before step 6 the operation ends with code 19; START and RESUME take no ABORT. -/
def State.chtCancel (s : State) : State :=
  match s.cht with
  | some op => if op.step < 6 then s.chtReverse op 19 noSection else s
  | none => s

/-! ## GO (R52, R57, R58, R64) -/

def stopKind : Nat → ChtKind
  | 1 => .apply | 2 => .stop | 3 => .start | _ => .resume

/-- The compartment of a sender; none for the host. -/
def State.submitter (s : State) : Sender → Option Nat
  | .host => none
  | .core k => some ((s.cmpOf k).getD 63)

/-- The sender may name the compartment (check 16). -/
def State.mayName (s : State) (sub : Option Nat) (n : Nat) : Bool :=
  match sub with
  | none => true
  | some m => match s.cmpSec m with
    | some c => c.steward && c.authority.getLsbD n
    | none => false

/-- The targets begin to stop. -/
def State.beginQuiesce (s : State) (targets : List Nat) : State :=
  targets.foldl (fun s n => if s.cmpState n = .running then s.enterCmp n .stopping else s) s

/-- A compartment is raised cold, or its saved state goes on, or it is left STOPPED for want of the pair. -/
def State.startCmp (s : State) (n : Nat) (byStart : Bool) : State := if s.mayRaise n then s.raise n byStart else s

/-- GO. Where the operation ends at once, the spec does not say what STEP and TARGETS show: STEP reads 0 (the operation reached no step) on codes
9 and 16 and where the compartment's state accepts nothing; TARGETS keeps its value on codes 9 and 16, and names the compartment otherwise
(DESIGN CHOICE, log entry 110). -/
def State.chtGo (s : State) (op0 : Nat) (sub : Option Nat) (v : Reg32) (together : Bool) : State :=
  let kind := stopKind op0
  let n := fget v 4 0
  let s := s.ctlMod o_chtStatus (fun w => fset (fone w 31 true) 21 16 (sub.getD 63))
  let op : ChtOp :=
    { kind := kind, submitter := sub, step := if op0 = 1 then 1 else if op0 = 2 then 3 else 7, own := fbit v 20,
      src := (s.ctlGet o_chtSrcLo).toNat + 2 ^ 32 * (s.ctlGet o_chtSrcHi).toNat, len := (s.ctlGet o_chtSrcLen).toNat, octets := [],
      full := false, update := Chart.empty, targets := if op0 = 1 then [] else [n], preHalted := [], undo := [], poisoned := [], cold := [],
      partner := none, go := s.time }
  if kind = .apply then (s.setTargets []).chtStep op 1
  else if (s.cmpSec n).isNone then s.chtEnd { op with step := 0 } 9 noSection
  else if !s.mayName sub n then s.chtEnd { op with step := 0 } 16 noSection
  else
    let s := s.setTargets [n]
    let c := s.cmpState n
    match kind with
    | .stop => if c = .running then (s.chtStep op 3).beginQuiesce [n] else s.chtEnd { op with step := 0 } 0 noSection
    | .start =>
      if c = .stopped ∨ c = .halted then
        let s := if together then
            let s := if s.links.spanOff.contains n then s.dropWindow else s
            { s with links := { s.links with spanOff := s.links.spanOff.filter (· != n) } }
          else s
        (s.startCmp n true).chtEnd op 0 noSection
      else s.chtEnd { op with step := 0 } 0 noSection
    | _ => if c = .stopped ∧ s.mayRaise n then (s.resumeCmp n).chtEnd op 0 noSection else s.chtEnd { op with step := 0 } 0 noSection

/-- A write of CHT.CTRL in the privileged view (R52, R64). -/
def State.chtWrite (s : State) (who : Sender) (v : Reg32) (together : Bool) : State :=
  let op := fget v 27 24
  if 4 < op ∨ (who = .host ∧ fbit v 20) then s.ctlMod o_chtStatus (fun w => fone w 30 true)
  else
    let go := fbit v 31
    let s1 := if fbit v 30 then s.chtCancel else s
    if go && s.cht.isSome then (if op = 0 then s1 else s1.ctlMod o_chtStatus (fun w => fone w 28 true))
    else if go && op == 0 then s1
    else
      let s1 := s1.ctlSet o_chtCtrl (v &&& 0x0F10001F)
      if go then s1.chtGo op (s1.submitter who) v together else s1

/-- A sender reaches the privileged half of the CHT frame. -/
def State.chtReach (s : State) (who : Sender) : Bool := s.reach who o_chtCtrl

/-! ## APPLY (Table 2-12) -/

/-- Step 1 ends. -/
def State.chtFetched (s : State) (op : ChtOp) (octs : List Nat) : State := s.chtStep { op with octets := octs } 2

/-- The container of a compartment, read from its own memory with dense packing. -/
def State.chtFetchOwn (s : State) (op : ChtOp) : State :=
  match op.submitter with
  | none => s
  | some n =>
    if op.src % 8 ≠ 0 ∨ !s.ownsRange n op.src (packedLen true op.len) then s.chtEnd op 19 noSection
    else s.chtFetched op (s.mem.octets true op.src 0 op.len)

/-- Step 2 ends: the container fails a check, or its targets begin to stop. -/
def State.chtVerify (s : State) (op : ChtOp) : State :=
  let who : From := match op.submitter with | some n => .cmp n | none => .host
  match s.verify who op.octets with
  | .error f => s.chtEnd op f.code f.section_
  | .ok (update, up) =>
    let targets := if update then Chart.targets s.live up else up.cmps.map (·.id)
    let op := { op with full := !update, update := up, targets := targets, preHalted := targets.filter (fun n => s.cmpState n == .halted) }
    let s := (s.setTargets targets).chtStep op 3
    let s := if s.paired op then { s with sent := .pair 1 (octVal up.digest) :: s.sent } else s
    s.beginQuiesce targets

/-- Step 3 ends for the targets: those that are STOPPING are STOPPED. One that is HALTED, from before or by a machine check meanwhile, has
its engines parked, its queues halted and its windows closed as well, and stays HALTED (R59, R65). -/
def State.chtQuiesce (s : State) (targets : List Nat) (ends : Option Nat) : State :=
  targets.foldl (fun s n => match s.cmpState n with
    | .stopping => (s.quiesce n ends).enterCmp n .stopped
    | .halted => s.quiesceDevices n
    | _ => s) s

/-- Step 4: moved memory is purged, rekeyed and zeroed, and the images are written. -/
def State.chtReassign (s : State) (op : ChtOp) : State :=
  if op.full then s.chtStep op 5
  else
    let ch := s.chtNext op
    let stays (i : ImageSec) (pa : Nat) : Bool := s.ownerOfPa pa == some i.cmp && within (memOf ch.res i.cmp false) pa (pa + 1)
    let undo := op.update.images.flatMap (fun i =>
      (((List.range (i.end_ - i.dest)).map (i.dest + ·)).filter (stays i)).map (fun pa => (pa, s.mem.byte pa)))
    let lines := op.update.images.flatMap (fun i =>
      ((List.range (lineOf (i.end_ - 1) + 1 - lineOf i.dest)).map (lineOf i.dest + ·)).filter (fun l => s.mem.poisoned l))
    let s := (movedGranules s.live op.update).foldl State.moveGranule s
    let s := (movedItems s.live op.update 3).foldl State.zeroWay s
    let s := op.update.images.foldl State.writeImage s
    s.chtStep { op with undo := undo, poisoned := lines } 5

/-- A target starts cold (R57): its section says so, or its core set changes, or it has nothing saved. -/
def State.chtCold (old new : Chart) (op : ChtOp) (n : Nat) : Bool :=
  (old.cmpSec n).isNone ||
    (match op.update.cmps.find? (·.id == n) with
      | some c => !c.resume
      | none => old.coresOf n != new.coresOf n)

/-- Cores that are, or will start, in fixed-timing mode (R353). -/
def State.ftCores (s : State) (ch : Chart) (cold : Nat → Bool) : List Nat :=
  ch.cmps.flatMap (fun m =>
    if cold m.id then (if m.ftStart then ch.coresOf m.id else [])
    else (ch.coresOf m.id).filter (fun k => (s.core k).ft || (s.core k).ftChange == some true))

/-- The section that code 17 names. -/
def ChtOp.sectionOf (op : ChtOp) (f : AdmitFail) : Nat :=
  let at_ (t x : Nat) : Option Nat := (op.update.index.find? (fun e => e.1 == t && e.2.1 == x)).map (·.2.2)
  ((match f.grove with | some g => at_ 6 g | none => at_ 4 f.cmp).getD noSection)

/-- Step 5: the old bookings and the new set together; then the partner's digest, which a split since it was staged makes void (R63). -/
def State.chtAdmit (s : State) (op : ChtOp) : State :=
  let ch := s.chtNext op
  match s.admission ch (s.ftCores ch (fun n => op.targets.contains n && State.chtCold s.live ch op n)) with
  | some f => (s.ctlSet o_ttLastfail f.reg).chtReverse op 17 (op.sectionOf f)
  | none =>
    if s.paired op then match op.partner with
      | none => s
      | some d => if d = op.update.digest ∧ s.links.pair = 2 then s.chtStep op 6 else s.chtReverse op 18 noSection
    else s.chtStep op 6

/-- The counters of a moved slot take their reset values (R586). -/
def State.pmuReset (s : State) (k : Nat) : State :=
  let b := o_pmuCctl (groveOf k) (slotOf k)
  { s with ctl := s.ctl.filter (fun e => !(decide (b ≤ e.1) && decide (e.1 < b + 0x100))) }

/-- The Stand of a moved core: L2 cleaned and invalidated. -/
def State.emptyStand (s : State) (stand : Nat) : State :=
  ((s.mem.l2.filter (·.stand == stand)).map (·.line)).foldl (fun s l => s.l2Evict stand l) s

/-- Step 6: the one write of the Chart store (R61). Cores, engines, queues, functions and Understoreys that move take their new
state with the assignments, for no change is visible before (R59). -/
def State.chtCommit (s : State) (op : ChtOp) : State :=
  let old := s.live
  let ch := s.chtNext op
  let gen (s : State) : State := { s with generation := op.targets.foldl (fun g n => smPut 0 g n ((smGet 0 g n + 1) % 65536)) s.generation }
  if op.full then gen ((s.loadChart ch false).switchSet false)
  else
    let mv := movedItems old op.update
    let cores := mv 1
    let s := s.notifyMoved (cores.contains ·)
    let s := s.hdbMoved (cores.contains ·)
    let s := (mv 7).foldl (fun s e => s.engineMoved e (fun q => !(mv 4).contains q)) s
    let s := (mv 4).foldl State.queueMoved s
    let s := (mv 6).foldl State.functionMoved s
    let s := cores.foldl (fun s k => ((s.emptyStand (standOf k)).releaseSlot k).pmuReset k) s
    let s := ({ s with live := ch, store := some ch, buckets := [] } : State).dropRecords
    let s := ((List.range 12).filter (fun g => op.update.usts.any (·.grove == g) || (mv 9).contains g)).foldl State.loadUst s
    let s := (op.update.nets.map (·.1)).foldl State.netLoad s
    let s := s.modHep (fun h => { h with admitted := some (fget (s.ctlGet o_hepStatus) 29 27, fget (s.ctlGet o_hepStatus) 26 22) })
    let s := op.targets.foldl (fun s n => if s.cmpState n = .absent then s.setCmpState n .changing else s) s
    gen s

/-- Step 7: each target is released as its section's RESTART states, or by its core set (R57). -/
def State.chtRelease (s : State) (op : ChtOp) (cold : Nat → Bool) : State :=
  op.targets.foldl (fun s n =>
    if s.cmpState n ≠ .changing then s
    else if !s.mayRaise n then s.enterCmp n .stopped
    else if cold n then s.raise n false
    else s.resumeCmp n) s

/-- Step 6 and the note of how each target restarts, which needs the old assignments. -/
def State.chtCommitStep (s : State) (op : ChtOp) : State :=
  let ch := s.chtNext op
  let cold := op.targets.filter (State.chtCold s.live ch op)
  let s := s.chtCommit op
  s.chtStep { op with undo := [], poisoned := [], cold := cold } 7

/-- The targets that are STOPPING can stop. -/
def State.chtStoppable (s : State) (op : ChtOp) : Bool :=
  (op.targets.filter (fun n => s.cmpState n == .stopping)).all s.cmpStoppable

/-- Step 4 begins: targets are CHANGING, but for those that have been halted or fenced meanwhile. -/
def State.enterChanging (s : State) (op : ChtOp) : State :=
  op.targets.foldl (fun s n =>
    if s.cmpState n = .stopped ∨ (s.cmpState n = .halted ∧ op.preHalted.contains n) then s.enterCmp n .changing else s) s


/-- Step 7 ends the operation; a full container also ends the boot. -/
def State.chtReleaseStep (s : State) (op : ChtOp) : State :=
  if op.full then
    ((s.bootStep 9).raiseAll.chtEnd op 0 noSection).bootDone
  else (s.chtRelease op (op.cold.contains ·)).chtEnd op 0 noSection

/-- The step in progress completes. -/
def State.applyNext (s : State) (op : ChtOp) : State :=
  match op.step with
  | 1 => if op.own then s.chtFetchOwn op else s
  | 2 => s.chtVerify op
  | 3 =>
    if s.chtStoppable op then
      let s := (s.chtQuiesce op.targets (some 3)).enterChanging op
      (if op.full then s.bootStep 7 else s).chtStep op 4
    else s
  | 4 => s.chtReassign op
  | 5 => s.chtAdmit op
  | 6 =>
    if s.paired op then
      (if s.live.pairIndex = 0 then { s.chtCommitStep op with sent := .pair 2 (octVal op.update.digest) :: (s.chtCommitStep op).sent } else s)
    else s.chtCommitStep op
  | _ => s.chtReleaseStep op

/-- What an event of APPLY does. -/
def State.applyEv (s : State) (ev : ChtEv) : State :=
  match ev, s.cht with
  | .go who sp, _ => if s.chtReach who then s.chtWrite who (r32 (2 ^ 31 + 2 ^ 24 + (if sp = 0 then 0 else 2 ^ 20))) false else s
  | .fetched octs, some op =>
    if op.kind = .apply ∧ op.step = 1 ∧ !op.own then
      (match octs with
        | none => s.chtEnd op 19 noSection
        | some o => if o.length = op.len then s.chtFetched op o else s)
    else s
  | .staged d, some op => if op.kind = .apply ∧ op.step < 6 ∧ s.links.pair = 2 then { s with cht := some { op with partner := some d } } else s
  | .next, some op => if op.kind = .apply then s.applyNext op else s
  | _, none => s

/-! ## The other rows -/

def execStop (ev : ChtEv) (s : State) : Out :=
  match ev, s.cht with
  | .go who n, _ => .next (if s.chtReach who then s.chtWrite who (r32 (2 ^ 31 + 2 * 2 ^ 24 + n % 32)) false else s)
  | .next, some op =>
    .next (if op.kind = .stop ∧ s.chtStoppable op then (s.chtQuiesce op.targets none).chtEnd op 0 noSection else s)
  | _, _ => .next s

def execStart (who : Sender) (cmp : Nat) (together : Bool) (s : State) : Out :=
  .next (if s.chtReach who then s.chtWrite who (r32 (2 ^ 31 + 3 * 2 ^ 24 + cmp % 32)) together else s)

def execResume (who : Sender) (cmp : Nat) (s : State) : Out :=
  .next (if s.chtReach who then s.chtWrite who (r32 (2 ^ 31 + 4 * 2 ^ 24 + cmp % 32)) false else s)

/-- A write of ABORT alone leaves OP, SRC_SPACE and CMP as they are. -/
def execChtAbort (who : Sender) (s : State) : Out :=
  .next (if s.chtReach who then s.chtWrite who (fone (s.ctlGet o_chtCtrl &&& (if who = .host then 0x0F00001F else 0x0F10001F)) 30 true) false else s)

/-- Pair index 1 commits when index 0 has. -/
def execPartnerCommitSignal (s : State) : Out :=
  match s.cht with
  | some op => .next (if s.paired op ∧ op.step = 6 ∧ s.live.pairIndex = 1 then s.chtCommitStep op else s)
  | none => .next s

/-- 5 ms after GO the partner has not staged the update. -/
def execPartnerStageTimeout (s : State) : Out :=
  match s.cht with
  | some op =>
    .next (if s.paired op ∧ op.step < 6 ∧ op.partner ≠ some op.update.digest ∧ op.go + 5000000 ≤ s.time then s.chtReverse op 18 noSection else s)
  | none => .next s

end Sys2Proof.Machine
end

