-- ==== Sys2Proof/Machine/Reset.lean ====
section
/-!
DEFINITION. The resets of the whole package (R534, R535, R541 to R543, R549, R567, R593): what each keeps (Table 21-5), and the
commands that begin them.
-/
namespace Sys2Proof.Machine

/-! ## Package warm reset (R542) -/

/-- Registers that keep their value across a package warm reset: the Timetable's and the DRAM controllers' frames, and those whose
meaning runs since power-on (log entry 22). -/
def keptReg (off : Nat) : Bool :=
  off / 0x10000 == 3 || (decide (8 ≤ off / 0x10000) && decide (off / 0x10000 < 16)) ||
  off == o_pwrRstcause || off == o_xngEpoch || off == o_xngSplitinfo || off == o_secTamper

/-- Subchannels in service enter self-refresh; a failed one is to be trained again (R394, R396), and one in MPSM stays there (R558). -/
def State.selfRefresh (s : State) : State :=
  (List.range 16).foldl (fun s c => s.setSub c (if s.subState c = 3 ∨ s.subState c = 0 then 0 else if s.subState c = 5 then 5 else 4)) s

/-- Fuses outlive every reset. -/
def Sec.fused (x : Sec) : Sec :=
  { Sec.reset with field := x.field, slots := x.slots, revoked := x.revoked, svnFloor := x.svnFloor, fwFloor := x.fwFloor }

/-- A package warm reset with its cause; `held` while RESET_N is low. Everything stops without quiesce (R346, R542). -/
def State.warmReset (s : State) (cause : Nat) (held : Bool) : State :=
  let s := ({ s with logOff := false }.linkLost).selfRefresh
  let count := min 65535 (fget (s.ctlGet o_pwrRstcause) 15 0 + 1)
  let s := { s with
    cores := [], mem := { Mem.reset with dram := s.mem.dram, keys := s.mem.keys, era := s.mem.era, epoch := s.mem.epoch,
                                         poison := s.mem.poison.filter (fun l => !isClearing (l * 64)) },
    ctl := s.ctl.filter (fun e => keptReg e.1), ulatch := [], halts := [], live := Chart.empty, cmps := [], generation := [], cht := none,
    evl := { s.evl with keys := [] }, buckets := [], held := [], flight := [], usts := [],
    mft := s.mft.map (fun (e : Nat × MftSess) => (e.1, { MftSess.none with session := e.2.session, key := e.2.key })), mftc := [], nettime := [],
    dram := { s.dram with wq := [], corr := [], ue := [], drift := [], fails := [], hot := [] }, qm := Qm.reset,
    hep := { Hep.reset with perst := s.hep.perst }, net := Net.reset,
    links := { Links.reset with active := s.links.active },
    pwr := { Pwr.reset with phase := if held then .held else .boot, step := 1, warm := true, began := s.time, mpsm := s.pwr.mpsm, railOk := s.pwr.railOk },
    sec := { s.sec with keys := false, staged := [], failAt := [] } }
  let s := s.ctlSet o_pwrRstcause (r32 (cause * 2 ^ 28 + count))
  s.event (if cause = 6 then 6 else 0) 0x003 landing none 0 (s.ctlGet o_pwrRstcause).toNat 0

/-! ## Tamper reset (R543, R567) -/

/-- Every die is reset and every secret overwritten; the package is held until its sensors have been in range for 100 ms. `src` is
the bit of SEC.TAMPER. -/
def State.tamperReset (s : State) (src : Nat) : State :=
  let t := fone (s.ctlGet o_secTamper) src true
  let t := fset t 7 0 (min 255 (fget t 7 0 + 1))
  let z := State.reset
  let s' := { z with
    pending := s.pending, draws := s.draws, fuses := s.fuses, board := s.board, sent := s.sent,
    mem := { Mem.reset with keys := s.mem.keys + 1, era := s.mem.keys + 1 },
    hep := { Hep.reset with perst := s.hep.perst }, sec := { s.sec.fused with dbgState := s.sec.dbgState },
    pwr := { Pwr.reset with phase := .tamper, tamperLog := true, railOk := s.pwr.railOk } }
  (s'.ctlSet o_secTamper t).ctlSet o_pwrRstcause (r32 (7 * 2 ^ 28))

/-! ## Off (R534, R553) -/

/-- PWROK is low: nothing is retained but what is fused. -/
def State.powerOff (s : State) : State :=
  { State.reset with
    pending := s.pending, draws := s.draws, fuses := s.fuses, board := s.board, sent := s.sent, sec := s.sec.fused,
    mem := { Mem.reset with keys := s.mem.keys + 1, era := s.mem.keys + 1 }, hep := { Hep.reset with perst := s.hep.perst },
    pwr := { Pwr.reset with railOk := s.pwr.railOk } }

def execPowerLoss (s : State) : Out := .next s.powerOff

/-! ## The commands that begin a reset -/

/-- The package has power and is not held by a tamper reset. -/
def State.awake (s : State) : Bool := s.pwr.phase != .off && s.pwr.phase != .tamper

/-- RESET_N low for `ns` nanoseconds; a pulse below 1 microsecond is ignored (R535). -/
def execResetN (ns : Nat) (s : State) : Out := .next (if s.awake && s.pwr.phase != .held && decide (1000 ≤ ns) then s.warmReset 1 true else s)

/-- RESET_N returns high: boot goes on from step 1. -/
def execResetNRelease (s : State) : Out :=
  .next (if s.pwr.phase = .held then { s with pwr := { s.pwr with phase := .boot, step := 1, began := s.time } } else s)

def State.warmrst (s : State) : State := if s.awake && s.pwr.phase != .held then s.warmReset 2 false else s
/-- PWR.CTRL is in the package area, and only PF0 reaches it. -/
def execWarmrst (s : State) : Out := .next (if s.reach .host o_pwrCtrl then s.warmrst else s)

/-- The Keeper's firmware is running: its watchdog and its two cores are on (R542). -/
def State.keeperOn (s : State) : Bool :=
  match s.pwr.phase with
  | .boot => decide (4 ≤ s.pwr.step)
  | .stopped => true
  | .run => true
  | .parking => true
  | _ => false

/-- The stop of R25: boot has ended at step 5 with no spoke module up (ERROR 5). -/
def State.noSpokeStop (s : State) : Bool := s.pwr.phase == .stopped && fget (s.ctlGet o_pwrBootstat) 27 24 == 5

def execWatchdogExpiry (s : State) : Out := .next (if s.keeperOn && !s.noSpokeStop then s.warmReset 3 false else s)
def execLockstepMismatch (s : State) : Out := .next (if s.keeperOn && !s.noSpokeStop then s.warmReset 4 false else s)

/-- An uncorrectable error in a structure of Table 24-2 that is fatal to the package (R593); `chart`: it lies in the Chart store. In the stop
of R25 it is recorded, and no reset follows. -/
def execPackageFatalError (row : Nat) (chart : Bool) (s : State) : Out :=
  if !s.awake || s.pwr.phase == .held then .next s
  else
    let stop := s.noSpokeStop
    let s := s.event 6 0x03A landing none 0 (row % 16) 0
    let s := if chart then { s with store := none } else s
    .next (if stop then s else s.warmReset 6 false)

/-- The bit of SEC.TAMPER of a sensor of Table 22-4: supply, glitch, clock, temperature, mesh, generator. -/
def sensorBit (sensor : Nat) : Nat := 31 - min sensor 5

/-- A sensor trips: the overwrite of R567, then the tamper reset. -/
def execTamper (sensor : Nat) (s : State) : Out := .next (if s.pwr.phase = .off then s else s.tamperReset (sensorBit sensor))

/-- The package reference clock is more than 1,000 ppm off for 10 microseconds, or lost for 1 microsecond (R549). -/
def execRefclkFault (lost : Bool) (ppm ns : Nat) (s : State) : Out :=
  let bad : Bool := if lost then decide (1000 ≤ ns) else decide (1000 < ppm) && decide (10000 ≤ ns)
  .next (if s.pwr.phase ≠ .off ∧ bad then s.tamperReset 29 else s)

/-- Every sensor has been in range for 100 ms: boot as from power-on. -/
def execTamperRelease (s : State) : Out :=
  .next (if s.pwr.phase = .tamper ∧ s.pwr.quietFrom + 100000000 ≤ s.time then
    { s with pwr := { s.pwr with phase := .boot, step := 1, began := s.time } } else s)

/-- The PCI Express reference clock is lost: the link goes to DL_Down (R549, R474). -/
def execPcieRefclkLoss (s : State) : Out := .next (s.linkLost.modHep (fun h => { h with training := !h.perst }))

end Sys2Proof.Machine
end

