-- ==== Sys2Proof/Machine/Ferry.lean ====
section
/-!
DEFINITION. The Ferry links (R478 to R493), changes of route and isolation (R23 to R25): flits and their retry, training, spares and half
width, isolation. Links are numbered as modules, with the Crossing ports 36 and 37, whose flits follow the same rules (R496).
-/
namespace Sys2Proof.Machine

/-! ## Access -/

def State.modLinks (s : State) (f : Links → Links) : State := { s with links := f s.links }
def State.setFerry (s : State) (m : Nat) (x : FryModule) : State :=
  let s := if (s.ferry m).st = x.st then s else s.countUp
  s.modLinks (fun l => { l with modules := smPut FryModule.reset l.modules m x })
def State.modFerry (s : State) (m : Nat) (f : FryModule → FryModule) : State := s.setFerry m (f (s.ferry m))
def State.setXport (s : State) (p : Nat) (x : XngPort) : State := s.modLinks (fun l => { l with ports := smPut XngPort.reset l.ports p x })
def State.modXport (s : State) (p : Nat) (f : XngPort → XngPort) : State := s.setXport p (f (s.xport p))

def FryModule.dir (m : FryModule) (d : Nat) : LinkDir := if d = 0 then m.d0 else m.d1
def FryModule.setDir (m : FryModule) (d : Nat) (x : LinkDir) : FryModule := if d = 0 then { m with d0 := x } else { m with d1 := x }

def State.linkUp (s : State) (l : Nat) : Bool := if l < 36 then s.ferryUp l else (s.xport (l - 36)).up
def State.linkDir (s : State) (l d : Nat) : LinkDir :=
  if l < 36 then (s.ferry l).dir d else if d = 0 then (s.xport (l - 36)).d0 else (s.xport (l - 36)).d1
def State.setLinkDir (s : State) (l d : Nat) (x : LinkDir) : State :=
  if l < 36 then s.modFerry l (·.setDir d x)
  else s.modXport (l - 36) (fun p => if d = 0 then { p with d0 := x } else { p with d1 := x })

/-- The Grove and its local module number at which a direction of a module is received; none at the Landing (Table 1-3). -/
def fryRx (m d : Nat) : Option (Nat × Nat) :=
  if m < 24 then (if d = 0 then some (m / 2, m % 2) else none)
  else if d = 0 then some ((m - 24 + 1) % 12, 3) else some (m - 24, 2)
/-- The Groves in whose frames a module appears. -/
def fryEnds (m : Nat) : List (Nat × Nat) := if m < 24 then [(m / 2, m % 2)] else [(m - 24, 2), ((m - 24 + 1) % 12, 3)]
/-- An event of a module at the Grove and local number of one of its ends (Table 23-4). -/
def State.fryCount (s : State) (e : Option (Nat × Nat)) (ev : Nat) : State := match e with
  | some (g, l) => s.ucount g ev l 1 none none
  | none => s
def fryDie (m : Nat) : Nat := if m < 24 then m / 2 else m - 24

/-! ## Routes (R23) -/

/-- Traffic from die a to die b moves to its route, at a flush point. -/
def execRouteChange (a b : Nat) (s : State) : Out :=
  if 12 < a ∨ 12 < b ∨ a = b then .next s
  else match s.routeFor a b with
    | none => .next s
    | some r =>
      let old := s.routeInForce a b
      if r = old ∨ !old.all s.flushed then .next s
      else
        let s := s.modLinks (fun l => { l with routes := smPut (firstRoute a b) l.routes (16 * a + b) r })
        .next (s.event 0 0x045 a none 0 b 0)

/-- A reroute under R22 is in force (TT.STATUS.REROUTED). -/
def State.rerouted (s : State) : Bool := (List.range 12).any (fun g => !s.spokeUp g && (s.gateway g).isSome)
/-- A module or port runs at half width (TT.STATUS.DEGRADED). -/
def State.degraded (s : State) : Bool := (List.range 36).any (fun m => (s.ferry m).st == .half) || [0, 1].any (fun p => (s.xport p).st == 3)

/-! ## Isolation (R24, R25) -/

/-- Both spoke modules and both ring links of a Grove are down. -/
def State.cutOff (s : State) (g : Nat) : Bool := (List.range 4).all (fun l => !s.ferryUp (localModule g l))

/-- A Grove is isolated: its compartments stop, its homes are lost (R24, R65, R339), and the operations of its Understorey are lost
without landing (R223). -/
def State.isolate (s : State) (g : Nat) : State :=
  let s := s.modLinks (fun l => { l with isolated := g :: l.isolated })
  let s := (s.event 5 0x046 g none 0 g 0).chtCancel
  let cmps := (List.range 32).filter (fun n => s.live.res.any (fun r => r.owner == n &&
    ((r.kind == 1 && (List.range r.count).any (fun i => (r.first + i) / 20 == g)) || (r.kind == 3 && r.first / 16 == g))))
  let s := (List.range 20).foldl (fun s i => s.discardAll (20 * g + i)) s
  (cmps.foldl State.haltCmp s).loseHome g

/-- A module has gone down in Run: Groves that have lost their last module are isolated, and a package without a spoke is reset. -/
def State.afterDown (s : State) : State :=
  if s.pwr.phase ≠ .run ∧ s.pwr.phase ≠ .parking then s
  else if (List.range 12).all (fun g => !s.spokeUp g) then s.warmReset 5 false
  else ((List.range 12).filter (fun g => s.cutOff g && !s.links.isolated.contains g)).foldl State.isolate s

/-! ## Going down -/

/-- The module retrains: down until it is up again (R490, R492). `fromBist`: the full sequence. -/
def State.fryDown (s : State) (m : Nat) (fromBist half : Bool) : State :=
  let s := s.modFerry m (fun x => { x with st := .retrain, fromBist := fromBist, half := half, bistWindow := false, retryAt := [], protAt := [] })
  (s.event 8 0x042 (fryDie m) none 0 m 0).afterDown

/-- A Crossing port goes down or retrains (R495). -/
def State.xngState (s : State) (p st : Nat) : State :=
  let was := (s.xport p).up
  let s := s.modXport p (fun x => { x with st := st })
  let s := if was && !(s.xport p).up then s.modLinks (fun l => { l with upAt := s.time }) else s
  s.event 0 0x050 landing none 0 (st * 256 + p) 0

def State.linkRetrain (s : State) (l : Nat) : State :=
  if l < 36 then s.fryDown l ((s.ferry l).version != 20) (s.ferry l).half else s.xngState (l - 36) 4

/-! ## Flits (R479 to R482) -/

/-- CRC-32C over n bits taken from bit 0 upwards (Table 19-2). -/
def crcBits (v : Nat) : Nat → Nat → Nat → Nat
  | 0, _, crc => crc
  | n + 1, i, crc =>
    let fb : Bool := crc.testBit 31 != v.testBit i
    let c := crc * 2 % 2 ^ 32
    crcBits v n (i + 1) (if fb then c ^^^ 0x1EDC6F41 else c)
def flitCrc (v : Nat) : Nat := crcBits v 608 0 0xFFFFFFFF

def flitSeq (v : Nat) : Nat := v / 2 ^ 598 % 1024
def flitKind (v : Nat) : Nat := v / 2 ^ 596 % 4
def flitAck (v : Nat) : Nat := v / 2 ^ 586 % 1024
def flitCredits (v : Nat) : Nat := v / 2 ^ 576 % 1024
def flitRetry (v : Nat) : Bool := v.testBit 0
def flitBeat (v : Nat) : Bool := v.testBit 11

def retryDepth (l : Nat) : Nat := if l < 36 then 256 else 512

/-- The flits that an ACK covers leave the retry buffer. -/
def LinkDir.acked (x : LinkDir) (seq : Nat) : LinkDir :=
  match x.buf.findIdx? (fun f => flitSeq f == seq) with
  | some i => { x with buf := x.buf.drop (i + 1) }
  | none => x

/-- What the transmitter may put on the wire: a new header or data flit, or one that it replays. -/
def LinkDir.sendable (x : LinkDir) (l v : Nat) : Bool :=
  if flitKind v = 0 then true
  else if x.buf.contains v then true
  else flitSeq v == x.next && decide (x.buf.length < retryDepth l) && !x.asked

/-- A new flit is kept until it is acknowledged; it takes a credit (log entry 23). -/
def LinkDir.sentNew (x : LinkDir) (v now : Nat) : LinkDir :=
  if flitKind v = 0 ∨ x.buf.contains v then x
  else { x with buf := x.buf ++ [v], next := (x.next + 1) % 1024, credits := x.credits + 1, headerAt := if flitKind v = 1 then now else x.headerAt }

/-- The retries of the last 10 microseconds pass 64, or one flit has been replayed 8 times (R482). -/
def State.retryLimit (s : State) (l d : Nat) : State :=
  let recent (t : List Nat) : List Nat := (t ++ [s.time]).filter (fun x => decide (s.time ≤ x + 10000))
  if l < 36 then
    let s := s.modFerry l (fun m => { m with retryAt := recent m.retryAt })
    let m := s.ferry l
    if 64 < m.retryAt.length ∨ 8 ≤ (m.dir d).replays then s.modFerry l (fun m => { m with bistWindow := true, st := .remap, retryAt := [] }) else s
  else
    let s := s.modXport (l - 36) (fun m => { m with retryAt := recent m.retryAt })
    let m := s.xport (l - 36)
    if 64 < m.retryAt.length ∨ 8 ≤ (s.linkDir l d).replays then s.linkRetrain l else s

/-- The receiver discards a flit and asks for it again, unless it waits for a replay that has not begun (R480, R481). -/
def State.discard (s : State) (l d : Nat) : State :=
  let x := s.linkDir l d
  if x.asked && !x.replaying then s
  else
    let s := s.setLinkDir l d { x with asked := true, replaying := false }
    let s := if l < 36 then (match fryRx l d with | some (g, m) => s.ctlInc (o_fryRetries g m) | none => s)
      else if d = 0 then s.ctlInc (o_xngRetries (l - 36)) else s
    s.retryLimit l d

/-- A violation by the partner: counted, recorded, and at 16 within 1 ms answered by a retrain (R492, R496). -/
def State.protErr (s : State) (l d addr : Nat) : State :=
  let recent (t : List Nat) : List Nat := (t ++ [s.time]).filter (fun x => decide (s.time ≤ x + 1000000))
  if l < 36 then
    let e := (fryRx l d).getD (fryDie l, l % 2)
    let s := s.ctlInc (o_fryProterr e.1 e.2)
    let s := s.event 7 0x047 e.1 none 0 (l + 64 * ((s.ctlGet (o_fryProterr e.1 e.2)).toNat % 2 ^ 26)) 0
    let s := s.modFerry l (fun m => { m with protAt := recent m.protAt })
    if 16 ≤ (s.ferry l).protAt.length then s.linkRetrain l else s
  else
    let s := s.xngViolation (l - 36) addr
    let s := s.modXport (l - 36) (fun m => { m with protAt := recent m.protAt })
    if 16 ≤ (s.xport (l - 36)).protAt.length then s.linkRetrain l else s

/-- Everything sent in a direction is abandoned: its module is DISABLED, or its pair has split. SEQ begins anew (log entry 108). -/
def LinkDir.abandoned (x : LinkDir) : LinkDir :=
  { x with next := 0, buf := [], expect := 0, asked := false, replaying := false, replays := 0, credits := 0 }

/-- The counter of a flit's key stream and its key (R568): the header and data flits that its direction's receiver has accepted before it,
under the join's epoch. `none`: a Ferry link, or no key. -/
def State.linkCipher (s : State) (l d : Nat) : Option (BitVec 596) :=
  if l < 36 then none
  else
    let x := s.xport (l - 36)
    let key := if d = 0 then x.key0 else x.key1
    let side := if d = 0 then 1 - s.live.pairIndex else s.live.pairIndex
    if key.isEmpty then none
    else some (Config.linkStream key (s.ctlGet o_xngEpoch).toNat (l - 36) side (if d = 0 then x.flits0 else x.flits1))

/-- PAYLOAD and CTL of a received header or data flit, deciphered; control flits are not enciphered. -/
def State.flitText (s : State) (l d v : Nat) : Nat := match s.linkCipher l d with
  | some k => if flitKind v = 0 then v else v ^^^ k.toNat
  | none => v

/-- A header or data flit of a Crossing port has been accepted. -/
def State.countFlit (s : State) (l d : Nat) : State :=
  if l < 36 then s
  else s.modXport (l - 36) (fun x =>
    if d = 0 then { x with flits0 := (x.flits0 + 1) % 2 ^ 64 } else { x with flits1 := (x.flits1 + 1) % 2 ^ 64 })

/-- The messages of a new flit, each by its line and the dies it goes between, take this link: of a spoke, a route and the Crossing the one
that the line's parity picks (R20, R26), and none while its traffic changes its route (R23). -/
def State.takesLink (s : State) (l : Nat) (msgs : List (Nat × Nat × Nat)) : Bool :=
  msgs.all (fun e =>
    if l < 36 then (s.wayFor e.2.1 e.2.2 e.1).contains l && !s.moving e.2.1 e.2.2 else s.xngFor e.1 == some (l - 36))

/-- What a transmitter of this package may put on a link now, beside what its buffer allows: in a quiet window no new flit (R488); on the
Crossing, while the pair is not joined, only control flits (R510). A header or control flit that it has not sent before acknowledges the
last flit received in order, and a control flit carries the next SEQ (R479). -/
def State.maySend (s : State) (l d v : Nat) : Bool :=
  let x := s.linkDir l d
  x.buf.contains v ||
    ((flitKind v == 0 || (if l < 36 then (s.ferry l).st != .remap else s.links.pair == 2)) &&
     (flitKind v != 0 || flitSeq v == x.next) &&
     (decide (2 ≤ flitKind v) || flitAck v == ((s.linkDir l (1 - d)).expect + 1023) % 1024))

/-- Messages that a flit carries (R479): up to four headers, one line, or none. -/
def flitHolds (v : Nat) : Nat := if flitKind v = 1 then 4 else if flitKind v = 2 then 1 else 0

/-- An accepted flit acts: ACK and credits on the other direction, the heartbeat. A violation is discarded. -/
def State.flitIn (s : State) (l d v : Nat) (bad : Bool) : State :=
  let k := flitKind v
  let back := s.linkDir l (1 - d)
  if bad ∨ k = 3 ∨ (k ≤ 1 ∧ back.credits < flitCredits v) then s.protErr l d 0
  else if k = 2 then s
  else
    let s := s.setLinkDir l (1 - d) { back.acked (flitAck v) with credits := back.credits - flitCredits v }
    if k = 0 ∧ 36 ≤ l ∧ d = 0 ∧ flitBeat v then s.modLinks (fun x => { x with heardAt := s.time }) else s

/-- A flit crosses a link: as it stands on the wire, with the bits that the wire has inverted; `load`: what its transmitter has
put into it (log entry 108), and whether its content names what no agent can decode or no open transaction (R492). The transmitter of a
Crossing port's direction 0 is the partner. -/
def execFlitReceive (link dir : Nat) (flit errors : BitVec 640) (load : FlitLoad) (s : State) : Out :=
  if 38 ≤ link ∨ 2 ≤ dir ∨ !s.linkUp link then .next s
  else
    let mine : Bool := !(link ≥ 36 && dir == 0)
    let x := s.linkDir link dir
    let fits : Bool := x.buf.contains flit.toNat || (decide (load.msgs.length ≤ flitHolds flit.toNat) && s.takesLink link load.msgs)
    if mine && !(x.sendable link flit.toNat && s.maySend link dir flit.toNat && fits) then .next s
    else
      let s := if mine then s.setLinkDir link dir (x.sentNew flit.toNat s.time) else s
      let ferry : Bool := decide (link < 36)
      let s := if ferry ∧ flitKind flit.toNat ≠ 0 then s.fryCount (fryRx link (1 - dir)) 0x10 else s
      let x := s.linkDir link dir
      let got := (flit ^^^ errors).toNat
      let crcOk : Bool := flitCrc (got % 2 ^ 608) == got / 2 ^ 608
      if flitKind got = 0 ∧ crcOk then .next (s.flitIn link dir got load.bad)
      else if crcOk && flitSeq got == x.expect then
        let text := s.flitText link dir got
        let s := (s.setLinkDir link dir { x with expect := (x.expect + 1) % 1024, asked := false, replaying := false, replays := 0 }).countFlit link dir
        let s := if ferry then s.fryCount (fryRx link dir) 0x11 else s
        .next (s.flitIn link dir text load.bad)
      else .next (s.discard link dir)

/-- The transmitter takes a retry request and replays from the flit asked for (R481). -/
def execRetryRequest (link dir : Nat) (s : State) : Out :=
  let x := s.linkDir link dir
  .next (if link < 38 ∧ dir < 2 ∧ s.linkUp link ∧ x.asked ∧ !x.replaying then
    let s := s.setLinkDir link dir { x with replaying := true, replays := x.replays + 1 }
    if link < 36 then s.fryCount (fryRx link (1 - dir)) 0x12 else s
  else s)

/-- Nanoseconds of 16 flit times (R479, R494, R495). -/
def State.idleTime (s : State) (l : Nat) : Nat :=
  if l < 36 then (if (s.ferry l).st = .half then 20 else 10) else if (s.xport (l - 36)).st = 3 then 40 else 20

/-- No header flit for 16 flit times: a control flit goes out, so that ACK and credits keep flowing. -/
def execIdleControlFlit (link dir : Nat) (s : State) : Out :=
  let x := s.linkDir link dir
  .next (if link < 38 ∧ dir < 2 ∧ s.linkUp link ∧ x.headerAt + s.idleTime link ≤ s.time then
    (s.setLinkDir link dir { x with headerAt := s.time }).emit (.flit link) else s)

/-! ## Lanes (R487 to R490) -/

/-- Lanes of a direction are numbered 0 to 63 data, 64 the valid lane, 100 + s spare s. -/
def LinkDir.fail (x : LinkDir) (lanes : List Nat) : LinkDir :=
  lanes.foldl (fun x l => if 100 ≤ l then { x with spfail := x.spfail ||| 2 ^ (l % 4) } else { x with failed := x.failed ||| 2 ^ (l % 65) }) x

/-- Logical lanes that a good spare carries. -/
def LinkDir.carried (x : LinkDir) : List Nat := (x.assign.filter (fun e => !x.spfail.testBit e.1)).map (·.2)
/-- Failed lanes that no spare replaces. -/
def LinkDir.bare (x : LinkDir) : List Nat := (List.range 65).filter (fun i => x.failed.testBit i && !x.carried.contains i)
/-- The first spare that is unused and good. -/
def LinkDir.freeSpare (x : LinkDir) : Option Nat := (List.range 4).find? (fun i => !x.spfail.testBit i && (smFind? x.assign i).isNone)
/-- A half without an unreplaced failed lane; the valid lane belongs to both. -/
def LinkDir.halfOk (x : LinkDir) (upper : Bool) : Bool :=
  x.bare.all (fun i => decide (i < 64) && (if upper then decide (i < 32) else decide (32 ≤ i)))
/-- A lane stands in place of one that has failed. -/
def LinkDir.remap (x : LinkDir) (spare lane : Nat) : LinkDir := { x with assign := smSet x.assign spare lane }
/-- Spares are assigned from the lowest failed lane upwards, as far as they reach. -/
def LinkDir.assignAll (x : LinkDir) : LinkDir :=
  let good := (List.range 4).filter (fun i => !x.spfail.testBit i)
  let bad := (List.range 65).filter (fun i => x.failed.testBit i)
  { x with assign := good.zip bad }

/-- A data lane of a module at half width fails: in the half in use it takes the module down (R490). -/
def State.laneFailed (s : State) (m : Nat) : State :=
  let x := s.ferry m
  if x.st = .half ∧ !(x.d0.halfOk x.upper && x.d1.halfOk x.upper) then s.fryDown m true true else s

def State.markLanes (s : State) (m d : Nat) (lanes : List Nat) : State :=
  (s.modFerry m (fun x => x.setDir d ((x.dir d).fail lanes))).laneFailed m

/-- The eye monitor's sample marks lanes below the trained margin (R487). -/
def execEyeMonitorSample (module dir : Nat) (lanes : List Nat) (s : State) : Out :=
  .next (if module < 36 ∧ dir < 2 ∧ s.ferryUp module then s.markLanes module dir lanes else s)

/-- A lane that carries clock 0 or 1 (which 0, 1) or the valid signal (2) loses lock (R487). -/
def lockLanes (which : Nat) : List Nat :=
  if which < 2 then (List.range 32).map (· + 32 * which) ++ [100 + 2 * which, 101 + 2 * which] else [64]

def execLaneLossOfLock (module dir which : Nat) (s : State) : Out :=
  .next (if module < 36 ∧ dir < 2 ∧ which < 3 ∧ s.ferryUp module then s.markLanes module dir (lockLanes which) else s)

/-- The count of quiet windows and drops to half width, in the frames that show the module. -/
def State.countRemap (s : State) (m : Nat) : State := (fryEnds m).foldl (fun s e => s.ctlInc (o_fryRemaps e.1 e.2)) s

/-- A quiet window (R488): the spare takes the failed lane's place. A window under R482 first runs lane BIST; when that finds no
failed lane the module retrains. At half width no lane is remapped, and a failure in the half in use retrains (R490). -/
def execRemap (module dir : Nat) (bist : List Nat) (s : State) : Out :=
  let x := s.ferry module
  if 36 ≤ module ∨ 2 ≤ dir ∨ !(x.st == .full || x.st == .remap) then .next s
  else
    let s := if x.bistWindow then s.modFerry module (fun x => { x.setDir dir ((x.dir dir).fail bist) with bistWindow := false, st := if x.half && x.st == .remap then .half else .full }) else s
    if x.bistWindow && bist.isEmpty then .next (s.linkRetrain module)
    else if x.half && x.st == .remap then .next (s.laneFailed module)
    else
      let y := (s.ferry module).dir dir
      match y.bare, y.freeSpare with
      | lane :: _, some sp =>
        let s := s.modFerry module (fun x => { x.setDir dir (y.remap sp lane) with st := .full })
        .next ((s.countRemap module).event 0 0x040 (fryDie module) none 0 module 0)
      | _, _ => .next s

/-- No spare is left: the module drops to the half without an unreplaced failed lane, by retraining (R489). -/
def execHalfWidth (module : Nat) (s : State) : Out :=
  let x := s.ferry module
  let stuck (y : LinkDir) : Bool := !y.bare.isEmpty && y.freeSpare.isNone
  if 36 ≤ module ∨ x.st ≠ .full ∨ !(stuck x.d0 || stuck x.d1) then .next s
  else
    let ok (u : Bool) : Bool := x.d0.halfOk u && x.d1.halfOk u
    if ok false || ok true then
      let s := s.modFerry module (fun x => { x with st := .retrain, half := true, upper := !ok false, fromBist := x.version != 20 })
      .next (((s.countRemap module).event 0 0x041 (fryDie module) none 0 module 0).afterDown)
    else .next (s.fryDown module true true)

/-! ## Training (R483 to R486) -/

/-- An attempt has failed: BIST again, or after three DISABLED (R486). -/
def State.fryFailed (s : State) (m : Nat) : State :=
  let n := (s.ferry m).attempts + 1
  if 3 ≤ n then
    let s := s.modFerry m (fun x => { x with st := .disabled, attempts := 3, d0 := x.d0.abandoned, d1 := x.d1.abandoned })
    (s.event 8 0x043 (fryDie m) none 0 m 0).afterDown
  else s.modFerry m (fun x => { x with st := .bist, attempts := n })

/-- What BIST found: bits 63:0 data lanes that passed, bits 67:64 spares. -/
def LinkDir.tested (x : LinkDir) (lanes : BitVec 68) : LinkDir :=
  { x with failed := 2 ^ 64 - 1 - lanes.toNat % 2 ^ 64, spfail := 15 - lanes.toNat / 2 ^ 64, assign := [] }.assignAll

/-- The width a lane map proposes: 2 full, 1 half, 0 none. -/
def LinkDir.width (x : LinkDir) : Nat := if x.bare.isEmpty then 2 else if x.halfOk false || x.halfOk true then 1 else 0

/-- Every lane that a map names has passed here. -/
def LinkDir.covers (c o : LinkDir) : Bool :=
  (List.range 64).all (fun i => o.failed.testBit i || !c.failed.testBit i) && (List.range 4).all (fun i => o.spfail.testBit i || !c.spfail.testBit i)

/-- MAP (R485): direction 0 is received at the compute side, whose map is of it. -/
def State.fryMap (s : State) (m : Nat) : State :=
  let x := s.ferry m
  let c := x.d0
  let o := x.d1
  let agree : Bool := c.failed == o.failed && c.spfail == o.spfail
  let s := if agree then s else s.event 8 0x044 (fryDie m) none 0 m 0
  let w := if x.half then min o.width 1 else o.width
  if w = 0 ∨ !(agree || c.covers o) then s.fryFailed m
  else
    let asg := o.assign
    s.modFerry m (fun x => { x with
      st := .deskew, half := w == 1, upper := w == 1 && !o.halfOk false,
      d0 := { x.d0 with assign := asg }, d1 := { x.d1 with assign := asg } })

/-- The module is up: its flits are replayed in order at the new width (R510). -/
def State.fryUp (s : State) (m : Nat) : State :=
  s.modFerry m (fun x => { x with
    st := if x.half then .half else .full, attempts := 0, version := if m < 24 then 12 else 20, fromBist := false, bistWindow := false,
    retryAt := [], protAt := [], d0 := { x.d0 with replays := 0 }, d1 := { x.d1 with replays := 0 } })

/-- Modules train once boot has powered the Groves. -/
def State.trains (s : State) : Bool :=
  match s.pwr.phase with
  | .boot => decide (5 ≤ s.pwr.step)
  | .run => true
  | .parking => true
  | _ => false

/-- A training state completes (Table 19-3). `lanes0` and `lanes1` are what the receivers of the two directions find in BIST, or in a
fast retrain of the kept half. -/
def execFerryTrainingStep (module : Nat) (lanes0 lanes1 : BitVec 68) (s : State) : Out :=
  if 36 ≤ module ∨ !s.trains then .next s
  else
    let x := s.ferry module
    match x.st with
    | .off => .next (s.modFerry module (fun x => { x with st := .bist, half := false }))
    | .bist => .next (s.modFerry module (fun x => { x with st := .map, d0 := x.d0.tested lanes0, d1 := x.d1.tested lanes1 }))
    | .map => .next (s.fryMap module)
    | .deskew => .next (s.modFerry module (fun x => { x with st := .version }))
    | .version => .next (s.fryUp module)
    | .retrain =>
      if x.fromBist ∨ x.version ≠ 20 then .next (s.modFerry module (fun x => { x with st := .bist }))
      else
        let want : Nat := if !x.half then 2 ^ 64 - 1 else if x.upper then (2 ^ 32 - 1) * 2 ^ 32 else 2 ^ 32 - 1
        let good (d : LinkDir) (l : BitVec 68) : Bool :=
          (List.range 64).all (fun i => !want.testBit i || l.getLsbD i || d.carried.contains i)
        .next (if good x.d0 lanes0 && good x.d1 lanes1 then s.fryUp module else s.fryFailed module)
    | _ => .next s

/-- FRY.CTRL_m.RETRAIN: a full retrain, which may come up at full width again (R490). Only PF0 reaches the frame. -/
def State.fryRetrain (s : State) (m : Nat) : State :=
  if s.ferryUp m ∨ (s.ferry m).st = .retrain then s.fryDown m true false else s
def execFryRetrain (grove loc : Nat) (s : State) : Out :=
  .next (if grove < 12 ∧ loc < 4 ∧ s.reach .host (o_fryCtrl grove loc) then s.fryRetrain (localModule grove loc) else s)

/-- FRY.CTRL_m.ENABLE takes a DISABLED module back to BIST. -/
def State.fryEnable (s : State) (m : Nat) : State :=
  if (s.ferry m).st = .disabled then s.modFerry m (fun x => { x with st := .bist, attempts := 0, half := false, fromBist := true }) else s
def execFryEnable (grove loc : Nat) (s : State) : Out :=
  .next (if grove < 12 ∧ loc < 4 ∧ s.reach .host (o_fryCtrl grove loc) then s.fryEnable (localModule grove loc) else s)

/-! ## A reply that does not come (R594) -/

/-- A transaction without its reply is closed after 20 microseconds: its requester gets poisoned data, and what waited for it is served. -/
def execTxnTimeout (line port : Nat) (s : State) : Out :=
  match s.mem.txns.find? (fun t => t.line == line && t.port == port) with
  | none => .next s
  | some t =>
    let s := s.countUp.setMem { s.mem with
      txns := s.mem.txns.erase t
      msgs := s.mem.msgs.filter (fun m => m.line != line)
      gpend := s.mem.gpend.filter (fun p => !(p.line == line && p.grove == port)) }
    let s := s.backInvalidate line
    let s := s.setMem (s.mem.setPoison line true)
    .next (s.event 7 0x03B landing (s.ownerOfPa (line * 64)) (line * 64) (port % 16) 0).serveWaits

end Sys2Proof.Machine
end

