-- ==== Sys2Proof/Machine/Crossing.lean ====
section
/-!
DEFINITION. The Crossing (R494 to R510): ports, the joining of a pair, mirror mode, and the split of a pair with its arbitration.
-/
namespace Sys2Proof.Machine

/-! ## Ports (R494 to R496) -/

def State.pairedChart (s : State) : Bool := match s.live.pkg with | some p => p.paired | none => false
def State.senior (s : State) : Bool := match s.live.pkg with | some p => p.senior | none => false
def State.anyPortUp (s : State) : Bool := (s.xport 0).up || (s.xport 1).up

/-- A training of a port ends, or is begun; the masks are the lanes that pass in the two directions. -/
def execCrossingTraining (port : Nat) (lanes0 lanes1 : BitVec 16) (s : State) : Out :=
  let x := s.xport port
  if 2 ≤ port ∨ !bitOf s.board.xng port ∨ !s.pairedChart ∨ !s.trains then .next s
  else
    let l := (lanes0 &&& lanes1).toNat
    let lower : Bool := l % 256 == 255
    let upper : Bool := l / 256 == 255
    match x.st with
    | 0 => .next (s.xngState port 1)
    | 5 => .next (if x.retryAfter ≤ s.time then s.xngState port 1 else s)
    | 2 => .next (if lower && upper then s else s.xngState port 4)
    | 3 => .next (if (if x.upper then upper else lower) then s else s.xngState port 5)
    | _ =>
      if lower && upper then .next ((s.modXport port (fun x => { x with fails := 0, upper := false, failed := 0 })).xngState port 2)
      else if lower || upper then .next ((s.modXport port (fun x => { x with fails := 0, upper := !lower, failed := 65535 - l })).xngState port 3)
      else
        let n := x.fails + 1
        .next ((s.modXport port (fun x =>
          { x with fails := if 3 ≤ n then 0 else n, retryAfter := if 3 ≤ n then s.time + 10000000 else s.time, failed := 65535 - l })).xngState port 5)

/-- Every 10 microseconds a control flit with HEARTBEAT goes out on a port that is up. -/
def execHeartbeat (port : Nat) (s : State) : Out :=
  let x := s.xport port
  .next (if port < 2 ∧ x.up ∧ s.keeperOn ∧ x.beatAt + 10000 ≤ s.time then
    (s.modXport port (fun x => { x with beatAt := s.time })).emit (.heartbeat port) else s)

/-! ## Joining (R497, R498) -/

def serial : Nat := (Config.serialWord 0).toNat + 2 ^ 32 * (Config.serialWord 1).toNat

/-- The octets of which the pair digest is taken, compartments in ascending ID (R497, log entry 24). -/
def Chart.pairRecord (c : Chart) : List Nat :=
  (sortBy (·.id) (c.cmps.filter (fun m => c.pairMode m.id != 0))).flatMap (fun m =>
    [m.id, c.pairMode m.id] ++ (if c.pairMode m.id = 1 then (c.recsOf m.id 2).flatMap (fun r => valOct r.first 8 ++ valOct r.count 8) else []))
def State.pairDigest (s : State) : List Nat := Config.sha384 s.live.pairRecord

/-- The landing stepping L1-C0, as bits 31:20 of GLB.STEPPING (R33). -/
def landingStepping : Nat := 0x120

def State.mirrored (s : State) (n : Nat) : Bool := s.live.pairMode n == 1
def State.spanned (s : State) (n : Nat) : Bool := s.live.pairMode n == 2
def State.pairCmps (s : State) : List Nat := (s.live.cmps.map (·.id)).filter (fun n => s.live.pairMode n != 0)

/-- The key exchange of a join (R568): a fresh private value is drawn, its public value goes to the partner with an HMAC under WK, and both
sides derive a key for each port and direction, whose flit count begins at 0. -/
def State.exchange (s : State) (pub : List Nat) : State :=
  let d := (List.range 11).map (fun i => (Config.rngDraw (s.draws + i)).toNat)
  let own := Config.ecdhPublic d
  let z := Config.ecdhShared d pub
  let i := s.live.pairIndex
  let s := { s with draws := s.draws + 11 }.emit (.keyShare own (Config.hmac384 (octVal (smGet [] s.sec.slots 9)) own))
  [0, 1].foldl (fun s p => s.modXport p (fun x =>
    { x with key0 := Config.linkKey z p (1 - i), key1 := Config.linkKey z p i, flits0 := 0, flits1 := 0 })) s

/-- The link keys are destroyed at a split (Table 22-3), and what the ports still had to send is abandoned. -/
def State.dropKeys (s : State) : State :=
  [0, 1].foldl (fun s p => s.modXport p (fun x => { x with key0 := [], key1 := [], d0 := x.d0.abandoned, d1 := x.d1.abandoned })) s

/-- The pair joins: a new epoch, new link keys, FENCED compartments STOPPED, those that waited for it raised. `claims`: the partner has run
as the active side. -/
def State.join (s : State) (peer epoch : Nat) (claims : Bool) (span : List (Nat × Nat × Nat)) (pub : List Nat) : State :=
  let s := s.exchange pub
  let e := (max epoch (s.ctlGet o_xngEpoch).toNat + 1) % 2 ^ 32
  let s := (s.ctlSet o_xngEpoch (r32 e)).ctlSet o_xngMirsync 0
  let act : Bool := if claims then false else match s.links.active with
    | some a => a
    | none => s.live.pairIndex == 0
  let s := s.modLinks (fun l => { l with
    pair := 2, peer := peer, span := span, active := some act, split := none, takeAt := none, copied := [], heardAt := s.time, upAt := s.time })
  let s := s.pairCmps.foldl (fun s n => if s.cmpState n = .fenced then s.enterCmp n .stopped else s) s
  let s := s.event 0 0x051 landing none 0 e 0
  let wait := s.links.unraised
  let s := s.modLinks (fun l => { l with unraised := [] })
  wait.foldl (fun s n => if s.cmpState n = .stopped && s.mayRaise n then s.raise n false
    else s.modLinks (fun l => { l with unraised := l.unraised ++ [n] })) s

/-- What the partner's Keeper sends: its pair index, Device Serial Number, landing stepping, pair digest and epoch, and the DRAM its
Chart gives to spanned compartments (R315); and with the digest its public value and its HMAC under WK. One that does not authenticate is counted and
joins nothing (R568, log entry 108). -/
def execPairJoin (index dsn stepping : Nat) (shown : JoinShown) (epoch : Nat) (claims : Bool) (span : List (Nat × Nat × Nat))
    (s : State) : Out :=
  let p := s.links.pair
  if !s.anyPortUp ∨ !s.pairedChart ∨ p = 3 ∨ s.live.cmps.isEmpty then .next s
  else
    let ok : Bool := index == 1 - s.live.pairIndex && stepping == landingStepping && shown.digest == s.pairDigest
    if !ok then .next ((s.modLinks (fun l => { l with pair := 6 })).event 8 0x052 landing none 0 0 0)
    else if p = 2 then .next s
    else if shown.mac != Config.hmac384 (octVal (smGet [] s.sec.slots 9)) shown.pub then .next (s.xngViolation 0 0)
    else .next (s.join dsn epoch claims (span.filter (fun r => s.spanned r.1)) shown.pub)

/-! ## Mirror mode (R499, R501) -/

/-- The line is DRAM of a mirrored compartment whose standby side this is. -/
def State.standbyLine (s : State) (line : Nat) : Bool :=
  match s.region (line * 64), s.ownerOfPa (line * 64) with
  | .dram, some n => s.mirrored n && s.links.active == some false
  | _, _ => false

/-- A mirror write of the active side arrives on the port that the line's traffic takes (R26): written to the standby copy, or discarded
and counted. -/
def execMirrorWrite (port line : Nat) (bytes : List Byte) (s : State) : Out :=
  if s.xngFor line ≠ some port ∨ s.links.pair ≠ 2 ∨ bytes.length ≠ 64 then .next s
  else
    if s.standbyLine line then .next (s.wrInv (line * 64) bytes) else .next (s.xngViolation port (line * 64))

/-- DRAM lines of a compartment. -/
def State.dramLines (s : State) (n : Nat) : Nat := sumBy (·.count) (s.live.recsOf n 2) / 64

/-- The active side copies the next line of a compartment to the standby, in class B; after the last, MIRSYNC. -/
def execMirrorCopy (cmp : Nat) (s : State) : Out :=
  let done := smGet 0 s.links.copied cmp
  if s.links.pair ≠ 2 ∨ !s.mirrored cmp ∨ s.links.active ≠ some true ∨ s.dramLines cmp ≤ done then .next s
  else
    let s := (s.modLinks (fun l => { l with copied := smSet l.copied cmp (done + 1) })).emit (.pair 4 (cmp * 2 ^ 48 + done))
    .next (if done + 1 = s.dramLines cmp then s.ctlMod o_xngMirsync (fun v => fone v cmp true) else s)

def State.unsync (s : State) (n : Nat) : State := s.ctlMod o_xngMirsync (fun v => fone v n false)

/-! ## Splitting (R502 to R507) -/

/-- Transactions open across the gap close with poisoned data (R340), and what waited for them is served. -/
def State.closeGap (s : State) : State :=
  ((s.mem.txns.filter (fun t => t.port == 13 || t.fw == some 13 || t.acks.contains 13 || s.partnerLine t.line)).foldl (fun s t =>
    let s := s.countUp.setMem { s.mem with
      txns := s.mem.txns.erase t, msgs := s.mem.msgs.filter (·.line != t.line), gpend := s.mem.gpend.filter (·.line != t.line) }
    let s := s.backInvalidate t.line
    s.setMem (s.mem.setPoison t.line true)) s).serveWaits

/-- Requests of this side to the partner close with poisoned data, and no message is left between the two sides. -/
def State.closeWindow (s : State) : State :=
  let s := (s.mem.gpend.filter (fun p => s.partnerLine p.line)).foldl (fun s p => s.setMem (s.mem.setPoison p.line true)) s
  s.setMem { s.mem with gpend := s.mem.gpend.filter (fun p => !s.partnerLine p.line)
                        msgs := s.mem.msgs.filter (fun m => m.port != 13 && !s.partnerLine m.line) }

/-- The surviving side: no entry names the Crossing agent, and what it owned is poison. -/
def State.dropPartner (s : State) : State :=
  (s.mem.dir.filter (·.xp)).foldl (fun s e =>
    if e.resp = 13 ∧ e.st ≠ .sh then
      let s := s.backInvalidate e.line
      s.setMem (s.mem.setPoison e.line true)
    else
      s.setMem (if e.vec = 0 then s.mem.freeDir e.line else s.mem.setDir { e with xp := false, resp := if e.resp = 13 then 15 else e.resp })) s

/-- A compartment is fenced: stopped as by quiesce, its session ended, FENCED (R506, R65). -/
def State.fence (s : State) (n : Nat) : State :=
  match s.cmpState n with
  | .absent => s
  | .halted => s
  | .fenced => s
  | _ =>
    let s := (s.quiesce n (some 5)).enterCmp n .fenced
    match s.cht with
    | some op => if op.targets.contains n then s.chtCancel else s
    | none => s

/-- Results: 1 won by the witness, 2 lost by it, 3 won by SENIOR, 4 lost without answer (Table 19-7). -/
def State.splitResult (s : State) (t0 result : Nat) : State :=
  let win : Bool := result == 1 || result == 3
  let s := s.ctlMod o_xngSplitinfo (fun v => fset (fset v 27 25 result) 15 0 (min 65535 ((s.time - t0) / 10000)))
  let s := s.event 8 0x054 landing none 0 (s.ctlGet o_xngSplitinfo).toNat 0
  let act := s.links.active
  let s := s.modLinks (fun l => { l with
    pair := if win then 4 else 5, split := none, takeAt := if win ∧ act = some false then some (max s.time (t0 + 20200000)) else none,
    active := if win then act else some false, spanOff := (s.pairCmps.filter s.spanned) ++ l.spanOff.filter (fun n => !s.spanned n) })
  let s := (s.pairCmps.filter s.mirrored).foldl State.unsync s
  let s := s.closeGap.closeWindow
  if win then (if s.pairCmps.any s.spanned then s.dropPartner.closeWindow else s)
  else (s.pairCmps.filter (fun n => s.spanned n || act == some true)).foldl State.fence s.dropWindow

/-- A split is declared: no port up for 200 microseconds, or no heartbeat for as long. -/
def execSplit (s : State) : Out :=
  let silent : Bool := !s.anyPortUp && decide (s.links.upAt + 200000 ≤ s.time)
  let mute : Bool := decide (s.links.heardAt + 200000 ≤ s.time)
  if s.links.pair ≠ 2 ∨ !(silent || mute) then .next s
  else
    let info := 2 ^ 31 + (if silent then 1 else 2) * 2 ^ 28
    let s := ((s.dropKeys).ctlSet o_xngSplitinfo (r32 info)).event 8 0x053 landing none 0 info 0
    let s := s.pairCmps.foldl (fun s n => s.ctlMod (o_chtKnote n) (fun v => fone v 30 true)) s
    let s := match s.cht with
      | some op => if s.paired op ∧ (op.step = 5 ∨ op.step = 6) then s.chtReverse op 18 noSection else s
      | none => s
    if s.pairCmps.any (fun n => s.cmpState n == .running) then
      .next (s.modLinks (fun l => { l with pair := 3, split := some ⟨s.time, [], 0⟩ }))
    else .next ((s.modLinks (fun l => { l with pair := 1, spanOff := s.pairCmps.filter s.spanned })).ctlSet o_xngMirsync 0)

/-- PAIR_ID: the Device Serial Number of the package with pair index 0. -/
def State.pairId (s : State) : Nat := if s.live.pairIndex = 0 then serial else s.links.peer

/-- Octets 0x00 to 0x17 of a witness frame (Table 19-6). -/
def State.witnessHead (s : State) (type side flags nonce : Nat) : List Nat :=
  [0x52, 0x47, type, side, flags, 0, 0, 0] ++ valOct s.pairId 8 ++ valOct (s.ctlGet o_xngEpoch).toNat 4 ++ valOct nonce 4
def State.witnessMac (s : State) (head : List Nat) : List Nat := Config.witnessMac (octVal (smGet [] s.sec.slots 9)) head

/-- A frame of the Keeper leaves by the egress rule of its stream (R436): addresses of its own, EtherType 0x88B5 and the payload. -/
def State.keeperFrame (s : State) (stream : Nat) (payload : List Nat) : State :=
  match s.egressOf stream with
  | none => s
  | some (p, sec, r) =>
    let o := (List.range 12).map (fun i => (Config.keeperAddress i).toNat) ++ [0x88, 0xB5] ++ payload
    let seq := smGet 0 s.net.seqs stream
    let s := if r.rtag then s.modNet (fun m => { m with seqs := smSet m.seqs stream ((seq + 1) % 65536) }) else s
    s.forward p r.tc (buildFrame r seq (macExtra (some sec) (buildFrame r 0 0 o)) o) (some stream)

/-- A query to the Ranger witness, repeated every millisecond until 20 ms after T0. -/
def execWitnessQuery (s : State) : Out :=
  match s.links.split with
  | none => .next s
  | some x =>
    if s.links.pair ≠ 3 ∨ x.t0 + 20000000 < s.time ∨ (x.asked ≠ 0 ∧ s.time < x.asked + 1000000) then .next s
    else
      let nonce := (Config.rngDraw s.draws).toNat % 2 ^ 32
      let s := { s with draws := s.draws + 1 }
      let head := s.witnessHead 1 s.live.pairIndex s.senior.toNat nonce
      let s := (s.modLinks (fun l => { l with split := some { x with nonces := x.nonces ++ [nonce], asked := s.time } })).emit
        (.witness (head ++ s.witnessMac head))
      .next (match s.witnessStream with
        | some stream => s.keeperFrame stream (head ++ s.witnessMac head)
        | none => s)

/-- The frame payload that stands after EtherType 0x88B5. -/
def witnessPayload (o : List Nat) : Option (List Nat) := if sub o 12 2 = [0x88, 0xB5] then some (o.drop 14) else none

/-- The oldest frame of the answer stream is checked: a valid answer decides; any other frame is discarded and counted (R504). -/
def execWitnessAnswer (s : State) : Out :=
  match s.net.keeper with
  | [] => .next s
  | f :: rest =>
    let s := s.modNet (fun n => { n with keeper := rest })
    let bad := s.xngViolation 0 0
    match s.links.split, witnessPayload f with
    | some x, some o =>
      let side := le o 3 1
      let nonce := le o 0x14 4
      let head := sub o 0 0x18
      if s.links.pair = 3 ∧ s.time ≤ x.t0 + 20000000 ∧ le o 0 2 = 0x4752 ∧ le o 2 1 = 2 ∧ side ≤ 1 ∧ le o 8 8 = s.pairId ∧
          le o 0x10 4 = (s.ctlGet o_xngEpoch).toNat ∧ x.nonces.contains nonce ∧ sub o 0x18 16 = s.witnessMac head then
        .next (s.splitResult x.t0 (if side = s.live.pairIndex then 1 else 2))
      else .next bad
    | _, _ => .next bad

/-- After T0 + 20 ms without a valid answer SENIOR decides (R505). -/
def execSplitResultTimeout (s : State) : Out :=
  match s.links.split with
  | some x => .next (if s.links.pair = 3 ∧ x.t0 + 20000000 < s.time then s.splitResult x.t0 (if s.senior then 3 else 4) else s)
  | none => .next s

/-- The standby copy of a mirrored compartment starts cold on the winning side (R501). -/
def execTakeover (cmp : Nat) (s : State) : Out :=
  match s.links.takeAt with
  | some t =>
    if t ≤ s.time ∧ s.mirrored cmp ∧ s.cmpState cmp = .stopped then
      .next ((s.modLinks (fun l => { l with active := some true })).raise cmp true)
    else .next s
  | none => .next s

end Sys2Proof.Machine
end

