-- ==== Sys2Proof/Machine/Power.lean ====
section
/-!
DEFINITION. Boot (R534 to R540), the resets of a Grove and of a core (R544 to R546), Park (R553 to R555) and the supply targets
(R602).
-/
namespace Sys2Proof.Machine

/-! ## The board record (R537, Table 21-2) -/

/-- log2 of the lines per rank (Table 15-1); none: not a supported device. -/
def rankLines (x8 : Bool) (density : Nat) : Option Nat :=
  match x8, density with
  | false, 0 => some 27 | false, 1 => some 28 | true, 0 => some 26 | true, 1 => some 27 | true, 2 => some 28 | _, _ => none
/-- Devices of 2^28 lines per rank come in one rank only. -/
def dramFits (x8 ranks2 : Bool) (density : Nat) : Bool :=
  match rankLines x8 density with | some l => decide (l + ranks2.toNat ≤ 28) | none => false

def netRateOf : Nat → Nat
  | 0 => 0 | 3 => 5000 | 4 => 2500 | 5 => 1000 | 6 => 100 | _ => 10000

def parseBoard (o : List Nat) : Board :=
  let x8 := le o 9 1 == 1
  let r2 := bitOf (le o 0xB 1) 0
  let nib (p : Nat) : Nat := le o (0xC + p / 2) 1 / 2 ^ (4 * (p % 2)) % 16
  { rate := le o 8 1, x8 := x8, density := le o 0xA 1, ranks2 := r2, mpsm := bitOf (le o 0xB 1) 1,
    log2Lines := (rankLines x8 (le o 0xA 1)).getD 0 + r2.toNat, pexLanes := le o 0x3D 1,
    netRate := ((List.range 16).map (fun p => (p, netRateOf (nib p)))).filter (fun e => e.2 != 10000),
    netWake := (List.range 16).filter (bitOf (le o 0x14 2)),
    phyGpio := (List.range 16).map (fun p => (p, (le o (0x18 + 2 * p) 1, le o (0x19 + 2 * p) 1))),
    subsys := le o 0x38 4, xng := le o 0x3C 1, wakeGpio := le o 0x40 4, wakePol := le o 0x44 4 }

/-- The record is valid: 128 octets, then its signature. -/
def State.boardOk (s : State) (o : List Nat) : Bool :=
  let slot := le o 6 1
  let fresh : Bool := !s.sec.field && !slotSet s.sec 0
  let pin (b : Nat) (must : Bool) : Bool := decide (b < 32) || (b == 0xFF && !must)
  o.length == 224 && le o 0 4 == 0x52424B53 && le o 4 2 == 1 && decide (slot ≤ 3) && zeros o 7 1 &&
  (fresh || (slotSet s.sec slot && !s.sec.revoked.contains slot && Config.ecdsaVerify (smGet [] s.sec.slots slot) (o.take 128) (o.drop 128))) &&
  decide (le o 8 1 ≤ 2) && decide (le o 9 1 ≤ 1) && decide (le o 0xA 1 ≤ 2) && decide (le o 0xB 1 < 4) &&
  dramFits (le o 9 1 == 1) (bitOf (le o 0xB 1) 0) (le o 0xA 1) &&
  (List.range 16).all (fun p => decide (le o (0xC + p / 2) 1 / 2 ^ (4 * (p % 2)) % 16 ≤ 6) &&
    pin (le o (0x18 + 2 * p) 1) (bitOf (le o 0x14 2) p) && pin (le o (0x19 + 2 * p) 1) (bitOf (le o 0x14 2) p)) &&
  zeros o 0x16 2 && decide (le o 0x3C 1 < 4) && [1, 4, 8, 16].contains (le o 0x3D 1) && zeros o 0x3E 2 && zeros o 0x48 56

/-! ## The boot header and firmware (R536, R538, R560) -/

def headerOk (o : List Nat) : Bool :=
  o.length == 256 && le o 0 4 == 0x4C424B53 && le o 4 2 == 1 && decide (le o 6 1 < 2) && zeros o 7 1 &&
  [8, 0x10, 0x18, 0x1C, 0x24].all (fun a => le o a 4 % 4096 == 0) && decide (le o 0xC 4 ≤ 0x200000) && decide (le o 0x14 4 ≤ 0x200000) &&
  zeros o 0x2C 212

def State.firmwareOk (s : State) (o : List Nat) : Bool :=
  let n := o.length
  decide (160 ≤ n) && le o 0 4 == 0x57464B53 && le o 4 2 == 1 && decide (le o 6 1 ≤ 32) && zeros o 7 1 && n == 64 + le o 8 4 + 96 &&
  zeros o 0x3D 3 && Config.sha384 (sub o 0xC 49) == Config.romDigest && Config.ecdsaVerify (sub o 0xC 49) (o.take (n - 96)) (o.drop (n - 96)) &&
  decide (s.sec.fwFloor ≤ le o 6 1)

/-! ## Boot steps (Table 21-3) -/

def State.modPwr (s : State) (f : Pwr → Pwr) : State := { s with pwr := f s.pwr }

/-- The step in progress. -/
def State.toStep (s : State) (n : Nat) : State := (s.modPwr (fun p => { p with step := n })).bootStep n

def execPowerOn (s : State) : Out :=
  .next (if s.pwr.phase = .off then
    ({ s with dram := { s.dram with fresh := [(0, 2 ^ 17)] } }.modPwr (fun p => { p with phase := .boot, began := s.time, warm := false })).toStep 1 else s)

/-- A stop of Table 21-4. -/
def State.bootStop (s : State) (error : Nat) : State :=
  let s := s.ctlMod o_pwrBootstat (fun v => fset v 27 24 error)
  (s.modPwr (fun p => { p with phase := .stopped })).event 8 0x002 landing none 0 (s.ctlGet o_pwrBootstat).toNat 0

/-- Step 1 ends; the record of a tamper event is written now (Table 24-6). -/
def State.bootChecks (s : State) : State :=
  let s := if s.pwr.tamperLog then s.event 6 0x004 landing none 0 (s.ctlGet o_secTamper).toNat 0 else s
  (s.modPwr (fun p => { p with tamperLog := false })).toStep 2

/-- Step 2: a generator that fails twice is a tamper event (R565); slots whose tag fails count as unprogrammed (R561); keys are
unwrapped, but for the debug state of R571. -/
def State.bootSelftest (s : State) (rng : Bool) (tags : List Nat) : State :=
  if !rng then s.tamperReset 26
  else
    let bad := tags.filter (fun t => (smFind? s.sec.slots t).isSome)
    let s := { s with sec := { s.sec with badTags := bad, keys := !s.sec.dbgState, seedAt := s.time } }
    (bad.foldl (fun s t => s.event 8 0x081 landing none 0 t 0) s).toStep 3

/-- Steps 4 on, once RAILOK is high after Park (R555). -/
def State.afterRail (s : State) : State :=
  if s.pwr.phase = .waking ∧ s.pwr.fwOk ∧ s.pwr.railOk then (s.modPwr (fun p => { p with phase := .boot, fwOk := false })).toStep 4 else s

/-- GLB.FABCAP of Landing 1.2 and Groves 2.0 (Table 1-9). It depends on the steppings alone. -/
def fabcap : Reg32 := 0x12200300

/-- Step 3: header and board record, then firmware slot A, then B. The endpoint is released, and a stop keeps it running (R540). GLB.FABCAP stands from here on: the host reaches the GLB frame next, in
step 4 or in a stop, and its value is in place before (R11, R34). -/
def State.bootFlash (s : State) (header board fwA fwB : List Nat) : State :=
  let s := (s.ctlSet o_glbFabcap fabcap).modHep (fun h => { h with training := !h.perst && !h.ready })
  if !headerOk header || !s.boardOk board then s.bootStop 2
  else
    let a := s.firmwareOk fwA
    if !a && !s.firmwareOk fwB then s.bootStop 1
    else
      let s := s.ctlMod o_pwrBootstat (fun v => fone v 23 (!a))
      let s := { s with board := parseBoard (board.take 128), sec := { s.sec with fwSvn := le (if a then fwA else fwB) 6 1 } }
      if s.pwr.phase = .waking then (s.modPwr (fun p => { p with fwOk := true })).afterRail else s.toStep 4

/-- The rank set of a granule (R397). -/
def Board.rankSet (b : Board) (g : Nat) : Nat := if b.ranks2 then g * 0x200000 / 2 ^ (b.log2Lines + 9) else 0

/-- Granules of a rank set, as a range. -/
def Board.rankRange (b : Board) (k : Nat) : Nat × Nat :=
  let n := 2 ^ (b.log2Lines + 10) / 0x200000
  if b.ranks2 then (k * (n / 2), (k + 1) * (n / 2)) else (0, n)

/-- Step 4: the Groves are powered, DRAM trained or brought out of self-refresh (R394, R398). -/
def State.bootDram (s : State) (failed : List Nat) : State :=
  let s := (List.range 16).foldl (fun s c =>
    if s.subState c = 4 ∨ s.subState c = 5 then s.setSub c 1
    else if s.subState c = 3 then s
    else if failed.contains c then (s.setSub c 3).event 8 0x034 landing none 0 c 0
    else s.setSub c 1) s
  let s := s.setMem { s.mem with failed := (List.range 16).filter (fun c => s.subState c == 3) }
  let s := s.modDram (fun d => { d with
    fresh := d.fresh ++ s.pwr.mpsm.map s.board.rankRange
    initAt := if s.pwr.mpsm.isEmpty then d.initAt else [] })
  let n := 2 ^ (s.board.log2Lines + 10) / 0x200000
  let s := s.modDram (fun d => { d with fresh := (d.fresh.map (fun r => (r.1, min r.2 n))).filter (fun r => decide (r.1 < r.2)) })
  (s.modPwr (fun p => { p with mpsm := [] })).toStep 5

/-- Every module has come up or given up. -/
def State.trainingOver (s : State) : Bool := (List.range 36).all (fun m => (s.ferry m).up || (s.ferry m).st == .disabled)

/-- Step 5 ends. -/
def State.bootTrained (s : State) : State :=
  if !s.trainingOver then s
  else if (List.range 16).all (fun c => s.subState c == 3) then s.bootStop 3
  else if (List.range 12).all (fun g => !s.spokeUp g) then s.bootStop 5
  else s.toStep 6

/-- A Chart slot fails: the fallback is tried, or the package waits uncharted (R48). The record names the container's CHART_ID (R38). -/
def State.slotFails (s : State) (id code section_ step : Nat) : State :=
  let v := code * 2 ^ 24 + step * 2 ^ 20 + section_
  let s := (s.ctlSet o_chtResult (r32 v)).event 8 0x010 landing none id v 0
  let s := s.toStep 6
  if s.pwr.src < 2 then s.modPwr (fun p => { p with src := 2, loaded := none })
  else
    let s := s.ctlMod o_pwrBootstat (fun v => fset (fset v 22 21 0) 27 24 4)
    (s.modPwr (fun p => { p with src := 4, loaded := none })).event 8 0x002 landing none 0 (s.ctlGet o_pwrBootstat).toNat 0

def State.takeChart (s : State) (c : Chart) (src : Nat) : State :=
  let s := s.ctlMod o_pwrBootstat (fun v => fset v 22 21 src)
  (s.modPwr (fun p => { p with src := src, loaded := some c })).toStep 7

/-- Step 6 with a container from flash: the primary slot, then the fallback. In the debug state no Chart loads (R571). -/
def State.bootContainer (s : State) (o : List Nat) : State :=
  let src := if s.pwr.src = 2 then 2 else 1
  if s.pwr.src = 4 ∨ s.store.isSome then s
  else if s.sec.dbgState then (s.modPwr (fun p => { p with src := 2 })).slotFails (le o 0x18 8) 2 noSection 2
  else match s.verify .boot o with
    | .error f => s.slotFails (le o 0x18 8) f.code f.section_ 2
    | .ok (_, c) => s.takeChart c src

/-- Step 7: admission, and the rest of R49 up to step 8. A stored Chart that is no longer admitted gives way to flash (log entry 25). -/
def State.bootLoad (s : State) : State :=
  match s.pwr.loaded with
  | none => s
  | some c =>
    match s.admission c (c.cmps.flatMap (fun m => if m.ftStart then c.coresOf m.id else [])) with
    | some f =>
      let s := s.ctlSet o_ttLastfail f.reg
      let at_ (t x : Nat) : Option Nat := (c.index.find? (fun e => e.1 == t && e.2.1 == x)).map (·.2.2)
      let section_ := (match f.grove with | some g => at_ 6 g | none => at_ 4 f.cmp).getD noSection
      if s.pwr.src = 3 then ({ s with store := none }.modPwr (fun p => { p with src := 0, loaded := none })).toStep 6
      else s.slotFails c.chartId 17 section_ 5
    | none => ((s.loadChart c s.pwr.fromPark).modPwr (fun p => { p with loaded := none })).toStep 8

/-- The step in progress completes without anything read from outside. -/
def State.bootNext (s : State) : State :=
  match s.pwr.step with
  | 5 => s.bootTrained
  | 6 => match s.store with
    | some c => s.takeChart c 3
    | none => s
  | 7 => s.bootLoad
  | 8 => if (s.switchSet false).moesi then s.switchSet false else (s.switchSet false).toStep 9
  | 9 => (s.raiseAll.bootDone.modPwr (fun p => { p with warm := false, fromPark := false, src := 0 })).afterDown
  | _ => s

/-- A step of Table 21-3 ends. -/
def execBootStep (found : BootIn) (s : State) : Out :=
  let on : Bool := s.pwr.phase == .boot || s.pwr.phase == .waking
  if !on then .next s
  else match found with
    | .checks => .next (if s.pwr.step = 1 then s.bootChecks else s)
    | .selftest rng tags => .next (if s.pwr.step = 2 then s.bootSelftest rng tags else s)
    | .flash h b fa fb => .next (if s.pwr.step = 3 ∧ !s.pwr.fwOk then s.bootFlash h b fa fb else s)
    | .dram failed => .next (if s.pwr.step = 4 ∧ s.pwr.phase = .boot then s.bootDram failed else s)
    | .container o => .next (if s.pwr.step = 6 ∧ s.cht.isNone then s.bootContainer o else s)
    | .next => .next (if s.cht.isNone then s.bootNext else s)

/-! ## Park (R554, R555) -/

/-- Nothing makes a Park request wait. -/
def State.parkReady (s : State) : Bool :=
  s.pwr.phase == .run && s.cht.isNone && (List.range 16).all (fun c => s.subState c != 2)

/-- A request that waits begins its grace period (Table 21-9, step 1). -/
def State.parkDue (s : State) : State :=
  if s.pwr.parkReq && s.parkReady then
    let s := s.live.cmps.foldl (fun s m =>
      if s.cmpState m.id = .running then s.ctlMod (o_chtKnote m.id) (fun v => fone v 31 true) else s) s
    s.modPwr (fun p => { p with
      phase := .parking, parkReq := false, exit := none
      graceEnd := s.time + fget (s.ctlGet o_pwrParkcfg) 15 0 * 1000000 })
  else s

/-- A second request is ignored while the first waits or runs (R558). -/
def State.parkWrite (s : State) : State := if s.pwr.phase = .parking then s else (s.modPwr (fun p => { p with parkReq := true })).parkDue
def execPark (s : State) : Out := .next (if s.reach .host o_pwrCtrl then s.parkWrite else s)

/-- Registers that hold through Park: the always-on domain's and the DRAM controllers' (R551, R553). -/
def parkReg (off : Nat) : Bool :=
  off / 0x10000 == 5 || off / 0x10000 == 7 || (decide (8 ≤ off / 0x10000) && decide (off / 0x10000 < 16)) || off == o_secTamper ||
  off == o_xngEpoch || off == o_xngSplitinfo

/-- Every cached byte that is newer than DRAM reaches it. -/
def Mem.flushAll (m : Mem) : Mem :=
  { m with
    dram := m.dirty.foldl (fun d e => if m.onFailed (lineOf e.1) then d else smSet d e.1 e.2) m.dram
    dirty := [] }

/-- An exit event (R555): steps 2 and 3 of the boot sequence begin at once. RAILOK is an input, and keeps its level (R616). -/
def State.parkExit (s : State) (cause : Nat) : State :=
  let s := ({ s with logOff := false }.ctlSet o_pwrWakecause (r32 cause)).modPwr (fun p =>
    { p with phase := .waking, step := 2, parkN := false, exit := none, fwOk := false, fromPark := true, warm := true, began := s.time, src := 0 })
  (s.bootStep 2).event 0 0x006 landing none 0 cause 0

/-- Frames in the egress queues of a port. -/
def NetPort.waiting (x : NetPort) : Nat := (x.queues.map (fun e => e.2.length)).foldl (· + ·) 0

/-- The frames of a port that are eligible now are sent (R451). -/
def State.sendEligible (s : State) (p : Nat) : Nat → State
  | 0 => s
  | n + 1 => if !s.portUp p || (s.eligible p (s.netSec p)).isEmpty then s
    else ((s.setPort p { s.port p with curEnd := s.time }).select p).sendEligible p n

/-- Steps 2 to 5 of Park entry. -/
def State.parkEnter (s : State) : State :=
  let run := (s.live.cmps.map (·.id)).filter (fun n => s.cmpState n == .running)
  let s := run.foldl (fun s n => (s.quiesce n (some 1)).enterCmp n .stopped) s
  let s := (s.live.cmps.map (·.id)).foldl (fun s n => s.mftEnd n 1) s
  let s := ((List.range 16).foldl (fun s p => s.sendEligible p (s.port p).waiting) s).linkLost
  let s := s.board.netWake.foldl (fun s p => s.emit (.sleep p)) s
  let s := s.event 0 0x005 landing none 0 0 0
  let sets := if s.board.ranks2 then [0, 1] else [0]
  let retained (k : Nat) : Bool := s.live.res.any (fun r => r.kind == 2 && bitOf r.attr 0 &&
    (s.board.rankSet (r.first / 0x200000) == k || s.board.rankSet ((r.first + r.count - 1) / 0x200000) == k))
  let mpsm := sets.filter (fun k => !retained k && s.board.mpsm)
  let m := s.mem.flushAll
  let s := { s with
    cores := [], mem := { Mem.reset with dram := m.dram, keys := m.keys, era := m.era, epoch := m.epoch, lost := m.lost, healed := m.healed,
                                         failed := m.failed, poison := m.poison.filter (fun l => !isClearing (l * 64)) },
    ctl := s.ctl.filter (fun e => parkReg e.1), ulatch := [], halts := [], cmps := [], generation := [], buckets := [], held := [], flight := [], usts := [],
    mft := s.mft.map (fun (e : Nat × MftSess) => (e.1, { MftSess.none with session := e.2.session })), mftc := [], nettime := [],
    dram := { s.dram with wq := [], corr := [] }, qm := Qm.reset, hep := { Hep.reset with perst := s.hep.perst }, net := Net.reset,
    links := { Links.reset with active := s.links.active },
    sec := { s.sec with keys := false, wraps := [], staged := [] } }
  let s := (List.range 16).foldl (fun s c => if s.subState c = 3 then s else s.setSub c (if mpsm == sets then 5 else 4)) s
  let exit := s.pwr.exit
  let s := { s with logOff := true }.modPwr (fun p => { p with phase := .park, parkN := true, mpsm := mpsm, crst := [], grove := none })
  match exit with
  | some c => s.parkExit c
  | none => s

/-- The grace period has ended and every running compartment can stop. -/
def execParkGraceExpiry (s : State) : Out :=
  let ready : Bool := (s.live.cmps.map (·.id)).all (fun n => s.cmpState n != .running || s.cmpStoppable n)
  .next (if s.pwr.phase = .parking ∧ s.pwr.graceEnd ≤ s.time ∧ ready then s.parkEnter else s)

/-- An exit event in Park, or during its entry, after which the exit begins at once (R558). -/
def State.wakeEvent (s : State) (cause : Nat) : State :=
  match s.pwr.phase with
  | .park => s.parkExit cause
  | .parking => if s.pwr.exit.isNone then s.modPwr (fun p => { p with exit := some cause }) else s
  | _ => s

def execParkAlarm (s : State) : Out :=
  let a := (s.ctlGet o_pwrAlarmLo).toNat + 2 ^ 32 * (s.ctlGet o_pwrAlarmHi).toNat
  .next (if a ≠ 2 ^ 64 - 1 ∧ a ≤ s.time then s.wakeEvent (3 * 2 ^ 30) else s)

def execGpioWake (pin : Nat) (level : Bool) (ns : Nat) (s : State) : Out :=
  .next (if pin < 32 ∧ bitOf s.board.wakeGpio pin ∧ bitOf s.board.wakePol pin = level ∧ 10000 ≤ ns then s.wakeEvent (2 * 2 ^ 30 + pin) else s)

/-- A wake indication of a PHY: in Park an exit event, where the port has its WAKE flag; otherwise PORTSTAT.WAKE (R448). -/
def execPhyWake (port : Nat) (s : State) : Out :=
  if 16 ≤ port then .next s
  else if s.pwr.phase = .park then .next (if s.board.netWake.contains port then s.wakeEvent (2 ^ 30 + port * 2 ^ 5) else s)
  else
    let s := s.ctlMod (o_nswPortstat port) (fun v => fone v 27 true)
    .next (if s.pwr.phase = .parking ∧ s.board.netWake.contains port then s.wakeEvent (2 ^ 30 + port * 2 ^ 5) else s)

/-- The level of RAILOK; the Landing samples it once PARK_N is high (R609). -/
def execRailok (level : Bool) (s : State) : Out := .next ((s.modPwr (fun p => { p with railOk := level })).afterRail)

/-! ## Grove reset (R544) -/

/-- Grove g is powered down and up, and its modules train from BIST. -/
def State.groveDown (s : State) (g : Nat) : State :=
  let way (pa : Nat) : Bool := isClearing pa && (pa - 0x3F000000000) / 0x100000000 == g
  let s := s.setMem { s.mem with
    l2 := s.mem.l2.filter (fun t => t.stand / 5 != g), grove := s.mem.grove.filter (fun t => t.grove != g),
    gpend := s.mem.gpend.filter (fun p => p.grove != g), clr := s.mem.clr.filter (fun e => !way e.1),
    poison := s.mem.poison.filter (fun l => !way (l * 64)), utlb := (List.range 4).foldl (fun m i => smErase m (g * 4 + i)) s.mem.utlb }
  let s := { s with cores := s.cores.map (fun (e : Nat × Core) => if groveOf e.1 = g ∧ e.2.run ≠ RunState.absent then (e.1, Core.zero) else e) }
  let s := s.setUst g { Ust.reset with loaded := (s.ust g).loaded }
  (List.range 4).foldl (fun s l => s.modFerry (localModule g l) (fun _ => { FryModule.reset with st := .bist })) s

def State.grvrst (s : State) (g : Nat) : State :=
  if s.cutOff g then ((s.ctlMod o_pwrGrvrst (fun v => fset v 3 0 g)).groveDown g).modPwr (fun p => { p with grove := some g })
  else s.ctlMod o_pwrGrvrst (fun v => fone v 29 true)

/-- The write of GO, or (done) the end of the training, whether or not a module came up. -/
def execGroveReset (grove : Nat) (done : Bool) (s : State) : Out :=
  if done then
    .next (if s.pwr.grove = some grove ∧ (List.range 4).all (fun l => (s.ferry (localModule grove l)).up || (s.ferry (localModule grove l)).st == .disabled) then
      (s.ctlMod o_pwrGrvrst (fun v => fone v 30 true)).modPwr (fun p => { p with grove := none }) else s)
  else .next (if grove < 12 ∧ s.reach .host o_pwrGrvrst then s.grvrst grove else s)

/-! ## Core reset (R545, R546) -/

/-- A core reset of a slot is refused. -/
def State.crstRefused (s : State) (k : Nat) : Bool :=
  match s.cmpOf k with
  | none => true
  | some n => s.recording n || s.mftMode n == 3 || (match s.cht with | some op => op.targets.contains n | none => false)

/-- The run state a core released from HOLD takes: its owner's. -/
def State.afterHold (s : State) (k : Nat) : RunState :=
  match s.cmpOf k with
  | none => .stopped
  | some n =>
    match s.cmpState n with
    | .running => .running
    | .stopping => .running
    | .halted => .halted
    | _ => .stopped

/-- A write of GRV.CRST_i: RESET, HOLD, and the flags cleared by ones. -/
def State.crstWrite (s : State) (k : Nat) (v : Reg32) : State :=
  let off := o_grvCrst (groveOf k) (slotOf k)
  if fbit v 31 && s.crstRefused k then s.ctlMod off (fun r => fone r 28 true)
  else
  let s := s.ctlMod off (fun r => fone (fone (fone r 30 (fbit v 30)) 29 (fbit r 29 && !fbit v 29)) 28 (fbit r 28 && !fbit v 28))
  let s := if !fbit v 30 ∧ (s.core k).run = .held then
      s.modCore k (fun c => { s.clockFrom c with run := s.afterHold k })
    else s
  if !fbit v 31 then s
  else s.modPwr (fun p => { p with crst := if p.crst.contains k then p.crst else p.crst ++ [k] })

/-- The core stands at a boundary, or an iteration boundary of any repeat, with no freeze in progress. -/
def State.resettable (s : State) (k : Nat) : Bool :=
  let c := s.core k
  if c.run = .running ∧ !c.dbg then
    c.freeze.isNone && c.pair.isNone
  else true

/-- The reset takes effect: retired stores stand; within a repeat RC and the repeat's address are kept (R168). -/
def State.coreReset (s : State) (k : Nat) : State :=
  match (s.cmpOf k).bind s.cmpSec with
  | none => s.modPwr (fun p => { p with crst := p.crst.filter (· != k) })
  | some m =>
    let s := s.drainNow k
    let c := s.core k
    let stay : Bool := c.run == .stopped || c.run == .halted
    let s := s.setMem { s.mem with bcasts := s.mem.bcasts.filter (fun b => b.src != k) }
    let s := s.coldCore k m.entry m.ftStart
    let s := s.modCore k (fun d => { d with
      rc := match c.rep with | some _ => c.rc | none => 0
      epc := match c.rep with | some r => BitVec.ofNat 36 r.pc | none => 0
      run := if stay && d.run == .running then c.run else d.run })
    let s := s.modPwr (fun p => { p with crst := p.crst.filter (· != k) })
    s.ctlMod (o_grvCrst (groveOf k) (slotOf k)) (fun r => fone r 29 true)

/-- The write of RESET, or (now) its effect at the core's next boundary. -/
def execCoreReset (who : Sender) (core : Nat) (now : Bool) (s : State) : Out :=
  if 240 ≤ core then .next s
  else if now then .next (if s.pwr.crst.contains core ∧ s.resettable core then s.coreReset core else s)
  else
    let off := o_grvCrst (groveOf core) (slotOf core)
    .next (if s.reach who off then s.crstWrite core (fone (s.ctlGet off &&& 0x40000000) 31 true) else s)

/-- HOLD is written to 0. -/
def execHoldRelease (who : Sender) (core : Nat) (s : State) : Out :=
  .next (if core < 240 ∧ s.reach who (o_grvCrst (groveOf core) (slotOf core)) then s.crstWrite core 0 else s)

/-! ## Supply targets (R602) -/

/-- Targets from 0.68 V to 0.82 V in steps of 5 mV, in units of 0.1 mV; none before boot step 4. -/
def execAvsTargetSet (grove target : Nat) (s : State) : Out :=
  let on : Bool := match s.pwr.phase with
    | .boot => decide (4 ≤ s.pwr.step)
    | .run => true
    | .parking => true
    | _ => false
  .next (if grove < 12 ∧ 6800 ≤ target ∧ target ≤ 8200 ∧ target % 50 = 0 ∧ on then s.emit (.avs grove target) else s)

/-! ## APPLY and the events that follow its end -/

/-- Groves without a route are isolated once a full container has ended the boot; a Park request waits for BUSY (R65). -/
def execApply (ev : ChtEv) (s : State) : Out :=
  let t := s.applyEv ev
  .next (if s.pwr.phase = .boot ∧ t.pwr.phase = .run then t.afterDown.parkDue else t.parkDue)

/-- One tick of the time base, which the block takes when no command waits (R85, log entry 6); a Park request that waited for its
conditions begins. -/
def State.tick (s : State) : State := { s with time := s.time + 1 }.parkDue

end Sys2Proof.Machine
end

