-- ==== Sys2Proof/Machine/Security.lean ====
section
/-!
DEFINITION. The security block (R559 to R575): fuse operations, the generator, debug authentication and the zeroisation of the
package debug state.
-/
namespace Sys2Proof.Machine

def State.modSec (s : State) (f : Sec → Sec) : State := { s with sec := f s.sec }

/-! ## Fuse operations (Table 22-5) -/

/-- Slots 0 to 3 and 8 hold public keys (Table 22-2). -/
def publicSlot (slot : Nat) : Bool := decide (slot < 4) || slot == 8

/-- SEC.SLOTS. -/
def Sec.slotsReg (x : Sec) : Reg32 :=
  r32 ((List.range 11).foldl (fun a i => a + (slotSet x i).toNat * 2 ^ (17 + i)) 0 +
       (List.range 4).foldl (fun a i => a + (x.revoked.contains i).toNat * 2 ^ (28 + i)) 0)
/-- SEC.FLOORS. -/
def Sec.floorsReg (x : Sec) : Reg32 := r32 (x.svnFloor * 2 ^ 7 + x.fwFloor)
/-- SEC.STATUS: WREJ and BUSY are stored. -/
def State.secStatus (s : State) : Reg32 := fone (fset (s.ctlGet o_secStatus) 30 29 s.sec.field.toNat) 28 s.sec.dbgState

/-- The octets of SEC.PROVDATA. -/
def State.provData (s : State) (n : Nat) : List Nat :=
  ((List.range 24).flatMap (fun i => valOct (s.ctlGet (o_secProvdata i)).toNat 4)).take n

/-- The Chart signing slots a container can still be signed under once a slot is revoked. -/
def Sec.usable (x : Sec) : List Nat := (List.range 4).filter (fun i => slotSet x i && !x.revoked.contains i)

/-- The code of an operation, and the fuses after it. `fused` is false when programming the fuses fails. -/
def State.fuseOp (s : State) (op slot : Nat) (fused : Bool) : Nat × Sec :=
  let x := s.sec
  match op with
  | 1 =>
    let data := s.provData (if publicSlot slot then 96 else 32)
    if x.field then (1, x)
    else if slotSet x slot then (2, x)
    else if publicSlot slot && !Config.validPublicKey data then (3, x)
    else if !fused then (4, x)
    else (0, { x with slots := smSet x.slots slot data, badTags := x.badTags.filter (· != slot) })
  | 2 =>
    let y := { x with revoked := if x.revoked.contains slot then x.revoked else x.revoked ++ [slot] }
    if 4 ≤ slot ∨ y.usable = [] then (3, x) else if !fused then (4, x) else (0, y)
  | 4 => if x.field then (1, x) else if !fused then (4, x) else (0, { x with field := true })
  | 5 => if !fused then (4, x) else (0, { x with fwFloor := max x.fwFloor x.fwSvn })
  | _ => (0, x)

/-- An operation runs (R559, R561): its result, and PROVDATA cleared. RAISE_SVN waits for an APPLY in progress (R575). -/
def State.secOp (s : State) (op slot : Nat) (fused : Bool) : State :=
  if fbit (s.ctlGet o_secStatus) 27 then s
  else
    let s := s.ctlSet o_secCmd (r32 (op * 2 ^ 20 + slot * 2 ^ 16))
    if op = 3 then
      (match s.cht with
       | some c => if c.kind = .apply then s.ctlMod o_secStatus (fun v => fone v 27 true) else s.raiseSvn
       | none => s.raiseSvn)
    else
      let r := s.fuseOp op slot fused
      let s := ({ s with sec := r.2 }).ctlSet o_secResult (r32 (r.1 * 2 ^ 28))
      (List.range 24).foldl (fun s i => s.ctlSet (o_secProvdata i) 0) s

/-- PF0 reaches the SEC frame, and the slot is one of Table 22-2; a reserved one leaves the register unchanged (R9). -/
def State.secRow (s : State) (op slot : Nat) (fused : Bool) : State :=
  if !s.reach .host o_secCmd then s
  else if 11 ≤ slot then s.ctlMod o_secStatus (fun v => fone v 31 true)
  else s.secOp op slot fused

def execProvision (slot : Nat) (fused : Bool) (s : State) : Out := .next (s.secRow 1 slot fused)
def execRevoke (slot : Nat) (fused : Bool) (s : State) : Out := .next (s.secRow 2 slot fused)
def execRaiseSvn (s : State) : Out := .next (s.secRow 3 0 true)
def execLock (fused : Bool) (s : State) : Out := .next (s.secRow 4 0 fused)
def execRaiseFwsvn (fused : Bool) (s : State) : Out := .next (s.secRow 5 0 fused)

/-! ## The generator (R565) -/

/-- The next reseed, 1 ms after the last; `healthy` is false when a health test fails, and the source restarts. -/
def execDrbgReseed (healthy : Bool) (s : State) : Out :=
  if !s.keeperOn then .next s
  else if healthy then
    let t := max s.time (s.sec.seedAt + 1000000)
    .next ({ s with time := t }.modSec (fun x => { x with seedAt := t }))
  else
    let fails := s.sec.failAt.filter (fun t => decide (s.time < t + 1000000000)) ++ [s.time]
    let s := (s.modSec (fun x => { x with failAt := fails })).event 8 0x080 landing none 0 fails.length 0
    .next (if 3 ≤ fails.length then s.tamperReset 26 else s)

/-! ## Debug authentication (R570, R571) -/

/-- The DBG frame answers: to PF0, or to the JTAG port while the security block runs. -/
def State.dbgReach (s : State) (jtag : Bool) : Bool := if jtag then s.keeperOn else s.reach .host o_dbgStatus

/-- A fresh challenge of 32 octets. -/
def State.newChallenge (s : State) : State :=
  let d := s.draws
  (List.range 8).foldl (fun t i => t.ctlSet (o_dbgChallenge i) ((Config.rngDraw (d + i)).setWidth 32)) { s with draws := d + 8 }

/-- The challenge is drawn afresh at a read of word 0. -/
def execChallengeRead (jtag : Bool) (s : State) : Out := .next (if s.dbgReach jtag then s.newChallenge else s)

/-- The 52 octets that a token signs. -/
def State.tokenMessage (s : State) (level : Nat) : List Nat :=
  valOct 0x54474244 4 ++ valOct serial 8 ++ (List.range 8).flatMap (fun i => valOct (s.ctlGet (o_dbgChallenge i)).toNat 4) ++
    [level, 0, 0, 0] ++ valOct (s.ctlGet o_dbgReqmask).toNat 4
def State.token (s : State) : List Nat := (List.range 24).flatMap (fun i => valOct (s.ctlGet (o_dbgToken i)).toNat 4)

/-- The overwrite of R567 without a reset: every key of Table 22-3, those of the Crossing among them, and the Chart store. -/
def State.zeroise (s : State) : State :=
  let s := [0, 1].foldl (fun s p => s.modXport p (fun x => { x with key0 := [], key1 := [] })) s
  { s with
    store := none
    mem := s.mem.rekeyAll (fun _ => false) []
    mft := s.mft.map (fun (e : Nat × MftSess) => (e.1, { e.2 with key := 0 }))
    sec := { s.sec with keys := false, wraps := [], staged := [] } }

/-- Level 2 on a part in FIELD: the overwrite, SEC.TAMPER.DEBUG, every compartment stopped, and the package debug state until
power-off. -/
def State.packageDebug (s : State) : State :=
  let s := (s.zeroise.modSec (fun x => { x with dbgState := true })).ctlMod o_secTamper (fun v => fone v 25 true)
  s.live.cmps.foldl (fun s m =>
    if s.cmpState m.id = .running ∨ s.cmpState m.id = .stopping then (s.quiesce m.id none).enterCmp m.id .stopped else s) s

/-- A token that verifies: compartments that record cannot be named (log entry 26). -/
def State.grant (s : State) (level : Nat) : State :=
  let asked := (s.ctlGet o_dbgReqmask).toNat
  let mask := if level = 1 then (List.range 32).foldl (fun a n => if asked.testBit n ∧ !s.recording n then a + 2 ^ n else a) 0 else asked
  let s := if level = 2 ∧ s.sec.field ∧ !s.sec.dbgState then s.packageDebug else s
  let s := (s.ctlSet o_dbgStatus (r32 (level * 2 ^ 30))).ctlSet o_dbgMask (r32 mask)
  (s.event 0 0x082 landing none 0 (level * 2 ^ 30 + mask % 2 ^ 30) 0).newChallenge

def State.submit (s : State) : State :=
  if s.time < s.sec.holdOff then s
  else
    let level := fget (s.ctlGet o_dbgReq) 31 30
    if (level = 1 ∨ level = 2) ∧ slotSet s.sec 8 ∧ Config.ecdsaVerify (smGet [] s.sec.slots 8) (s.tokenMessage level) s.token then s.grant level
    else
      let s := (s.ctlInc o_dbgFails).modSec (fun x => { x with holdOff := s.time + 1000000000 })
      s.event 8 0x083 landing none 0 (s.ctlGet o_dbgFails).toNat 0

def execSubmit (jtag : Bool) (s : State) : Out := .next (if s.dbgReach jtag then s.submit else s)

/-- A core halted by debug goes on at its PC (R574, R575). -/
def State.dbgResume (s : State) (k : Nat) : State :=
  if (s.core k).dbg then s.modCore k (fun c => { s.clockFrom c with dbg := false, dbgStep := false, dbgReason := 0 }) else s

/-- The grant ends; halted cores go on. -/
def State.dbgClose (s : State) : State :=
  let s := ({ s with halts := [] }.ctlSet o_dbgStatus 0).ctlSet o_dbgMask 0
  (List.range 240).foldl State.dbgResume s

def execClose (jtag : Bool) (s : State) : Out := .next (if s.dbgReach jtag then s.dbgClose else s)

end Sys2Proof.Machine
end

