-- ==== Sys2Proof/Machine/CtlSpace.lean ====
section
/-!
DEFINITION. Reading and writing control registers (R8 to R11, R285 to R287): the value each register shows, in the view in which it
is read, what a read clears, and what a write does. Whether the sender reaches the register is checked before.
-/
namespace Sys2Proof.Machine

/-! ## Views -/

def FieldRow.acs (f : FieldRow) (unpriv : Bool) : Acs := if unpriv then f.unpriv else f.priv
def FieldRow.mask (f : FieldRow) : Reg32 := fset 0 f.hi f.lo (2 ^ (f.hi + 1 - f.lo) - 1)
/-- The bits of the fields whose access code in a view satisfies a test. -/
def RegRow.mask (r : RegRow) (unpriv : Bool) (p : Acs → Bool) : Reg32 :=
  r.fields.foldl (fun m f => if p (f.acs unpriv) then m ||| f.mask else m) 0
/-- The fields that a read shows (Table 0-5). -/
def Acs.shown : Acs → Bool
  | .wo => false
  | .hid => false
  | _ => true
/-- The view of an access: PF0 always has the privileged one (R286). -/
def CtlLoc.view (l : CtlLoc) : Sender → Bool
  | .core _ => l.unpriv
  | .host => false

/-! ## Values computed from the state -/

/-- The number of a frame of an array of frames. -/
def CtlLoc.frame (l : CtlLoc) : Nat :=
  match l.blk with
  | .dmc => l.off / 0x10000 - 8
  | .eng => (l.off - 0x140000) / 0x1000
  | _ => (l.off - 0x200000) / 0x100000

/-- Bits listed by a test. -/
def bits32 (p : Nat → Bool) : Reg32 := (List.range 32).foldl (fun v i => fone v i (p i)) 0

/-- CHT.CMPSTATE_n (Table 2-11). -/
def State.cmpstateReg (s : State) (n : Nat) : Reg32 :=
  r32 ((s.cmpState n).code * 2 ^ 29 + (s.recording n).toNat * 2 ^ 28 + s.live.pairMode n % 4 * 2 ^ 26 +
       (s.coresOf n).length % 256 * 2 ^ 16 + smGet 0 s.generation n % 65536)

def State.chtVal (s : State) (w : Nat) (l : CtlLoc) (i : Nat) (v : Reg32) : Reg32 :=
  if 0x20 ≤ l.inner ∧ l.inner < 0x50 then
    (match s.store with
     | some c => r32 (le c.digest (4 * i) 4)
     | none => 0)
  else if 0x100 ≤ l.inner ∧ l.inner < 0x180 then (if l.unpriv && w != 32 && w != i then 0 else s.cmpstateReg i)
  else if 0x200 ≤ l.inner then (if w != 32 && w != i then 0 else v)
  else v

/-- The link to the host is down, or slower or narrower than at the last admission (R374). -/
def State.hostShort (s : State) : Bool :=
  match s.hep.admitted with
  | none => false
  | some (r, n) =>
    let st := s.ctlGet o_hepStatus
    !fbit st 30 || decide (fget st 29 27 < r) || decide (fget st 26 22 < n)

/-- The resource that TT.LOADSEL names. -/
def loadKey (v : Reg32) : Nat := resKey (fget v 15 12) (fget v 11 11) (fget v 9 0)

def State.ttVal (s : State) (l : CtlLoc) (v : Reg32) : Reg32 :=
  match l.inner with
  | 0x0 =>
    let admitting : Bool := match s.cht with
      | some op => op.kind == .apply && op.step == 5
      | none => false
    fone (fone (fone (fone v 30 admitting) 29 s.rerouted) 28 s.degraded) 27 s.hostShort
  | 0xC => s.ttLoad (loadKey (s.ctlGet o_ttLoadsel))
  | _ => v

/-- A record of the event log as eight words (Table 24-5). -/
def EvRec.word (r : EvRec) : Nat → Nat
  | 0 => r.seq
  | 1 => r.time % 2 ^ 32
  | 2 => r.time / 2 ^ 32
  | 3 => (match r.cmp with
      | some n => 2 ^ 28 + n % 32 * 2 ^ 23
      | none => 0) + r.die % 16 * 2 ^ 19 + r.cls % 16 * 2 ^ 15 + r.code % 2 ^ 15
  | 4 => r.addr % 2 ^ 32
  | 5 => r.addr / 2 ^ 32
  | 6 => r.info
  | _ => r.suppressed * 2 ^ 16

def State.evlVal (s : State) (l : CtlLoc) (i : Nat) (v : Reg32) : Reg32 :=
  match l.inner with
  | 0x8 => r32 (match s.evl.recs with | r :: _ => r.seq | [] => 0)
  | 0xC => r32 s.evl.tail
  | 0x18 => r32 s.evl.lost
  | _ =>
    if 0x20 ≤ l.inner ∧ l.inner < 0x40 then
      (match s.evl.recs.find? (·.seq == (s.ctlGet o_evlRsel).toNat) with
       | some r => r32 (r.word i)
       | none => 0)
    else v

def State.secVal (s : State) (l : CtlLoc) (i : Nat) (v : Reg32) : Reg32 :=
  match l.inner with
  | 0x0 => s.secStatus
  | 0x8 => s.sec.slotsReg
  | 0xC => s.sec.floorsReg
  | _ =>
    if 0x84 ≤ l.inner ∧ l.inner < 0xAC then r32 ((smGet [] s.sec.wraps (fget (s.ctlGet o_secMksel) 4 0)).getD i 0) else v

/-- PWR.STATUS.STATE (Table 21-11). -/
def Pwr.code (p : Pwr) : Nat :=
  match p.phase with
  | .run => 1
  | .parking => 2
  | .waking => 3
  | .boot => if p.fromPark then 3 else 0
  | .stopped => 4
  | _ => 0

/-- A Stand has an owned core present. -/
def State.standUsed (s : State) (stand : Nat) : Bool :=
  (List.range 4).any (fun i => s.present (4 * stand + i) && (s.cmpOf (4 * stand + i)).isSome)
def State.pairedPkg (s : State) : Bool := match s.live.pkg with
  | some p => p.paired
  | none => false

/-- A power domain is on (Table 21-8, R552); the Grove rails rise at boot step 4. -/
def State.domainOn (s : State) (d : Nat) : Bool :=
  let early : Bool := s.pwr.phase == .stopped && decide (s.pwr.step ≤ 3)
  if d < 108 then
    !early && (match d % 9 with
      | 6 => (s.ownerOf 9 (d / 9)).isSome
      | 5 => true
      | 7 => true
      | 8 => true
      | k => s.standUsed (5 * (d / 9) + k))
  else match d - 108 with
    | 16 => (List.range 8).any (fun p => smGet 10000 s.board.netRate p != 0)
    | 17 => (List.range 8).any (fun p => smGet 10000 s.board.netRate (8 + p) != 0)
    | 18 => bitOf s.board.xng 0 && s.pairedPkg
    | 19 => bitOf s.board.xng 1 && s.pairedPkg
    | k => decide (k < 20)

/-- The domain a clock island lies in, and its clock in MHz (Table 21-7). -/
def State.island (s : State) (i : Nat) : Nat × Nat :=
  if i < 132 then
    let g := i / 11
    let k := i % 11
    if k < 5 then (9 * g + k, if s.fuses.part = 0x144 then 1800 else 2000)
    else if k < 7 then (9 * g + k, 1000)
    else if k < 9 then (9 * g + 7, 1600)
    else (9 * g + 8, 1600)
  else
    let k := i - 132
    if k = 0 then (108, 100)
    else if k = 1 then (109, 1000)
    else if k = 2 then (110, 500)
    else if k = 3 then (111, 1600)
    else if k = 4 then (112, 1000)
    else if k = 5 then (113, 1000)
    else if k < 14 then (108 + k, 1600)
    else if k = 14 then (122, 0)
    else if k = 15 then (122, 1000)
    else if k = 16 then (123, 1000)
    else if k < 19 then (124, 0)
    else if k < 21 then (125, 0)
    else if k < 23 then (126 + (k - 21), 800)
    else if k < 35 then (111, 1600)
    else (108, 200)

def State.pwrVal (s : State) (l : CtlLoc) (v : Reg32) : Reg32 :=
  match l.inner with
  | 0x0 => fone (fone (fset v 30 28 s.pwr.code) 27 s.pwr.parkReq) 26 s.pwr.railOk
  | 0x2C => r32 ((s.domainOn (fget (s.ctlGet o_pwrDomsel) 6 0)).toNat * 2 ^ 30)
  | 0x34 =>
    let e := s.island (fget (s.ctlGet o_clkIslsel) 7 0)
    if s.domainOn e.1 then r32 (2 ^ 30 + e.2) else 0
  | _ => v

def State.dmcVal (s : State) (l : CtlLoc) (v : Reg32) : Reg32 :=
  let n := l.frame
  match l.inner with
  | 0x0 => fone (fone v 30 (decide (0 < s.initRemaining n))) 29 (s.pwr.phase == .park || s.pwr.phase == .waking)
  | 0x8 => r32 (s.board.rate * 2 ^ 28 + s.board.x8.toNat * 2 ^ 26 + s.board.density * 2 ^ 24 + s.board.ranks2.toNat * 2 ^ 23 +
      s.board.mpsm.toNat * 2 ^ 22 + s.board.log2Lines * 2 ^ 16)
  | 0x10 => r32 (s.initRemaining n)
  | _ => v

def State.qmVal (s : State) (w : Nat) (l : CtlLoc) (v : Reg32) : Reg32 :=
  let q := smGet 0 s.qm.qsel w
  let x := s.queue q
  if l.inner = 0x10 then r32 q
  else if l.inner < 0x18 then v
  else if !s.mayUse w q then 0
  else if l.inner = 0x18 then r32 (x.st * 2 ^ 30 + x.cause * 2 ^ 24 + x.armed.toNat * 2 ^ 23)
  else if l.inner = 0x1C then r32 (x.dev * 65536 + x.sw)
  else x.reg l.inner

def State.engVal (s : State) (l : CtlLoc) (v : Reg32) : Reg32 :=
  let e := l.frame
  let x := s.engine e
  match l.inner with
  | 0x0 => fset (fset (fset v 30 28 (if (s.eOwner e).isSome then x.st else 4)) 23 16 (min 128 (s.engOpen e))) 15 0 x.queue
  | 0x8 => r32 x.done
  | 0xC => r32 (x.sub * 65536)
  | 0x10 => r32 x.faddr
  | 0x14 => r32 (x.faddr / 2 ^ 32)
  | _ => v

/-- The count that NSW.CNTSEL selects, and the one that HEP.CNTSEL selects. -/
def State.nswKey (s : State) : Nat := let v := s.ctlGet o_nswCntsel; fget v 3 0 * 32 + fget v 8 4
def State.hepKey (s : State) : Nat := let v := s.ctlGet o_hepCntsel; fget v 9 6 * 64 + fget v 5 0

/-- A compartment sees the counts of its own streams only. -/
def State.streamShown (s : State) (w i : Nat) : Bool := w == 32 || s.ownerOf 5 i == some w
def State.nswsVal (s : State) (w i : Nat) (v : Reg32) : Reg32 := if s.streamShown w i then v else 0

def State.hepfVal (s : State) (w : Nat) (l : CtlLoc) (i : Nat) (v : Reg32) : Reg32 :=
  let key := smGet 0 s.hep.wsel w
  let mine : Bool := w == 32 || s.fOwner (key / 256) == some w
  let x := smGet ⟨0, 0⟩ s.hep.wins key
  match l.inner with
  | 0x0 => r32 key
  | 0x4 => if mine then r32 x.tgt else 0
  | 0x8 => if mine then x.cfg else 0
  | _ =>
    if (l.inner - 0x100) % 16 = 0 then
      fone (fone (fset (fone (fone v 31 (s.bme (1 + i))) 30 (s.mse (1 + i))) 29 28 (s.intMode (1 + i))) 27 (s.inFlr (1 + i))) 25 (s.d3 (1 + i))
    else v

def State.grvVal (s : State) (l : CtlLoc) (i : Nat) (v : Reg32) : Reg32 :=
  let g := l.frame
  if l.inner = 0x10 then r32 (g * 2 ^ 28 + (smGet 0 s.fuses.present g).toNat)
  else if l.inner % 16 = 0xC then
    let c := s.core (20 * g + i)
    fone v 27 ((s.cmpOf (20 * g + i)).isSome && (c.run == .inReset || c.run == .held))
  else v

/-- STATE of FRY.MSTATE. -/
def FryState.code : FryState → Nat
  | .off => 0
  | .bist => 1
  | .map => 1
  | .deskew => 1
  | .version => 1
  | .full => 2
  | .half => 3
  | .remap => 4
  | .retrain => 5
  | .disabled => 6

def State.mstateReg (s : State) (g i : Nat) : Reg32 :=
  let m := s.ferry (localModule g i)
  let peer := if i < 2 then landing else if i = 2 then (g + 1) % 12 else (g + 11) % 12
  r32 (m.st.code * 2 ^ 29 + (m.st == .half && m.upper).toNat * 2 ^ 28 + m.version / 10 * 2 ^ 24 + m.version % 10 * 2 ^ 20 +
    (m.version == 20).toNat * (2 ^ 19 + 2 ^ 18) + m.attempts % 4 * 2 ^ 16 + peer * 2 ^ 12)

def State.fryVal (s : State) (l : CtlLoc) (i : Nat) (v : Reg32) : Reg32 :=
  let g := l.frame
  let sel := s.ctlGet (o_fryLsel g)
  let j := fget sel 1 0
  let m := localModule g j
  let d0 := if fryRx m 0 = some (g, j) then 0 else 1
  let d := (s.ferry m).dir (if fbit sel 2 then 1 - d0 else d0)
  match l.inner with
  | 0xC => r32 d.failed
  | 0x10 => r32 (d.failed / 2 ^ 32)
  | 0x14 => r32 (d.assign.foldl (fun a e => a + (64 + e.2 % 64) * 2 ^ (7 * e.1)) (d.spfail % 16 * 2 ^ 28))
  | _ => if 0x100 ≤ l.inner ∧ l.inner % 32 = 0 then s.mstateReg g i else v

def State.ustVal (s : State) (l : CtlLoc) (i : Nat) (v : Reg32) : Reg32 :=
  let g := l.frame
  let u := s.ust g
  let ops (k : Nat) : List XOp := (s.core k).xops
  let sum (f : XOp → Bool) : Nat := (List.range 20).foldl (fun a j => a + ((ops (20 * g + j)).filter f).length) 0
  match l.inner with
  | 0x0 =>
    let o := s.ownerOf 9 g
    fset (fset (fset (fone (fone v 30 u.loaded) 29 o.isSome) 28 24 (o.getD 0)) 23 16 (sum (·.parked.isNone))) 15 8 (sum (·.parked.isSome))
  | 0x4 => match s.ustCfg g with
    | some c => if u.loaded then r32 c.configId else 0
    | none => 0
  | _ =>
    if l.inner < 0x100 then v
    else
      let p := (ops (20 * g + i)).filter (·.parked.isSome)
      let r := r32 ((u.dropped.getLsbD i).toNat * 2 ^ 30 + p.length % 8 * 2 ^ 24)
      match p with
      | x :: _ => r ||| r32 (x.ctx % 16 * 2 ^ 16 + x.parked.getD 0 % 2 ^ 11 * 2 ^ 5)
      | [] => r

/-- A 48-bit counter's high register: bits 47:16. -/
def high48 (lo hi : Reg32) : Reg32 := r32 (fget hi 31 16 * 65536 + fget lo 31 16)

def State.pmuVal (s : State) (l : CtlLoc) (i : Nat) (v : Reg32) : Reg32 :=
  if 0x100 ≤ l.inner ∧ l.inner < 0x180 then
    (match l.inner % 16 with
     | 4 => (smFind? s.ulatch (8 * l.frame + i)).getD v
     | 8 => high48 (s.ctlGet (l.off - 4)) v
     | _ => v)
  else if 0x1010 ≤ l.inner ∧ l.inner % 256 ≠ 0 ∧ l.inner % 16 = 8 then high48 (s.ctlGet (l.off - 4)) v
  else v

def State.xngVal (s : State) (l : CtlLoc) (i : Nat) (v : Reg32) : Reg32 :=
  match l.inner with
  | 0x0 => fone (fone (fset v 30 28 s.links.pair) 27 (decide (0 < s.live.pairIndex))) 26 s.senior
  | 0x10 => if s.links.pair = 2 then v else 0
  | _ => if 0x20 ≤ l.inner ∧ l.inner % 16 = 0 then r32 ((s.xport i).st * 2 ^ 29 + ((s.xport i).st == 3 && (s.xport i).upper).toNat * 2 ^ 28) else v

/-! ## Core-debug frames (R573) -/

/-- The core whose registers lie at a place of a core-debug frame. -/
def CtlLoc.dbgCore (l : CtlLoc) : Option Nat :=
  if l.inner < 0x4000 then some (20 * l.frame + 4 * (l.off / 0x10000 % 16 - 6) + l.inner / 0x1000) else none

/-- A core of a compartment that records, or replays without having diverged or ended, is never halted (R571, R574). -/
def State.dbgAllowed (s : State) (k : Nat) : Bool :=
  match s.cmpOf k with
  | some n => s.mftMode n != 2 && s.mftMode n != 3
  | none => true

/-- A grant covers a core (R573). -/
def State.granted (s : State) (k : Nat) : Bool :=
  match fget (s.ctlGet o_dbgStatus) 31 30 with
  | 2 => true
  | 1 => (match s.cmpOf k with
      | some n => fbit (s.ctlGet o_dbgMask) n
      | none => false)
  | _ => false

def State.cdbgVal (s : State) (l : CtlLoc) (v : Reg32) : Reg32 :=
  match l.dbgCore with
  | none => v
  | some k =>
    let c := s.core k
    match l.inner % 0x1000 with
    | 0x4 => fset (fone v 31 c.dbg) 30 28 c.dbgReason
    | 0x8 => r32 c.pc
    | 0xC => r32 (c.pc / 2 ^ 32)
    | _ => v

/-! ## Reading -/

/-- The value a register shows to a reader: stored, or computed from the state. -/
def State.regVal (s : State) (w : Nat) (l : CtlLoc) (ix : List Nat) : Reg32 :=
  let v := s.ctlGet l.off
  let i := ix.headD 0
  match l.blk with
  | .glb =>
    if l.inner = 0 then r32 (s.fuses.part * 65536 + 0xA000 + 0x200 + 0x20 + s.fuses.coresPerGrove)
    else if l.inner = 4 then 0x12002100 else v
  | .cht => s.chtVal w l i v
  | .tt => s.ttVal l v
  | .evl => s.evlVal l i v
  | .sec => s.secVal l i v
  | .pwr => s.pwrVal l v
  | .dmc => s.dmcVal l v
  | .qm => s.qmVal w l v
  | .eng => s.engVal l v
  | .nsw => if l.inner = 0x14 then r32 (smGet 0 s.net.drops s.nswKey) else v
  | .nsws => s.nswsVal w i v
  | .hep => if l.inner = 0x14 then r32 (smGet 0 s.hep.cnt s.hepKey) else v
  | .hepf => s.hepfVal w l i v
  | .grv => s.grvVal l i v
  | .fry => s.fryVal l i v
  | .l3 => if l.inner = 0 then bits32 (fun b => fbit v b || (decide (4 ≤ b) && decide (b < 16) && (s.ownerOf 3 (l.frame * 16 + b)).isSome)) else v
  | .dir =>
    if l.inner = 0 then fset (fset v 15 12 l.frame) 11 0 s.homeGroves.toNat
    else if l.inner = 8 then fset v 11 0 (s.openNow l.frame) else v
  | .ust => s.ustVal l i v
  | .pmu => s.pmuVal l ((ix.reverse).headD 0) v
  | .cdbg => s.cdbgVal l v
  | .xng => s.xngVal l i v
  | .mft => v
  | .qmn => v
  | .qmd => v
  | .msec => v
  | .tev => v
  | .dbg => v

/-- What a read changes besides RC fields: a fresh challenge (R570), the latch of an uncore counter (R585), and the counts held
elsewhere. -/
def State.readAct (s : State) (who : Sender) (l : CtlLoc) (ix : List Nat) : State :=
  match l.blk with
  | .evl => if l.inner = 0x18 then { s with evl := { s.evl with lost := 0 } } else s
  | .dir => if l.inner = 8 ∧ !l.view who then s.ctlMod l.off (fun v => fset v 31 16 (s.openNow l.frame)) else s
  | .nsw => if l.inner = 0x14 then s.modNet (fun n => { n with drops := smErase n.drops s.nswKey }) else s
  | .hep => if l.inner = 0x14 then s.modHep (fun h => { h with cnt := smErase h.cnt s.hepKey }) else s
  | .tev => match who with
    | .core k => s.teventRead k
    | .host => s
  | .pmu =>
    let key := 8 * l.frame + ix.headD 0
    if 0x100 ≤ l.inner ∧ l.inner < 0x180 ∧ l.inner % 16 = 8 then { s with ulatch := smSet s.ulatch key (s.ctlGet (l.off - 4)) }
    else if 0x100 ≤ l.inner ∧ l.inner < 0x180 ∧ l.inner % 16 = 4 then { s with ulatch := smErase s.ulatch key }
    else s
  | _ => s

/-- A read of an offset of the control space: the value, and what the read clears (Table 0-5); a stream's counter that the reader may not
see reads as zero and keeps its value. -/
def State.ctlRead (s : State) (who : Sender) (off : Nat) : State × Reg32 :=
  match ctlLoc off with
  | none => (s, 0)
  | some l => match rowAt l with
    | none => (s, 0)
    | some (r, ix) =>
      if (match l.blk, l.dbgCore with
          | .cdbg, some k => !s.granted k
          | _, _ => false) then (s, 0)
      else
        let s := if l.off = o_dbgChallenge 0 then s.newChallenge else s
        let s := if l.blk = .pmu ∧ l.inner < 0x1000 then s.countUp else s
        let unpriv := l.view who
        let v := s.regVal (s.writerId who) l ix &&& r.mask unpriv Acs.shown
        let rc := if l.blk = .nsws && !s.streamShown (s.writerId who) (ix.headD 0) then 0 else r.mask unpriv (· == .rc)
        let t := if s.ctlGet l.off &&& rc = 0 then s else s.ctlMod l.off (fun x => x &&& ~~~rc)
        (t.readAct who l ix, v)

/-! ## Refused writes -/

/-- The VIEWERR register that counts a block's view errors; none: the block has none that counts. -/
def CtlLoc.viewerr (l : CtlLoc) : Option Nat :=
  match l.blk with
  | .cht => some o_chtViewerr
  | .mft => some o_mftViewerr
  | .evl => some o_evlViewerr
  | .qm => some o_qmViewerr
  | .qmn => some o_qmViewerr
  | .qmd => some o_qmViewerr
  | .eng => some (o_engViewerr l.frame)
  | .l3 => some (o_l3Viewerr l.frame)
  | .pmu => some (o_pmuViewerr l.frame)
  | .ust => some (o_ustViewerr l.frame)
  | _ => none

/-- A view error is counted and recorded (R287). -/
def State.viewError (s : State) (l : CtlLoc) (cmp : Option Nat) (off : Nat) : State :=
  let s := match l.viewerr with
    | some o => s.ctlInc o
    | none => s
  s.event 8 0x020 landing cmp off 0 (off / 0x10000)

/-- The WREJ bit of the block that holds a register (R9). -/
def CtlLoc.wrej (l : CtlLoc) : Option (Nat × Nat) :=
  match l.blk with
  | .glb => none
  | .grv => none
  | .dbg => none
  | .cht => some (o_chtStatus, 30)
  | .tt => some (o_ttStatus, 31)
  | .mft => some (o_mftStatus, 31)
  | .evl => some (o_evlStatus, 31)
  | .sec => some (o_secStatus, 31)
  | .pwr => some (o_pwrStatus, 31)
  | .dmc => some (o_dmcStatus l.frame, 31)
  | .qm => some (o_qmStatus, 31)
  | .qmn => some (o_qmStatus, 31)
  | .qmd => some (o_qmStatus, 31)
  | .eng => some (o_engStatus l.frame, 31)
  | .nsw => some (o_nswStatus, 31)
  | .nsws => some (o_nswStatus, 31)
  | .msec => some (o_nswStatus, 31)
  | .tev => some (o_nswStatus, 31)
  | .hep => some (o_hepStatus, 31)
  | .hepf => some (o_hepStatus, 31)
  | .fry => some (o_fryStatus l.frame, 31)
  | .l3 => some (o_l3Status l.frame, 31)
  | .dir => some (o_dirStatus l.frame, 31)
  | .ust => some (o_ustStatus l.frame, 31)
  | .pmu => some (o_pmuStatus l.frame, 31)
  | .cdbg => some (l.off / 0x10000 * 0x10000 + 0xF000, 31)
  | .xng => some (o_xngStatus, 31)

def State.setWrej (s : State) (l : CtlLoc) : State :=
  match l.wrej with
  | some (o, b) => s.ctlMod o (fun v => fone v b true)
  | none => s

/-- A value is reserved in a field. -/
def FieldRow.bad (f : FieldRow) (v : Reg32) : Bool :=
  !f.legal.isEmpty && !(f.legal.any (fun p => decide (p.1 ≤ fget v f.hi f.lo) && decide (fget v f.hi f.lo ≤ p.2)))

/-- Reserved values that a list of ranges does not express: LOGSIZE of a queue in use, UNIT of an event without units, a resource
that is none, an acknowledgement of records to come, a core its function's owner does not own. -/
def State.reserved (s : State) (l : CtlLoc) (i : Nat) (v : Reg32) : Bool :=
  match l.blk with
  | .qm => l.inner == 0x20 && fget v 31 29 != 0 && decide (fget v 28 25 < 4)
  | .pmu => decide (0x100 ≤ l.inner) && decide (l.inner < 0x180) && l.inner % 16 == 0 && fget v 19 16 != 0 && decide (fget v 7 0 < 0x10)
  | .tt => l.inner == 8 && !allKeys.contains (loadKey v)
  | .evl => l.inner == 0x14 && decide (s.evl.tail ≤ v.toNat)
  | .hepf => decide (0x100 ≤ l.inner) && l.inner % 16 == 8 && (match s.fOwner i with
      | some n => s.cmpOf (fget v 7 0) != some n
      | none => true)
  | _ => false

/-! ## Writing -/

/-- The fields of a register after a write, by their access codes (Table 0-5). A register that is one WO field keeps what the block
uses later: keys, tokens, provisioning data. -/
def State.regStore (s : State) (l : CtlLoc) (r : RegRow) (unpriv : Bool) (v : Reg32) : State :=
  let staged : Bool := match r.fields with
    | [f] => f.hi == 31 && f.lo == 0 && f.acs unpriv == .wo
    | _ => false
  if staged then s.ctlSet l.off v
  else
    let rw := r.mask unpriv (· == .rw)
    let w1c := r.mask unpriv (· == .w1c)
    let w1s := r.mask unpriv (· == .w1s)
    s.ctlMod l.off (fun x => (((x &&& ~~~rw) ||| (v &&& rw)) &&& ~~~(v &&& w1c)) ||| (v &&& w1s))

/-- QSEL, and the registers of the selected queue (R406): written while it is DISABLED. -/
def State.qmWrite (s : State) (who : Sender) (l : CtlLoc) (v : Reg32) : State :=
  let w := s.writerId who
  let q := smGet 0 s.qm.qsel w
  if l.inner = 0x10 then
    let n := fget v 15 0
    if s.mayUse w n then { s with qm := { s.qm with qsel := smSet s.qm.qsel w n } } else s.bellRefused (s.senderCmp who) o_qmQsel
  else if l.view who || !s.mayUse w q then s
  else if l.inner = 0x14 then
    (match fget v 2 0 with
     | 1 => s.qEnable q
     | 2 => s.qDisable q
     | 3 => s.qRearm q
     | 4 => s.qHalt q
     | _ => s)
  else if l.inner < 0x20 then s
  else if (s.queue q).st ≠ 0 then s.setWrej l
  else
    match rowAt l with
    | some (r, _) => s.modQueue q (fun x => { x with regs := smPut 0 x.regs l.inner (v &&& r.mask false (· == .rw)) })
    | none => s

/-- EVL.ACK (R598): PF0's vector 1 follows the records that wait. -/
def State.ackWrite (s t : State) : State :=
  let u := if t.logWaits then t else
    (t.modHep (fun h => { h with pend := smPut [] h.pend 0 ((smGet [] h.pend 0).filter (· != 1)) })).ctlMod o_hepP0Intpend (fun v => fone v 1 false)
  (if u.logWaits then u.irq 0 1 else u).intaSync s

/-- MFT.CMD and the registers of a recording session. -/
def State.mftWrite (s t : State) (l : CtlLoc) (i : Nat) (v : Reg32) : State :=
  if l.inner = 8 then
    if !fbit v 31 then t
    else match fget v 27 24 with
      | 1 => t.mftArm (fget v 4 0)
      | 2 => t.mftDisarm (fget v 4 0)
      | _ => t
  else if 0x100 ≤ l.inner ∧ l.inner % 32 = 4 then (if fbit v 31 then t.mftEnd i 1 else t).mftSpace i
  else if 0x100 ≤ l.inner ∧ l.inner % 32 = 0xC then s.ridxWrite i v.toNat
  else t

/-- SEC.CMD; a programming of fuses asked for here succeeds. MKWRAP stages a key (R566). -/
def State.secWrite (s t : State) (l : CtlLoc) (i : Nat) (v : Reg32) : State :=
  if l.inner = 0x10 then (if fbit v 31 then s.secOp (fget v 23 20) (fget v 19 16) true else t)
  else if 0x84 ≤ l.inner ∧ l.inner < 0xAC then
    let n := fget (s.ctlGet o_secMksel) 4 0
    let old := smGet (List.replicate 10 0) s.sec.staged n
    s.modSec (fun x => { x with staged := smSet x.staged n (old.set i v.toNat) })
  else t

def State.pwrWrite (s t : State) (l : CtlLoc) (v : Reg32) : State :=
  if l.inner = 8 then (if fbit v 31 then s.warmrst else if fbit v 30 then s.parkWrite else s)
  else if l.inner = 0x24 ∧ fbit v 31 then (if s.cutOff (fget v 3 0) then t.grvrst (fget v 3 0) else s.grvrst (fget v 3 0))
  else t

def State.hepfWrite (s t : State) (who : Sender) (l : CtlLoc) (i : Nat) (v : Reg32) : State :=
  let w := s.writerId who
  if l.inner = 0 then s.wselWrite w (fget v 12 8) (fget v 7 0)
  else if l.inner = 4 then s.modHep (fun h => { h with wtgt := smSet h.wtgt w (fget v 29 0) })
  else if l.inner = 8 then s.wcfgWrite w v
  else if l.inner % 16 = 0xC then s.irq (1 + i) (fget v 10 0)
  else t

def State.l3Write (s t : State) (who : Sender) (l : CtlLoc) (v : Reg32) : State :=
  if 0x1000 ≤ l.inner ∧ l.inner % 32 = 0 then
    let l3 := decide (0x2000 ≤ l.inner)
    let i := l.inner % 0x1000 / 32
    let s1 := if fbit v 30 then s.rangeAbort l3 l.frame i else s
    if fbit v 31 then s1.rangeGo who l3 l.frame i (fget v 27 26) (fbit v 25)
    else
      let t := if fbit v 30 then t.rangeAbort l3 l.frame i else t
      match who with
      | .host => t.ctlMod l.off (fun c => fone c 25 false)
      | .core _ => t
  else t

def State.pmuWrite (s t : State) (l : CtlLoc) (i : Nat) (v : Reg32) : State :=
  if 0x100 ≤ l.inner ∧ l.inner < 0x180 ∧ (l.inner % 16 = 4 ∨ l.inner % 16 = 8) then
    let u := { t with ulatch := smErase t.ulatch (8 * l.frame + i) }
    if l.inner % 16 = 8 then u.ctlSet l.off (v &&& 0xFFFF0000) else u
  else if 0x1010 ≤ l.inner ∧ l.inner % 256 ≠ 0 ∧ l.inner % 16 = 8 then s.ctlSet l.off (v &&& 0xFFFF0000)
  else t

/-- PC of a core halted by debug (R574). -/
def State.dbgPc (s : State) (k : Nat) (l : CtlLoc) (v : Reg32) : State :=
  if !(s.core k).dbg then s.setWrej l
  else s.modCore k (fun c => { c with
    pc := if l.inner % 0x1000 = 8 then c.pc / 2 ^ 32 * 2 ^ 32 + v.toNat / 4 * 4 else c.pc % 2 ^ 32 + fget v 3 0 * 2 ^ 32 })

/-- What a write does, with `t` the state in which the register's fields have taken it. -/
def State.writeAct (s t : State) (who : Sender) (l : CtlLoc) (ix : List Nat) (v : Reg32) : State :=
  let i := ix.headD 0
  let g := l.frame
  if l.view who then
    (match l.blk with
     | .qm => if l.inner = 0x10 then s.qmWrite who l v else t
     | .qmd => s.doorbell (s.senderCmp who) (if l.inner = 0 then o_qmDb else o_qmDbarm) (fget v 15 0) (fget v 31 16) (l.inner == 4)
     | .cht => if 0x200 ≤ l.inner ∧ s.writerId who ≠ i then s else t
     | _ => t)
  else match l.blk with
  | .cht => if l.inner = 0 then s.chtWrite who v false
      else if 0x200 ≤ l.inner ∧ s.writerId who ≠ 32 ∧ s.writerId who ≠ i then s else t
  | .mft => s.mftWrite t l i v
  | .evl => if l.inner = 0x14 then s.ackWrite t else t
  | .sec => s.secWrite t l i v
  | .pwr => s.pwrWrite t l v
  | .qm => if 0x10 ≤ l.inner then s.qmWrite who l v else t
  | .qmd => s.doorbell (s.senderCmp who) (if l.inner = 0 then o_qmDb else o_qmDbarm) (fget v 15 0) (fget v 31 16) (l.inner == 4)
  | .eng => if l.inner = 4 then (if fbit v 31 then s.engResume g else if fbit v 30 then s.engDiscard g else s) else t
  | .msec => if l.inner % 256 = 0x30 ∧ fbit v 31 then t.macInstall i v else t
  | .hep => if l.inner = 0x18 then t.intaSync s else t
  | .hepf => s.hepfWrite t who l i v
  | .grv =>
    if l.inner % 16 = 8 then (if fbit v 31 then t.ipiSet (20 * g + i) else t)
    else if l.inner % 16 = 0xC then s.crstWrite (20 * g + i) v else t
  | .fry =>
    if l.inner % 32 = 4 ∧ 0x100 ≤ l.inner then
      let m := localModule g i
      let u := if fbit v 31 then s.fryRetrain m else s
      if fbit v 30 then u.fryEnable m else u
    else t
  | .l3 => s.l3Write t who l v
  | .ust =>
    if 0x100 ≤ l.inner then
      let k := 20 * g + i
      let u := if fbit v 30 then s.setUst g { s.ust g with dropped := (s.ust g).dropped &&& ~~~((1 : BitVec 20) <<< i) } else s
      if fbit v 31 then u.discardParked k else u
    else t
  | .pmu => s.pmuWrite t l ((ix.reverse).headD 0) v
  | .cdbg => match l.dbgCore with
    | some k => if l.inner % 0x1000 = 8 ∨ l.inner % 0x1000 = 0xC then s.dbgPc k l v else t
    | none => t
  | .dbg => if l.inner = 0x10 then (let u := if fbit v 31 then s.submit else s; if fbit v 30 then u.dbgClose else u) else t
  | .glb => t
  | .tt => t
  | .dmc => t
  | .qmn => t
  | .nsw => t
  | .nsws => t
  | .tev => t
  | .dir => t
  | .xng => t

/-- A write of an offset of the control space, but for the actions of CDBG.CTRL: a view error is counted (R287), a reserved value
leaves the register unchanged (R9), a core-debug register without a grant ignores it (R573). -/
def State.ctlWrite0 (s : State) (who : Sender) (off : Nat) (v : Reg32) : State :=
  match ctlLoc off with
  | none => s
  | some l => match rowAt l with
    | none => s
    | some (r, ix) =>
      let unpriv := l.view who
      let s := if l.blk = .pmu ∧ l.inner < 0x1000 then s.countUp else s
      let s := if unpriv && v &&& r.mask true (· == .hid) != 0 then s.viewError l (s.senderCmp who) off else s
      if (match l.blk, l.dbgCore with
          | .cdbg, some k => !s.granted k
          | _, _ => false) then s.ctlInc (l.off / 0x10000 * 0x10000 + 0xF004)
      else if r.fields.any (·.bad v) || s.reserved l (ix.headD 0) v then s.setWrej l
      else
        let t := s.writeAct (s.regStore l r unpriv v) who l ix v
        if l.blk = .grv then t.slotWritten s (20 * l.frame + ix.headD 0) else t

end Sys2Proof.Machine
end

