-- ==== Sys2Proof/Machine/Debug.lean ====
section
/-!
DEFINITION. Core debug (R573, R574): halting, resuming, stepping, and the accesses of a halted core; and with it the write of any
control register.
-/
namespace Sys2Proof.Machine

/-- A register of the core-debug frame of a core, by its offset in the core's block. -/
def cdbgOff (k inner : Nat) : Nat := o_cdbgCtrl (groveOf k) (slotOf k / 4) (k % 4) + inner
def cdbgFstatus (k : Nat) : Nat := o_cdbgFstatus (groveOf k) (slotOf k / 4)
/-- The action is not permitted in the core's state. -/
def State.dbgRej (s : State) (k : Nat) : State := s.ctlMod (cdbgFstatus k) (fun v => fone v 31 true)

/-! ## Halt, run, step -/

/-- The core can be halted: it is not in reset, and its compartment neither records nor replays. -/
def State.canHalt (s : State) (k : Nat) : Bool :=
  let c := s.core k
  s.present k && s.dbgAllowed k && !c.dbg && c.run != .absent && c.run != .inReset && c.run != .held

/-- The core stops at its boundary, as a quiesce stops it. -/
def State.dbgStop (s : State) (k : Nat) : State :=
  let s := { s with halts := s.halts.filter (· != k) }
  let s := if (s.core k).run = .running then s.stopAt k else s
  s.modCore k (fun c => { c with dbg := true, dbgStep := false, dbgReason := 1 })

/-- HALT: at once when the core stands at a boundary, else at its next one. -/
def State.dbgHalt (s : State) (k : Nat) : State :=
  if !s.canHalt k then s
  else if s.stoppable k then s.dbgStop k
  else if s.halts.contains k then s else { s with halts := s.halts ++ [k] }

def State.dbgRun (s : State) (k : Nat) : State := if (s.core k).dbg then s.dbgResume k else s.dbgRej k

def State.dbgStepGo (s : State) (k : Nat) : State :=
  if (s.core k).dbg then s.modCore k (fun c => { s.clockFrom c with dbg := false, dbgStep := true, dbgReason := 0 }) else s.dbgRej k

/-! ## AGO -/

/-- A segment register with one word of its image replaced; none: the image is not well formed. -/
def SegDesc.withWord (d : SegDesc) (i : Nat) (v : Word) : Option SegDesc := segOfImage (fun j => if j = i then v else d.image j)

/-- A debugger's read or write of a register: the new core state and the value read, or the code and sub-code. -/
def State.dbgReg (s : State) (k space idx : Nat) (write : Bool) (v : Nat) : Except (Nat × Nat) (State × Nat) :=
  let c := s.core k
  let word : Word := BitVec.ofNat 36 v
  let put (f : Core → Core) : State := if write then s.modCore k f else s
  match space with
  | 0 => if 64 ≤ idx then .error (1, 0) else .ok (put (fun c => c.setReg idx word), (c.reg idx).toNat)
  | 1 =>
    let a : Acc := BitVec.ofNat 80 v
    if 4 ≤ idx then .error (1, 0)
    else .ok (put (fun c => { c with ac := smPut 0 c.ac idx a, acNew := smPut 0 c.acNew idx a }), (c.acc idx).toNat)
  | 2 =>
    if 32 ≤ idx then .error (1, 0)
    else
      let d := c.seg (idx / 4)
      if write then
        match d.withWord (idx % 4) word with
        | some d' => .ok (put (fun c => { c with sg := smPut SegDesc.null c.sg (idx / 4) d' }), 0)
        | none => .error (3, 5)
      else .ok (s, (d.image (idx % 4)).toNat)
  | 3 =>
    if !csListed idx then .error (1, 0)
    else if write then .ok (if idx = 2 ∨ idx = 16 ∨ idx = 17 then s else s.csPut k idx (BitVec.ofNat 72 v), 0)
    else
      let r := s.csRead k idx
      .ok (r.1, r.2.toNat)
  | _ =>
    if idx = 0 then .ok (put (fun c => { c with rc := word }), c.rc.toNat)
    else if idx = 1 then .ok (put (fun c => { c with fl := BitVec.ofNat 5 v }), c.fl.toNat)
    else .error (1, 0)

/-- A physical address found for a debugger's access, checked for its location and, on a read, for poison (R574). -/
def State.dbgPlace (s : State) (k : Nat) (kind : XKind) (device : Bool) (pa : Nat) : Option (Nat × Nat) :=
  match s.locFault kind (s.core k).ft device 4 pa with
  | some sub => some (7, sub)
  | none => if kind == .load && s.mem.poisoned (lineOf pa) then some (12, 1) else none

/-- A debugger's access of one memory word: coherent, and a write visible at once. -/
def State.dbgWord (s : State) (k : Nat) (pa : Nat) (write : Bool) (v : Nat) (ctlW : State → Nat → Reg32 → State) : State × Nat :=
  match s.region pa with
  | .local_ =>
    if write then (s.modCore k (fun c => c.setLocal pa (valBytes v 4)), 0) else (s, bytesVal (s.core k).localByte pa 4)
  | .control off =>
    if write then (ctlW s off (r32 v), 0)
    else
      let r := s.ctlRead (.core k) off
      (r.1, r.2.toNat)
  | _ =>
    if write then
      let bytes : SMap Byte := (List.range 4).map (fun i => (pa % 64 + i, ((valBytes v 4).getD i 0)))
      (s.acceptEntry k { line := lineOf pa, bytes := bytes, asked := true, draining := true, last := 0, chunk := s.chunkOf k }, 0)
    else (s, s.mem.read pa 4)

/-- The translation of a supervisor-mode access of the core, at its current setting of TR. -/
def State.dbgTranslate (s : State) (k : Nat) (kind : XKind) (space la : Nat) : State × Except (Nat × Nat) Xl :=
  let st := (s.core k).status
  if space = 6 then
    (s, s.flat { s.coreCtx k with user := false, tr := false } kind la)
  else
    let s1 := s.modCore k (fun c => { c with status := c.status &&& ~~~1 })
    let x := s1.coreCtx k
    let r : State × Except (Nat × Nat) Xl := match s1.translateIn k x kind la with
      | (t, .ok p, _) => (t, .ok p)
      | (t, .fault code sub, _) => (t, .error (code, sub))
      | (t, .walk, _) => ((s1.walk x la).2.foldl (fun t ea => t.gainTable (standOf k) (lineOf ea)) t).walkFill k x kind la
    (r.1.modCore k (fun c => { c with status := st }), r.2)

/-- AGO (R574): the access that ASEL names. A failure changes nothing but ADONE, AERR, ACODE and ASUB. -/
def State.dbgAgo (s : State) (k : Nat) (ctlW : State → Nat → Reg32 → State) : State :=
  if !(s.core k).dbg then s.dbgRej k
  else
    let sel := s.ctlGet (cdbgOff k 0x10)
    let space := fget sel 31 28
    let write := fbit sel 27
    let word (i : Nat) : Nat := (s.ctlGet (cdbgOff k (0x20 + 4 * i))).toNat
    let v := word 0 + 2 ^ 32 * word 1 + 2 ^ 64 * word 2
    let la := (s.ctlGet (cdbgOff k 0x14)).toNat / 4 * 4 + 2 ^ 32 * fget (s.ctlGet (cdbgOff k 0x18)) 15 0
    let res : Except (Nat × Nat) (State × Nat) :=
      if space < 5 then s.dbgReg k space (fget sel 7 0) write v
      else if fget sel 7 0 ≠ 0 then .error (1, 0)
      else
        let kind : XKind := if write then .store else .load
        match s.dbgTranslate k kind space la with
        | (_, .error e) => .error e
        | (t, .ok x) => match t.dbgPlace k kind x.device x.pa with
          | some e => .error e
          | none => .ok (t.dbgWord k x.pa write (v % 2 ^ 36) ctlW)
    match res with
    | .error e => s.ctlMod (cdbgOff k 4) (fun r => fset (fset (fone (fone r 27 true) 26 true) 25 22 e.1) 21 10 e.2)
    | .ok (t, x) =>
      let t := t.ctlMod (cdbgOff k 4) (fun r => fset (fone (fone r 27 true) 26 false) 25 10 0)
      if write then t
      else ((t.ctlSet (cdbgOff k 0x20) (r32 x)).ctlSet (cdbgOff k 0x24) (r32 (x / 2 ^ 32))).ctlSet (cdbgOff k 0x28) (r32 (x / 2 ^ 64 % 65536))

/-- A write of CDBG.CTRL: HALT, RUN, STEP and AGO, in this order. -/
def State.dbgCtrl (s : State) (k : Nat) (v : Reg32) (ctlW : State → Nat → Reg32 → State) : State :=
  let s := if fbit v 31 then s.dbgHalt k else s
  let s := if fbit v 30 then s.dbgRun k else s
  let s := if fbit v 29 then s.dbgStepGo k else s
  if fbit v 28 then s.dbgAgo k ctlW else s

/-! ## The rows -/

/-- The register of a core's debug block is reached, by PF0 or through the JTAG port, and covered by a grant; a write without one is
counted. -/
def State.dbgDo (s : State) (jtag : Bool) (core : Nat) (f : State → State) : State :=
  if 240 ≤ core || !(if jtag then s.keeperOn else s.reach .host (cdbgOff core 0)) then s
  else if !s.granted core then s.ctlInc (cdbgFstatus core + 4)
  else f s

/-- The write of HALT, or (now) its effect at the core's next boundary. -/
def execCdbgHalt (jtag : Bool) (core : Nat) (now : Bool) (s : State) : Out :=
  if now then
    .next (if !s.halts.contains core then s
      else if !s.canHalt core then { s with halts := s.halts.filter (· != core) }
      else if s.stoppable core then s.dbgStop core else s)
  else .next (s.dbgDo jtag core (fun s => s.dbgHalt core))
def execCdbgRun (jtag : Bool) (core : Nat) (s : State) : Out := .next (s.dbgDo jtag core (fun s => s.dbgRun core))
def execCdbgStep (jtag : Bool) (core : Nat) (s : State) : Out := .next (s.dbgDo jtag core (fun s => s.dbgStepGo core))
/-- A memory access of AGO may itself write a control register; a core reaches no core-debug frame. -/
def execCdbgAgo (jtag : Bool) (core : Nat) (s : State) : Out :=
  .next (s.dbgDo jtag core (fun s => s.dbgAgo core (fun s off v => s.ctlWrite0 (.core core) off v)))

/-! ## Any control register -/

/-- A write of an offset of the control space by a sender that reaches it. -/
def State.ctlWrite (s : State) (who : Sender) (off : Nat) (v : Reg32) : State :=
  let s' := s.ctlWrite0 who off v
  match ctlLoc off with
  | some l => match l.blk, l.dbgCore with
    | .cdbg, some k =>
      if l.inner % 0x1000 = 0 ∧ s.granted k then s'.dbgCtrl k v (fun s off v => s.ctlWrite0 (.core k) off v) else s'
    | _, _ => s'
  | none => s'

end Sys2Proof.Machine
end

