-- ==== Sys2Proof/Machine/FP.lean ====
section
/-!
DEFINITION. Floating-point arithmetic on F36 and F72 (R72 to R80, R137 to R143): exact integers, rounded once.
-/
namespace Sys2Proof.Machine

/-- A binary format (Table 3-4): exponent bits, fraction bits. -/
structure Fmt where
  eb : Nat
  fb : Nat
  deriving DecidableEq, Repr

def f36 : Fmt := ⟨8, 27⟩
def f72 : Fmt := ⟨11, 60⟩
def b32 : Fmt := ⟨8, 23⟩
def b64 : Fmt := ⟨11, 52⟩

def Fmt.bias (f : Fmt) : Nat := 2 ^ (f.eb - 1) - 1
/-- The exponent field of infinities and NaNs. -/
def Fmt.emask (f : Fmt) : Nat := 2 ^ f.eb - 1
def Fmt.sign (f : Fmt) (x : Nat) : Bool := x / 2 ^ (f.eb + f.fb) % 2 == 1
def Fmt.expo (f : Fmt) (x : Nat) : Nat := x / 2 ^ f.fb % 2 ^ f.eb
def Fmt.frac (f : Fmt) (x : Nat) : Nat := x % 2 ^ f.fb
def Fmt.pack (f : Fmt) (s : Bool) (e m : Nat) : Nat := (if s then 2 ^ (f.eb + f.fb) else 0) + e * 2 ^ f.fb + m
def Fmt.isNan (f : Fmt) (x : Nat) : Bool := f.expo x == f.emask && f.frac x != 0
/-- The quiet bit is the top fraction bit (R73). -/
def Fmt.isSig (f : Fmt) (x : Nat) : Bool := f.isNan x && f.frac x / 2 ^ (f.fb - 1) == 0
def Fmt.isInf (f : Fmt) (x : Nat) : Bool := f.expo x == f.emask && f.frac x == 0
def Fmt.isZero (f : Fmt) (x : Nat) : Bool := f.expo x == 0 && f.frac x == 0
def Fmt.inf (f : Fmt) (s : Bool) : Nat := f.pack s f.emask 0
def Fmt.zero (f : Fmt) (s : Bool) : Nat := f.pack s 0 0
/-- The default quiet NaN (R73). -/
def Fmt.qnan (f : Fmt) : Nat := f.pack false f.emask (2 ^ (f.fb - 1))
/-- A NaN with its quiet bit set (R74). -/
def Fmt.quiet (f : Fmt) (x : Nat) : Nat := if f.isSig x then x + 2 ^ (f.fb - 1) else x

/-- The value of a finite number is `mant * 2 ^ exp2`. -/
def Fmt.mant (f : Fmt) (x : Nat) : Nat := if f.expo x = 0 then f.frac x else 2 ^ f.fb + f.frac x
def Fmt.exp2 (f : Fmt) (x : Nat) : Int := (max 1 (f.expo x) : Nat) - (f.bias + f.fb : Nat)

/-- The exception flags, as bits 7:3 of CS.FPCSR (Table 3-6). -/
def fpNV : BitVec 5 := 16
def fpDZ : BitVec 5 := 8
def fpOF : BitVec 5 := 4
def fpUF : BitVec 5 := 2
def fpNX : BitVec 5 := 1

/-- Rounds up the magnitude: `odd` is the last kept bit, `half` compares the discarded part with one half
(0 below, 1 equal, 2 above), `inexact` says it is not zero (Table 3-6). -/
def roundUp (rm : Nat) (neg odd inexact : Bool) (half : Nat) : Bool :=
  match rm with
  | 1 => false
  | 2 => neg && inexact
  | 3 => !neg && inexact
  | 4 => half != 0
  | _ => half == 2 || (half == 1 && odd)

/-- An integer part rounded at `shift` bits: `(m + sticky) / 2 ^ shift`, with whether it was inexact. -/
def roundAt (rm : Nat) (neg : Bool) (m : Nat) (sticky : Bool) (shift : Nat) : Nat × Bool :=
  let k := m / 2 ^ shift
  let r := m % 2 ^ shift
  let inexact := r != 0 || sticky
  let half : Nat :=
    if shift = 0 then 0
    else if r < 2 ^ (shift - 1) then 0
    else if r = 2 ^ (shift - 1) && !sticky then 1 else 2
  (if roundUp rm neg (k % 2 == 1) inexact half then k + 1 else k, inexact)

/-- The significand rounded so that its last bit weighs `2 ^ q`. -/
def roundTo (rm : Nat) (neg : Bool) (m : Nat) (sticky : Bool) (e q : Int) : Nat × Bool :=
  if e ≤ q then roundAt rm neg m sticky (q - e).toNat
  else (m * 2 ^ (e - q).toNat, sticky)

/-- A finite non-zero exact value `(-1)^neg * (m + sticky) * 2^e` rounded to the format: the encoding and the flags
(R72, R76). `trapUF`: underflow is enabled as a trap. A caller with `sticky` gives `m` at least three bits more than
the precision. -/
def Fmt.round (f : Fmt) (rm : Nat) (trapUF neg : Bool) (m : Nat) (sticky : Bool) (e : Int) : Nat × BitVec 5 :=
  let len : Int := (Nat.log2 m + 1 : Nat)
  let emin : Int := 1 - (f.bias : Nat)
  let free : Int := len + e - (f.fb + 1 : Nat)
  let q : Int := max free (emin - (f.fb : Nat))
  let (k, inexact) := roundTo rm neg m sticky e q
  let (ku, _) := roundTo rm neg m sticky e free
  let tiny : Bool := decide ((Nat.log2 ku + 1 : Nat) + free ≤ emin)
  let (k, q) := if k = 2 ^ (f.fb + 1) then (2 ^ f.fb, q + 1) else (k, q)
  let uf : BitVec 5 := if tiny && (inexact || trapUF) then fpUF else 0
  let nx : BitVec 5 := if inexact then fpNX else 0
  if k < 2 ^ f.fb then (f.pack neg 0 k, uf ||| nx)
  else
    let ex : Int := q + (f.bias + f.fb : Nat)
    if (f.emask : Nat) ≤ ex then
      let toInf : Bool := rm == 0 || rm == 4 || (rm == 2 && neg) || (rm == 3 && !neg)
      (if toInf then f.inf neg else f.pack neg (f.emask - 1) (2 ^ f.fb - 1), fpOF ||| fpNX)
    else (f.pack neg ex.toNat (k - 2 ^ f.fb), uf ||| nx)

/-- A signed exact value `n * 2 ^ e` rounded; an exact zero has sign `zneg`. -/
def Fmt.roundInt (f : Fmt) (rm : Nat) (trapUF zneg : Bool) (n : Int) (e : Int) : Nat × BitVec 5 :=
  if n = 0 then (f.zero zneg, 0) else f.round rm trapUF (decide (n < 0)) n.natAbs false e

/-- The first NaN of the operands, quieted, with NV when any operand is signalling (R74). -/
def Fmt.nanOf (f : Fmt) (l : List Nat) : Option (Nat × BitVec 5) :=
  match l.find? f.isNan with
  | some x => some (f.quiet x, if l.any f.isSig then fpNV else 0)
  | none => none

def Fmt.signed (f : Fmt) (x : Nat) : Int := if f.sign x then -(f.mant x : Int) else (f.mant x : Int)

/-- The exact sum of `a * 2^ea` and `b * 2^eb`, over the smaller exponent. -/
def addExact (a : Int) (ea : Int) (b : Int) (eb : Int) : Int × Int :=
  if ea ≤ eb then (a + b * 2 ^ (eb - ea).toNat, ea) else (a * 2 ^ (ea - eb).toNat + b, eb)

/-- The sign of an exact zero sum: the common sign of two zeros, otherwise + except in RDN. -/
def zeroSign (rm : Nat) (sa sb : Bool) : Bool := if sa == sb then sa else rm == 2

/-- x + y, or x - y when `sub` (R137). -/
def Fmt.add (f : Fmt) (rm : Nat) (tu sub : Bool) (x y : Nat) : Nat × BitVec 5 :=
  match f.nanOf [x, y] with
  | some r => r
  | none =>
    let sy := f.sign y != sub
    if f.isInf x then
      if f.isInf y && f.sign x != sy then (f.qnan, fpNV) else (x, 0)
    else if f.isInf y then (f.inf sy, 0)
    else
      let b := if sub then -(f.signed y) else f.signed y
      let (n, e) := addExact (f.signed x) (f.exp2 x) b (f.exp2 y)
      let z := if f.isZero x && f.isZero y then zeroSign rm (f.sign x) sy else rm == 2
      f.roundInt rm tu z n e

/-- x × y (R137). -/
def Fmt.mul (f : Fmt) (rm : Nat) (tu : Bool) (x y : Nat) : Nat × BitVec 5 :=
  match f.nanOf [x, y] with
  | some r => r
  | none =>
    let s := f.sign x != f.sign y
    if (f.isInf x && f.isZero y) || (f.isZero x && f.isInf y) then (f.qnan, fpNV)
    else if f.isInf x || f.isInf y then (f.inf s, 0)
    else f.roundInt rm tu s (f.signed x * f.signed y) (f.exp2 x + f.exp2 y)

/-- ±(x × y) ± z with one rounding (R74, R137). -/
def Fmt.fma (f : Fmt) (rm : Nat) (tu negProd negAdd : Bool) (x y z : Nat) : Nat × BitVec 5 :=
  let bad := (f.isInf x && f.isZero y) || (f.isZero x && f.isInf y)
  match f.nanOf [x, y, z] with
  | some (r, fl) => (r, if bad then fl ||| fpNV else fl)
  | none =>
    let sp := (f.sign x != f.sign y) != negProd
    let sz := f.sign z != negAdd
    if bad then (f.qnan, fpNV)
    else if f.isInf x || f.isInf y then
      if f.isInf z && sz != sp then (f.qnan, fpNV) else (f.inf sp, 0)
    else if f.isInf z then (f.inf sz, 0)
    else
      let p := f.signed x * f.signed y
      let p := if negProd then -p else p
      let a := if negAdd then -(f.signed z) else f.signed z
      let (n, e) := addExact p (f.exp2 x + f.exp2 y) a (f.exp2 z)
      let zs := if p = 0 && f.isZero z then zeroSign rm sp sz else rm == 2
      f.roundInt rm tu zs n e

/-- x / y (R137). -/
def Fmt.div (f : Fmt) (rm : Nat) (tu : Bool) (x y : Nat) : Nat × BitVec 5 :=
  match f.nanOf [x, y] with
  | some r => r
  | none =>
    let s := f.sign x != f.sign y
    if (f.isInf x && f.isInf y) || (f.isZero x && f.isZero y) then (f.qnan, fpNV)
    else if f.isInf x then (f.inf s, 0)
    else if f.isInf y || f.isZero x then (f.zero s, 0)
    else if f.isZero y then (f.inf s, fpDZ)
    else
      let k := 2 * f.fb + 6
      let n := f.mant x * 2 ^ k
      f.round rm tu s (n / f.mant y) (n % f.mant y != 0) (f.exp2 x - f.exp2 y - (k : Nat))

/-- Integer square root by bits, from bit `n` down. -/
def isqrt (v : Nat) : Nat → Nat → Nat
  | 0, r => r
  | n + 1, r =>
    let t := r + 2 ^ n
    isqrt v n (if t * t ≤ v then t else r)

/-- √x (R137). -/
def Fmt.sqrt (f : Fmt) (rm : Nat) (tu : Bool) (x : Nat) : Nat × BitVec 5 :=
  match f.nanOf [x] with
  | some r => r
  | none =>
    if f.isZero x then (x, 0)
    else if f.sign x then (f.qnan, fpNV)
    else if f.isInf x then (x, 0)
    else
      let e := f.exp2 x
      let odd : Nat := if e % 2 = 0 then 0 else 1
      let k := 2 * (f.fb + 4)
      let v := f.mant x * 2 ^ (k + odd)
      let r := isqrt v (f.fb + f.fb + 8) 0
      f.round rm tu false r (r * r != v) ((e - (odd : Nat) - (k : Nat)) / 2)

/-- A total order key of a non-NaN value, with -0 below +0 (R138). -/
def Fmt.ord (f : Fmt) (x : Nat) : Int :=
  let mag : Nat := x % 2 ^ (f.eb + f.fb)
  if f.sign x then -(mag : Int) - 1 else (mag : Int)

/-- FMIN and FMAX (R138). -/
def Fmt.minMax (f : Fmt) (isMax : Bool) (x y : Nat) : Nat × BitVec 5 :=
  let fl : BitVec 5 := if f.isSig x || f.isSig y then fpNV else 0
  if f.isNan x && f.isNan y then (f.quiet x, fl)
  else if f.isNan x then (y, fl)
  else if f.isNan y then (x, fl)
  else if isMax then (if f.ord x < f.ord y then y else x, fl)
  else (if f.ord y < f.ord x then y else x, fl)

/-- Z, N, C, V after FCMP (Table 5-12), and the flags. -/
def Fmt.cmp (f : Fmt) (x y : Nat) : (Bool × Bool × Bool × Bool) × BitVec 5 :=
  let fl : BitVec 5 := if f.isSig x || f.isSig y then fpNV else 0
  let key (v : Nat) : Int := if f.isZero v then 0 else f.ord v
  if f.isNan x || f.isNan y then ((false, false, false, true), fl)
  else if key x < key y then ((false, true, false, false), fl)
  else if key x = key y then ((true, false, true, false), fl)
  else ((false, false, true, false), fl)

/-- FCLASS (R140). -/
def Fmt.cls (f : Fmt) (x : Nat) : Nat :=
  let s := f.sign x
  if f.isNan x then (if f.isSig x then 256 else 512)
  else if f.isInf x then (if s then 1 else 128)
  else if f.isZero x then (if s then 8 else 16)
  else if f.expo x = 0 then (if s then 4 else 32)
  else (if s then 2 else 64)

/-- FSGNJ: x with the sign bit of y. -/
def Fmt.sgnj (f : Fmt) (x y : Nat) : Nat :=
  x % 2 ^ (f.eb + f.fb) + (if f.sign y then 2 ^ (f.eb + f.fb) else 0)

/-- An integer rounded into the format (R141). -/
def Fmt.ofInt (f : Fmt) (rm : Nat) (tu : Bool) (n : Int) : Nat × BitVec 5 := f.roundInt rm tu false n 0

/-- Conversion to an integer of `w` bits (R142): the pattern and the flags. -/
def Fmt.toInt (f : Fmt) (rm : Nat) (uns : Bool) (w : Nat) (x : Nat) : Nat × BitVec 5 :=
  let top : Nat := if uns then 2 ^ w - 1 else 2 ^ (w - 1) - 1
  let bot : Nat := if uns then 0 else 2 ^ (w - 1)
  if f.isNan x then (top, fpNV)
  else if f.isInf x then (if f.sign x then bot else top, fpNV)
  else
    let (k, inexact) := roundTo rm (f.sign x) (f.mant x) false (f.exp2 x) 0
    if f.sign x then
      if k ≤ bot then ((2 ^ w - k) % 2 ^ w, if inexact then fpNX else 0) else (bot, fpNV)
    else if k ≤ top then (k, if inexact then fpNX else 0) else (top, fpNV)

/-- Widening with the fraction left-aligned and every class kept (R79). -/
def Fmt.widenExact (f g : Fmt) (x : Nat) : Nat :=
  g.pack (f.sign x) (f.expo x) (f.frac x * 2 ^ (g.fb - f.fb))

/-- Narrowing under RM; a NaN keeps the top of its fraction, quieted (R80, R143). -/
def Fmt.narrow (f g : Fmt) (rm : Nat) (tu : Bool) (x : Nat) : Nat × BitVec 5 :=
  if f.isNan x then
    (g.quiet (g.pack (f.sign x) g.emask (max (f.frac (f.quiet x) / 2 ^ (f.fb - g.fb)) 1)),
      if f.isSig x then fpNV else 0)
  else if f.isInf x then (g.inf (f.sign x), 0)
  else g.roundInt rm tu (f.sign x) (f.signed x) (f.exp2 x)

/-- F36 to F72 (R143): exact, a NaN quieted. -/
def widen3672 (x : Nat) : Nat × BitVec 5 :=
  if f36.isNan x then
    (f72.pack (f36.sign x) f72.emask (f36.frac (f36.quiet x) * 2 ^ 33), if f36.isSig x then fpNV else 0)
  else if f36.isInf x then (f72.inf (f36.sign x), 0)
  else f72.roundInt 0 false (f36.sign x) (f36.signed x) (f36.exp2 x)

end Sys2Proof.Machine
end

