-- ==== Sys2Proof/Machine/Int.lean ====
section
/-!
DEFINITION. The INT group (opcode 1, R124 to R126, R128) and the I-format instructions (R127).
-/
namespace Sys2Proof.Machine

/-- The destination takes a sum; the .F form writes all four flags (Table 5-3). -/
def sumEffs {n : Nat} (w : Word) (dst : BitVec n → Effs) (r : BitVec n × Bool × Bool) : Effs :=
  dst r.1 ++ (if flagBit w then flSum r else [])
/-- The destination takes a value; the .F form writes Z and N. -/
def logicEffs (w : Word) (v : Word) : Effs := wr (dstOf w) v 1 ++ (if flagBit w then flZN v else [])
/-- The destination takes a shifted value; the .F form writes Z and N, and C unless the amount is 0. -/
def shiftEffs (w : Word) (r : Word × Option Bool) : Effs := wr (dstOf w) r.1 1 ++ (if flagBit w then flShift r else [])
/-- A shift amount: every amount above the width acts as one more than the width. -/
def amount (n : Nat) (b : Word) : Nat := min b.toNat (n + 1)
def wrD (w : Word) (v : Word) : Effs := wr (dstOf w) v 1
def boolWord (b : Bool) : Word := if b then 1 else 0
/-- Leading zero bits of a word. -/
def clz36 (a : Word) : Nat := ((List.range 36).find? (fun i => a.getLsbD (35 - i))).getD 36
def popc36 (a : Word) : Nat := ((List.range 36).filter (fun i => a.getLsbD i)).length

/-- ADD: A + B. -/
def execAdd (x : At) (w : Word) (s : State) : Out :=
  s.issue x w (isFn w 1 0) (compute x.core fun c => sumEffs w (wr (dstOf w) · 1) (addCarry (c.srcA w) (c.srcB w) false))

/-- SUB: A + NOT B + 1. -/
def execSub (x : At) (w : Word) (s : State) : Out :=
  s.issue x w (isFn w 1 1) (compute x.core fun c => sumEffs w (wr (dstOf w) · 1) (subCarry (c.srcA w) (c.srcB w) true))

/-- ADDC: A + B + C. -/
def execAddc (x : At) (w : Word) (s : State) : Out :=
  s.issue x w (isFn w 1 2) (compute x.core fun c => sumEffs w (wr (dstOf w) · 1) (addCarry (c.srcA w) (c.srcB w) c.flagC))

/-- SUBC: A + NOT B + C. -/
def execSubc (x : At) (w : Word) (s : State) : Out :=
  s.issue x w (isFn w 1 3) (compute x.core fun c => sumEffs w (wr (dstOf w) · 1) (subCarry (c.srcA w) (c.srcB w) c.flagC))

/-- AND. -/
def execAnd (x : At) (w : Word) (s : State) : Out :=
  s.issue x w (isFn w 1 4) (compute x.core fun c => logicEffs w (c.srcA w &&& c.srcB w))

/-- OR. -/
def execOr (x : At) (w : Word) (s : State) : Out :=
  s.issue x w (isFn w 1 5) (compute x.core fun c => logicEffs w (c.srcA w ||| c.srcB w))

/-- XOR. -/
def execXor (x : At) (w : Word) (s : State) : Out :=
  s.issue x w (isFn w 1 6) (compute x.core fun c => logicEffs w (c.srcA w ^^^ c.srcB w))

/-- ANDN: A AND NOT B. -/
def execAndn (x : At) (w : Word) (s : State) : Out :=
  s.issue x w (isFn w 1 7) (compute x.core fun c => logicEffs w (c.srcA w &&& ~~~(c.srcB w)))

/-- SHL by B (R126). -/
def execShl (x : At) (w : Word) (s : State) : Out :=
  s.issue x w (isFn w 1 8) (compute x.core fun c => shiftEffs w (shlC (c.srcA w) (amount 36 (c.srcB w))))

/-- SHR by B (R126). -/
def execShr (x : At) (w : Word) (s : State) : Out :=
  s.issue x w (isFn w 1 9) (compute x.core fun c => shiftEffs w (shrC (c.srcA w) (amount 36 (c.srcB w))))

/-- SAR by B (R126). -/
def execSar (x : At) (w : Word) (s : State) : Out :=
  s.issue x w (isFn w 1 10) (compute x.core fun c => shiftEffs w (sarC (c.srcA w) (amount 36 (c.srcB w))))

/-- ROL by B modulo 36 (R126). -/
def execRol (x : At) (w : Word) (s : State) : Out :=
  s.issue x w (isFn w 1 11) (compute x.core fun c => shiftEffs w (rolC (c.srcA w) (c.srcB w).toNat))

/-- SHLI by the immediate. -/
def execShli (x : At) (w : Word) (s : State) : Out :=
  s.issue x w (isFn w 1 12) (compute x.core fun c => shiftEffs w (shlC (c.srcA w) (srcBOf w)))

/-- SHRI by the immediate. -/
def execShri (x : At) (w : Word) (s : State) : Out :=
  s.issue x w (isFn w 1 13) (compute x.core fun c => shiftEffs w (shrC (c.srcA w) (srcBOf w)))

/-- SARI by the immediate. -/
def execSari (x : At) (w : Word) (s : State) : Out :=
  s.issue x w (isFn w 1 14) (compute x.core fun c => shiftEffs w (sarC (c.srcA w) (srcBOf w)))

/-- ROLI by the immediate. -/
def execRoli (x : At) (w : Word) (s : State) : Out :=
  s.issue x w (isFn w 1 15) (compute x.core fun c => shiftEffs w (rolC (c.srcA w) (srcBOf w)))

/-- CMP: FL from A − B. -/
def execCmp (x : At) (w : Word) (s : State) : Out :=
  s.issue x w (isFn w 1 16) (compute x.core fun c => flSum (subCarry (c.srcA w) (c.srcB w) true))

/-- SLT. -/
def execSlt (x : At) (w : Word) (s : State) : Out :=
  s.issue x w (isFn w 1 17) (compute x.core fun c => wrD w (boolWord ((c.srcA w).slt (c.srcB w))))

/-- SLTU. -/
def execSltu (x : At) (w : Word) (s : State) : Out :=
  s.issue x w (isFn w 1 18) (compute x.core fun c => wrD w (boolWord ((c.srcA w).ult (c.srcB w))))

/-- MIN, signed. -/
def execMin (x : At) (w : Word) (s : State) : Out :=
  s.issue x w (isFn w 1 19) (compute x.core fun c => wrD w (if (c.srcA w).slt (c.srcB w) then c.srcA w else c.srcB w))

/-- MAX, signed. -/
def execMax (x : At) (w : Word) (s : State) : Out :=
  s.issue x w (isFn w 1 20) (compute x.core fun c => wrD w (if (c.srcA w).slt (c.srcB w) then c.srcB w else c.srcA w))

/-- MINU. -/
def execMinu (x : At) (w : Word) (s : State) : Out :=
  s.issue x w (isFn w 1 21) (compute x.core fun c => wrD w (if (c.srcA w).ult (c.srcB w) then c.srcA w else c.srcB w))

/-- MAXU. -/
def execMaxu (x : At) (w : Word) (s : State) : Out :=
  s.issue x w (isFn w 1 22) (compute x.core fun c => wrD w (if (c.srcA w).ult (c.srcB w) then c.srcB w else c.srcA w))

/-- ABS: −2^35 stays −2^35, and sets V. -/
def execAbs (x : At) (w : Word) (s : State) : Out :=
  s.issue x w (isFn w 1 23) (compute x.core fun c => 
    let a := c.srcA w
    logicEffs w (if a.msb then -a else a) ++ (if flagBit w then flV (a == BitVec.intMin 36) else []))

/-- NEG: 0 − A. -/
def execNeg (x : At) (w : Word) (s : State) : Out :=
  s.issue x w (isFn w 1 24) (compute x.core fun c => sumEffs w (wr (dstOf w) · 1) (subCarry 0 (c.srcA w) true))

/-- ADDS: the sum saturates; C and V are those of the unsaturated sum (Table 5-3). -/
def execAdds (x : At) (w : Word) (s : State) : Out :=
  s.issue x w (isFn w 1 25) (compute x.core fun c => 
    let u := addCarry (c.srcA w) (c.srcB w) false
    let r := satTo 36 ((c.srcA w).toInt + (c.srcB w).toInt)
    wrD w r.1 ++ flQ r.2 1 ++ (if flagBit w then flSum (r.1, u.2) else []))

/-- SUBS: the difference saturates. -/
def execSubs (x : At) (w : Word) (s : State) : Out :=
  s.issue x w (isFn w 1 26) (compute x.core fun c => 
    let u := subCarry (c.srcA w) (c.srcB w) true
    let r := satTo 36 ((c.srcA w).toInt - (c.srcB w).toInt)
    wrD w r.1 ++ flQ r.2 1 ++ (if flagBit w then flSum (r.1, u.2) else []))

/-- CLZ. -/
def execClz (x : At) (w : Word) (s : State) : Out :=
  s.issue x w (isFn w 1 27) (compute x.core fun c => wrD w (BitVec.ofNat 36 (clz36 (c.srcA w))))

/-- POPC. -/
def execPopc (x : At) (w : Word) (s : State) : Out :=
  s.issue x w (isFn w 1 28) (compute x.core fun c => wrD w (BitVec.ofNat 36 (popc36 (c.srcA w))))

/-- RDRC: selector 0 of function 29; a reserved selector is refused as UD (R128). -/
def execRdrc (x : At) (w : Word) (s : State) : Out :=
  s.issue x w (isFn w 1 29 && srcAOf w != 1) (compute x.core fun c => wrD w c.rc)

/-- RDFL: selector 1 (R128). -/
def execRdfl (x : At) (w : Word) (s : State) : Out :=
  s.issue x w (isFn w 1 29 && srcAOf w == 1) (compute x.core fun c => wrD w (c.fl.setWidth 36))

/-- WRRC (R128). -/
def execWrrc (x : At) (w : Word) (s : State) : Out :=
  s.issue x w (isFn w 1 30 && dstOf w != 1) (compute x.core fun c => [(.rc (c.srcA w), 1)])

/-- WRFL: every flag, Q included (R128). -/
def execWrfl (x : At) (w : Word) (s : State) : Out :=
  s.issue x w (isFn w 1 30 && dstOf w == 1) (compute x.core fun c => 
    (List.range 4).map (fun i => (Land.fl i ((c.srcA w).getLsbD i), 1)) ++ [(.qw ((c.srcA w).getLsbD 4), 1)])

/-- ADDI (R127). -/
def execAddi (x : At) (w : Word) (s : State) : Out :=
  s.issue x w (opcodeOf w == 8) (compute x.core fun c => wrD w (c.srcA w + immSx w))

/-- ANDI. -/
def execAndi (x : At) (w : Word) (s : State) : Out :=
  s.issue x w (opcodeOf w == 9) (compute x.core fun c => wrD w (c.srcA w &&& immZx w))

/-- ORI. -/
def execOri (x : At) (w : Word) (s : State) : Out :=
  s.issue x w (opcodeOf w == 10) (compute x.core fun c => wrD w (c.srcA w ||| immZx w))

/-- XORI. -/
def execXori (x : At) (w : Word) (s : State) : Out :=
  s.issue x w (opcodeOf w == 11) (compute x.core fun c => wrD w (c.srcA w ^^^ immZx w))

/-- LDHI: imm23 × 2^13. -/
def execLdhi (x : At) (w : Word) (s : State) : Out :=
  s.issue x w (opcodeOf w == 12) (compute x.core fun _ => wrD w (BitVec.ofNat 36 (fld w 22 0 * 2 ^ 13)))

/-- CMPI. -/
def execCmpi (x : At) (w : Word) (s : State) : Out :=
  s.issue x w (opcodeOf w == 13) (compute x.core fun c => flSum (subCarry (c.srcA w) (immSx w) true))

/-- SLTI. -/
def execSlti (x : At) (w : Word) (s : State) : Out :=
  s.issue x w (opcodeOf w == 14) (compute x.core fun c => wrD w (boolWord ((c.srcA w).slt (immSx w))))

/-- SLTIU. -/
def execSltiu (x : At) (w : Word) (s : State) : Out :=
  s.issue x w (opcodeOf w == 15) (compute x.core fun c => wrD w (boolWord ((c.srcA w).ult (immSx w))))

end Sys2Proof.Machine
end

