-- ==== Sys2Proof/Machine/Wide.lean ====
section
/-!
DEFINITION. The WIDE group (opcode 2, R129): pairs and part-words.
-/
namespace Sys2Proof.Machine

/-- A word with n bits from bit lo replaced by the low bits of v. -/
def putField (d : Word) (lo n : Nat) (v : Word) : Word :=
  let mask : Word := BitVec.ofNat 36 ((2 ^ n - 1) * 2 ^ lo)
  (d &&& ~~~mask) ||| ((v <<< lo) &&& mask)

def wrP (w : Word) (v : DWord) : Effs := wrPair (dstOf w) v 1

/-- ADDD. -/
def execAddd (x : At) (w : Word) (s : State) : Out :=
  s.issue x w (isFn w 2 0) (compute x.core fun c => sumEffs w (wrPair (dstOf w) · 1) (addCarry (c.pairA w) (c.pairB w) false))

/-- SUBD. -/
def execSubd (x : At) (w : Word) (s : State) : Out :=
  s.issue x w (isFn w 2 1) (compute x.core fun c => sumEffs w (wrPair (dstOf w) · 1) (subCarry (c.pairA w) (c.pairB w) true))

/-- ADDCD. -/
def execAddcd (x : At) (w : Word) (s : State) : Out :=
  s.issue x w (isFn w 2 2) (compute x.core fun c => sumEffs w (wrPair (dstOf w) · 1) (addCarry (c.pairA w) (c.pairB w) c.flagC))

/-- SUBCD. -/
def execSubcd (x : At) (w : Word) (s : State) : Out :=
  s.issue x w (isFn w 2 3) (compute x.core fun c => sumEffs w (wrPair (dstOf w) · 1) (subCarry (c.pairA w) (c.pairB w) c.flagC))

/-- SHLD: B is a single register. -/
def execShld (x : At) (w : Word) (s : State) : Out :=
  s.issue x w (isFn w 2 4) (compute x.core fun c => wrP w (shlC (c.pairA w) (amount 72 (c.srcB w))).1)

/-- SHRD. -/
def execShrd (x : At) (w : Word) (s : State) : Out :=
  s.issue x w (isFn w 2 5) (compute x.core fun c => wrP w (shrC (c.pairA w) (amount 72 (c.srcB w))).1)

/-- SARD. -/
def execSard (x : At) (w : Word) (s : State) : Out :=
  s.issue x w (isFn w 2 6) (compute x.core fun c => wrP w (sarC (c.pairA w) (amount 72 (c.srcB w))).1)

/-- CMPD. -/
def execCmpd (x : At) (w : Word) (s : State) : Out :=
  s.issue x w (isFn w 2 7) (compute x.core fun c => flSum (subCarry (c.pairA w) (c.pairB w) true))

/-- MOVD. -/
def execMovd (x : At) (w : Word) (s : State) : Out :=
  s.issue x w (isFn w 2 8) (compute x.core fun c => wrP w (c.pairA w))

/-- NEGD. -/
def execNegd (x : At) (w : Word) (s : State) : Out :=
  s.issue x w (isFn w 2 9) (compute x.core fun c => sumEffs w (wrPair (dstOf w) · 1) (subCarry 0 (c.pairA w) true))

/-- PACKH. -/
def execPackh (x : At) (w : Word) (s : State) : Out :=
  s.issue x w (isFn w 2 10) (compute x.core fun c => wrD w ((c.srcB w).extractLsb' 0 18 ++ (c.srcA w).extractLsb' 0 18))

/-- EXTH. -/
def execExth (x : At) (w : Word) (s : State) : Out :=
  s.issue x w (isFn w 2 11) (compute x.core fun c => wrD w (((c.srcA w).extractLsb' (18 * srcBOf w) 18).setWidth 36))

/-- EXTHS. -/
def execExths (x : At) (w : Word) (s : State) : Out :=
  s.issue x w (isFn w 2 12) (compute x.core fun c => wrD w (((c.srcA w).extractLsb' (18 * srcBOf w) 18).signExtend 36))

/-- EXTB. -/
def execExtb (x : At) (w : Word) (s : State) : Out :=
  s.issue x w (isFn w 2 13) (compute x.core fun c => wrD w (((c.srcA w).extractLsb' (9 * srcBOf w) 9).setWidth 36))

/-- EXTBS. -/
def execExtbs (x : At) (w : Word) (s : State) : Out :=
  s.issue x w (isFn w 2 14) (compute x.core fun c => wrD w (((c.srcA w).extractLsb' (9 * srcBOf w) 9).signExtend 36))

/-- INSH: the other bits of D are kept. -/
def execInsh (x : At) (w : Word) (s : State) : Out :=
  s.issue x w (isFn w 2 15) (compute x.core fun c => wrD w (putField (c.srcD w) (18 * srcBOf w) 18 (c.srcA w)))

/-- INSB. -/
def execInsb (x : At) (w : Word) (s : State) : Out :=
  s.issue x w (isFn w 2 16) (compute x.core fun c => wrD w (putField (c.srcD w) (9 * srcBOf w) 9 (c.srcA w)))

end Sys2Proof.Machine
end

