-- ==== Sys2Proof/Machine/MulDiv.lean ====
section
/-!
DEFINITION. Multiply and divide (opcode 3, R130, R131).
-/
namespace Sys2Proof.Machine

def wr3 (w : Word) (v : Word) : Effs := wr (dstOf w) v 3
def wrP3 (w : Word) (v : DWord) : Effs := wrPair (dstOf w) v 3
/-- The exact signed and unsigned products of A and B. -/
def Core.smul (c : Core) (w : Word) : Int := (c.srcA w).toInt * (c.srcB w).toInt
def Core.umul (c : Core) (w : Word) : Nat := (c.srcA w).toNat * (c.srcB w).toNat

/-- The quotient (truncated towards zero) or the remainder (the sign of the dividend) of two patterns (R131). -/
def divide {n : Nat} (signed rem : Bool) (a b : BitVec n) : BitVec n :=
  match signed, rem with
  | true, false => BitVec.ofInt n (a.toInt.tdiv b.toInt)
  | true, true => BitVec.ofInt n (a.toInt.tmod b.toInt)
  | false, false => BitVec.ofNat n (a.toNat / b.toNat)
  | false, true => BitVec.ofNat n (a.toNat % b.toNat)

/-- A word division: a divisor of zero raises DIVZ and writes nothing. -/
def div36 (signed rem : Bool) (w : Word) (c : Core) : List Land × Option (Nat × Nat) :=
  if c.srcB w = 0 then ([], some (8, 0)) else ([.w (dstOf w) (divide signed rem (c.srcA w) (c.srcB w))], none)

/-- A double-word division. -/
def div72 (signed rem : Bool) (w : Word) (c : Core) : List Land × Option (Nat × Nat) :=
  if c.pairB w = 0 then ([], some (8, 0))
  else
    let v := divide signed rem (c.pairA w) (c.pairB w)
    ([.w (dstOf w) (v.extractLsb' 0 36), .w (dstOf w + 1) (v.extractLsb' 36 36)], none)

/-- MUL. -/
def execMul (x : At) (w : Word) (s : State) : Out :=
  s.issue x w (isFn w 3 0) (compute x.core fun c => wr3 w (c.srcA w * c.srcB w))

/-- MULH: bits 71:36 of the signed product. -/
def execMulh (x : At) (w : Word) (s : State) : Out :=
  s.issue x w (isFn w 3 1) (compute x.core fun c => wr3 w (BitVec.ofInt 36 (c.smul w / 2 ^ 36)))

/-- MULHU. -/
def execMulhu (x : At) (w : Word) (s : State) : Out :=
  s.issue x w (isFn w 3 2) (compute x.core fun c => wr3 w (BitVec.ofNat 36 (c.umul w / 2 ^ 36)))

/-- MULD. -/
def execMuld (x : At) (w : Word) (s : State) : Out :=
  s.issue x w (isFn w 3 3) (compute x.core fun c => wrP3 w (BitVec.ofInt 72 (c.smul w)))

/-- MULDU. -/
def execMuldu (x : At) (w : Word) (s : State) : Out :=
  s.issue x w (isFn w 3 4) (compute x.core fun c => wrP3 w (BitVec.ofNat 72 (c.umul w)))

/-- MULQ: the Q1.35 product rounded half up; −1 × −1 saturates. -/
def execMulq (x : At) (w : Word) (s : State) : Out :=
  s.issue x w (isFn w 3 5) (compute x.core fun c => 
    let r := satTo 36 (rsh (c.smul w) 35)
    wr3 w r.1 ++ flQ r.2 3)

/-- DIV (R131). -/
def execDiv (x : At) (w : Word) (s : State) : Out :=
  s.issue x w (isFn w 3 8) (longOp x 20 (div36 true false w))

/-- DIVU (R131). -/
def execDivu (x : At) (w : Word) (s : State) : Out :=
  s.issue x w (isFn w 3 9) (longOp x 20 (div36 false false w))

/-- REM (R131). -/
def execRem (x : At) (w : Word) (s : State) : Out :=
  s.issue x w (isFn w 3 10) (longOp x 20 (div36 true true w))

/-- REMU (R131). -/
def execRemu (x : At) (w : Word) (s : State) : Out :=
  s.issue x w (isFn w 3 11) (longOp x 20 (div36 false true w))

/-- DIVD (R131). -/
def execDivd (x : At) (w : Word) (s : State) : Out :=
  s.issue x w (isFn w 3 12) (longOp x 38 (div72 true false w))

/-- DIVDU (R131). -/
def execDivdu (x : At) (w : Word) (s : State) : Out :=
  s.issue x w (isFn w 3 13) (longOp x 38 (div72 false false w))

/-- REMD (R131). -/
def execRemd (x : At) (w : Word) (s : State) : Out :=
  s.issue x w (isFn w 3 14) (longOp x 38 (div72 true true w))

/-- REMDU (R131). -/
def execRemdu (x : At) (w : Word) (s : State) : Out :=
  s.issue x w (isFn w 3 15) (longOp x 38 (div72 false true w))

end Sys2Proof.Machine
end

