-- ==== Sys2Proof/Machine/Lane.lean ====
section
/-!
DEFINITION. The LANE group (opcode 4, R132, R133).
-/
namespace Sys2Proof.Machine

/-- An operation on every lane of two pairs: lanes of 18 bits, or of 36; the answer says whether any lane clipped. -/
def lanes (wd n : Nat) (a b : DWord) (f : BitVec wd → BitVec wd → BitVec wd × Bool) : DWord × Bool :=
  (List.range n).foldl (fun acc k =>
    let r := f (a.extractLsb' (wd * k) wd) (b.extractLsb' (wd * k) wd)
    (acc.1 ||| (r.1.setWidth 72 <<< (wd * k)), acc.2 || r.2)) (0, false)

/-- A lane instruction: the .W form has function bit 4 set. -/
def laneEffs (w : Word) (lat : Nat) (f : (wd : Nat) → BitVec wd → BitVec wd → BitVec wd × Bool) (c : Core) : Effs :=
  let r := if codeOf w < 16 then lanes 18 4 (c.pairA w) (c.pairB w) (f 18) else lanes 36 2 (c.pairA w) (c.pairB w) (f 36)
  wrPair (dstOf w) r.1 lat ++ flQ r.2 lat

def isLane (w : Word) (code : Nat) : Bool := isFn w 4 code || isFn w 4 (code + 16)

/-- All ones, or zero. -/
def laneMask (wd : Nat) (b : Bool) : BitVec wd := if b then BitVec.allOnes wd else 0

/-- LADD. -/
def execLadd (x : At) (w : Word) (s : State) : Out :=
  s.issue x w (isLane w 0) (compute x.core (laneEffs w 1 (fun _ a b => (a + b, false))))

/-- LSUB. -/
def execLsub (x : At) (w : Word) (s : State) : Out :=
  s.issue x w (isLane w 1) (compute x.core (laneEffs w 1 (fun _ a b => (a - b, false))))

/-- LADDS. -/
def execLadds (x : At) (w : Word) (s : State) : Out :=
  s.issue x w (isLane w 2) (compute x.core (laneEffs w 1 (fun wd a b => satTo wd (a.toInt + b.toInt))))

/-- LSUBS. -/
def execLsubs (x : At) (w : Word) (s : State) : Out :=
  s.issue x w (isLane w 3) (compute x.core (laneEffs w 1 (fun wd a b => satTo wd (a.toInt - b.toInt))))

/-- LMUL: rounded half up. -/
def execLmul (x : At) (w : Word) (s : State) : Out :=
  s.issue x w (isLane w 4) (compute x.core (laneEffs w 3 (fun wd a b => satTo wd (rsh (a.toInt * b.toInt) (wd - 1)))))

/-- LMAX. -/
def execLmax (x : At) (w : Word) (s : State) : Out :=
  s.issue x w (isLane w 5) (compute x.core (laneEffs w 1 (fun _ a b => (if a.slt b then b else a, false))))

/-- LMIN. -/
def execLmin (x : At) (w : Word) (s : State) : Out :=
  s.issue x w (isLane w 6) (compute x.core (laneEffs w 1 (fun _ a b => (if a.slt b then a else b, false))))

/-- LABS. -/
def execLabs (x : At) (w : Word) (s : State) : Out :=
  s.issue x w (isLane w 7) (compute x.core (laneEffs w 1 (fun wd a _ => satTo wd (a.toInt.natAbs : Int))))

/-- LSHL by the immediate. -/
def execLshl (x : At) (w : Word) (s : State) : Out :=
  s.issue x w (isLane w 8) (compute x.core (laneEffs w 1 (fun _ a _ => (a <<< srcBOf w, false))))

/-- LSAR by the immediate. -/
def execLsar (x : At) (w : Word) (s : State) : Out :=
  s.issue x w (isLane w 9) (compute x.core (laneEffs w 1 (fun _ a _ => (a.sshiftRight (srcBOf w), false))))

/-- LCMPEQ. -/
def execLcmpeq (x : At) (w : Word) (s : State) : Out :=
  s.issue x w (isLane w 10) (compute x.core (laneEffs w 1 (fun wd a b => (laneMask wd (a == b), false))))

/-- LCMPLT. -/
def execLcmplt (x : At) (w : Word) (s : State) : Out :=
  s.issue x w (isLane w 11) (compute x.core (laneEffs w 1 (fun wd a b => (laneMask wd (a.slt b), false))))

end Sys2Proof.Machine
end

