-- ==== Sys2Proof/Machine/Mac.lean ====
section
/-!
DEFINITION. The MAC group (opcode 5, R134, R135): multiply-accumulate and the accumulators.
-/
namespace Sys2Proof.Machine

/-- The accumulator named by dst, as MAC, MSU, ACADD and ACSAR read it: the newest write in program order (R135). -/
def Core.acD (c : Core) (w : Word) : Acc := c.accChain (dstOf w)
/-- The accumulator named by srcA, as it has landed (R122). -/
def Core.acA (c : Core) (w : Word) : Acc := c.acc (srcAOf w)
/-- The four lane products and their sum. -/
def Core.dot4 (c : Core) (w : Word) : Int :=
  (List.range 4).foldl (fun a k =>
    a + ((c.pairA w).extractLsb' (18 * k) 18).toInt * ((c.pairB w).extractLsb' (18 * k) 18).toInt) 0
def accAdd (a : Acc) (n : Int) : Acc := a + BitVec.ofInt 80 n

/-- MAC.H4. -/
def execMacH4 (x : At) (w : Word) (s : State) : Out :=
  s.issue x w (isFn w 5 0) (compute x.core fun c => wrAc (dstOf w) (accAdd (c.acD w) (c.dot4 w)))

/-- MSU.H4. -/
def execMsuH4 (x : At) (w : Word) (s : State) : Out :=
  s.issue x w (isFn w 5 1) (compute x.core fun c => wrAc (dstOf w) (accAdd (c.acD w) (-(c.dot4 w))))

/-- MACZ.H4. -/
def execMaczH4 (x : At) (w : Word) (s : State) : Out :=
  s.issue x w (isFn w 5 2) (compute x.core fun c => wrAc (dstOf w) (BitVec.ofInt 80 (c.dot4 w)))

/-- MAC.W. -/
def execMacW (x : At) (w : Word) (s : State) : Out :=
  s.issue x w (isFn w 5 3) (compute x.core fun c => wrAc (dstOf w) (accAdd (c.acD w) (c.smul w)))

/-- MSU.W. -/
def execMsuW (x : At) (w : Word) (s : State) : Out :=
  s.issue x w (isFn w 5 4) (compute x.core fun c => wrAc (dstOf w) (accAdd (c.acD w) (-(c.smul w))))

/-- MACZ.W. -/
def execMaczW (x : At) (w : Word) (s : State) : Out :=
  s.issue x w (isFn w 5 5) (compute x.core fun c => wrAc (dstOf w) (BitVec.ofInt 80 (c.smul w)))

/-- ACCLR. -/
def execAcclr (x : At) (w : Word) (s : State) : Out :=
  s.issue x w (isFn w 5 8) (compute x.core fun _ => wrAc (dstOf w) 0)

/-- ACWR. -/
def execAcwr (x : At) (w : Word) (s : State) : Out :=
  s.issue x w (isFn w 5 9) (compute x.core fun c => wrAc (dstOf w) ((c.srcA w).signExtend 80))

/-- ACADD: with a = d both operands take the chained value. -/
def execAcadd (x : At) (w : Word) (s : State) : Out :=
  s.issue x w (isFn w 5 10) (compute x.core fun c => wrAc (dstOf w) (c.acD w + (if srcAOf w = dstOf w then c.acD w else c.acA w)))

/-- ACSAR. -/
def execAcsar (x : At) (w : Word) (s : State) : Out :=
  s.issue x w (isFn w 5 11) (compute x.core fun c => wrAc (dstOf w) ((c.acD w).sshiftRight (srcBOf w)))

/-- ACRD. -/
def execAcrd (x : At) (w : Word) (s : State) : Out :=
  s.issue x w (isFn w 5 12) (compute x.core fun c => wr (dstOf w) ((c.acA w).extractLsb' 0 36) 2)

/-- ACRDS. -/
def execAcrds (x : At) (w : Word) (s : State) : Out :=
  s.issue x w (isFn w 5 13) (compute x.core fun c => 
    let r := satTo 36 (rsh (c.acA w).toInt (srcBOf w))
    wr (dstOf w) r.1 2 ++ flQ r.2 2)

/-- ACRDD. -/
def execAcrdd (x : At) (w : Word) (s : State) : Out :=
  s.issue x w (isFn w 5 14) (compute x.core fun c => 
    let r := satTo 72 (rsh (c.acA w).toInt (srcBOf w))
    wrPair (dstOf w) r.1 2 ++ flQ r.2 2)

/-- ACRDX. -/
def execAcrdx (x : At) (w : Word) (s : State) : Out :=
  s.issue x w (isFn w 5 15) (compute x.core fun c => wrPair (dstOf w) (((c.acA w).extractLsb' 36 44).signExtend 72) 2)

/-- ACWRX. -/
def execAcwrx (x : At) (w : Word) (s : State) : Out :=
  s.issue x w (isFn w 5 16) (compute x.core fun c => wrAc (dstOf w) ((c.pairA w).extractLsb' 0 44 ++ c.srcB w))

end Sys2Proof.Machine
end

