-- ==== Sys2Proof/Machine/Float.lean ====
section
/-!
DEFINITION. Floating point (opcodes 6 and 7, R137 to R143).
-/
namespace Sys2Proof.Machine

def isFp (w : Word) (code : Nat) : Bool := isFn w 6 code || isFn w 7 code
/-- Opcode 6 works on single registers, opcode 7 on pairs. -/
def narrowFp (w : Word) : Bool := opcodeOf w == 6
def fmtOf (w : Word) : Fmt := if narrowFp w then f36 else f72
def fpLat (w : Word) : Nat := if narrowFp w then 4 else 5
/-- The operands x, y and z of Table 5-11. -/
def Core.fpA (c : Core) (w : Word) : Nat := if narrowFp w then (c.srcA w).toNat else (c.pairA w).toNat
def Core.fpB (c : Core) (w : Word) : Nat := if narrowFp w then (c.srcB w).toNat else (c.pairB w).toNat
def Core.fpD (c : Core) (w : Word) : Nat := if narrowFp w then (c.srcD w).toNat else (c.pairD w).toNat
/-- The write of a result, as writes with a latency and as landings of a long operation. -/
def fpWr (w : Word) (lat v : Nat) : Effs :=
  if narrowFp w then wr (dstOf w) (BitVec.ofNat 36 v) lat else wrPair (dstOf w) (BitVec.ofNat 72 v) lat
def fpLands (w : Word) (v : Nat) : List Land := (fpWr w 0 v).map (·.1)
/-- An operation with the latency of its format. -/
def fpEffs (w : Word) (r : Nat × BitVec 5) : Effs × BitVec 5 := (fpWr w (fpLat w) r.1, r.2)

/-- FADD: x + y. -/
def execFadd (x : At) (w : Word) (s : State) : Out :=
  s.issue x w (isFp w 0) (fpOp x.core (fpLat w) fun c => fpEffs w ((fmtOf w).add c.rm c.trapUF false (c.fpA w) (c.fpB w)))

/-- FSUB: x − y. -/
def execFsub (x : At) (w : Word) (s : State) : Out :=
  s.issue x w (isFp w 1) (fpOp x.core (fpLat w) fun c => fpEffs w ((fmtOf w).add c.rm c.trapUF true (c.fpA w) (c.fpB w)))

/-- FMUL. -/
def execFmul (x : At) (w : Word) (s : State) : Out :=
  s.issue x w (isFp w 2) (fpOp x.core (fpLat w) fun c => fpEffs w ((fmtOf w).mul c.rm c.trapUF (c.fpA w) (c.fpB w)))

/-- FMA: x × y + z. -/
def execFma (x : At) (w : Word) (s : State) : Out :=
  s.issue x w (isFp w 5) (fpOp x.core (fpLat w) fun c => fpEffs w ((fmtOf w).fma c.rm c.trapUF false false (c.fpA w) (c.fpB w) (c.fpD w)))

/-- FMS: x × y − z. -/
def execFms (x : At) (w : Word) (s : State) : Out :=
  s.issue x w (isFp w 6) (fpOp x.core (fpLat w) fun c => fpEffs w ((fmtOf w).fma c.rm c.trapUF false true (c.fpA w) (c.fpB w) (c.fpD w)))

/-- FNMA: −(x × y) + z. -/
def execFnma (x : At) (w : Word) (s : State) : Out :=
  s.issue x w (isFp w 7) (fpOp x.core (fpLat w) fun c => fpEffs w ((fmtOf w).fma c.rm c.trapUF true false (c.fpA w) (c.fpB w) (c.fpD w)))

/-- FDIV: x / y, a long operation. -/
def execFdiv (x : At) (w : Word) (s : State) : Out :=
  s.issue x w (isFp w 3) (fpLong x (if narrowFp w then 20 else 38) fun c =>
    let r := (fmtOf w).div c.rm c.trapUF (c.fpA w) (c.fpB w)
    (fpLands w r.1, r.2))

/-- FSQRT, a long operation. -/
def execFsqrt (x : At) (w : Word) (s : State) : Out :=
  s.issue x w (isFp w 4) (fpLong x 24 fun c =>
    let r := (fmtOf w).sqrt c.rm c.trapUF (c.fpA w)
    (fpLands w r.1, r.2))

/-- FMIN (R138). -/
def execFmin (x : At) (w : Word) (s : State) : Out :=
  s.issue x w (isFp w 8) (fpOp x.core 1 fun c =>
    let r := (fmtOf w).minMax false (c.fpA w) (c.fpB w)
    (fpWr w 1 r.1, r.2))

/-- FMAX (R138). -/
def execFmax (x : At) (w : Word) (s : State) : Out :=
  s.issue x w (isFp w 9) (fpOp x.core 1 fun c =>
    let r := (fmtOf w).minMax true (c.fpA w) (c.fpB w)
    (fpWr w 1 r.1, r.2))

/-- FABS: the sign bit cleared. -/
def execFabs (x : At) (w : Word) (s : State) : Out :=
  s.issue x w (isFp w 10) (compute x.core fun c => fpWr w 1 (c.fpA w % 2 ^ ((fmtOf w).eb + (fmtOf w).fb)))

/-- FNEG: the sign bit inverted. -/
def execFneg (x : At) (w : Word) (s : State) : Out :=
  s.issue x w (isFp w 11) (compute x.core fun c => fpWr w 1 (c.fpA w ^^^ 2 ^ ((fmtOf w).eb + (fmtOf w).fb)))

/-- FSGNJ: x with the sign bit of y. -/
def execFsgnj (x : At) (w : Word) (s : State) : Out :=
  s.issue x w (isFp w 14) (compute x.core fun c => fpWr w 1 ((fmtOf w).sgnj (c.fpA w) (c.fpB w)))

/-- FCMP: FL from the relation (Table 5-12). -/
def execFcmp (x : At) (w : Word) (s : State) : Out :=
  s.issue x w (isFp w 12) (fpOp x.core 2 fun c =>
    let r := (fmtOf w).cmp (c.fpA w) (c.fpB w)
    ([(.fl 0 r.1.1, 2), (.fl 1 r.1.2.1, 2), (.fl 2 r.1.2.2.1, 2), (.fl 3 r.1.2.2.2, 2)], r.2))

/-- FCLASS: D is a single register in both groups. -/
def execFclass (x : At) (w : Word) (s : State) : Out :=
  s.issue x w (isFp w 13) (compute x.core fun c => wr (dstOf w) (BitVec.ofNat 36 ((fmtOf w).cls (c.fpA w))) 1)

/-- CVT.36.W. -/
def execCvt36W (x : At) (w : Word) (s : State) : Out :=
  s.issue x w (isFn w 6 16) (fpOp x.core 4 fun c => fpEffs w (f36.ofInt c.rm c.trapUF (c.srcA w).toInt))

/-- CVT.36.WU. -/
def execCvt36Wu (x : At) (w : Word) (s : State) : Out :=
  s.issue x w (isFn w 6 17) (fpOp x.core 4 fun c => fpEffs w (f36.ofInt c.rm c.trapUF (c.srcA w).toNat))

/-- CVT.W.36 (R142). -/
def execCvtW36 (x : At) (w : Word) (s : State) : Out :=
  s.issue x w (isFn w 6 18) (fpOp x.core 4 fun c => fpEffs w (f36.toInt c.rm false 36 (c.srcA w).toNat))

/-- CVT.WU.36 (R142). -/
def execCvtWu36 (x : At) (w : Word) (s : State) : Out :=
  s.issue x w (isFn w 6 19) (fpOp x.core 4 fun c => fpEffs w (f36.toInt c.rm true 36 (c.srcA w).toNat))

/-- CVT.W.36.Z: towards zero. -/
def execCvtW36Z (x : At) (w : Word) (s : State) : Out :=
  s.issue x w (isFn w 6 20) (fpOp x.core 4 fun c => fpEffs w (f36.toInt 1 false 36 (c.srcA w).toNat))

/-- CVT.36.B32: exact (R79). -/
def execCvt36B32 (x : At) (w : Word) (s : State) : Out :=
  s.issue x w (isFn w 6 21) (fpOp x.core 4 fun c => fpEffs w ((b32.widenExact f36 ((c.srcA w).toNat % 2 ^ 32), 0)))

/-- CVT.B32.36: rounded (R80). -/
def execCvtB3236 (x : At) (w : Word) (s : State) : Out :=
  s.issue x w (isFn w 6 22) (fpOp x.core 4 fun c => fpEffs w (f36.narrow b32 c.rm c.trapUF (c.srcA w).toNat))

/-- CVT.36.72: from a pair (R143). -/
def execCvt3672 (x : At) (w : Word) (s : State) : Out :=
  s.issue x w (isFn w 6 23) (fpOp x.core 4 fun c => fpEffs w (f72.narrow f36 c.rm c.trapUF (c.pairA w).toNat))

/-- CVT.72.D. -/
def execCvt72D (x : At) (w : Word) (s : State) : Out :=
  s.issue x w (isFn w 7 16) (fpOp x.core 5 fun c => fpEffs w (f72.ofInt c.rm c.trapUF (c.pairA w).toInt))

/-- CVT.72.DU. -/
def execCvt72Du (x : At) (w : Word) (s : State) : Out :=
  s.issue x w (isFn w 7 17) (fpOp x.core 5 fun c => fpEffs w (f72.ofInt c.rm c.trapUF (c.pairA w).toNat))

/-- CVT.D.72 (R142). -/
def execCvtD72 (x : At) (w : Word) (s : State) : Out :=
  s.issue x w (isFn w 7 18) (fpOp x.core 5 fun c => fpEffs w (f72.toInt c.rm false 72 (c.pairA w).toNat))

/-- CVT.DU.72 (R142). -/
def execCvtDu72 (x : At) (w : Word) (s : State) : Out :=
  s.issue x w (isFn w 7 19) (fpOp x.core 5 fun c => fpEffs w (f72.toInt c.rm true 72 (c.pairA w).toNat))

/-- CVT.D.72.Z. -/
def execCvtD72Z (x : At) (w : Word) (s : State) : Out :=
  s.issue x w (isFn w 7 20) (fpOp x.core 5 fun c => fpEffs w (f72.toInt 1 false 72 (c.pairA w).toNat))

/-- CVT.72.B64 (R79). -/
def execCvt72B64 (x : At) (w : Word) (s : State) : Out :=
  s.issue x w (isFn w 7 21) (fpOp x.core 5 fun c => fpEffs w ((b64.widenExact f72 ((c.pairA w).toNat % 2 ^ 64), 0)))

/-- CVT.B64.72 (R80). -/
def execCvtB6472 (x : At) (w : Word) (s : State) : Out :=
  s.issue x w (isFn w 7 22) (fpOp x.core 5 fun c => fpEffs w (f72.narrow b64 c.rm c.trapUF (c.pairA w).toNat))

/-- CVT.72.36: a single register to a pair (R143). -/
def execCvt7236 (x : At) (w : Word) (s : State) : Out :=
  s.issue x w (isFn w 7 23) (fpOp x.core 5 fun c => fpEffs w (widen3672 (c.srcA w).toNat))

end Sys2Proof.Machine
end

