-- ==== Sys2Proof/Machine/XOps.lean ====
section
/-!
DEFINITION. The X block (R113, R213 to R223): presenting, acceptance, landing and discarding.
-/
namespace Sys2Proof.Machine

/-- Core cycle in which the core's own holds 1 and 2 have ended (R213). -/
def State.xReady (s : State) (k : Nat) (e : UstEntry) : Nat :=
  let c := s.core k
  let fly := c.xops.filter (·.parked.isNone)
  let h1 := if fly.length < 4 then c.ccyc else fly.foldl (fun a x => min a x.due) (c.ccyc + 2 ^ 14)
  let h2 := match smFind? c.xlast e.ctx with
    | some t => t + s.ustCycles e.ii
    | none => 0
  max c.ccyc (max h1 h2)

/-- Package time of a core cycle, rounded up, and the first core cycle of a package time (Table 0-1). -/
def State.timeAt (s : State) (k cyc : Nat) : Nat :=
  (s.core k).t0 + (if s.fuses.part = 0x144 then (cyc * 5 + 8) / 9 else (cyc + 1) / 2)
def State.cycleAt (s : State) (k t : Nat) : Nat :=
  if s.fuses.part = 0x144 then ((t - (s.core k).t0) * 9 + 4) / 5 else (t - (s.core k).t0) * 2

/-- Package time at which a core that presents could be accepted: its holds 1 and 2 have ended, the context accepts one operation per
Understorey cycle of 1 ns, and another core accepted there less than II cycles ago holds it (hold 3 of R213). -/
def State.acceptTime (s : State) (k : Nat) (e : UstEntry) : Nat :=
  let u := s.ust (groveOf k)
  let own := s.timeAt k (s.xReady k e)
  match smFind? u.lastSlot e.ctx with
  | none => own
  | some l => max own (smGet 0 u.lastTime e.ctx + (if l = slotOf k then 1 else e.ii))

/-- In a replay a context accepts in the recorded order: a core with a UORDER record in its group waits for its acceptance number, and one
with none follows itself (R518). -/
def State.inOrder (s : State) (k ctx : Nat) : Bool :=
  match smFind? s.mftc k, s.cmpOf k with
  | some m, some n =>
    if s.mftMode n ≠ 3 then true
    else
      let g := groveOf k
      match m.replay.find? (fun r => r.type == 0x53 && r.chunk == m.chunk && decide (r.offset ≤ m.len + 1) && r.data % 256 == g + ctx * 16) with
      | some r => r.data / 256 % 2 ^ 32 == smGet 0 (s.sess n).accepts (g * 16 + ctx)
      | none => smFind? (s.ust g).lastSlot ctx == some (slotOf k)
  | _, _ => true

/-- The entry of a core's X word that presents to a context. -/
def State.presented (s : State) (k ctx : Nat) : Option UstEntry :=
  let c := s.core k
  if c.present = some ctx ∧ c.run = .running ∧ c.dbg = false ∧ c.mftFrozen = false ∧ c.freeze = none ∧ s.inOrder k ctx = true then
    (s.ustCfg (groveOf k)).bind (fun u => u.entries.find? (·.ctx == ctx))
  else none

/-- The cores of a Grove that present to a context, with the times at which each could be accepted, by slot in the order of R214: those
after the slot accepted last, then the others. Where nothing has been accepted yet the round starts at slot 0 (log entry 103: the spec
names no slot accepted last then). -/
def State.presenters (s : State) (g ctx : Nat) : List (Nat × Nat) :=
  let last := smGet 19 (s.ust g).lastSlot ctx
  ((List.range 20).map (fun i => g * 20 + (last + 1 + i) % 20)).filterMap (fun k =>
    (s.presented k ctx).map (fun e => (k, s.acceptTime k e)))

/-- The core that a context accepts next, and when: the earliest, and in one Understorey cycle the first of the round. -/
def State.nextAccept (s : State) (g ctx : Nat) : Option (Nat × Nat) :=
  (s.presenters g ctx).foldl (fun a p => match a with
    | none => some p
    | some q => if p.2 < q.2 then some p else some q) none

/-- The operands handed to the array (R213): the src register, the dst register when DST_IN is 1, and bits 16:0. -/
def xOperands (c : Core) (e : UstEntry) (w : Word) : List Nat :=
  (if e.srcKind = 2 then [(c.pairA w).toNat] else if e.srcKind = 1 then [(c.srcA w).toNat] else []) ++
  (if e.dstIn then (if e.dstKind = 2 then [(c.pairD w).toNat] else [(c.srcD w).toNat]) else []) ++ [fld w 16 0]

/-- Address of the X word in its slot. -/
def xAddr (c : Core) (slot : Slot) : Nat := slotAddr c.pc slot

/-- Acceptance on a context by another core than the last is journalled; in a replay its record is taken (Table 20-2). -/
def State.uorder (s : State) (k ctx : Nat) : State :=
  let g := groveOf k
  match s.cmpOf k with
  | none => s
  | some n =>
    if !s.recording n && s.mftMode n != 3 then s else
    let m := s.sess n
    let key := g * 16 + ctx
    let number := smGet 0 m.accepts key
    let s := s.setSess n { m with accepts := smSet m.accepts key (number + 1) }
    if s.mftMode n = 3 then (match s.mftNext k with
      | some r => if r.type = 0x53 then s.mftTake k else s
      | none => s)
    else if smFind? (s.ust g).lastSlot ctx = some (slotOf k) then s
    else s.mftEvent k 0x53 (g + ctx * 16 + number * 256) []

/-- The array is ready for the next presenting core of a context, that of `slot`: bubbles pass until then, and the core's X word issues
with its group (R213, R214). A context with an X word still to issue accepts no other. -/
def execUstAccept (grove ctx slot : Nat) (s : State) : Out :=
  if s.cores.any (fun e => groveOf e.1 == grove && e.2.grant == some ctx) then .next s
  else match s.nextAccept grove ctx with
  | none => .next s
  | some (k, t) =>
    if slotOf k ≠ slot then .next s else
    let own := (match s.presented k ctx with | some e => s.xReady k e | none => 0) - (s.core k).ccyc
    let n := max own (s.cycleAt k t - (s.core k).ccyc)
    let s := s.passCycles k n
    let s := if n = own then s else s.count k 0x34 (n - own)
    .next (s.modCore k (fun c => { c with present := none, held := false, grant := some ctx }))

/-- The operation as its context accepts it (R213, R215): it lands L core cycles after its slot starts. -/
def State.newX (s : State) (x : At) (w : Word) (e : UstEntry) : XOp :=
  let c := s.core x.core
  let u := s.ust (groveOf x.core)
  { addr := xAddr c x.slot, word := w, ctx := e.ctx, latency := s.xLatency e, regions := e.regions, mem := e.mem,
    dst := dstOf w, dstKind := e.dstKind, operands := xOperands c e w, tr := c.tr, user := c.user, ptbase := c.ptbase, asid := c.asid,
    cells := match s.ustCfg (groveOf x.core) with | some v => v.cellsOf e.ctx u.cells | none => CellState.zero
    order := smGet 0 u.accepts e.ctx + 1, loaded := [], outcome := .poison, due := c.startOf x.slot + s.xLatency e, seq := c.seq,
    parked := none, dropLo := false, dropHi := false, lines := []
    reg := ((List.range 4).find? (fun r => !c.xops.any (fun y => y.parked.isNone && y.reg == r))).getD 0 }

/-- An X word issues, and its context accepts the operation (R213): its loads are performed (log entry 12). -/
def State.acceptX (s : State) (x : At) (w : Word) (e : UstEntry) : State :=
  let k := x.core; let g := groveOf k
  let s := s.uorder k e.ctx
  let op := s.newX x w e
  let u := s.ust g
  let s := s.setUst g { u with lastSlot := smSet u.lastSlot e.ctx (slotOf k), lastTime := smSet u.lastTime e.ctx (s.localTime k),
                               accepts := smSet u.accepts e.ctx op.order }
  let r := s.xPerform k op
  let s := r.1.modCore k (fun c => { c with xops := c.xops ++ [r.2], xlast := smSet c.xlast e.ctx c.ccyc, grant := none })
  (s.ucount g 0x0B 0 1 (s.cmpOf k) none).count k 0x13 1

/-- An X word (R113, R213). Until its context is ready the group that holds it does not issue (`State.groupHold`). -/
def execXOperation (x : At) (w : Word) (s : State) : Out :=
  s.issue x w (56 ≤ opcodeOf w) fun s =>
    match s.xEntry x.core w with
    | some e => .done ((s.landForRoom x.core).acceptX x w e) [] .fall
    | none => .hold s

/-- The oldest operation in flight lands in its landing cycle (R215, R218, R219). `late`: a memory access of it had not
completed, an OVERRUN. Between the slots of a pair no cycle passes. -/
def execUstLanding (core : Nat) (late : Bool) (s : State) : Out :=
  match (s.core core).xops.find? (·.parked.isNone) with
  | none => .next s
  | some x =>
    if !s.clocked core then .next s
    else if late then
      let s := s.passTo core (x.due - 1)
      match (s.core core).xops.find? (·.seq == x.seq) with
      | some y => if x.due ≤ (s.core core).ccyc + 1 then .next ((s.landX core y true).passTo core x.due) else .next s
      | none => .next s
    else .next (s.passTo core x.due)

/-- UST.PARK_k.DISCARD (R220). -/
def execUstDiscard (core : Nat) (s : State) : Out :=
  if s.present core then .next (s.discardParked core) else .next s

end Sys2Proof.Machine
end

