-- ==== Sys2Proof/Machine/Memory.lean ====
section
/-!
DEFINITION. The memory instructions (R146 to R158, R173): loads, stores, segment-register transfers, prefetch, atomics and line
maintenance; the requests a core sends beyond its Stand; the fill of a miss (R187, R200, R206); the merging buffer's drains
(R292 to R295).
-/
namespace Sys2Proof.Machine

/-! ## Forms -/

/-- The kind of access of an M-format opcode. -/
def kindOf (op : Nat) : XKind :=
  if op = 29 then .lr else if op = 30 then .sc else if op = 31 then .tas else if 24 ≤ op then .store else .load

/-- ACQ of LR, REL of SC. -/
def orderBit (w : Word) : Bool := fld w 11 11 == 1

/-- The parts of an access: one, or the two words of a double-word that spans two lines (R235). -/
def MemAcc.parts (a : MemAcc) (size : Nat) : List (Nat × Nat) :=
  match a.hi with
  | none => [(a.pa, size)]
  | some h => [(a.pa, 4), (h, 4)]

def State.isCached (s : State) (pa : Nat) : Bool := match s.region pa with | .dram => true | .window => true | _ => false
/-- Memory of type DEVICE; the memory type of a mapping to the local memories is ignored (R197). -/
def State.isDevice (s : State) (x : Xl) : Bool := x.device && !s.isLocal x.pa

/-! ## Forming an access (Table 9-3) -/

/-- The check at order 6: LDSG and STSG in user mode (R226, R228). -/
def Core.segCheck (c : Core) (op : Nat) (w : Word) (e : Eff) : Option Exc :=
  if !c.user then none
  else if op = 22 then
    let base := fld c.segtab 35 12 * 4096
    let n := fld c.segtab 7 0
    if n ≠ 0 ∧ base ≤ e.la ∧ e.la + 16 ≤ base + 16 * n then none else some ⟨3, 6, e.off, none⟩
  else if op = 28 then
    let d := c.seg (dstOf w)
    if d.v && !d.user then some ⟨3, 2, e.off, none⟩ else none
  else none

/-- The access of an M-format word: every check before the access itself (R146, R235), and the freezes of its translation. A
double-word whose second half alone lies in DEVICE memory faults there, MISALIGNED (log entry 104). -/
def State.resolve (s : State) (k : Nat) (w : Word) : State × Ans MemAcc :=
  let c := s.core k
  let op := opcodeOf w
  let kind := kindOf op
  match c.effAddr w kind.needsR kind.needsW with
  | .error x => (s, .fault x)
  | .ok e =>
    match c.segCheck op w e with
    | some x => (s, .fault x)
    | none =>
      let size := sizeOf' op
      let (s, r, n) := s.access k kind size e.la
      let s := s.freezeFor k n
      match r with
      | .fault x => (s, .fault x)
      | .walk la => (s, .walk la)
      | .ok x =>
        let acc : MemAcc := { newb := e.newb, data := c.pairD w, off := e.off, la := e.la, pa := x.pa, hi := none,
                              device := s.isDevice x, got := [], since := 0 }
        if size = 8 ∧ e.la % 64 = 60 then
          let la' := (e.la + 4) % 2 ^ 48
          let (s, r, n) := s.access k kind size la'
          let s := s.freezeFor k n
          match r with
          | .fault x => (s, .fault x)
          | .walk la => (s, .walk la)
          | .ok y =>
            if s.isDevice y then (s, .fault ⟨7, 1, la', none⟩) else (s, .ok { acc with hi := some y.pa })
        else (s, .ok acc)

/-! ## Beyond the Stand (R187, R291, R335, R336, R355) -/

/-- The request of an access leaves the core's Stand. -/
def State.leaves (s : State) (k : Nat) (kind : XKind) (pa : Nat) : Bool :=
  if s.isLocal pa then false
  else if !s.isCached pa then true
  else if kind.needsW then !s.mem.ownedBy (standOf k) (lineOf pa)
  else (s.mem.l2line (standOf k) (lineOf pa)).isNone

/-- The request of an access is offered to the core's shaper. -/
def State.offerFor (s : State) (k : Nat) (kind : XKind) (pa : Nat) : State :=
  if s.leaves k kind pa then s.offer (s.reqFor 1 k pa kind.needsW) ((s.cmpOf k).getD 0) (s.localTime k) else s

/-- No Grove caches the line. -/
def State.uncached (s : State) (line : Nat) : Bool := !(s.mem.grove.any (fun t => t.line == line))

/-- The request must wait for the partner package: it leaves the Grove, and the line's home is there (R315), or the home's entry says
that the partner has to answer first (R322). RDS, RDX or UPG of the Grove and the messages that follow bring the line. -/
def State.awaitsPartner (s : State) (k : Nat) (kind : XKind) (line : Nat) : Bool :=
  (match s.mem.gtag (groveOf k) line with
    | some t => kind.needsW && !(t.st == CState.e || t.st == CState.m)
    | none => true) &&
  (if s.partnerLine line then s.links.pair == 2
   else match s.mem.dirEnt line with
    | some e => if kind.needsW then e.xp else e.resp == 13
    | none => false)

/-- The request is not served yet: its shaper holds it; it waits in the caches or at the home (State.lineWaits); its subchannel does not
answer, or has another command to perform first (R365); the pair is not joined; or the partner has not answered. -/
def State.blocked (s : State) (k : Nat) (kind : XKind) (pa : Nat) : Bool :=
  let line := lineOf pa
  s.held.contains (s.reqFor 1 k pa kind.needsW) ||
  (s.isCached pa &&
    (s.lineWaits k kind.needsW line || s.awaitsPartner k kind line ||
     (match s.region pa with
      | .window => s.links.pair != 2 && s.links.pair != 4 && s.links.pair != 5
      | _ => s.uncached line && (!s.subAnswers line || !s.mayIssue line (s.rankOf (groveOf k) line)))))

/-- A request that the home makes wait takes its place there (R326, R332). -/
def State.await (s : State) (k : Nat) (kind : XKind) (pa : Nat) : State :=
  let line := lineOf pa
  if !s.held.contains (s.reqFor 1 k pa kind.needsW) && s.isCached pa && s.needsHome k kind.needsW line &&
      s.homeBlocks (groveOf k) line kind.needsW then s.joinHome (groveOf k) line kind.needsW
  else s

/-! ### The order of cores' misses (R337, R363) -/

def InFlight.rank (f : InFlight) : Rank := ⟨f.cls, f.accepted, f.deadline, f.req.item⟩

/-- Two cores' requests wait for one resource: a Clearing slice, or the subchannel from which both are read. -/
def State.shareUnit (s : State) (f g : InFlight) : Bool :=
  let unit (q : HeldReq) : List Nat := q.items.filter (fun i => decide (i < 32))
  f.req.target == g.req.target && f.req.tgtIndex == g.req.tgtIndex && !(unit f.req).isEmpty && unit f.req == unit g.req &&
    (f.req.target != 0 || (s.uncached f.req.line && s.uncached g.req.line))

/-- g goes before f. On one line they go in the order in which they came, and of one cycle in that of the ports at every point of order,
which is the order of core numbers (R326, R337). At a shared resource g, when it came no later, goes first by R363. -/
def State.goesBefore (s : State) (f g : InFlight) : Bool :=
  if g.req.line = f.req.line then decide (g.accepted < f.accepted) || (g.accepted == f.accepted && decide (g.req.item < f.req.item))
  else decide (g.accepted ≤ f.accepted) && s.shareUnit f g && g.rank.before s.time f.rank

/-- The core that made the request is frozen for it, and nothing keeps it from being served. -/
def State.stillWaits (s : State) (g : InFlight) : Bool :=
  let c := s.core g.req.item
  match c.freeze with
  | some f => c.run == .running && f.kind == .miss g.req.line && !s.blocked g.req.item (kindOf (opcodeOf f.word)) (g.req.line * 64)
  | none => false

/-- Another core's request is served first. -/
def State.outranked (s : State) (k : Nat) (kind : XKind) (pa : Nat) : Bool :=
  match s.flight.find? (·.req == s.reqFor 1 k pa kind.needsW) with
  | none => false
  | some f => s.flight.any (fun g => g.req.srcKind == 1 && g.req.item != k && s.goesBefore f g && s.stillWaits g)

/-! ### Errors of on-die memory (Table 24-2) -/

/-- What an access finds in the L2 or Grove cache (`row` 1) or Clearing slice (2) that serves it, by the syndromes of the line's eight
codewords: an uncorrectable error poisons a Clearing line and a dirty line in place, and a clean line is fetched again. -/
def State.sramRead (s : State) (row g pa : Nat) (syn : List Nat) : State :=
  let own := s.ownerOfPa pa
  match lineClass syn with
  | .clean => s
  | .corrected _ _ => s.event 1 0x035 g own pa row 0
  | _ =>
    if row = 1 ∧ s.mem.isDirty (lineOf pa) = false then s.event 2 0x036 g own pa row 0
    else (s.event 3 0x037 g own pa row 0).setMem (s.mem.setPoison (lineOf pa) true)

/-- A line enters L1D, four lines to a set (Table 12-1); the one that entered first gives way (log entry 14). -/
def Core.fillData (c : Core) (line : Nat) : Core :=
  let others := c.l1d.filter (· != line)
  let mine := others.filter (fun l => l % 256 == line % 256)
  let kept := match mine with
    | v :: _ => if 4 ≤ mine.length then others.filter (· != v) else others
    | [] => others
  { c with l1d := kept ++ [line] }

/-- Where a request that leaves the Stand is served, as the counters see it (Tables 23-3 and 23-4), and the DRAM read it needs. -/
def State.servedFrom (s : State) (k : Nat) (kind : XKind) (pa : Nat) (cls : Option Nat) (syn retry : List Nat) : State :=
  let line := lineOf pa
  let g := groveOf k
  let cmp := s.cmpOf k
  let s := s.ucount g 0x01 0 1 cmp cls
  let home (s : State) : State := match s.region pa with
    | .dram => s.ucount (s.homeFor line) 0x04 0 1 cmp cls
    | _ => s
  match s.mem.gtag g line with
  | some t =>
    let alone : Bool := t.st == CState.e || t.st == CState.m
    ((if kind.needsW && !alone then home (s.ucount g 0x02 0 1 cmp cls) else s).count k 0x23 1).sramRead 1 g pa syn
  | none =>
    let s := home (s.ucount g 0x02 0 1 cmp cls)
    if !s.uncached line then (s.count k 0x24 1).sramRead 1 g pa syn
    else
      let s := match s.region pa with
        | .dram => (s.openRow line).dramRead line syn retry false
        | _ => s
      s.count k 0x25 1

/-- A request is served: the Stand obtains what it needs, L1D its line, and the counters their events. A request for ownership clears
the reservations of other cores on the line (R156). -/
def State.serve (s : State) (k : Nat) (kind : XKind) (device : Bool) (pa : Nat) (syn retry : List Nat) : State :=
  let line := lineOf pa
  let q := s.reqFor 1 k pa kind.needsW
  let cls := (s.flight.find? (·.req == q)).map (·.cls)
  let rank := ((s.flight.find? (·.req == q)).map (fun f => (⟨f.cls, f.accepted, f.deadline, groveOf k⟩ : Rank))).getD ⟨2, s.time, 0, groveOf k⟩
  let leaving := s.leaves k kind pa
  let s := (s.complete q (s.localTime k)).1
  let s := if leaving then s.count k 0x22 1 else s
  match s.region pa with
  | .local_ => s
  | .control _ => s
  | .clearing g _ =>
    let s := s.count k 0x26 1
    let s := if kind == .store then s else (s.ucount g 0x0A 0 1 (s.cmpOf k) cls).sramRead 2 g pa syn
    if g = groveOf k then s else s.count k 0x24 1
  | r =>
    let s := if leaving then s.servedFrom k kind pa cls syn retry else s.sramRead 1 (groveOf k) pa syn
    let lost : Bool := match r with
      | .window => s.links.pair != 2
      | _ => s.links.isolated.contains (s.homeFor line)
    let owns : Bool := leaving && (kind.needsW || (s.mem.gtag (groveOf k) line).isNone)
    let bad : Bool := s.mem.poisoned line || lost
    let s := if lost then s
      else if kind.needsW then (s.clearRes k line).gainOwn (standOf k) line else s.gainShared (standOf k) line
    let s := if owns then s.takeCls (groveOf k) line rank else s
    let s := if bad then s.setMem (s.mem.setPoison line true) else s
    if (s.core k).ft || device || lost || kind == .store || kind == .sc then s else s.modCore k (fun c => c.fillData line)

/-! ## What an access waits for -/

inductive Need where
  | ready
  /-- The merging buffer holds part of it (R295), or its line for an atomic. -/
  | overlap (line : Nat)
  /-- A request beyond the core. -/
  | fetch (pa : Nat)
  deriving DecidableEq, Repr

def Core.mbHas (c : Core) (line : Nat) : Bool := c.mb.any (·.line == line)
/-- The bytes of an access that the merging buffer holds. -/
def Core.mbCount (c : Core) (pa n : Nat) : Nat := ((List.range n).filter (fun i => (c.mbByte (pa + i)).isSome)).length

/-- SC holds its reservation; in a replay its record decides (Table 20-2). -/
def State.scHolds (s : State) (k pa : Nat) : Bool :=
  if s.replaying k then !s.replayHas k 0x52
  else match (s.core k).reservation with
    | some r => r.line == lineOf pa
    | none => false

/-- What one part of an access waits for. In fixed-timing mode every access beyond the local memories takes its padded time, an SC that
fails too (R200); a line whose reservation another core defers is waited for, in the same Stand as well (R157). -/
def State.need1 (s : State) (k : Nat) (kind : XKind) (a : MemAcc) (p : Nat × Nat) : Need :=
  let c := s.core k
  let line := lineOf p.1
  if s.isLocal p.1 || a.got.contains line then .ready
  else if s.isControl p.1 then (if s.replaying k then .ready else .fetch p.1)
  else if a.device then .fetch p.1
  else match kind with
    | .store => if c.ft then .fetch p.1 else .ready
    | .load =>
      let n := c.mbCount p.1 p.2
      if n = p.2 then .ready
      else if n ≠ 0 then .overlap line
      else if !c.ft && c.l1d.contains line then .ready else .fetch p.1
    | .sc =>
      if !s.scHolds k p.1 then (if c.ft then .fetch p.1 else .ready)
      else if c.mbHas line then .overlap line
      else if !c.ft && s.mem.ownedBy (standOf k) line && !s.deferred k line then .ready else .fetch p.1
    | _ =>
      if c.mbHas line then .overlap line
      else if !c.ft && c.l1d.contains line && s.mem.ownedBy (standOf k) line && !s.deferred k line then .ready else .fetch p.1

/-- What the access waits for next. -/
def State.need (s : State) (k : Nat) (kind : XKind) (a : MemAcc) : List (Nat × Nat) → Need
  | [] => .ready
  | p :: r => match s.need1 k kind a p with
    | .ready => s.need k kind a r
    | n => n

/-! ## Reading -/

/-- A part of an access as the core reads it: local memory; a device; or memory, its own stores first (R88, R295). -/
def State.readPart (s : State) (k : Nat) (a : MemAcc) (p : Nat × Nat) : Nat :=
  let c := s.core k
  if s.isLocal p.1 then bytesVal c.localByte p.1 p.2
  else if a.device then s.mem.read p.1 p.2
  else bytesVal (fun pa => (c.mbByte pa).getD (s.mem.byte pa)) p.1 p.2

def State.readAcc (s : State) (k : Nat) (a : MemAcc) (size : Nat) : Nat :=
  match a.parts size with
  | [p] => s.readPart k a p
  | [p, q] => s.readPart k a p + 2 ^ 36 * s.readPart k a q
  | _ => 0

/-- A part is read from a poisoned line (Table 24-3). -/
def State.poisonPart (s : State) (k : Nat) (a : MemAcc) (p : Nat × Nat) : Bool :=
  !s.isLocal p.1 && !s.isControl p.1 && s.mem.poisoned (lineOf p.1) && (a.device || (s.core k).mbCount p.1 p.2 < p.2)

/-- The physical address of the poisoned part. A replay takes the machine check from its record (Table 20-2). -/
def State.poisonAt (s : State) (k : Nat) (a : MemAcc) (size : Nat) : Option Nat :=
  if s.replaying k then (if s.replayMce k 1 then some a.pa else none)
  else ((a.parts size).find? (s.poisonPart k a)).map (·.1)

/-- Machine check POISON_DATA, with its event. -/
def poisonTrap (k : Nat) (a : MemAcc) (pa : Nat) (s : State) : Res :=
  .trap (s.event 4 0x038 landing (s.cmpOf k) pa 0 0) ⟨12, 1, a.la, none⟩

/-- The lines an access reads or writes are marked (R338). -/
def State.markParts (s : State) (k : Nat) (a : MemAcc) (size : Nat) (isWrite : Bool) : State :=
  (a.parts size).foldl (fun s p => if s.isLocal p.1 || s.isControl p.1 then s else s.mftMark k (lineOf p.1) isWrite) s

/-- The base register's update (R146). -/
def baseUpd (w : Word) (newb : Option Nat) : Effs := match newb with
  | some n => wr (srcAOf w) (BitVec.ofNat 36 n) 1
  | none => []

/-- The value of a load in its registers (Table 6-2). -/
def loadEffs (w : Word) (v : Nat) : Effs :=
  let d := dstOf w
  match opcodeOf w with
  | 16 => wr d (BitVec.ofNat 36 (v % 512)) 3
  | 17 => wr d ((BitVec.ofNat 9 v).signExtend 36) 3
  | 18 => wr d (BitVec.ofNat 36 (v % 2 ^ 18)) 3
  | 19 => wr d ((BitVec.ofNat 18 v).signExtend 36) 3
  | 21 => wrPair d (BitVec.ofNat 72 v) 3
  | _ => wr d (BitVec.ofNat 36 v) 3

/-- A load: its value, or the register of the control space (R150), which a recording core journals. -/
def State.loadDo (s : State) (k : Nat) (w : Word) (a : MemAcc) : Res :=
  let size := sizeOf' (opcodeOf w)
  match s.region a.pa with
  | .control off =>
    let (s, v) := if s.replaying k then s.nondet k 0x43 0 []
      else
        let r := s.ctlRead (.core k) off
        r.1.nondet k 0x43 r.2.toNat []
    .done s (loadEffs w v ++ baseUpd w a.newb) .fall
  | _ =>
    match s.poisonAt k a size with
    | some pa => poisonTrap k a pa s
    | none => .done (s.markParts k a size false) (loadEffs w (s.readAcc k a size) ++ baseUpd w a.newb) .fall

/-- LDSG: the checks at order 8 follow the read (R226). -/
def State.ldsgDo (s : State) (k : Nat) (w : Word) (a : MemAcc) : Res :=
  match s.poisonAt k a 16 with
  | some pa => poisonTrap k a pa s
  | none =>
    let v := s.readAcc k a 16
    let s := s.markParts k a 16 false
    match segOfImage (fun i => BitVec.ofNat 36 (v / 2 ^ (36 * i))) with
    | none => .trap s ⟨3, 5, a.off, none⟩
    | some d =>
      if (s.core k).user && d.v && !d.user then .trap s ⟨3, 6, a.off, none⟩
      else .done s ((.sg (dstOf w) d, 4) :: baseUpd w a.newb) .fall

/-! ## Writing -/

/-- The bytes of a line that a write reaches. -/
def lineBytes (pa : Nat) (bs : List Byte) : SMap Byte := ((List.range bs.length).zip bs).map (fun (e : Nat × Byte) => (pa % 64 + e.1, e.2))

/-- A store joins the merging buffer (R292); none: no entry can take it. -/
def mbPut (mb : List MbEntry) (pa : Nat) (bs : List Byte) (chunk now : Nat) : Option (List MbEntry) :=
  let line := lineOf pa
  let mine : MbEntry → Bool := fun e => e.line == line && !e.draining && e.chunk == chunk
  let fill (e : MbEntry) : MbEntry :=
    let b := (lineBytes pa bs).foldl (fun m x => smSet m x.1 x.2) e.bytes
    { e with bytes := b, last := now, asked := e.asked || b.length == 64 }
  if mb.any mine then some (mbStart [] (mb.map (fun e => if mine e then fill e else e)))
  else if 16 ≤ mb.length ∨ 2 ≤ (mb.filter (·.line == line)).length then none
  else
    let fresh : MbEntry := { line := line, bytes := [], asked := false, draining := false, last := now, chunk := chunk }
    some (mbAsk (fun e => decide (e.line = line ∧ e.chunk ≠ chunk)) mb ++ [fill fresh])

/-- With 12 or more entries occupied the oldest that does not drain starts to, and so the next oldest, while 12 are occupied (R293). -/
def mbPress (mb : List MbEntry) : List MbEntry := if mb.length < 12 then mb else mbAsk (fun _ => true) mb

/-- A store is fed to the state hash (Table 20-3); an image is fed as two double-words. -/
def State.storeItem (s : State) (k pa size v : Nat) : State :=
  if size = 16 then
    (((s.mftItem k 0x200 pa).mftItem k 0x201 (v % 2 ^ 72)).mftItem k 0x200 (pa + 8)).mftItem k 0x201 (v / 2 ^ 72)
  else (s.mftItem k 0x200 pa).mftItem k 0x201 v

/-- A write performed in the Stand's L2 with ownership, or in the Clearing slice, at once (R335, R336; and every store in fixed-timing
mode, which has no merging buffer). -/
def State.writeNow (s : State) (k pa : Nat) (bs : List Byte) : State :=
  s.acceptEntry k { line := lineOf pa, bytes := lineBytes pa bs, asked := true, draining := true, last := 0, chunk := s.chunkOf k }

/-- The value a store stores. -/
def storeVal (c : Core) (w : Word) (a : MemAcc) : Nat :=
  if opcodeOf w = 28 then
    let d := c.seg (dstOf w)
    (List.range 4).foldl (fun v i => v + (d.image i).toNat * 2 ^ (36 * i)) 0
  else a.data.toNat % 512 ^ sizeOf' (opcodeOf w)

/-- The parts of a store with their bytes. -/
def storeParts (a : MemAcc) (size v : Nat) : List (Nat × List Byte) :=
  match a.hi with
  | none => [(a.pa, valBytes v size)]
  | some h => [(a.pa, valBytes v 4), (h, valBytes (v / 2 ^ 36) 4)]

/-- The parts that go through the merging buffer; none: one of them finds no entry. -/
def mbPutAll (chunk now : Nat) : List MbEntry → List (Nat × List Byte) → Option (List MbEntry)
  | mb, [] => some mb
  | mb, p :: r => match mbPut mb p.1 p.2 chunk now with
    | some mb => mbPutAll chunk now mb r
    | none => none

/-- A store (Table 6-2). -/
def State.storeDo (s : State) (k : Nat) (w : Word) (a : MemAcc) : Res :=
  let c := s.core k
  let size := sizeOf' (opcodeOf w)
  let v := storeVal c w a
  let es := baseUpd w a.newb
  match s.region a.pa with
  | .control off =>
    let s := s.storeItem k a.pa size v
    .done (if s.replaying k then s else s.ctlWrite (.core k) off (r32 v)) es .fall
  | _ =>
    let ps := storeParts a size v
    let direct : Nat × List Byte → Bool := fun p => s.isLocal p.1 || a.device || c.ft
    let put (s : State) : State := ps.foldl (fun s p =>
      if s.isLocal p.1 then s.modCore k (fun c => c.setLocal p.1 p.2)
      else if direct p then s.writeNow k p.1 p.2 else s) s
    match mbPutAll (s.chunkOf k) c.ccyc c.mb (ps.filter (fun p => !direct p)) with
    | none => .freeze (s.count k 0x27 1) .mbFull (some a)
    | some mb => .done (put ((s.storeItem k a.pa size v).modCore k (fun c => { c with mb := mbPress mb }))) es .fall

/-! ## Atomics (R153 to R155) -/

/-- LR: the word, and the reservation with its deferral (R157). -/
def State.lrDo (s : State) (k : Nat) (w : Word) (a : MemAcc) : Res :=
  match s.poisonAt k a 4 with
  | some pa => poisonTrap k a pa s
  | none =>
    let v := s.readAcc k a 4
    let s := (s.clearRes k (lineOf a.pa)).markParts k a 4 false
    let s := s.modCore k (fun c => { c with reservation := some { line := lineOf a.pa, deferUntil := c.ccyc + 64 } })
    .done s (wr (dstOf w) (BitVec.ofNat 36 v) 3) .fall

/-- The core's reservation is gone. -/
def State.noRes (s : State) (k : Nat) : State := s.modCore k (fun c => { c with reservation := none })

/-- SC: success stores and sets Z, failure clears Z and is journalled; either way the reservation goes. -/
def State.scDo (s : State) (k : Nat) (a : MemAcc) : Res :=
  if s.scHolds k a.pa then
    let v := a.data.toNat % 2 ^ 36
    .done (((s.storeItem k a.pa 4 v).writeNow k a.pa (valBytes v 4)).noRes k) [(.fl 0 true, 3)] .fall
  else .done (((s.count k 0x2D 1).nondet k 0x52 0 []).1.noRes k) [(.fl 0 false, 3)] .fall

/-- TAS: the word read, 1 written, Z set when the word was 0. -/
def State.tasDo (s : State) (k : Nat) (w : Word) (a : MemAcc) : Res :=
  match s.poisonAt k a 4 with
  | some pa => poisonTrap k a pa s
  | none =>
    let v := s.readAcc k a 4
    let s := (s.markParts k a 4 false).storeItem k a.pa 4 1
    .done ((s.writeNow k a.pa (valBytes 1 4)).noRes k) (wr (dstOf w) (BitVec.ofNat 36 v) 3 ++ [(.fl 0 (v == 0), 3)]) .fall

/-! ## Performing an access -/

/-- The access itself, once nothing is left to wait for. -/
def State.perform (s : State) (k : Nat) (w : Word) (a : MemAcc) : Res :=
  match kindOf (opcodeOf w) with
  | .store => s.storeDo k w a
  | .lr => s.lrDo k w a
  | .sc => s.scDo k a
  | .tas => s.tasDo k w a
  | _ => if opcodeOf w = 22 then s.ldsgDo k w a else s.loadDo k w a

/-- A load of normal memory misses L1D (Table 23-3). -/
def State.missCount (s : State) (k : Nat) (kind : XKind) (a : MemAcc) (pa : Nat) : State :=
  if kind.needsR && kind != .sc && !a.device && !(s.core k).ft && s.isCached pa then s.count k 0x20 1 else s

/-- The access is performed, or the pipeline freezes for what it needs (R187, R200, R295). -/
def State.attempt (s : State) (k : Nat) (w : Word) (a : MemAcc) : Res :=
  let kind := kindOf (opcodeOf w)
  match s.need k kind a (a.parts (sizeOf' (opcodeOf w))) with
  | .ready => s.perform k w a
  | .overlap line =>
    let s := s.modCore k (fun c => { c with mb := mbAsk (·.line == line) c.mb })
    .freeze (s.count k 0x28 1) (.overlap line) (some a)
  | .fetch pa =>
    let s := (s.missCount k kind a pa).offerFor k kind pa
    let s := if a.device then s.asDevice (s.reqFor 1 k pa kind.needsW) else s
    .freeze s (.miss (lineOf pa)) (some { a with since := (s.core k).ccyc })

/-- The access waits at issue until earlier stores are visible (R92, Table 3-10). -/
def State.waitsEmpty (s : State) (w : Word) (a : MemAcc) : Bool :=
  a.device || s.isControl a.pa ||
    (match kindOf (opcodeOf w) with
     | .tas => true
     | .lr => orderBit w
     | .sc => orderBit w
     | _ => false)

/-- The body of every load, store, segment-register transfer and atomic (R146). -/
def memBody (k : Nat) (w : Word) (s : State) : Res :=
  match s.resolve k w with
  | (s, .fault e) => .trap s e
  | (s, .walk la) => .freeze s (.walk la (s.core k).ccyc) none
  | (s, .ok a) =>
    let s := if (kindOf (opcodeOf w)).atomic || s.waitsEmpty w a then s.modCore k Core.drainAll else s
    if s.waitsEmpty w a && !(s.core k).mb.isEmpty then .hold s else s.attempt k w a

/-- A memory instruction of one opcode. -/
def memOp (n : Nat) (x : At) (w : Word) (s : State) : Out := s.issue x w (opcodeOf w == n) (memBody x.core w)

/-! ## The instructions -/

/-- LDB. -/
def execLdb (x : At) (w : Word) (s : State) : Out := memOp 16 x w s
/-- LDBS. -/
def execLdbs (x : At) (w : Word) (s : State) : Out := memOp 17 x w s
/-- LDH. -/
def execLdh (x : At) (w : Word) (s : State) : Out := memOp 18 x w s
/-- LDHS. -/
def execLdhs (x : At) (w : Word) (s : State) : Out := memOp 19 x w s
/-- LDW. -/
def execLdw (x : At) (w : Word) (s : State) : Out := memOp 20 x w s
/-- LDD. -/
def execLdd (x : At) (w : Word) (s : State) : Out := memOp 21 x w s
/-- LDSG (R151). -/
def execLdsg (x : At) (w : Word) (s : State) : Out := memOp 22 x w s
/-- STB. -/
def execStb (x : At) (w : Word) (s : State) : Out := memOp 24 x w s
/-- STH. -/
def execSth (x : At) (w : Word) (s : State) : Out := memOp 25 x w s
/-- STW. -/
def execStw (x : At) (w : Word) (s : State) : Out := memOp 26 x w s
/-- STD. -/
def execStd (x : At) (w : Word) (s : State) : Out := memOp 27 x w s
/-- STSG (R151). -/
def execStsg (x : At) (w : Word) (s : State) : Out := memOp 28 x w s
/-- LR (R153). -/
def execLr (x : At) (w : Word) (s : State) : Out := memOp 29 x w s
/-- SC (R154). -/
def execSc (x : At) (w : Word) (s : State) : Out := memOp 30 x w s
/-- TAS (R155). -/
def execTas (x : At) (w : Word) (s : State) : Out := memOp 31 x w s

/-! ## PREF (R152) -/

/-- The miss slots in use when a group issues (R188): outstanding PREF requests, draining entries, and a fetch that waits. -/
def Core.missSlots (c : Core) : Nat := c.prefs.length + (c.mb.filter (·.draining)).length + c.fwait.isSome.toNat

/-- PREF is dropped, or becomes a request with the translation settings of its issue; LOAD_MISS_FILL serves it. -/
def State.prefDo (s : State) (k : Nat) (w : Word) : State :=
  let c := s.core k
  let own : Bool := dstOf w % 2 == 1
  let kind : XKind := if own then .prefOwn else .pref
  let drop := s.count k 0x2E 1
  if c.ft || 32 ≤ c.missSlots then drop
  else match c.effAddr w kind.needsR kind.needsW with
    | .error _ => drop
    | .ok e => s.modCore k (fun c => { c with prefs := c.prefs ++ [⟨e.la, own, c.tr, c.user, c.ptbase, c.asid⟩] })

/-- PREF. -/
def execPref (x : At) (w : Word) (s : State) : Out :=
  s.issue x w (opcodeOf w == 23) fun s =>
    .done (s.prefDo x.core w) (baseUpd w ((s.core x.core).prefBase w)) .fall

/-! ## CMO (R173) -/

/-- The body of a CMO: 1 clean, 2 invalidate, 3 both. -/
def cmoBody (k : Nat) (w : Word) (s : State) : Res :=
  let op := argOf w % 4
  if op ≠ 1 ∧ (s.core k).user then .trap s (privExc 1)
  else
    let la := ((s.core k).pairA w).toNat % 2 ^ 48
    match s.access k (if op = 1 then .cmoClean else .cmoInv) 1 la with
    | (s, .fault e, n) => .trap (s.freezeFor k n) e
    | (s, .walk la, n) => let s := s.freezeFor k n; .freeze s (.walk la (s.core k).ccyc) none
    | (s, .ok x, n) =>
      let s := (s.freezeFor k n).modCore k Core.drainAll
      let c := s.core k
      if s.isDevice x || !s.isCached x.pa then .done s [] .fall
      else if 16 ≤ c.mb.length then .freeze (s.count k 0x27 1) .mbFull none
      else if c.mbHas (lineOf x.pa) || !s.homeFree (lineOf x.pa) then .hold (s.modCore k (fun c => { c with held := true }))
      else .done (s.cmoLine op (lineOf x.pa)) [] .fall

/-- CMO clean. -/
def execCmoClean (x : At) (w : Word) (s : State) : Out := s.issue x w (isSys w 11 && argOf w % 4 == 1) (cmoBody x.core w)
/-- CMO invalidate. -/
def execCmoInvalidate (x : At) (w : Word) (s : State) : Out := s.issue x w (isSys w 11 && argOf w % 4 == 2) (cmoBody x.core w)
/-- CMO clean and invalidate. -/
def execCmoCleanAndInvalidate (x : At) (w : Word) (s : State) : Out :=
  s.issue x w (isSys w 11 && argOf w % 4 == 3) (cmoBody x.core w)

/-! ## The end of a freeze -/

/-- The instruction the core was frozen for goes on. -/
def State.thaw (s : State) (k : Nat) (f : Frozen) (body : State → Res) : State :=
  State.finish k f.slot f.word (body (s.modCore k (fun c => { c with freeze := none })))

/-! ### How long (Tables 7-4, 7-7 and 12-2) -/

/-- Every module of the package's fabric is up: the bounds of Table 7-4 hold from acceptance. With one down or retraining a delivery may be
late (R368, R370), and nothing bounds its time here. -/
def State.fabricWhole (s : State) : Bool := (List.range 36).all s.ferryUp

/-- A number of core cycles within its bounds. -/
def State.within (s : State) (lo hi n : Nat) : Nat := max lo (if s.fabricWhole then min n hi else n)

/-- The least and the greatest core cycles of a request by the level that serves it (Table 7-4). -/
def State.rowTimes (s : State) (k : Nat) (kind : XKind) (device : Bool) (pa : Nat) : Nat × Nat :=
  match s.region pa with
  | .local_ => (0, 0)
  | .control _ => (0, s.clk 3000)
  | .none => (0, 0)
  | .window => (0, s.clk 5200)
  | .clearing g _ => if device then (0, s.clk 3000) else if g = groveOf k then (28, s.clk 120) else (140, s.clk 900)
  | .dram =>
    if device then (0, s.clk 3000)
    else if !s.leaves k kind pa then (12, s.clk 48)
    else match s.mem.gtag (groveOf k) (lineOf pa) with
      | some t => if !kind.needsW || t.st == CState.e || t.st == CState.m then (28, s.clk 120) else (140, s.clk 900)
      | none => if s.uncached (lineOf pa) then (170, s.clk 2200) else (140, s.clk 900)

/-- `n` core cycles more pass for a request: freeze cycles, or the bubbles of a fetch. In fixed-timing mode at least until its padded
time since `since` is over, and what goes beyond is counted and recorded (R200, R201, R206). -/
def State.stall (s : State) (k n pad since : Nat) (bubbles : Bool) : State :=
  let pass (s : State) (m : Nat) : State := if bubbles then (s.cycles k 0x03 m).advance k m else s.freezeFor k m
  let c := s.core k
  if !c.ft then pass s n
  else
    let past := c.ccyc - since
    let s := pass s (max n (pad - past))
    if past + n ≤ pad then s
    else ((s.count k 0x32 1).count k 0x33 (past + n - pad)).event 8 0x061 landing (s.cmpOf k) 0 k 0

/-- The freeze of a request for data lasts `n` core cycles more. -/
def State.missTime (s : State) (k : Nat) (kind : XKind) (a : MemAcc) (pa n : Nat) : State :=
  let b := s.rowTimes k kind a.device pa
  s.stall k (if (s.core k).ft then n else s.within b.1 b.2 n) (s.padded k a.device pa) a.since false

/-! ### Table walks (R252, R253, R269) -/

/-- The reads of a walk are offered to the core's shaper as its other reads are (R196); whether one of them is not served yet. -/
def State.readsOffered (s : State) (k : Nat) (eas : List Nat) : State × Bool :=
  let s := eas.foldl (fun s ea => s.offerFor k .fetch ea) s
  let waits := eas.any (s.blocked k .fetch)
  (if waits then eas.foldl (fun s ea => s.await k .fetch ea) s else s, waits)

/-- Core cycles of the reads: each within its row of Table 7-4, or padded (Table 7-7). -/
def State.readsPad (s : State) (k : Nat) (eas : List Nat) : Nat := (eas.map (s.padded k false)).foldl (· + ·) 0
def State.readsTime (s : State) (k : Nat) (eas : List Nat) (n : Nat) : Nat :=
  if (s.core k).ft then n
  else s.within ((eas.map (fun ea => (s.rowTimes k .fetch false ea).1)).foldl (· + ·) 0)
                ((eas.map (fun ea => (s.rowTimes k .fetch false ea).2)).foldl (· + ·) 0) n

/-- The table lines come through the Stand's L2, one after the other; each read of DRAM has eight syndromes of its own. -/
def State.readsServed (s : State) (k : Nat) (syn retry : List Nat) : List Nat → State
  | [] => s
  | ea :: rest => (s.serve k .fetch true ea (syn.take 8) (retry.take 8)).readsServed k (syn.drop 8) (retry.drop 8) rest

/-- The body of the instruction for which a core is frozen. -/
def frozenBody (k : Nat) (w : Word) : State → Res := if opcodeOf w = 40 then cmoBody k w else memBody k w

/-- The kind of access of a memory instruction or a CMO. -/
def wordKind (w : Word) : XKind :=
  if opcodeOf w = 40 then (if argOf w % 4 = 1 then .cmoClean else .cmoInv) else kindOf (opcodeOf w)

/-- The walk of a frozen access: its table reads are served after `n` core cycles, and it is made on what they return. A fault is
taken; otherwise the instruction goes on with the buffers filled. -/
def State.walkServed (s : State) (k : Nat) (f : Frozen) (la since n : Nat) (syn retry : List Nat) : State :=
  let x := s.coreCtx k
  let eas := (s.walk x la).2
  let (s, waits) := s.readsOffered k eas
  if waits then s
  else
    let s := (s.stall k (s.readsTime k eas n) (s.readsPad k eas) since false).readsServed k syn retry eas
    match s.walkFill k x (wordKind f.word) la with
    | (s, .error (code, sub)) =>
      (if code = 6 then s.purge k la else s).thaw k f (fun s => .trap s ⟨code, sub, la, none⟩)
    | (s, .ok _) => s.thaw k f (frozenBody k f.word)

/-! ### Data -/

/-- The request for a line is served after `n` core cycles. An SC whose reservation is gone makes no request, and takes its time alone. -/
def State.missServed (s : State) (k : Nat) (f : Frozen) (a : MemAcc) (line n : Nat) (syn retry : List Nat) : State :=
  let kind := kindOf (opcodeOf f.word)
  let pa := ((a.parts (sizeOf' (opcodeOf f.word))).find? (fun p => lineOf p.1 == line)).elim a.pa (·.1)
  let go (s : State) : State := s.thaw k f (fun s => s.attempt k f.word { a with got := line :: a.got })
  if kind = .sc ∧ s.scHolds k pa = false then go ((s.missTime k kind a pa n).withdraw 1 k)
  else
    let s := s.offerFor k kind pa
    if s.blocked k kind pa then s.await k kind pa
    else if s.outranked k kind pa then s
    else (go ((s.missTime k kind a pa n).serve k kind a.device pa syn retry)).finishFill k line

/-- The entries that a load overlaps have drained: the load is served from the Stand's L2 or the Clearing slice (R295), or asks again for
a line that has left the Stand meanwhile. The greatest time of Table 12-2 is that of the row with two entries. -/
def State.overlapServed (s : State) (k : Nat) (f : Frozen) (a : MemAcc) (line n : Nat) : State :=
  let hi := match s.region (line * 64) with
    | .clearing g _ => if g = groveOf k then 360 else 2700
    | _ => 4448
  let s := s.freezeFor k (s.within 14 (s.clk hi) n)
  if s.isCached (line * 64) && s.leaves k (kindOf (opcodeOf f.word)) (line * 64) then s.thaw k f (fun s => s.attempt k f.word a)
  else
    let s := s.serve k (kindOf (opcodeOf f.word)) a.device (line * 64) [] []
    s.thaw k f (fun s => s.attempt k f.word { a with got := line :: a.got })

/-- The oldest outstanding PREF is served, its walk first; it is dropped when its translation faults or it names device memory, the
control space or a Clearing. No time of the core passes (R152). -/
def State.prefServed (s : State) (k : Nat) (syn retry : List Nat) : State :=
  match (s.core k).prefs with
  | [] => s
  | p :: rest =>
    let x : XCtx := { s.coreCtx k with tr := p.tr, user := p.user, root := (p.ptbase.extractLsb' 0 30).toNat,
                                       asid := (p.asid.extractLsb' 0 12).toNat }
    let kind : XKind := if p.own then .prefOwn else .pref
    let done (s : State) : State := s.modCore k (fun c => { c with prefs := rest })
    let dropped (s : State) : State := (done s).count k 0x2E 1
    match s.translateIn k x kind p.la with
    | (t, .fault _ _, _) => dropped t
    | (t, .walk, _) =>
      let eas := (s.walk x p.la).2
      let (t, waits) := t.readsOffered k eas
      if waits then t
      else match (t.readsServed k syn retry eas).walkFill k x kind p.la with
        | (t, .error _) => dropped t
        | (t, .ok _) => t
    | (t, .ok r, _) =>
      if r.device || !s.isCached r.pa then dropped t
      else if !t.leaves k kind r.pa then done t
      else
        let u := t.offerFor k kind r.pa
        if u.blocked k kind r.pa then u.await k kind r.pa else done (u.serve k kind true r.pa syn retry)

/-- A missing access is served, or the merging buffer has drained as far as the frozen instruction needs, and the freeze ends; or (`none`)
an outstanding PREF is served. `syn` and `retry` are the syndromes of the DRAM reads and of their retries. -/
def execLoadMissFill (core : Nat) (cycles : Option Nat) (syn retry : List Nat) (s : State) : Out :=
  let c := s.core core
  match cycles, c.freeze with
  | none, _ => .next (s.prefServed core syn retry)
  | some _, none => .next s
  | some cycles, some f =>
    if c.run ≠ .running then .next s else
    match f.kind, f.acc with
    | .walk la since, _ => .next (s.walkServed core f la since cycles syn retry)
    | .miss line, some a => .next (s.missServed core f a line cycles syn retry)
    | .overlap line, some a => if c.mbHas line then .next s else .next (s.overlapServed core f a line cycles)
    | .mbFull, some a =>
      if 16 ≤ c.mb.length then .next s
      else .next ((s.freezeFor core (s.within 1 (s.clk 2200) cycles)).thaw core f (fun s => s.attempt core f.word a))
    | .mbFull, none =>
      if 16 ≤ c.mb.length then .next s
      else .next ((s.freezeFor core (s.within 1 (s.clk 2200) cycles)).thaw core f (cmoBody core f.word))
    | _, _ => .next s

/-! ## Fetch (R189, R201, R263) -/

/-- What a waiting fetch needs arrives after `n` bubbles: the table reads of its walk, or its line. A fault is taken when nothing comes
first by then. -/
def State.fetchServed (s : State) (k la since n : Nat) (syn retry : List Nat) : State :=
  let x := s.coreCtx k
  let on (s : State) : State := s.modCore k (fun c => { c with fwait := none })
  match (s.translateIn k x .fetch la).2.1 with
  | .fault code sub => (on (if code = 6 then s.purge k la else s)).preFault k .single ⟨code, sub, la, none⟩ 0
  | .walk =>
    let eas := (s.walk x la).2
    let (s, waits) := s.readsOffered k eas
    if waits then s
    else
      let s := (s.stall k (s.readsTime k eas n) (s.readsPad k eas) since true).readsServed k syn retry eas
      match s.walkFill k x .fetch la with
      | (s, .error (code, sub)) => (on (if code = 6 then s.purge k la else s)).preFault k .single ⟨code, sub, la, none⟩ 0
      | (s, .ok _) => on s
  | .ok p =>
    let s := s.offerFor k .fetch p.pa
    if s.blocked k .fetch p.pa then s.await k .fetch p.pa
    else
      let ft := (s.core k).ft
      let b := s.rowTimes k .fetch p.device p.pa
      let s := s.stall k (if ft then n else s.within 0 b.2 n) (s.padded k p.device p.pa) since true
      let s := (s.serve k .fetch true p.pa syn retry).count k 0x21 1
      on (s.modCore k (fun c => (if ft then c else c.fillFetch (lineOf p.pa)).bufferLine la (lineOf p.pa)))

/-- A line comes ahead of need: the line after the one being fetched, or one of a mispredicted path. Its walk is speculative, and it costs
no bubbles, whether or not the core is frozen (R188, R189, R263). In fixed-timing mode no line is fetched ahead (R201). -/
def State.fetchAhead (s : State) (k la : Nat) (syn retry : List Nat) : State :=
  if (s.core k).ft then s
  else
    let x := s.coreCtx k
    let walked : Option (State × Option Xl) := match s.translateIn k x .fetchAhead la with
      | (_, .fault _ _, _) => none
      | (t, .ok p, _) => some (t, some p)
      | (t, .walk, _) =>
        let eas := (s.walk x la).2
        let (t, waits) := t.readsOffered k eas
        if waits then some (t, none)
        else match (t.readsServed k syn retry eas).walkFill k x .fetchAhead la with
          | (t, .error _) => some (t, none)
          | (t, .ok p) => some (t, some p)
    match walked with
    | none => s
    | some (t, none) => t
    | some (t, some p) =>
      if p.device || !t.isCached p.pa || (t.core k).l1i.contains (lineOf p.pa) then t
      else
        let t := t.offerFor k .fetch p.pa
        if t.blocked k .fetch p.pa then t.await k .fetch p.pa
        else (t.serve k .fetch true p.pa syn retry).modCore k (fun c =>
          let c := c.fillFetch (lineOf p.pa)
          match c.lbuf with
          | l :: _ => if l.la + 1 = la / 64 then { c with lbuf := [l, ⟨la / 64, lineOf p.pa, c.tr, c.user⟩] } else c
          | [] => c)

/-- A line of the linear address arrives: for the fetch that waits, or ahead of need. -/
def execFetchLineFill (core la : Nat) (fill : Fill) (s : State) : Out :=
  let c := s.core core
  if c.run ≠ .running ∨ c.ftChange.isSome = true then .next s
  else match c.fwait with
    | some (a, since) =>
      if a / 64 = la / 64 then .next (s.fetchServed core a since fill.cycles fill.reads.syn fill.reads.retry)
      else .next (s.fetchAhead core la fill.reads.syn fill.reads.retry)
    | none => .next (s.fetchAhead core la fill.reads.syn fill.reads.retry)

/-! ## The merging buffer's drains -/

/-- 32 core cycles have passed since an entry last merged a store: it is asked to drain (R293). -/
def execMbIdleTimeout (core line : Nat) (s : State) : Out :=
  match (s.core core).mb.find? (fun e => e.line == line && !e.asked) with
  | some e =>
    let s := s.passTo core (e.last + 32)
    if (s.core core).ccyc < e.last + 32 then .next s
    else .next (s.modCore core (fun c => { c with mb := mbAsk (fun d => d == e) c.mb }))
  | none => .next s

/-- The core issues nothing for want of a drain: later instructions wait, or the next group does (Table 7-3). -/
def Core.waitsDrain (c : Core) : Bool :=
  c.run == .running && !c.dbg && c.freeze.isNone && c.pair.isNone && (c.held || c.holdMb || c.ftChange.isSome)

/-- The oldest draining entry of a line is accepted (R294), once its request for ownership is (R355). A core that waits for it takes
`cycles` bubbles, within the row of Table 7-4. -/
def execDrainAccept (core line cycles : Nat) (reads : Reads) (s : State) : Out :=
  match (s.core core).mb.find? (fun e => e.line == line && e.draining) with
  | some e =>
    let pa := line * 64
    let s := s.offerFor core .store pa
    if s.blocked core .store pa then .next (s.await core .store pa)
    else
      let hi := (s.rowTimes core .store false pa).2
      let s := if (s.core core).waitsDrain then s.passCycles core (s.within 1 hi cycles) else s
      let s := s.serve core .store false pa reads.syn reads.retry
      .next (((s.acceptEntry core e).modCore core (fun c => { c with mb := mbLeave c.mb e })).finishDrain core line)
  | none => .next s

end Sys2Proof.Machine
end

