-- ==== Sys2Proof/Machine/Registers.lean ====
section
/-!
DEFINITION. Accesses to control registers (R7 to R10, R286): by a core, by the host through BAR0 (R458, Table 18-7), and the reads
with effects of their own (R585).
-/
namespace Sys2Proof.Machine

/-! ## BAR0 of a data function (Table 18-7) -/

/-- A dword of a function's pending-bit array. -/
def State.pbaDw (s : State) (fn i : Nat) : Nat :=
  (List.range 32).foldl (fun a b => if (smGet [] s.hep.pend fn).contains (32 * i + b) then a + 2 ^ b else a) 0

/-- F_STATE of data function v. -/
def State.fState (s : State) (v : Nat) : Nat :=
  match s.fOwner v with
  | some n => 2 ^ 31 + (if s.cmpState n = .running then 2 ^ 30 else 0) + n * 2 ^ 25
  | none => 0

/-- A read of BAR0 of data function v. -/
def State.fRead (s : State) (v off : Nat) : Nat :=
  if off < 0x8000 then s.msixDw (1 + v) (off / 4)
  else if off < 0x8100 then s.pbaDw (1 + v) ((off - 0x8000) / 4)
  else if off = 0xC000 then s.fState v
  else if off = 0xC004 then (s.ctlGet (o_hepHdb v)).toNat
  else if off = 0xC008 then (if v = 0 then s.hep.fint else 0)
  else 0

/-! ## BAR0 of any function -/

/-- A read of BAR0: of PF0 the control space, with the MSI-X table and its pending bits in frames 0x1E and 0x1F (R470). -/
def State.bar0Read (s : State) (fn off : Nat) : State × Nat :=
  if fn ≠ 0 then (s, s.fRead (fn - 1) off)
  else if off / 0x10000 = 0x1E then (s, if off % 0x10000 < 0x8000 then s.msixDw 0 (off % 0x10000 / 4) else 0)
  else if off / 0x10000 = 0x1F then (s, if off % 0x10000 < 0x100 then s.pbaDw 0 (off % 0x10000 / 4) else 0)
  else
    let r := s.ctlRead .host off
    (r.1, r.2.toNat)

def State.bar0Write (s : State) (fn off v : Nat) : State :=
  if fn ≠ 0 then s.fnWrite (fn - 1) off v
  else if off / 0x10000 = 0x1E then (if off % 0x10000 < 0x8000 then s.msixWrite 0 (off % 0x10000 / 4) v else s)
  else if off / 0x10000 = 0x1F then s
  else s.ctlWrite .host off (r32 v)

/-- The function answers at BAR0: memory space enabled, not in D3hot or in function-level reset (R472), and for PF0 the frame runs (R453, R458, R540). -/
def State.bar0Open (s : State) (fn off : Nat) : Bool := s.mse fn && !s.inFlr fn && (fn != 0 || s.frameUp off)

/-- A host request to BAR0 of a function: `dws` is its length, `be` its byte enables; a write carries its value (R458). -/
def execHostBar0Access (fn off dws be : Nat) (write : Option Nat) (err : TlpErr) (s : State) : Out :=
  let off := off % (if fn = 0 then 0x1000000 else 0x10000)
  let good : Bool := dws == 1 && be == 15 && off % 4 == 0
  if 33 ≤ fn ∨ !fbit (s.ctlGet o_hepStatus) 30 then .next s
  else if s.seen fn err ≠ .none then .next (s.tlpError fn err)
  else match write with
    | none =>
      let (s, turn) := s.readTurn
      if !turn then .next s
      else if !s.bar0Open fn off then .next ((s.aer fn true 20).emit (.completion 1 [] false))
      else if !good then .next (((s.cfgOne fn 0x04 27).aer fn true 15).emit (.completion 4 [] false))
      else
        let r := s.bar0Read fn off
        .next (r.1.emit (.completion 0 (valOct r.2 4) false))
    | some v =>
      if !s.credited then .next s
      else if !s.bar0Open fn off then .next (s.closedWrite fn)
      else if !good then .next (s.hepCount 2 fn)
      else .next (s.bar0Write fn off v)

/-! ## One register -/

/-- A read of a register by a sender that reaches it; the host receives the value. -/
def State.regRead (s : State) (who : Sender) (off : Nat) : State :=
  let off := off % 0x1000000 / 4 * 4
  if !s.reach who off then s
  else
    let r := s.ctlRead who off
    match who with
    | .host => r.1.emit (.completion 0 (valOct r.2.toNat 4) false)
    | .core _ => r.1

/-- A read of a register with fields that a read clears (R10). -/
def execRcRead (who : Sender) (off : Nat) (s : State) : Out := .next (s.regRead who off)
/-- A read of UCNTH of an uncore counter (R585). -/
def execUcnthRead (who : Sender) (frame k : Nat) (s : State) : Out :=
  if frame < 12 ∧ k < 8 then .next (s.regRead who (o_pmuUcnth frame k)) else .next s
/-- A read of UCNTL of an uncore counter (R585). -/
def execUcntlRead (who : Sender) (frame k : Nat) (s : State) : Out :=
  if frame < 12 ∧ k < 8 then .next (s.regRead who (o_pmuUcntl frame k)) else .next s
/-- A write of a register (R9, R287). -/
def execRegisterWrite (who : Sender) (off : Nat) (value : BitVec 32) (s : State) : Out :=
  let off := off % 0x1000000 / 4 * 4
  if s.reach who off then .next (s.ctlWrite who off value) else .next s

end Sys2Proof.Machine
end

