-- ==== Sys2Proof/Machine/Dispatch.lean ====
section
/-!
DEFINITION. The effect of each command on everything but the queue: one arm per constructor of Instr.
-/
namespace Sys2Proof.Machine
open Sys2Proof

def exec (i : Instr) (s : State) : Host.Outcome State Fault Refusal :=
  match i with
  | .add x w => Sys2Proof.Machine.execAdd x w s
  | .sub x w => Sys2Proof.Machine.execSub x w s
  | .addc x w => Sys2Proof.Machine.execAddc x w s
  | .subc x w => Sys2Proof.Machine.execSubc x w s
  | .and x w => Sys2Proof.Machine.execAnd x w s
  | .or x w => Sys2Proof.Machine.execOr x w s
  | .xor x w => Sys2Proof.Machine.execXor x w s
  | .andn x w => Sys2Proof.Machine.execAndn x w s
  | .shl x w => Sys2Proof.Machine.execShl x w s
  | .shr x w => Sys2Proof.Machine.execShr x w s
  | .sar x w => Sys2Proof.Machine.execSar x w s
  | .rol x w => Sys2Proof.Machine.execRol x w s
  | .shli x w => Sys2Proof.Machine.execShli x w s
  | .shri x w => Sys2Proof.Machine.execShri x w s
  | .sari x w => Sys2Proof.Machine.execSari x w s
  | .roli x w => Sys2Proof.Machine.execRoli x w s
  | .cmp x w => Sys2Proof.Machine.execCmp x w s
  | .slt x w => Sys2Proof.Machine.execSlt x w s
  | .sltu x w => Sys2Proof.Machine.execSltu x w s
  | .min x w => Sys2Proof.Machine.execMin x w s
  | .max x w => Sys2Proof.Machine.execMax x w s
  | .minu x w => Sys2Proof.Machine.execMinu x w s
  | .maxu x w => Sys2Proof.Machine.execMaxu x w s
  | .abs x w => Sys2Proof.Machine.execAbs x w s
  | .neg x w => Sys2Proof.Machine.execNeg x w s
  | .adds x w => Sys2Proof.Machine.execAdds x w s
  | .subs x w => Sys2Proof.Machine.execSubs x w s
  | .clz x w => Sys2Proof.Machine.execClz x w s
  | .popc x w => Sys2Proof.Machine.execPopc x w s
  | .rdrc x w => Sys2Proof.Machine.execRdrc x w s
  | .rdfl x w => Sys2Proof.Machine.execRdfl x w s
  | .wrrc x w => Sys2Proof.Machine.execWrrc x w s
  | .wrfl x w => Sys2Proof.Machine.execWrfl x w s
  | .addi x w => Sys2Proof.Machine.execAddi x w s
  | .andi x w => Sys2Proof.Machine.execAndi x w s
  | .ori x w => Sys2Proof.Machine.execOri x w s
  | .xori x w => Sys2Proof.Machine.execXori x w s
  | .ldhi x w => Sys2Proof.Machine.execLdhi x w s
  | .cmpi x w => Sys2Proof.Machine.execCmpi x w s
  | .slti x w => Sys2Proof.Machine.execSlti x w s
  | .sltiu x w => Sys2Proof.Machine.execSltiu x w s
  | .addd x w => Sys2Proof.Machine.execAddd x w s
  | .subd x w => Sys2Proof.Machine.execSubd x w s
  | .addcd x w => Sys2Proof.Machine.execAddcd x w s
  | .subcd x w => Sys2Proof.Machine.execSubcd x w s
  | .shld x w => Sys2Proof.Machine.execShld x w s
  | .shrd x w => Sys2Proof.Machine.execShrd x w s
  | .sard x w => Sys2Proof.Machine.execSard x w s
  | .cmpd x w => Sys2Proof.Machine.execCmpd x w s
  | .movd x w => Sys2Proof.Machine.execMovd x w s
  | .negd x w => Sys2Proof.Machine.execNegd x w s
  | .packh x w => Sys2Proof.Machine.execPackh x w s
  | .exth x w => Sys2Proof.Machine.execExth x w s
  | .exths x w => Sys2Proof.Machine.execExths x w s
  | .extb x w => Sys2Proof.Machine.execExtb x w s
  | .extbs x w => Sys2Proof.Machine.execExtbs x w s
  | .insh x w => Sys2Proof.Machine.execInsh x w s
  | .insb x w => Sys2Proof.Machine.execInsb x w s
  | .mul x w => Sys2Proof.Machine.execMul x w s
  | .mulh x w => Sys2Proof.Machine.execMulh x w s
  | .mulhu x w => Sys2Proof.Machine.execMulhu x w s
  | .muld x w => Sys2Proof.Machine.execMuld x w s
  | .muldu x w => Sys2Proof.Machine.execMuldu x w s
  | .mulq x w => Sys2Proof.Machine.execMulq x w s
  | .div x w => Sys2Proof.Machine.execDiv x w s
  | .divu x w => Sys2Proof.Machine.execDivu x w s
  | .rem x w => Sys2Proof.Machine.execRem x w s
  | .remu x w => Sys2Proof.Machine.execRemu x w s
  | .divd x w => Sys2Proof.Machine.execDivd x w s
  | .divdu x w => Sys2Proof.Machine.execDivdu x w s
  | .remd x w => Sys2Proof.Machine.execRemd x w s
  | .remdu x w => Sys2Proof.Machine.execRemdu x w s
  | .ladd x w => Sys2Proof.Machine.execLadd x w s
  | .lsub x w => Sys2Proof.Machine.execLsub x w s
  | .ladds x w => Sys2Proof.Machine.execLadds x w s
  | .lsubs x w => Sys2Proof.Machine.execLsubs x w s
  | .lmul x w => Sys2Proof.Machine.execLmul x w s
  | .lmax x w => Sys2Proof.Machine.execLmax x w s
  | .lmin x w => Sys2Proof.Machine.execLmin x w s
  | .labs x w => Sys2Proof.Machine.execLabs x w s
  | .lshl x w => Sys2Proof.Machine.execLshl x w s
  | .lsar x w => Sys2Proof.Machine.execLsar x w s
  | .lcmpeq x w => Sys2Proof.Machine.execLcmpeq x w s
  | .lcmplt x w => Sys2Proof.Machine.execLcmplt x w s
  | .macH4 x w => Sys2Proof.Machine.execMacH4 x w s
  | .msuH4 x w => Sys2Proof.Machine.execMsuH4 x w s
  | .maczH4 x w => Sys2Proof.Machine.execMaczH4 x w s
  | .macW x w => Sys2Proof.Machine.execMacW x w s
  | .msuW x w => Sys2Proof.Machine.execMsuW x w s
  | .maczW x w => Sys2Proof.Machine.execMaczW x w s
  | .acclr x w => Sys2Proof.Machine.execAcclr x w s
  | .acwr x w => Sys2Proof.Machine.execAcwr x w s
  | .acadd x w => Sys2Proof.Machine.execAcadd x w s
  | .acsar x w => Sys2Proof.Machine.execAcsar x w s
  | .acrd x w => Sys2Proof.Machine.execAcrd x w s
  | .acrds x w => Sys2Proof.Machine.execAcrds x w s
  | .acrdd x w => Sys2Proof.Machine.execAcrdd x w s
  | .acrdx x w => Sys2Proof.Machine.execAcrdx x w s
  | .acwrx x w => Sys2Proof.Machine.execAcwrx x w s
  | .fadd x w => Sys2Proof.Machine.execFadd x w s
  | .fsub x w => Sys2Proof.Machine.execFsub x w s
  | .fmul x w => Sys2Proof.Machine.execFmul x w s
  | .fdiv x w => Sys2Proof.Machine.execFdiv x w s
  | .fsqrt x w => Sys2Proof.Machine.execFsqrt x w s
  | .fma x w => Sys2Proof.Machine.execFma x w s
  | .fms x w => Sys2Proof.Machine.execFms x w s
  | .fnma x w => Sys2Proof.Machine.execFnma x w s
  | .fmin x w => Sys2Proof.Machine.execFmin x w s
  | .fmax x w => Sys2Proof.Machine.execFmax x w s
  | .fabs x w => Sys2Proof.Machine.execFabs x w s
  | .fneg x w => Sys2Proof.Machine.execFneg x w s
  | .fcmp x w => Sys2Proof.Machine.execFcmp x w s
  | .fclass x w => Sys2Proof.Machine.execFclass x w s
  | .fsgnj x w => Sys2Proof.Machine.execFsgnj x w s
  | .cvt36W x w => Sys2Proof.Machine.execCvt36W x w s
  | .cvt36Wu x w => Sys2Proof.Machine.execCvt36Wu x w s
  | .cvtW36 x w => Sys2Proof.Machine.execCvtW36 x w s
  | .cvtWu36 x w => Sys2Proof.Machine.execCvtWu36 x w s
  | .cvtW36Z x w => Sys2Proof.Machine.execCvtW36Z x w s
  | .cvt36B32 x w => Sys2Proof.Machine.execCvt36B32 x w s
  | .cvtB3236 x w => Sys2Proof.Machine.execCvtB3236 x w s
  | .cvt3672 x w => Sys2Proof.Machine.execCvt3672 x w s
  | .cvt72D x w => Sys2Proof.Machine.execCvt72D x w s
  | .cvt72Du x w => Sys2Proof.Machine.execCvt72Du x w s
  | .cvtD72 x w => Sys2Proof.Machine.execCvtD72 x w s
  | .cvtDu72 x w => Sys2Proof.Machine.execCvtDu72 x w s
  | .cvtD72Z x w => Sys2Proof.Machine.execCvtD72Z x w s
  | .cvt72B64 x w => Sys2Proof.Machine.execCvt72B64 x w s
  | .cvtB6472 x w => Sys2Proof.Machine.execCvtB6472 x w s
  | .cvt7236 x w => Sys2Proof.Machine.execCvt7236 x w s
  | .ldb x w => Sys2Proof.Machine.execLdb x w s
  | .ldbs x w => Sys2Proof.Machine.execLdbs x w s
  | .ldh x w => Sys2Proof.Machine.execLdh x w s
  | .ldhs x w => Sys2Proof.Machine.execLdhs x w s
  | .ldw x w => Sys2Proof.Machine.execLdw x w s
  | .ldd x w => Sys2Proof.Machine.execLdd x w s
  | .stb x w => Sys2Proof.Machine.execStb x w s
  | .sth x w => Sys2Proof.Machine.execSth x w s
  | .stw x w => Sys2Proof.Machine.execStw x w s
  | .std x w => Sys2Proof.Machine.execStd x w s
  | .ldsg x w => Sys2Proof.Machine.execLdsg x w s
  | .stsg x w => Sys2Proof.Machine.execStsg x w s
  | .pref x w => Sys2Proof.Machine.execPref x w s
  | .lr x w => Sys2Proof.Machine.execLr x w s
  | .sc x w => Sys2Proof.Machine.execSc x w s
  | .tas x w => Sys2Proof.Machine.execTas x w s
  | .br x w => Sys2Proof.Machine.execBr x w s
  | .call x w => Sys2Proof.Machine.execCall x w s
  | .jrl x w => Sys2Proof.Machine.execJrl x w s
  | .rpt x w target => Sys2Proof.Machine.execRpt x w target s
  | .rptu x w target => Sys2Proof.Machine.execRptu x w target s
  | .csrr x w => Sys2Proof.Machine.execCsrr x w s
  | .csrw x w => Sys2Proof.Machine.execCsrw x w s
  | .csrx x w => Sys2Proof.Machine.execCsrx x w s
  | .syscall x w => Sys2Proof.Machine.execSyscall x w s
  | .brk x w => Sys2Proof.Machine.execBrk x w s
  | .eret x w => Sys2Proof.Machine.execEret x w s
  | .lwait x w => Sys2Proof.Machine.execLwait x w s
  | .fenceL x w => Sys2Proof.Machine.execFenceL x w s
  | .fenceS x w => Sys2Proof.Machine.execFenceS x w s
  | .fenceA x w => Sys2Proof.Machine.execFenceA x w s
  | .ifence x w => Sys2Proof.Machine.execIfence x w s
  | .tlbiByAddress x w => Sys2Proof.Machine.execTlbiByAddress x w s
  | .tlbiByAsid x w => Sys2Proof.Machine.execTlbiByAsid x w s
  | .tlbiAll x w => Sys2Proof.Machine.execTlbiAll x w s
  | .tsync x w => Sys2Proof.Machine.execTsync x w s
  | .cmoClean x w => Sys2Proof.Machine.execCmoClean x w s
  | .cmoInvalidate x w => Sys2Proof.Machine.execCmoInvalidate x w s
  | .cmoCleanAndInvalidate x w => Sys2Proof.Machine.execCmoCleanAndInvalidate x w s
  | .wait x w => Sys2Proof.Machine.execWait x w s
  | .xOperation x w => Sys2Proof.Machine.execXOperation x w s
  | .ifenceBroadcastArrival src core => Sys2Proof.Machine.execIfenceBroadcastArrival src core s
  | .tlbiBroadcastArrival src dst => Sys2Proof.Machine.execTlbiBroadcastArrival src dst s
  | .interruptEntry core => Sys2Proof.Machine.execInterruptEntry core s
  | .long core => Sys2Proof.Machine.execLong core s
  | .longOperationLanding core => Sys2Proof.Machine.execLongOperationLanding core s
  | .loadMissFill core cycles syn retry => Sys2Proof.Machine.execLoadMissFill core cycles syn retry s
  | .fetchLineFill core la fill => Sys2Proof.Machine.execFetchLineFill core la fill s
  | .ftModeChange core => Sys2Proof.Machine.execFtModeChange core s
  | .ustAccept grove ctx slot => Sys2Proof.Machine.execUstAccept grove ctx slot s
  | .ustLanding core late => Sys2Proof.Machine.execUstLanding core late s
  | .ustDiscard core => Sys2Proof.Machine.execUstDiscard core s
  | .timer core => Sys2Proof.Machine.execTimer core s
  | .ipiSet core => Sys2Proof.Machine.execIpiSet core s
  | .machineCheckAsync core sub => Sys2Proof.Machine.execMachineCheckAsync core sub s
  | .mbIdleTimeout core line => Sys2Proof.Machine.execMbIdleTimeout core line s
  | .drainAccept core line cycles reads => Sys2Proof.Machine.execDrainAccept core line cycles reads s
  | .reservationDeferralEnd core => Sys2Proof.Machine.execReservationDeferralEnd core s
  | .rangeClean who l3 grove slot space => Sys2Proof.Machine.execRangeClean who l3 grove slot space s
  | .rangeInvalidate who l3 grove slot space => Sys2Proof.Machine.execRangeInvalidate who l3 grove slot space s
  | .rangeCleanAndInvalidate who l3 grove slot space => Sys2Proof.Machine.execRangeCleanAndInvalidate who l3 grove slot space s
  | .rangeAbort who l3 grove slot => Sys2Proof.Machine.execRangeAbort who l3 grove slot s
  | .rangeEngineLine l3 grove slot => Sys2Proof.Machine.execRangeEngineLine l3 grove slot s
  | .rds port line => Sys2Proof.Machine.execRds port line s
  | .rdx port line => Sys2Proof.Machine.execRdx port line s
  | .upg port line => Sys2Proof.Machine.execUpg port line s
  | .rdcur port line => Sys2Proof.Machine.execRdcur port line s
  | .wrinv port line bytes => Sys2Proof.Machine.execWrinv port line bytes s
  | .wb port line keep bytes => Sys2Proof.Machine.execWb port line keep bytes s
  | .evc port line => Sys2Proof.Machine.execEvc port line s
  | .fwds holder line bytes => Sys2Proof.Machine.execFwds holder line bytes s
  | .fwdx holder line bytes => Sys2Proof.Machine.execFwdx holder line bytes s
  | .fwdc holder line bytes => Sys2Proof.Machine.execFwdc holder line bytes s
  | .invMsg holder line => Sys2Proof.Machine.execInvMsg holder line s
  | .binv holder line bytes => Sys2Proof.Machine.execBinv holder line bytes s
  | .dataMsg port line st bytes => Sys2Proof.Machine.execDataMsg port line st bytes s
  | .ackMsg port line => Sys2Proof.Machine.execAckMsg port line s
  | .cmpMessage port line => Sys2Proof.Machine.execCmpMessage port line s
  | .mrd line syn retry => Sys2Proof.Machine.execMrd line syn retry s
  | .mwr line => Sys2Proof.Machine.execMwr line s
  | .stateSetSwitch moesi => Sys2Proof.Machine.execStateSetSwitch moesi s
  | .shaperAccept srcKind item => Sys2Proof.Machine.execShaperAccept srcKind item s
  | .apply ev => Sys2Proof.Machine.execApply ev s
  | .stop ev => Sys2Proof.Machine.execStop ev s
  | .start who cmp together => Sys2Proof.Machine.execStart who cmp together s
  | .resume who cmp => Sys2Proof.Machine.execResume who cmp s
  | .chtAbort who => Sys2Proof.Machine.execChtAbort who s
  | .partnerCommitSignal => Sys2Proof.Machine.execPartnerCommitSignal s
  | .partnerStageTimeout => Sys2Proof.Machine.execPartnerStageTimeout s
  | .refresh sub rank => Sys2Proof.Machine.execRefresh sub rank s
  | .mr4Read sub rank hot => Sys2Proof.Machine.execMr4Read sub rank hot s
  | .zqCalibration sub rank => Sys2Proof.Machine.execZqCalibration sub rank s
  | .dqsOscillatorRead sub rank drift => Sys2Proof.Machine.execDqsOscillatorRead sub rank drift s
  | .writeBatch sub n => Sys2Proof.Machine.execWriteBatch sub n s
  | .correctionWrite sub => Sys2Proof.Machine.execCorrectionWrite sub s
  | .scrubRead sub syn retry => Sys2Proof.Machine.execScrubRead sub syn retry s
  | .initialiserLine channel syn retry => Sys2Proof.Machine.execInitialiserLine channel syn retry s
  | .subchannelRetrain sub ev => Sys2Proof.Machine.execSubchannelRetrain sub ev s
  | .qmEnable who => Sys2Proof.Machine.execQmEnable who s
  | .qmDisable who => Sys2Proof.Machine.execQmDisable who s
  | .qmRearm who => Sys2Proof.Machine.execQmRearm who s
  | .qmHalt who => Sys2Proof.Machine.execQmHalt who s
  | .dbRing who queue index => Sys2Proof.Machine.execDbRing who queue index s
  | .dbarm who queue index => Sys2Proof.Machine.execDbarm who queue index s
  | .copy engine steps => Sys2Proof.Machine.execCopy engine steps s
  | .fill engine steps => Sys2Proof.Machine.execFill engine steps s
  | .nop engine => Sys2Proof.Machine.execNop engine s
  | .engResume who engine => Sys2Proof.Machine.execEngResume who engine s
  | .engDiscard who engine => Sys2Proof.Machine.execEngDiscard who engine s
  | .messageDelivery queue => Sys2Proof.Machine.execMessageDelivery queue s
  | .frameReceive port octs fcs frag busy => Sys2Proof.Machine.execFrameReceive port octs fcs frag busy s
  | .egressDequeue queue => Sys2Proof.Machine.execEgressDequeue queue s
  | .transmissionSelection port => Sys2Proof.Machine.execTransmissionSelection port s
  | .gateEntry port => Sys2Proof.Machine.execGateEntry port s
  | .toffsetWrite value => Sys2Proof.Machine.execToffsetWrite value s
  | .teventRead core => Sys2Proof.Machine.execTeventRead core s
  | .macsecInstall who port cmd => Sys2Proof.Machine.execMacsecInstall who port cmd s
  | .portLinkChange port up rate => Sys2Proof.Machine.execPortLinkChange port up rate s
  | .phyWake port => Sys2Proof.Machine.execPhyWake port s
  | .hostMemWrite fn off octs err => Sys2Proof.Machine.execHostMemWrite fn off octs err s
  | .hostMemRead fn off len err => Sys2Proof.Machine.execHostMemRead fn off len err s
  | .hostBar0Access fn off dws be write err => Sys2Proof.Machine.execHostBar0Access fn off dws be write err s
  | .hostConfigRequest fn off write be => Sys2Proof.Machine.execHostConfigRequest fn off write be s
  | .hostCompletion fn tag status octs err => Sys2Proof.Machine.execHostCompletion fn tag status octs err s
  | .completionTimeout fn tag => Sys2Proof.Machine.execCompletionTimeout fn tag s
  | .functionLevelReset fn done => Sys2Proof.Machine.execFunctionLevelReset fn done s
  | .busMasterEnableWrite fn on => Sys2Proof.Machine.execBusMasterEnableWrite fn on s
  | .vfEnableWrite on => Sys2Proof.Machine.execVfEnableWrite on s
  | .hotReset => Sys2Proof.Machine.execHotReset s
  | .perstAssert => Sys2Proof.Machine.execPerstAssert s
  | .perstDeassert => Sys2Proof.Machine.execPerstDeassert s
  | .hostLinkUp rate width => Sys2Proof.Machine.execHostLinkUp rate width s
  | .hepWcfgWrite who cfg => Sys2Proof.Machine.execHepWcfgWrite who cfg s
  | .hepWselWrite who fn win => Sys2Proof.Machine.execHepWselWrite who fn win s
  | .msisend who fn vector => Sys2Proof.Machine.execMsisend who fn vector s
  | .hdbset fn bits => Sys2Proof.Machine.execHdbset fn bits s
  | .flitReceive link dir flit errors load => Sys2Proof.Machine.execFlitReceive link dir flit errors load s
  | .retryRequest link dir => Sys2Proof.Machine.execRetryRequest link dir s
  | .idleControlFlit link dir => Sys2Proof.Machine.execIdleControlFlit link dir s
  | .ferryTrainingStep module lanes0 lanes1 => Sys2Proof.Machine.execFerryTrainingStep module lanes0 lanes1 s
  | .eyeMonitorSample module dir lanes => Sys2Proof.Machine.execEyeMonitorSample module dir lanes s
  | .remap module dir bist => Sys2Proof.Machine.execRemap module dir bist s
  | .halfWidth module => Sys2Proof.Machine.execHalfWidth module s
  | .fryRetrain grove loc => Sys2Proof.Machine.execFryRetrain grove loc s
  | .fryEnable grove loc => Sys2Proof.Machine.execFryEnable grove loc s
  | .routeChange a b => Sys2Proof.Machine.execRouteChange a b s
  | .txnTimeout line port => Sys2Proof.Machine.execTxnTimeout line port s
  | .heartbeat port => Sys2Proof.Machine.execHeartbeat port s
  | .crossingTraining port lanes0 lanes1 => Sys2Proof.Machine.execCrossingTraining port lanes0 lanes1 s
  | .pairJoin index dsn stepping shown epoch claims span => Sys2Proof.Machine.execPairJoin index dsn stepping shown epoch claims span s
  | .mirrorWrite port line bytes => Sys2Proof.Machine.execMirrorWrite port line bytes s
  | .split => Sys2Proof.Machine.execSplit s
  | .witnessQuery => Sys2Proof.Machine.execWitnessQuery s
  | .witnessAnswer => Sys2Proof.Machine.execWitnessAnswer s
  | .splitResultTimeout => Sys2Proof.Machine.execSplitResultTimeout s
  | .takeover cmp => Sys2Proof.Machine.execTakeover cmp s
  | .chunkLimit core => Sys2Proof.Machine.execChunkLimit core s
  | .manifestBlockWrite cmp => Sys2Proof.Machine.execManifestBlockWrite cmp s
  | .arm cmp => Sys2Proof.Machine.execArm cmp s
  | .disarm cmp => Sys2Proof.Machine.execDisarm cmp s
  | .replay cmp blocks => Sys2Proof.Machine.execReplay cmp blocks s
  | .replayChunk cmp agent again => Sys2Proof.Machine.execReplayChunk cmp agent again s
  | .mftStop who cmp => Sys2Proof.Machine.execMftStop who cmp s
  | .ridxWrite who cmp value => Sys2Proof.Machine.execRidxWrite who cmp value s
  | .powerOn => Sys2Proof.Machine.execPowerOn s
  | .bootStep found => Sys2Proof.Machine.execBootStep found s
  | .powerLoss => Sys2Proof.Machine.execPowerLoss s
  | .resetN ns => Sys2Proof.Machine.execResetN ns s
  | .warmrst => Sys2Proof.Machine.execWarmrst s
  | .watchdogExpiry => Sys2Proof.Machine.execWatchdogExpiry s
  | .lockstepMismatch => Sys2Proof.Machine.execLockstepMismatch s
  | .tamper sensor => Sys2Proof.Machine.execTamper sensor s
  | .tamperRelease => Sys2Proof.Machine.execTamperRelease s
  | .refclkFault lost ppm ns => Sys2Proof.Machine.execRefclkFault lost ppm ns s
  | .pcieRefclkLoss => Sys2Proof.Machine.execPcieRefclkLoss s
  | .groveReset grove done => Sys2Proof.Machine.execGroveReset grove done s
  | .coreReset who core now => Sys2Proof.Machine.execCoreReset who core now s
  | .holdRelease who core => Sys2Proof.Machine.execHoldRelease who core s
  | .park => Sys2Proof.Machine.execPark s
  | .parkGraceExpiry => Sys2Proof.Machine.execParkGraceExpiry s
  | .parkAlarm => Sys2Proof.Machine.execParkAlarm s
  | .gpioWake pin level ns => Sys2Proof.Machine.execGpioWake pin level ns s
  | .railok level => Sys2Proof.Machine.execRailok level s
  | .avsTargetSet grove target => Sys2Proof.Machine.execAvsTargetSet grove target s
  | .provision slot fused => Sys2Proof.Machine.execProvision slot fused s
  | .revoke slot fused => Sys2Proof.Machine.execRevoke slot fused s
  | .raiseSvn => Sys2Proof.Machine.execRaiseSvn s
  | .lock fused => Sys2Proof.Machine.execLock fused s
  | .raiseFwsvn fused => Sys2Proof.Machine.execRaiseFwsvn fused s
  | .drbgReseed healthy => Sys2Proof.Machine.execDrbgReseed healthy s
  | .challengeRead jtag => Sys2Proof.Machine.execChallengeRead jtag s
  | .submit jtag => Sys2Proof.Machine.execSubmit jtag s
  | .close jtag => Sys2Proof.Machine.execClose jtag s
  | .cdbgHalt jtag core now => Sys2Proof.Machine.execCdbgHalt jtag core now s
  | .cdbgRun jtag core => Sys2Proof.Machine.execCdbgRun jtag core s
  | .cdbgStep jtag core => Sys2Proof.Machine.execCdbgStep jtag core s
  | .cdbgAgo jtag core => Sys2Proof.Machine.execCdbgAgo jtag core s
  | .ucnthRead who frame k => Sys2Proof.Machine.execUcnthRead who frame k s
  | .ucntlRead who frame k => Sys2Proof.Machine.execUcntlRead who frame k s
  | .rcRead who off => Sys2Proof.Machine.execRcRead who off s
  | .registerWrite who off value => Sys2Proof.Machine.execRegisterWrite who off value s
  | .undefinedEncoding x w target => Sys2Proof.Machine.execUndefinedEncoding x w target s
  | .descriptorReservedOp engine => Sys2Proof.Machine.execDescriptorReservedOp engine s
  | .resetNRelease => Sys2Proof.Machine.execResetNRelease s
  | .syncedChange synced => Sys2Proof.Machine.execSyncedChange synced s
  | .laneLossOfLock module dir which => Sys2Proof.Machine.execLaneLossOfLock module dir which s
  | .mirrorCopy cmp => Sys2Proof.Machine.execMirrorCopy cmp s
  | .linkLayerRetry kind => Sys2Proof.Machine.execLinkLayerRetry kind s
  | .packageFatalError row chart => Sys2Proof.Machine.execPackageFatalError row chart s

end Sys2Proof.Machine
end

