-- ==== Sys2Proof/Machine/Step.lean ====
section
/-!
DEFINITION. One step of the block: the command at the front of the queue, or, on an empty queue, one nanosecond of the
package time base (log entry 6).
-/
namespace Sys2Proof.Machine

/-- The state with a command taken from the front. -/
def State.setPending (s : State) (l : List Instr) : State := { s with pending := l }

/-- Nothing is commanded: time goes on by one tick of the time base (R85). -/
def State.idle (s : State) : State := s.tick

def step (s : State) : Host.Outcome State Fault Refusal :=
  match s.pending with
  | [] => .next s.idle
  | c :: rest => exec c (s.setPending rest)

/-- The host's entry: the table gives no row any bits, so a word spells no command and nothing is queued. -/
def State.withFetchWord (s : State) (nbits w : Nat) : State :=
  match decodeTableWord nbits w with
  | some c => s.setPending (c :: s.pending)
  | none => s

end Sys2Proof.Machine
end

