-- ==== Sys2Proof/Safety.lean ====
section
/-!
DEFINITION. The words the statements use: a word issues, an instruction retires with given register writes, the operands as
exact numbers, and the flags of Table 5-3 in terms of exact sums.
-/
namespace Sys2Proof.Machine

/-- The word `w` issues in its slot: nothing of ranks 1 to 5 of Table 11-5 comes first, and with every hold of Table 7-3 ended
the machine is in `s1`. The target word of a repeat counts for RPT and RPTU alone. -/
def Issues (s : State) (x : At) (w target : Word) (s1 : State) : Prop := s.prepare x.core x.slot w target = .go s1

/-- Whenever the word issues, the instruction completes: it retires with the writes that `f` gives from the registers as it reads
them, and execution goes on at the next word. -/
def Computes (s : State) (x : At) (w : Word) (i : Instr) (f : Core → Effs) : Prop :=
  ∀ s1, Issues s x w 0 s1 → exec i s = .next (s1.retire x.core x.slot w (f (s1.core x.core)) .fall)

/-- Whenever the word issues, the instruction raises the exception that `f` gives. -/
def Traps (s : State) (x : At) (w : Word) (i : Instr) (e : Exc) : Prop :=
  ∀ s1, Issues s x w 0 s1 → exec i s = .next (s1.trap x.core x.slot e)

/-- The command completes in a next state with the property. -/
def After (i : Instr) (s : State) (p : State → Prop) : Prop := ∃ t, exec i s = .next t ∧ p t

/-! ## Operands as exact numbers: zx and sx of "Operands, notation and timing" -/

def Core.zA (c : Core) (w : Word) : Nat := (c.srcA w).toNat
def Core.zB (c : Core) (w : Word) : Nat := (c.srcB w).toNat
def Core.sA (c : Core) (w : Word) : Int := (c.srcA w).toInt
def Core.sB (c : Core) (w : Word) : Int := (c.srcB w).toInt
def Core.zPA (c : Core) (w : Word) : Nat := (c.pairA w).toNat
def Core.zPB (c : Core) (w : Word) : Nat := (c.pairB w).toNat
def Core.sPA (c : Core) (w : Word) : Int := (c.pairA w).toInt
def Core.sPB (c : Core) (w : Word) : Int := (c.pairB w).toInt
/-- FL.C as a number. -/
def Core.carry (c : Core) : Nat := if c.fl.getLsbD 2 then 1 else 0
/-- imm17 as an exact number, and as an unsigned one. -/
def immS (w : Word) : Int := (w.extractLsb' 0 17).toInt
def immZ (w : Word) : Nat := fld w 16 0

/-! ## Results -/

/-- The destination register takes an exact number, wrapped to a word, with a latency. -/
def toW (w : Word) (v : Int) (lat : Nat) : Effs := [(.w (dstOf w) (BitVec.ofInt 36 v), lat)]
/-- The destination pair takes an exact number, wrapped to a double-word. -/
def toP (w : Word) (v : Int) (lat : Nat) : Effs :=
  [(.w (dstOf w) ((BitVec.ofInt 72 v).extractLsb' 0 36), lat), (.w (dstOf w + 1) ((BitVec.ofInt 72 v).extractLsb' 36 36), lat)]

/-- Z and N of an exact number wrapped to n bits (R124). -/
def flagsZN (n : Nat) (v : Int) : Effs := [(.fl 0 (v % 2 ^ n == 0), 1), (.fl 1 (decide (2 ^ (n - 1) ≤ v % 2 ^ n)), 1)]
/-- V of an exact signed number: it lies outside the signed range of n bits. -/
def outside (n : Nat) (e : Int) : Bool := decide (e < -(2 ^ (n - 1)) ∨ 2 ^ (n - 1) ≤ e)
/-- The four flags of Table 5-3: `v` is written, `cy` carries out, `e` is the exact signed result. -/
def flagsOf (n : Nat) (v : Int) (cy : Bool) (e : Int) : Effs := flagsZN n v ++ [(.fl 2 cy, 1), (.fl 3 (outside n e), 1)]
/-- Writes that only the .F form makes. -/
def onF (w : Word) (es : Effs) : Effs := if flagBit w then es else []
/-- C of a shift; unchanged for amount 0. -/
def shiftC (amount : Nat) (b : Bool) : Effs := if amount = 0 then [] else [(.fl 2 b, 1)]
/-- Clipping to a signed width (the sat of the spec), and Q when it clips. -/
def clip (n : Nat) (v : Int) : Int := max (-(2 ^ (n - 1))) (min v (2 ^ (n - 1) - 1))
def setsQ (n : Nat) (v : Int) (lat : Nat) : Effs := if clip n v = v then [] else [(.q, lat)]

/-- Lane k of a pair as a signed number (R132). -/
def laneInt (wd k : Nat) (v : DWord) : Int := (v.extractLsb' (wd * k) wd).toInt
/-- A number with its n bits from bit lo replaced by the low bits of another. -/
def putBits (d lo n v : Nat) : Nat := d % 2 ^ lo + v % 2 ^ n * 2 ^ lo + d / 2 ^ (lo + n) * 2 ^ (lo + n)
/-- The bits of a rotate by k places, k below 36. -/
def rotated (a k : Nat) : Nat := a * 2 ^ k % 2 ^ 36 + a * 2 ^ k / 2 ^ 36

/-! ## Floating point -/

/-- A value ordered by sign and magnitude, with −0 equal to +0. -/
def Fmt.smag (f : Fmt) (x : Nat) : Int :=
  let mag : Nat := x % 2 ^ (f.eb + f.fb)
  if f.sign x then -(mag : Int) else mag
abbrev Fmt.Finite (f : Fmt) (x : Nat) : Prop := f.isNan x = false ∧ f.isInf x = false
/-- The value of a finite number (Table 3-4). -/
def Fmt.val (f : Fmt) (x : Nat) : ℚ := (if f.sign x then -1 else 1) * (f.mant x : ℚ) * (2 : ℚ) ^ (f.exp2 x)
/-- The value is v × 2^e. -/
abbrev Fmt.IsVal (f : Fmt) (x : Nat) (v e : Int) : Prop := f.val x = (v : ℚ) * (2 : ℚ) ^ e

/-- A precise floating-point instruction (R77): `f` gives its writes and the flags it raises. With no enabled flag among them it retires
with its writes, and the flags are ORed into CS.FPCSR; otherwise the flags are set and FPE is taken, with nothing written. -/
def FloatEnds (s : State) (x : At) (w : Word) (i : Instr) (lat : Nat) (f : Core → Effs × BitVec 5) : Prop :=
  ∀ s1, Issues s x w 0 s1 →
    let c := s1.core x.core
    let hit := (f c).2 &&& c.fpcsr.extractLsb' 11 5
    (hit = 0 → exec i s = .next (s1.retire x.core x.slot w ((f c).1 ++ if (f c).2 = 0 then [] else [(.fp (f c).2, lat)]) .fall)) ∧
    (hit ≠ 0 → exec i s = .next ((s1.modCore x.core (fun c => { c with fpcsr := c.fpcsr ||| (((f c).2.setWidth 36) <<< 3) })).trap
      x.core x.slot ⟨9, fpeSub hit, 0, none⟩))

/-! ## Memory -/

/-- The base register takes its updated value with latency 1, when the form updates it (R146). -/
def newBase (w : Word) (newb : Option Nat) : Effs :=
  match newb with
  | some n => [(.w (srcAOf w) (BitVec.ofNat 36 n), 1)]
  | none => []

/-- The stores of bytes are in their canonical form: addresses strictly rising; a byte of a Clearing that reads as zero, which an
unlisted one does, is not listed. -/
abbrev Mem.Canonical (m : Mem) : Prop := smRising 0 m.dram = true ∧ smRising 0 m.dirty = true ∧ smWf (0 : Byte) m.clr = true

/-! ## A quiet core -/

/-- Nothing of core k is in flight or waits, and nothing comes before its next instruction: it runs in supervisor mode with TR = 0 and
FT = 0, interrupts disabled, with no counter enabled and no recording. -/
structure Quiet (s : State) (k : Nat) : Prop where
  run : (s.core k).run = .running
  mode : (s.core k).status.getLsbD 0 = false ∧ (s.core k).status.getLsbD 1 = false ∧ (s.core k).status.getLsbD 2 = false ∧
    (s.core k).status.getLsbD 3 = false
  flight : (s.core k).pend = [] ∧ (s.core k).div = [] ∧ (s.core k).xops = [] ∧ (s.core k).opW = none ∧ (s.core k).lateUse = none ∧
    (s.core k).divFree ≤ (s.core k).ccyc
  stands : (s.core k).freeze = none ∧ (s.core k).pair = none ∧ (s.core k).rep = none ∧ (s.core k).resume = false ∧
    (s.core k).unpark = false ∧ (s.core k).ftChange = none ∧ (s.core k).holdMb = false
  holds : (s.core k).held = false ∧ (s.core k).present = none ∧ (s.core k).grant = none ∧ (s.core k).fwait = none ∧ (s.core k).prefs = []
  debug : (s.core k).dbg = false ∧ (s.core k).dbgStep = false ∧ k ∉ s.halts ∧ k ∉ s.pwr.crst
  owed : (s.core k).faults = [] ∧ (s.core k).mce = []
  journal : smFind? s.mftc k = none ∧ s.replaying k = false ∧ (s.core k).mftFrozen = false
  counters : smFind? s.ctl (o_pmuCctl (groveOf k) (slotOf k)) = none
  broadcasts : ∀ b ∈ s.mem.bcasts, b.src ≠ k

/-- The last write of latency 1 that reaches a general register. -/
def lastWrite (es : Effs) (r : Nat) : Option Word :=
  es.foldl (fun v e => match e.1 with
    | .w q u => if q = r ∧ e.2 = 1 then some u else v
    | _ => v) none

/-- The landing writes bit i of FL. -/
def Land.writesFlag (l : Land) (i : Nat) : Bool :=
  match l with
  | .fl j _ => j == i
  | .q => i == 4
  | .qw _ => i == 4
  | _ => false

end Sys2Proof.Machine
end

