-- ==== Sys2Proof/Certificates/Slice0/Obligations.lean ====
section
/-!
DEFINITION. The statements for the provers.
-/
open Sys2Proof Sys2Proof.Machine

/-! ## Compute instructions -/

/-- R124, R125, R126 (Tables 5-3 and 5-4): codes 0 to 28 of the INT group. Each writes its result with latency 1, and with .F
the flags of its row; ADDS and SUBS set Q when they clip.
R128: RDRC and RDFL write RC and FL, zero-extended; WRRC writes RC; WRFL writes every flag, Q included, from bits 4:0. A selector
above 1 is UD RESERVED.
R127 (Table 5-5): the I-format instructions, with latency 1; only CMPI writes FL. -/
def Obligations.IntegerInstructions : Prop :=
  (∀ (s : State) (x : At) (w : Word),
  let n := fun (c : Core) => c.zB w
  let i := srcBOf w
  (isFn w 1 0 → Computes s x w (.add x w) fun c => toW w (c.sA w + c.sB w) 1 ++
    onF w (flagsOf 36 (c.sA w + c.sB w) (decide (2 ^ 36 ≤ c.zA w + c.zB w)) (c.sA w + c.sB w))) ∧
  (isFn w 1 1 → Computes s x w (.sub x w) fun c => toW w (c.sA w - c.sB w) 1 ++
    onF w (flagsOf 36 (c.sA w - c.sB w) (decide (c.zB w ≤ c.zA w)) (c.sA w - c.sB w))) ∧
  (isFn w 1 2 → Computes s x w (.addc x w) fun c => toW w (c.sA w + c.sB w + c.carry) 1 ++
    onF w (flagsOf 36 (c.sA w + c.sB w + c.carry) (decide (2 ^ 36 ≤ c.zA w + c.zB w + c.carry)) (c.sA w + c.sB w + c.carry))) ∧
  (isFn w 1 3 → Computes s x w (.subc x w) fun c => toW w (c.sA w - c.sB w - 1 + c.carry) 1 ++
    onF w (flagsOf 36 (c.sA w - c.sB w - 1 + c.carry) (decide (c.zB w + 1 ≤ c.zA w + c.carry)) (c.sA w - c.sB w - 1 + c.carry))) ∧
  (isFn w 1 4 → Computes s x w (.and x w) fun c => toW w (Nat.land (c.zA w) (c.zB w)) 1 ++
    onF w (flagsZN 36 (Nat.land (c.zA w) (c.zB w)))) ∧
  (isFn w 1 5 → Computes s x w (.or x w) fun c => toW w (Nat.lor (c.zA w) (c.zB w)) 1 ++
    onF w (flagsZN 36 (Nat.lor (c.zA w) (c.zB w)))) ∧
  (isFn w 1 6 → Computes s x w (.xor x w) fun c => toW w (Nat.xor (c.zA w) (c.zB w)) 1 ++
    onF w (flagsZN 36 (Nat.xor (c.zA w) (c.zB w)))) ∧
  (isFn w 1 7 → Computes s x w (.andn x w) fun c => toW w (Nat.land (c.zA w) (2 ^ 36 - 1 - c.zB w)) 1 ++
    onF w (flagsZN 36 (Nat.land (c.zA w) (2 ^ 36 - 1 - c.zB w)))) ∧
  (isFn w 1 8 → Computes s x w (.shl x w) fun c => toW w (c.zA w * 2 ^ n c : Nat) 1 ++
    onF w (flagsZN 36 (c.zA w * 2 ^ n c : Nat) ++ shiftC (n c) ((c.zA w * 2 ^ n c).testBit 36))) ∧
  (isFn w 1 9 → Computes s x w (.shr x w) fun c => toW w (c.zA w / 2 ^ n c : Nat) 1 ++
    onF w (flagsZN 36 (c.zA w / 2 ^ n c : Nat) ++ shiftC (n c) ((c.zA w).testBit (n c - 1)))) ∧
  (isFn w 1 10 → Computes s x w (.sar x w) fun c => toW w (c.sA w / 2 ^ n c) 1 ++
    onF w (flagsZN 36 (c.sA w / 2 ^ n c) ++ shiftC (n c) (c.sA w / 2 ^ (n c - 1) % 2 == 1))) ∧
  (isFn w 1 11 → Computes s x w (.rol x w) fun c => toW w (rotated (c.zA w) (n c % 36)) 1 ++
    onF w (flagsZN 36 (rotated (c.zA w) (n c % 36)) ++ shiftC (n c % 36) (rotated (c.zA w) (n c % 36) % 2 == 1))) ∧
  (isFn w 1 12 → Computes s x w (.shli x w) fun c => toW w (c.zA w * 2 ^ i : Nat) 1 ++
    onF w (flagsZN 36 (c.zA w * 2 ^ i : Nat) ++ shiftC i ((c.zA w * 2 ^ i).testBit 36))) ∧
  (isFn w 1 13 → Computes s x w (.shri x w) fun c => toW w (c.zA w / 2 ^ i : Nat) 1 ++
    onF w (flagsZN 36 (c.zA w / 2 ^ i : Nat) ++ shiftC i ((c.zA w).testBit (i - 1)))) ∧
  (isFn w 1 14 → Computes s x w (.sari x w) fun c => toW w (c.sA w / 2 ^ i) 1 ++
    onF w (flagsZN 36 (c.sA w / 2 ^ i) ++ shiftC i (c.sA w / 2 ^ (i - 1) % 2 == 1))) ∧
  (isFn w 1 15 → Computes s x w (.roli x w) fun c => toW w (rotated (c.zA w) (i % 36)) 1 ++
    onF w (flagsZN 36 (rotated (c.zA w) (i % 36)) ++ shiftC (i % 36) (rotated (c.zA w) (i % 36) % 2 == 1))) ∧
  (isFn w 1 16 → Computes s x w (.cmp x w) fun c =>
    flagsOf 36 (c.sA w - c.sB w) (decide (c.zB w ≤ c.zA w)) (c.sA w - c.sB w)) ∧
  (isFn w 1 17 → Computes s x w (.slt x w) fun c => toW w (if c.sA w < c.sB w then 1 else 0) 1) ∧
  (isFn w 1 18 → Computes s x w (.sltu x w) fun c => toW w (if c.zA w < c.zB w then 1 else 0) 1) ∧
  (isFn w 1 19 → Computes s x w (.min x w) fun c => toW w (min (c.sA w) (c.sB w)) 1) ∧
  (isFn w 1 20 → Computes s x w (.max x w) fun c => toW w (max (c.sA w) (c.sB w)) 1) ∧
  (isFn w 1 21 → Computes s x w (.minu x w) fun c => toW w (min (c.zA w) (c.zB w) : Nat) 1) ∧
  (isFn w 1 22 → Computes s x w (.maxu x w) fun c => toW w (max (c.zA w) (c.zB w) : Nat) 1) ∧
  (isFn w 1 23 → Computes s x w (.abs x w) fun c => toW w (c.sA w).natAbs 1 ++
    onF w (flagsZN 36 (c.sA w).natAbs ++ [(.fl 3 (c.sA w == -(2 ^ 35)), 1)])) ∧
  (isFn w 1 24 → Computes s x w (.neg x w) fun c => toW w (-(c.sA w)) 1 ++
    onF w (flagsOf 36 (-(c.sA w)) (c.zA w == 0) (-(c.sA w)))) ∧
  (isFn w 1 25 → Computes s x w (.adds x w) fun c => toW w (clip 36 (c.sA w + c.sB w)) 1 ++ setsQ 36 (c.sA w + c.sB w) 1 ++
    onF w (flagsOf 36 (clip 36 (c.sA w + c.sB w)) (decide (2 ^ 36 ≤ c.zA w + c.zB w)) (c.sA w + c.sB w))) ∧
  (isFn w 1 26 → Computes s x w (.subs x w) fun c => toW w (clip 36 (c.sA w - c.sB w)) 1 ++ setsQ 36 (c.sA w - c.sB w) 1 ++
    onF w (flagsOf 36 (clip 36 (c.sA w - c.sB w)) (decide (c.zB w ≤ c.zA w)) (c.sA w - c.sB w))) ∧
  (isFn w 1 27 → Computes s x w (.clz x w) fun c => toW w (if c.zA w = 0 then 36 else 35 - (c.zA w).log2 : Nat) 1) ∧
  (isFn w 1 28 → Computes s x w (.popc x w) fun c => toW w ((List.range 36).countP (c.zA w).testBit : Nat) 1)) ∧
  (∀ (s : State) (x : At) (w : Word),
  (isFn w 1 29 ∧ srcAOf w = 0 → Computes s x w (.rdrc x w) fun c => [(.w (dstOf w) c.rc, 1)]) ∧
  (isFn w 1 29 ∧ srcAOf w = 1 → Computes s x w (.rdfl x w) fun c => toW w c.fl.toNat 1) ∧
  (isFn w 1 30 ∧ dstOf w = 0 → Computes s x w (.wrrc x w) fun c => [(.rc (c.srcA w), 1)]) ∧
  (isFn w 1 30 ∧ dstOf w = 1 → Computes s x w (.wrfl x w) fun c =>
    [(.fl 0 ((c.zA w).testBit 0), 1), (.fl 1 ((c.zA w).testBit 1), 1), (.fl 2 ((c.zA w).testBit 2), 1),
     (.fl 3 ((c.zA w).testBit 3), 1), (.qw ((c.zA w).testBit 4), 1)]) ∧
  (isFn w 1 29 ∧ 2 ≤ srcAOf w ∨ isFn w 1 30 ∧ 2 ≤ dstOf w → 4 ∈ udInt w)) ∧
  (∀ (s : State) (x : At) (w : Word),
  (opcodeOf w = 8 → Computes s x w (.addi x w) fun c => toW w (c.sA w + immS w) 1) ∧
  (opcodeOf w = 9 → Computes s x w (.andi x w) fun c => toW w (Nat.land (c.zA w) (immZ w)) 1) ∧
  (opcodeOf w = 10 → Computes s x w (.ori x w) fun c => toW w (Nat.lor (c.zA w) (immZ w)) 1) ∧
  (opcodeOf w = 11 → Computes s x w (.xori x w) fun c => toW w (Nat.xor (c.zA w) (immZ w)) 1) ∧
  (opcodeOf w = 12 → Computes s x w (.ldhi x w) fun _ => toW w (fld w 22 0 * 2 ^ 13 : Nat) 1) ∧
  (opcodeOf w = 13 → Computes s x w (.cmpi x w) fun c =>
    flagsOf 36 (c.sA w - immS w) (decide ((immS w % 2 ^ 36).toNat ≤ c.zA w)) (c.sA w - immS w)) ∧
  (opcodeOf w = 14 → Computes s x w (.slti x w) fun c => toW w (if c.sA w < immS w then 1 else 0) 1) ∧
  (opcodeOf w = 15 → Computes s x w (.sltiu x w) fun c => toW w (if c.zA w < (immS w % 2 ^ 36).toNat then 1 else 0) 1))

/-- R129 (Table 5-6): the WIDE group, with latency 1. -/
def Obligations.WideGroup : Prop := ∀ (s : State) (x : At) (w : Word),
  let n := fun (c : Core) => c.zB w
  let i := srcBOf w
  let half : Core → Int := fun c => (c.zA w / 2 ^ (18 * i) % 2 ^ 18 : Nat)
  let byte : Core → Int := fun c => (c.zA w / 2 ^ (9 * i) % 2 ^ 9 : Nat)
  (isFn w 2 0 → Computes s x w (.addd x w) fun c => toP w (c.sPA w + c.sPB w) 1 ++
    onF w (flagsOf 72 (c.sPA w + c.sPB w) (decide (2 ^ 72 ≤ c.zPA w + c.zPB w)) (c.sPA w + c.sPB w))) ∧
  (isFn w 2 1 → Computes s x w (.subd x w) fun c => toP w (c.sPA w - c.sPB w) 1 ++
    onF w (flagsOf 72 (c.sPA w - c.sPB w) (decide (c.zPB w ≤ c.zPA w)) (c.sPA w - c.sPB w))) ∧
  (isFn w 2 2 → Computes s x w (.addcd x w) fun c => toP w (c.sPA w + c.sPB w + c.carry) 1 ++
    onF w (flagsOf 72 (c.sPA w + c.sPB w + c.carry) (decide (2 ^ 72 ≤ c.zPA w + c.zPB w + c.carry)) (c.sPA w + c.sPB w + c.carry))) ∧
  (isFn w 2 3 → Computes s x w (.subcd x w) fun c => toP w (c.sPA w - c.sPB w - 1 + c.carry) 1 ++
    onF w (flagsOf 72 (c.sPA w - c.sPB w - 1 + c.carry) (decide (c.zPB w + 1 ≤ c.zPA w + c.carry))
      (c.sPA w - c.sPB w - 1 + c.carry))) ∧
  (isFn w 2 4 → Computes s x w (.shld x w) fun c => toP w (c.zPA w * 2 ^ n c : Nat) 1) ∧
  (isFn w 2 5 → Computes s x w (.shrd x w) fun c => toP w (c.zPA w / 2 ^ n c : Nat) 1) ∧
  (isFn w 2 6 → Computes s x w (.sard x w) fun c => toP w (c.sPA w / 2 ^ n c) 1) ∧
  (isFn w 2 7 → Computes s x w (.cmpd x w) fun c =>
    flagsOf 72 (c.sPA w - c.sPB w) (decide (c.zPB w ≤ c.zPA w)) (c.sPA w - c.sPB w)) ∧
  (isFn w 2 8 → Computes s x w (.movd x w) fun c => toP w (c.zPA w) 1) ∧
  (isFn w 2 9 → Computes s x w (.negd x w) fun c => toP w (-(c.sPA w)) 1 ++
    onF w (flagsOf 72 (-(c.sPA w)) (c.zPA w == 0) (-(c.sPA w)))) ∧
  (isFn w 2 10 → Computes s x w (.packh x w) fun c => toW w (c.zB w % 2 ^ 18 * 2 ^ 18 + c.zA w % 2 ^ 18 : Nat) 1) ∧
  (isFn w 2 11 → Computes s x w (.exth x w) fun c => toW w (half c) 1) ∧
  (isFn w 2 12 → Computes s x w (.exths x w) fun c => toW w (if half c < 2 ^ 17 then half c else half c - 2 ^ 18) 1) ∧
  (isFn w 2 13 → Computes s x w (.extb x w) fun c => toW w (byte c) 1) ∧
  (isFn w 2 14 → Computes s x w (.extbs x w) fun c => toW w (if byte c < 2 ^ 8 then byte c else byte c - 2 ^ 9) 1) ∧
  (isFn w 2 15 ∧ i ≤ 1 → Computes s x w (.insh x w) fun c =>
    toW w (putBits (c.srcD w).toNat (18 * i) 18 (c.zA w)) 1) ∧
  (isFn w 2 16 ∧ i ≤ 3 → Computes s x w (.insb x w) fun c =>
    toW w (putBits (c.srcD w).toNat (9 * i) 9 (c.zA w)) 1)

/-- R130 (Table 5-7), codes 0 to 5: the multiplies, with latency 3.
R131 (Table 5-7), codes 8 to 15: a division takes the divide unit and lands 20 or 38 core cycles after it starts, in the cycle its
slot starts (R183). A divisor of zero writes nothing and leaves DIVZ (code 8) to be recorded when it lands.
R123, R145: the second operation of a pair waits, and starts when the unit is free; every other starts as it issues. -/
def Obligations.MultiplyAndDivide : Prop :=
  (∀ (s : State) (x : At) (w : Word),
  (isFn w 3 0 → Computes s x w (.mul x w) fun c => toW w (c.zA w * c.zB w : Nat) 3) ∧
  (isFn w 3 1 → Computes s x w (.mulh x w) fun c => toW w (c.sA w * c.sB w / 2 ^ 36) 3) ∧
  (isFn w 3 2 → Computes s x w (.mulhu x w) fun c => toW w (c.zA w * c.zB w / 2 ^ 36 : Nat) 3) ∧
  (isFn w 3 3 → Computes s x w (.muld x w) fun c => toP w (c.sA w * c.sB w) 3) ∧
  (isFn w 3 4 → Computes s x w (.muldu x w) fun c => toP w (c.zA w * c.zB w : Nat) 3) ∧
  (isFn w 3 5 → Computes s x w (.mulq x w) fun c =>
    if c.sA w = -(2 ^ 35) ∧ c.sB w = -(2 ^ 35) then toW w (2 ^ 35 - 1) 3 ++ [(.q, 3)]
    else toW w ((c.sA w * c.sB w + 2 ^ 34) / 2 ^ 35) 3)) ∧
  (∀ (s s1 : State) (x : At) (w : Word), Issues s x w 0 s1 →
  let s2 := s1.divWait x
  let c := s2.core x.core
  let start := c.startOf x.slot
  let starts := fun (i : Instr) (lat : Nat) (zero : Bool) (ls : List Land) =>
    exec i s = .next (((s2.modCore x.core (fun c => { c with
        div := c.div ++ [{ lands := if zero then [] else ls
                           fault := if zero then some ⟨8, 0, slotAddr c.pc x.slot, c.seq⟩ else none
                           due := start + lat, seq := c.seq }]
        divFree := start + lat })).count x.core 0x13 1).retire x.core x.slot w [] .fall)
  let one := fun (v : Int) => (toW w v 0).map (·.1)
  let two := fun (v : Int) => (toP w v 0).map (·.1)
  (isFn w 3 8 → starts (.div x w) 20 (c.srcB w == 0) (one ((c.sA w).tdiv (c.sB w)))) ∧
  (isFn w 3 9 → starts (.divu x w) 20 (c.srcB w == 0) (one (c.zA w / c.zB w : Nat))) ∧
  (isFn w 3 10 → starts (.rem x w) 20 (c.srcB w == 0) (one (c.sA w - c.sB w * (c.sA w).tdiv (c.sB w)))) ∧
  (isFn w 3 11 → starts (.remu x w) 20 (c.srcB w == 0) (one (c.zA w % c.zB w : Nat))) ∧
  (isFn w 3 12 → starts (.divd x w) 38 (c.pairB w == 0) (two ((c.sPA w).tdiv (c.sPB w)))) ∧
  (isFn w 3 13 → starts (.divdu x w) 38 (c.pairB w == 0) (two (c.zPA w / c.zPB w : Nat))) ∧
  (isFn w 3 14 → starts (.remd x w) 38 (c.pairB w == 0) (two (c.sPA w - c.sPB w * (c.sPA w).tdiv (c.sPB w)))) ∧
  (isFn w 3 15 → starts (.remdu x w) 38 (c.pairB w == 0) (two (c.zPA w % c.zPB w : Nat)))) ∧
  (∀ (s : State) (x : At),
  let c := s.core x.core
  (x.slot ≠ .second ∨ c.divFree ≤ c.startOf .second → s.divWait x = s) ∧
  (∀ p, x.slot = .second → c.pair = some p → c.startOf .second < c.divFree → c.xops = [] →
    ((s.divWait x).core x.core).startOf .second = max c.divFree c.ccyc))

/-- R132, R133 (Table 5-8): a LANE instruction computes each lane by itself, and writes the lanes together, with latency 1, LMUL 3;
Q is set when a lane clips, and nothing else of FL is written. -/
def Obligations.LaneGroup : Prop := ∀ (s : State) (x : At) (w : Word),
  let lanes := fun (i : Instr) (lat : Nat) (f : (wd : Nat) → Int → Int → Int) (q : (wd : Nat) → Int → Int → Bool) =>
    ∀ wd n, (wd = 18 ∧ n = 4 ∧ codeOf w < 16) ∨ (wd = 36 ∧ n = 2 ∧ 16 ≤ codeOf w) → ∀ s1, Issues s x w 0 s1 →
      let a := fun k => laneInt wd k ((s1.core x.core).pairA w)
      let b := fun k => laneInt wd k ((s1.core x.core).pairB w)
      ∃ v : DWord, (∀ k < n, v.extractLsb' (wd * k) wd = BitVec.ofInt wd (f wd (a k) (b k))) ∧
        exec i s = .next (s1.retire x.core x.slot w
          ([(.w (dstOf w) (v.extractLsb' 0 36), lat), (.w (dstOf w + 1) (v.extractLsb' 36 36), lat)] ++
            if (List.range n).any (fun k => q wd (a k) (b k)) then [(.q, lat)] else []) .fall)
  let never := fun (_ : Nat) (_ _ : Int) => false
  let clips := fun (g : Nat → Int → Int → Int) (wd : Nat) (a b : Int) => clip wd (g wd a b) != g wd a b
  let sat := fun (g : Nat → Int → Int → Int) (wd : Nat) (a b : Int) => clip wd (g wd a b)
  let plus := fun (_ : Nat) (a b : Int) => a + b
  let minus := fun (_ : Nat) (a b : Int) => a - b
  let times := fun (wd : Nat) (a b : Int) => (a * b + 2 ^ (wd - 2)) / 2 ^ (wd - 1)
  let magnitude := fun (_ : Nat) (a _ : Int) => (a.natAbs : Int)
  (isLane w 0 → lanes (.ladd x w) 1 plus never) ∧
  (isLane w 1 → lanes (.lsub x w) 1 minus never) ∧
  (isLane w 2 → lanes (.ladds x w) 1 (sat plus) (clips plus)) ∧
  (isLane w 3 → lanes (.lsubs x w) 1 (sat minus) (clips minus)) ∧
  (isLane w 4 → lanes (.lmul x w) 3 (sat times) (clips times)) ∧
  (isLane w 5 → lanes (.lmax x w) 1 (fun _ a b => max a b) never) ∧
  (isLane w 6 → lanes (.lmin x w) 1 (fun _ a b => min a b) never) ∧
  (isLane w 7 → lanes (.labs x w) 1 (sat magnitude) (clips magnitude)) ∧
  (isLane w 8 → lanes (.lshl x w) 1 (fun _ a _ => a * 2 ^ srcBOf w) never) ∧
  (isLane w 9 → lanes (.lsar x w) 1 (fun _ a _ => a / 2 ^ srcBOf w) never) ∧
  (isLane w 10 → lanes (.lcmpeq x w) 1 (fun _ a b => if a = b then -1 else 0) never) ∧
  (isLane w 11 → lanes (.lcmplt x w) 1 (fun _ a b => if a < b then -1 else 0) never)

/-- R134, R135 (Table 5-9): the MAC group. An accumulator write has latency 4, a read 2; MAC, MSU, ACADD and ACSAR take ACd as the most
recent write in program order left it (accumulator chaining), and an accumulator named in srcA as it has landed. -/
def Obligations.MacGroup : Prop := ∀ (s : State) (x : At) (w : Word),
  let toAc := fun (v : Int) => ([(.ac (dstOf w) (BitVec.ofInt 80 v), 4)] : Effs)
  let dot := fun (c : Core) => ([0, 1, 2, 3].map fun k => laneInt 18 k (c.pairA w) * laneInt 18 k (c.pairB w)).sum
  let acD := fun (c : Core) => (smGet (0 : Acc) c.acNew (dstOf w)).toInt
  let acA := fun (c : Core) => (smGet (0 : Acc) c.ac (srcAOf w)).toInt
  let rnd := fun (v : Int) => if srcBOf w = 0 then v else (v + 2 ^ (srcBOf w - 1)) / 2 ^ srcBOf w
  (isFn w 5 0 → Computes s x w (.macH4 x w) fun c => toAc (acD c + dot c)) ∧
  (isFn w 5 1 → Computes s x w (.msuH4 x w) fun c => toAc (acD c - dot c)) ∧
  (isFn w 5 2 → Computes s x w (.maczH4 x w) fun c => toAc (dot c)) ∧
  (isFn w 5 3 → Computes s x w (.macW x w) fun c => toAc (acD c + c.sA w * c.sB w)) ∧
  (isFn w 5 4 → Computes s x w (.msuW x w) fun c => toAc (acD c - c.sA w * c.sB w)) ∧
  (isFn w 5 5 → Computes s x w (.maczW x w) fun c => toAc (c.sA w * c.sB w)) ∧
  (isFn w 5 8 → Computes s x w (.acclr x w) fun _ => toAc 0) ∧
  (isFn w 5 9 → Computes s x w (.acwr x w) fun c => toAc (c.sA w)) ∧
  (isFn w 5 10 → Computes s x w (.acadd x w) fun c => toAc (acD c + if srcAOf w = dstOf w then acD c else acA c)) ∧
  (isFn w 5 11 → Computes s x w (.acsar x w) fun c => toAc (acD c / 2 ^ srcBOf w)) ∧
  (isFn w 5 12 → Computes s x w (.acrd x w) fun c => toW w (acA c) 2) ∧
  (isFn w 5 13 → Computes s x w (.acrds x w) fun c => toW w (clip 36 (rnd (acA c))) 2 ++ setsQ 36 (rnd (acA c)) 2) ∧
  (isFn w 5 14 → Computes s x w (.acrdd x w) fun c => toP w (clip 72 (rnd (acA c))) 2 ++ setsQ 72 (rnd (acA c)) 2) ∧
  (isFn w 5 15 → Computes s x w (.acrdx x w) fun c => toP w (acA c / 2 ^ 36) 2) ∧
  (isFn w 5 16 → Computes s x w (.acwrx x w) fun c => toAc ((c.zPA w % 2 ^ 44 * 2 ^ 36 + c.zB w : Nat)))

/-! ## Floating point -/

/-- R77, R137 (Table 5-11): the arithmetic of F36 (opcode 6) and F72 (opcode 7), from the exact result rounded once. With no enabled flag
raised the result is written with latency 4 or 5 and the raised flags are ORed into CS.FPCSR; otherwise FPE is taken and nothing is
written. The value rules themselves (`Fmt.add` and its like) are what `FloatValues` is about.
R77, R137: FDIV takes the divide unit for 20 core cycles (F36) or 38 (F72), FSQRT for 24, once the unit is free. What it raises lands
with it; with an enabled flag nothing is written and FPE (code 9) is recorded. -/
def Obligations.FloatArithmetic : Prop :=
  (∀ (s : State) (x : At) (w : Word),
  let f := if opcodeOf w = 6 then f36 else f72
  let lat := if opcodeOf w = 6 then 4 else 5
  let ends := fun (i : Instr) (r : Core → Nat × BitVec 5) => FloatEnds s x w i lat (fun c => (fpWr w lat (r c).1, (r c).2))
  (isFp w 0 → ends (.fadd x w) fun c => f.add c.rm c.trapUF false (c.fpA w) (c.fpB w)) ∧
  (isFp w 1 → ends (.fsub x w) fun c => f.add c.rm c.trapUF true (c.fpA w) (c.fpB w)) ∧
  (isFp w 2 → ends (.fmul x w) fun c => f.mul c.rm c.trapUF (c.fpA w) (c.fpB w)) ∧
  (isFp w 5 → ends (.fma x w) fun c => f.fma c.rm c.trapUF false false (c.fpA w) (c.fpB w) (c.fpD w)) ∧
  (isFp w 6 → ends (.fms x w) fun c => f.fma c.rm c.trapUF false true (c.fpA w) (c.fpB w) (c.fpD w)) ∧
  (isFp w 7 → ends (.fnma x w) fun c => f.fma c.rm c.trapUF true false (c.fpA w) (c.fpB w) (c.fpD w))) ∧
  (∀ (s s1 : State) (x : At) (w : Word), Issues s x w 0 s1 →
  let f := if opcodeOf w = 6 then f36 else f72
  let s2 := s1.divWait x
  let c := s2.core x.core
  let starts := fun (i : Instr) (lat : Nat) (r : Nat × BitVec 5) =>
    let due := c.startOf x.slot + lat
    let flags : List Land := if r.2 = 0 then [] else [.fp r.2]
    exec i s = .next (((s2.modCore x.core (fun c => { c with
        div := c.div ++ [{ lands := if r.2 &&& c.fpEnable = 0 then (fpWr w 0 r.1).map (·.1) ++ flags else flags
                           fault := if r.2 &&& c.fpEnable = 0 then none
                             else some ⟨9, fpeSub (r.2 &&& c.fpEnable), slotAddr c.pc x.slot, c.seq⟩
                           due := due, seq := c.seq }]
        divFree := due })).count x.core 0x13 1).retire x.core x.slot w [] .fall)
  (isFp w 3 → starts (.fdiv x w) (if opcodeOf w = 6 then 20 else 38) (f.div c.rm c.trapUF (c.fpA w) (c.fpB w))) ∧
  (isFp w 4 → starts (.fsqrt x w) 24 (f.sqrt c.rm c.trapUF (c.fpA w))))

/-- R138: FMIN and FMAX return the smaller or larger operand, −0 below +0, with latency 1; with one NaN the other operand; with two the
first, quieted. NV is raised for a signalling NaN, and is the only flag.
R139 (Table 5-12): FCMP writes Z, N, C and V from the relation, −0 equal to +0, with latency 2; a signalling NaN raises NV.
R137, R140: FABS, FNEG and FSGNJ alter the sign bit alone; FCLASS writes a single register, in both groups, with the one bit of
the operand's class. All have latency 1 and raise no flag. -/
def Obligations.FloatComparisons : Prop :=
  (∀ (s : State) (x : At) (w : Word),
  let f := if opcodeOf w = 6 then f36 else f72
  let pick := fun (big : Bool) (a b : Nat) =>
    let below := f.smag b < f.smag a ∨ (f.smag a = f.smag b ∧ f.sign b = true ∧ f.sign a = false)
    let above := f.smag a < f.smag b ∨ (f.smag a = f.smag b ∧ f.sign a = true ∧ f.sign b = false)
    if f.isNan a ∧ f.isNan b then f.quiet a else if f.isNan a then b else if f.isNan b then a
    else if big then (if above then b else a) else if below then b else a
  let nv := fun (a b : Nat) => if f.isSig a || f.isSig b then (16 : BitVec 5) else 0
  (isFp w 8 → FloatEnds s x w (.fmin x w) 1 fun c => (fpWr w 1 (pick false (c.fpA w) (c.fpB w)), nv (c.fpA w) (c.fpB w))) ∧
  (isFp w 9 → FloatEnds s x w (.fmax x w) 1 fun c => (fpWr w 1 (pick true (c.fpA w) (c.fpB w)), nv (c.fpA w) (c.fpB w)))) ∧
  (∀ (s : State) (x : At) (w : Word),
  let f := if opcodeOf w = 6 then f36 else f72
  let fl := fun (z n cy v : Bool) => ([(.fl 0 z, 2), (.fl 1 n, 2), (.fl 2 cy, 2), (.fl 3 v, 2)] : Effs)
  isFp w 12 → FloatEnds s x w (.fcmp x w) 2 fun c =>
    let a := c.fpA w
    let b := c.fpB w
    (if f.isNan a || f.isNan b then fl false false false true
     else if f.smag a < f.smag b then fl false true false false
     else if f.smag a = f.smag b then fl true false true false
     else fl false false true false,
     if f.isSig a || f.isSig b then 16 else 0)) ∧
  (∀ (s : State) (x : At) (w : Word),
  let f := if opcodeOf w = 6 then f36 else f72
  let top := if opcodeOf w = 6 then 2 ^ 35 else 2 ^ 71
  let cls := fun (a : Nat) =>
    let neg := a / top % 2 = 1
    let e := a / 2 ^ f.fb % 2 ^ f.eb
    let m := a % 2 ^ f.fb
    if e = 2 ^ f.eb - 1 then
      (if m = 0 then (if neg then 0 else 7) else if m < 2 ^ (f.fb - 1) then 8 else 9)
    else if e = 0 then (if m = 0 then (if neg then 3 else 4) else if neg then 2 else 5)
    else if neg then 1 else 6
  (isFp w 10 → Computes s x w (.fabs x w) fun c => fpWr w 1 (c.fpA w % top)) ∧
  (isFp w 11 → Computes s x w (.fneg x w) fun c => fpWr w 1 (if c.fpA w < top then c.fpA w + top else c.fpA w - top)) ∧
  (isFp w 14 → Computes s x w (.fsgnj x w) fun c => fpWr w 1 (c.fpA w % top + if c.fpB w < top then 0 else top)) ∧
  (isFp w 13 → Computes s x w (.fclass x w) fun c => toW w (2 ^ cls (c.fpA w) : Nat) 1))

/-- R141 to R143 (Table 5-13): the conversions, rounded under RM except the .Z forms, with latency 4 (opcode 6) or 5 (opcode 7).
R142: converting a finite value to an integer of `n` bits writes the value itself, exactly, when it is an integer in range, with no
flag; out of range, infinite or NaN raises NV and writes the largest value, or for a negative value the smallest. -/
def Obligations.FloatConversions : Prop :=
  (∀ (s : State) (x : At) (w : Word),
  let ends := fun (i : Instr) (r : Core → Nat × BitVec 5) =>
    FloatEnds s x w i (if opcodeOf w = 6 then 4 else 5) (fun c => (fpWr w (if opcodeOf w = 6 then 4 else 5) (r c).1, (r c).2))
  (isFn w 6 16 → ends (.cvt36W x w) fun c => f36.ofInt c.rm c.trapUF (c.sA w)) ∧
  (isFn w 6 17 → ends (.cvt36Wu x w) fun c => f36.ofInt c.rm c.trapUF (c.zA w)) ∧
  (isFn w 6 18 → ends (.cvtW36 x w) fun c => f36.toInt c.rm false 36 (c.zA w)) ∧
  (isFn w 6 19 → ends (.cvtWu36 x w) fun c => f36.toInt c.rm true 36 (c.zA w)) ∧
  (isFn w 6 20 → ends (.cvtW36Z x w) fun c => f36.toInt 1 false 36 (c.zA w)) ∧
  (isFn w 6 21 → ends (.cvt36B32 x w) fun c => (b32.widenExact f36 (c.zA w % 2 ^ 32), 0)) ∧
  (isFn w 6 22 → ends (.cvtB3236 x w) fun c => f36.narrow b32 c.rm c.trapUF (c.zA w)) ∧
  (isFn w 6 23 → ends (.cvt3672 x w) fun c => f72.narrow f36 c.rm c.trapUF (c.zPA w)) ∧
  (isFn w 7 16 → ends (.cvt72D x w) fun c => f72.ofInt c.rm c.trapUF (c.sPA w)) ∧
  (isFn w 7 17 → ends (.cvt72Du x w) fun c => f72.ofInt c.rm c.trapUF (c.zPA w)) ∧
  (isFn w 7 18 → ends (.cvtD72 x w) fun c => f72.toInt c.rm false 72 (c.zPA w)) ∧
  (isFn w 7 19 → ends (.cvtDu72 x w) fun c => f72.toInt c.rm true 72 (c.zPA w)) ∧
  (isFn w 7 20 → ends (.cvtD72Z x w) fun c => f72.toInt 1 false 72 (c.zPA w)) ∧
  (isFn w 7 21 → ends (.cvt72B64 x w) fun c => (b64.widenExact f72 (c.zPA w % 2 ^ 64), 0)) ∧
  (isFn w 7 22 → ends (.cvtB6472 x w) fun c => f72.narrow b64 c.rm c.trapUF (c.zPA w)) ∧
  (isFn w 7 23 → ends (.cvt7236 x w) fun c => widen3672 (c.zA w))) ∧
  (∀ (f : Fmt) (rm n a : Nat) (uns : Bool), (f = f36 ∧ n = 36 ∨ f = f72 ∧ n = 72) →
  let lo : Int := if uns then 0 else -(2 ^ (n - 1))
  let hi : Int := if uns then 2 ^ n - 1 else 2 ^ (n - 1) - 1
  (f.isNan a → f.toInt rm uns n a = ((hi % 2 ^ n).toNat, 16)) ∧
  (f.isInf a ∧ f.sign a = false → f.toInt rm uns n a = ((hi % 2 ^ n).toNat, 16)) ∧
  (f.isInf a ∧ f.sign a = true → f.toInt rm uns n a = ((lo % 2 ^ n).toNat, 16)) ∧
  (∀ v : Int, f.isNan a = false ∧ f.isInf a = false ∧ f.IsVal a v 0 →
    f.toInt rm uns n a =
      if v < lo then ((lo % 2 ^ n).toNat, 16) else if hi < v then ((hi % 2 ^ n).toNat, 16) else ((v % 2 ^ n).toNat, 0)))

/-- R72, R76, R137: when the exact sum or product of two finite operands is itself a finite number of the format, that number is
returned, under every rounding mode, and neither OF nor NX is raised.
R73, R74: an operand that is a NaN makes the result of FADD, FSUB, FMUL and FDIV the first NaN, quieted, with NV when an operand is
signalling; an invalid operation on others gives the default quiet NaN with NV; a finite non-zero value divided by a zero gives an
infinity with DZ; the root of −0 is −0. -/
def Obligations.FloatValues : Prop :=
  (∀ (f : Fmt) (rm x y z : Nat) (tu : Bool), f = f36 ∨ f = f72 →
  f.Finite x ∧ f.Finite y ∧ f.Finite z ∧ z < 2 ^ (1 + f.eb + f.fb) ∧ f.isZero z = false →
  (f.val z = f.val x + f.val y → (f.add rm tu false x y).1 = z ∧ (f.add rm tu false x y).2 &&& 5 = 0) ∧
  (f.val z = f.val x - f.val y → (f.add rm tu true x y).1 = z ∧ (f.add rm tu true x y).2 &&& 5 = 0) ∧
  (f.val z = f.val x * f.val y → (f.mul rm tu x y).1 = z ∧ (f.mul rm tu x y).2 &&& 5 = 0)) ∧
  (∀ (f : Fmt) (rm x y : Nat) (tu sub : Bool), f = f36 ∨ f = f72 →
  let nan := f.isNan x ∨ f.isNan y
  let first := f.quiet (if f.isNan x then x else y)
  let nv := if f.isSig x || f.isSig y then (16 : BitVec 5) else 0
  (nan → f.add rm tu sub x y = (first, nv) ∧ f.mul rm tu x y = (first, nv) ∧ f.div rm tu x y = (first, nv)) ∧
  (¬nan ∧ f.isInf x ∧ f.isInf y ∧ (f.sign x = f.sign y ↔ sub = true) → f.add rm tu sub x y = (f.qnan, 16)) ∧
  (¬nan ∧ (f.isInf x ∧ f.isZero y ∨ f.isZero x ∧ f.isInf y) → f.mul rm tu x y = (f.qnan, 16)) ∧
  (¬nan ∧ (f.isInf x ∧ f.isInf y ∨ f.isZero x ∧ f.isZero y) → f.div rm tu x y = (f.qnan, 16)) ∧
  (f.Finite x ∧ f.isZero x = false ∧ f.isZero y → f.div rm tu x y = (f.inf (f.sign x != f.sign y), 8)) ∧
  (¬nan ∧ f.isZero x → f.sqrt rm tu x = (x, 0)) ∧
  (¬nan ∧ f.isZero x = false ∧ f.sign x = true → f.sqrt rm tu x = (f.qnan, 16)))

/-! ## Memory instructions -/

/-- Table 9-3 (R230, R231, R232), checks 1 to 5, for a load or a store of `n` bytes at base value X with displacement D and with linear
addressing: SEG NULL, SEG PERMISSION, SEG BOUNDS, ALN MISALIGNED, or the offset, the linear address and the updated base. The
displacement counts in units of the access size; the update modes are none, after (the base alone is used) and before.
R230: in modulo mode a base above LIMIT is SEG BASE_RANGE, and any other gives an offset within 0 to LIMIT that differs from the
exact sum by a multiple of LIMIT + 1. -/
def Obligations.AddressChecks : Prop :=
  (∀ (c : Core) (w : Word), 16 ≤ opcodeOf w ∧ opcodeOf w ≤ 28 →
  let kind := if 24 ≤ opcodeOf w then XKind.store else XKind.load
  let n := if opcodeOf w = 23 then 1 else scaleOf (opcodeOf w)
  let d := c.seg (segOf w)
  let X := (c.srcA w).toNat
  let sum := (((X : Int) + dispOf w * scaleOf (opcodeOf w)) % 2 ^ 36).toNat
  let off := if updOf w = 1 then X else sum
  let la := (d.base.toNat + off) % 2 ^ 48
  let r := c.effAddr w kind.needsR kind.needsW
  let refused := (kind = .load ∧ d.r = false) ∨ (kind = .store ∧ d.w = false) ∨ (c.user ∧ d.user = false)
  d.mode = 0 →
  (d.v = false → r = .error ⟨3, 1, off, none⟩) ∧
  (d.v ∧ refused → r = .error ⟨3, 2, off, none⟩) ∧
  (d.v ∧ ¬refused ∧ d.limit.toNat < off + n - 1 → r = .error ⟨3, 4, off, none⟩) ∧
  (d.v ∧ ¬refused ∧ off + n - 1 ≤ d.limit.toNat ∧ off % (if n = 8 then 4 else n) ≠ 0 → r = .error ⟨7, 1, la, none⟩) ∧
  (d.v ∧ ¬refused ∧ off + n - 1 ≤ d.limit.toNat ∧ off % (if n = 8 then 4 else n) = 0 →
    r = .ok { off := off, la := la, newb := if updOf w = 0 then none else some sum })) ∧
  (∀ (d : SegDesc) (scale X : Nat) (disp : Int), d.mode = 1 →
  (d.limit.toNat < X → segAdd d scale X disp = none) ∧
  (X ≤ d.limit.toNat → ∃ n, segAdd d scale X disp = some n ∧ n ≤ d.limit.toNat ∧
    ((d.limit.toNat : Int) + 1) ∣ ((X : Int) + disp - n)))

/-- R146, R272: a load, a store, a segment-register transfer or an atomic whose address, translation or location fails a check takes
that exception. R269: one whose address no translation buffer holds freezes for its walk.
R148, R149 (Table 6-2): a load that has nothing to wait for writes the value read, with latency 3: LDB and LDH zero-extend, LDBS and
LDHS sign-extend, LDD fills a pair. The updated base has latency 1. -/
def Obligations.Loads : Prop :=
  (∀ (s s1 s2 : State) (x : At) (w : Word),
  Issues s x w 0 s1 →
  let frozen := fun (la : Nat) => s2.modCore x.core (fun c => { c with
    freeze := some { kind := .walk la c.ccyc, slot := x.slot, word := w, acc := none }, opW := some (c.opW.getD c.w) })
  ∀ i, i ∈ [(16, Instr.ldb x w), (17, .ldbs x w), (18, .ldh x w), (19, .ldhs x w), (20, .ldw x w), (21, .ldd x w), (22, .ldsg x w),
      (24, .stb x w), (25, .sth x w), (26, .stw x w), (27, .std x w), (28, .stsg x w), (29, .lr x w), (30, .sc x w),
      (31, .tas x w)] → opcodeOf w = i.1 →
    (∀ e, s1.resolve x.core w = (s2, .fault e) → exec i.2 s = .next (s2.trap x.core x.slot e)) ∧
    (∀ la, s1.resolve x.core w = (s2, .walk la) → exec i.2 s = .next (frozen la))) ∧
  (∀ (s s1 s2 : State) (x : At) (w : Word) (a : MemAcc),
  let n := scaleOf (opcodeOf w)
  Issues s x w 0 s1 → s1.resolve x.core w = (s2, .ok a) → 16 ≤ opcodeOf w ∧ opcodeOf w ≤ 21 → a.device = false →
  s2.isControl a.pa = false → s2.need x.core .load a (a.parts n) = .ready → s2.poisonAt x.core a n = none →
  let v := s2.readAcc x.core a n
  let ends := fun (i : Instr) (es : Effs) => exec i s =
    .next ((s2.markParts x.core a n false).retire x.core x.slot w (es ++ newBase w a.newb) .fall)
  (opcodeOf w = 16 → ends (.ldb x w) (toW w (v % 2 ^ 9 : Nat) 3)) ∧
  (opcodeOf w = 17 → ends (.ldbs x w) (toW w ((v : Int).bmod (2 ^ 9)) 3)) ∧
  (opcodeOf w = 18 → ends (.ldh x w) (toW w (v % 2 ^ 18 : Nat) 3)) ∧
  (opcodeOf w = 19 → ends (.ldhs x w) (toW w ((v : Int).bmod (2 ^ 18)) 3)) ∧
  (opcodeOf w = 20 → ends (.ldw x w) (toW w v 3)) ∧
  (opcodeOf w = 21 → ends (.ldd x w) (toP w v 3)))

/-- R148, R292: a store to cached memory in normal mode joins the merging buffer, and memory itself does not change; STB, STH and STW
store the low byte, half-word or word of the register read in the issue cycle, STD the pair.
R66, R88, R295: what an access of one part to memory reads, byte by byte from the lowest address up: the core's own youngest store
to the byte, otherwise the coherent value.
R88, R292: a store that the merging buffer takes is what the core itself then reads at the stored bytes, and changes no other byte it
reads. Entries of a line older than its youngest must be draining, as R292 keeps them. -/
def Obligations.Stores : Prop :=
  (∀ (s s1 s2 : State) (x : At) (w : Word) (a : MemAcc) (mb : List MbEntry),
  let n := scaleOf (opcodeOf w)
  let v := a.data.toNat % 2 ^ (9 * n)
  let parts := match a.hi with
    | none => [(a.pa, valBytes v n)]
    | some h => [(a.pa, valBytes (v % 2 ^ 36) 4), (h, valBytes (v / 2 ^ 36) 4)]
  Issues s x w 0 s1 → s1.resolve x.core w = (s2, .ok a) → 24 ≤ opcodeOf w ∧ opcodeOf w ≤ 27 → a.device = false →
  (s2.core x.core).ft = false → (∀ p ∈ parts, s2.isCached p.1) →
  mbPutAll (s2.chunkOf x.core) (s2.core x.core).ccyc (s2.core x.core).mb parts = some mb →
  let t := (s2.storeItem x.core a.pa n v).modCore x.core (fun c => { c with mb := mbPress mb })
  t.mem = s2.mem ∧
  ∀ i, i ∈ [(24, Instr.stb x w), (25, .sth x w), (26, .stw x w), (27, .std x w)] → opcodeOf w = i.1 →
    exec i.2 s = .next (t.retire x.core x.slot w (newBase w a.newb) .fall)) ∧
  (∀ (s : State) (k n i : Nat) (a : MemAcc),
  a.hi = none → s.isLocal a.pa = false → a.device = false → i < n →
  BitVec.ofNat 9 (s.readAcc k a n / 2 ^ (9 * i)) = ((s.core k).mbByte (a.pa + i)).getD (s.mem.byte (a.pa + i))) ∧
  (∀ (c : Core) (mb : List MbEntry) (pa chunk now : Nat) (bs : List Byte),
  pa % 64 + bs.length ≤ 64 → ((c.mb.filter (·.line == lineOf pa)).dropLast.all (·.draining)) →
  mbPut c.mb pa bs chunk now = some mb → ∀ q,
    ({ c with mb := mbPress mb } : Core).mbByte q =
      if pa ≤ q ∧ q < pa + bs.length then bs[q - pa]? else c.mbByte q)

/-- R226: an image of 16 bytes at a multiple of 16 is read by LDSG into a segment register with latency 4; SEG ILL_FORMED when it is not
well formed. R228: STSG stores the image of a segment register.
R225, Table 9-1: the image of a well-formed descriptor is read back as that descriptor, and one with V = 0 as the null descriptor. -/
def Obligations.SegmentTransfers : Prop :=
  (∀ (s s1 s2 : State) (x : At) (w : Word) (a : MemAcc),
  Issues s x w 0 s1 → s1.resolve x.core w = (s2, .ok a) → a.device = false → s2.isControl a.pa = false →
  let words := fun i => BitVec.ofNat 36 (s2.readAcc x.core a 16 / 2 ^ (36 * i))
  (opcodeOf w = 22 → s2.need x.core .load a (a.parts 16) = .ready → s2.poisonAt x.core a 16 = none →
    match segOfImage words with
    | none => exec (.ldsg x w) s = .next ((s2.markParts x.core a 16 false).trap x.core x.slot ⟨3, 5, a.off, none⟩)
    | some d => ((s2.core x.core).user = false ∨ d.v = false ∨ d.user = true) →
      exec (.ldsg x w) s = .next ((s2.markParts x.core a 16 false).retire x.core x.slot w
        ((.sg (dstOf w) d, 4) :: newBase w a.newb) .fall)) ∧
  (opcodeOf w = 28 → (s2.core x.core).ft = false → a.hi = none → s2.isCached a.pa → ∀ mb,
    let d := (s2.core x.core).seg (dstOf w)
    let v := (d.image 0).toNat + 2 ^ 36 * (d.image 1).toNat + 2 ^ 72 * (d.image 2).toNat + 2 ^ 108 * (d.image 3).toNat
    mbPut (s2.core x.core).mb a.pa (valBytes v 16) (s2.chunkOf x.core) (s2.core x.core).ccyc = some mb →
    exec (.stsg x w) s = .next (((s2.storeItem x.core a.pa 16 v).modCore x.core (fun c => { c with mb := mbPress mb })).retire
      x.core x.slot w (newBase w a.newb) .fall))) ∧
  (∀ (d : SegDesc),
  (d.v = false → segOfImage d.image = some SegDesc.null) ∧
  (d.v = true → d.base.toNat % 16 = 0 → limitOk d.mode.toNat d.limit.toNat → segOfImage d.image = some d))

/-- R153 to R155: LR reads a word and reserves its line for 64 core cycles; SC with the reservation held stores, sets Z and gives the
reservation up, and without it stores nothing and clears Z; TAS reads the word, stores 1, and sets Z when the word was 0.
R152: PREF always completes: it writes no data register and no memory, and takes no exception; its base is updated when the sum can be
formed, even when the prefetch is dropped, and in fixed-timing mode, or with every miss slot taken, it is dropped. R173: CMO names one
line; on a line that nothing holds back it acts on every Grove; on one that is not cached memory it has no effect; invalidation is
privileged. -/
def Obligations.AtomicsAndLines : Prop :=
  (∀ (s s1 s2 : State) (x : At) (w : Word) (a : MemAcc),
  Issues s x w 0 s1 → s1.resolve x.core w = (s2, .ok a) → a.device = false → s2.isControl a.pa = false → (s2.core x.core).mb = [] →
  let k := x.core
  let s3 := s2.modCore k Core.drainAll
  s3.replaying k = false →
  let v := s3.readAcc k a 4
  let held := match (s3.core k).reservation with | some r => r.line == a.pa / 64 | none => false
  (opcodeOf w = 29 → s3.need k .lr a [(a.pa, 4)] = .ready → a.hi = none → s3.poisonAt k a 4 = none →
    exec (.lr x w) s = .next ((((s3.clearRes k (a.pa / 64)).markParts k a 4 false).modCore k (fun c =>
      { c with reservation := some { line := a.pa / 64, deferUntil := c.ccyc + 64 } })).retire k x.slot w (toW w v 3) .fall)) ∧
  (opcodeOf w = 30 → s3.need k .sc a [(a.pa, 4)] = .ready → a.hi = none → held = true →
    exec (.sc x w) s = .next ((((s3.storeItem k a.pa 4 (a.data.toNat % 2 ^ 36)).writeNow k a.pa
      (valBytes (a.data.toNat % 2 ^ 36) 4)).noRes k).retire k x.slot w [(.fl 0 true, 3)] .fall)) ∧
  (opcodeOf w = 30 → a.hi = none → held = false → (s3.core k).ft = false → (s3.count k 0x2D 1).replaying k = false →
    smFind? s2.mftc k = none →
    exec (.sc x w) s = .next (((s3.count k 0x2D 1).noRes k).retire k x.slot w [(.fl 0 false, 3)] .fall)) ∧
  (opcodeOf w = 31 → s3.need k .tas a [(a.pa, 4)] = .ready → a.hi = none → s3.poisonAt k a 4 = none →
    exec (.tas x w) s = .next (((((s3.markParts k a 4 false).storeItem k a.pa 4 1).writeNow k a.pa (valBytes 1 4)).noRes k).retire
      k x.slot w (toW w v 3 ++ [(.fl 0 (v == 0), 3)]) .fall))) ∧
  (∀ (s s1 : State) (x : At) (w : Word), Issues s x w 0 s1 →
  let k := x.core
  (opcodeOf w = 23 →
    exec (.pref x w) s = .next ((s1.prefDo k w).retire k x.slot w
      (if updOf w = 0 then [] else newBase w (segAdd ((s1.core k).seg (segOf w)) 64 ((s1.core k).srcA w).toNat (dispOf w * 64))) .fall) ∧
    (s1.prefDo k w).mem = s1.mem ∧ ((s1.core k).ft ∨ 32 ≤ (s1.core k).missSlots → s1.prefDo k w = s1.count k 0x2E 1)) ∧
  ∀ i, i ∈ [(1, Instr.cmoClean x w), (2, .cmoInvalidate x w), (3, .cmoCleanAndInvalidate x w)] →
    isSys w 11 ∧ argOf w % 4 = i.1 →
    (i.1 ≠ 1 ∧ (s1.core k).user → exec i.2 s = .next (s1.trap k x.slot ⟨2, 1, 0, none⟩)) ∧
    (∀ s2 y n, ¬(i.1 ≠ 1 ∧ (s1.core k).user) →
      s1.access k (if i.1 = 1 then .cmoClean else .cmoInv) 1 (((s1.core k).pairA w).toNat % 2 ^ 48) = (s2, .ok y, n) →
      let s3 := (s2.freezeFor k n).modCore k Core.drainAll
      ((s3.isDevice y ∨ ¬s3.isCached y.pa) → exec i.2 s = .next (s3.retire k x.slot w [] .fall)) ∧
      (s3.isDevice y = false → s3.isCached y.pa → (s3.core k).mb = [] → s3.homeFree (lineOf y.pa) = true →
        exec i.2 s = .next ((s3.cmoLine i.1 (lineOf y.pa)).retire k x.slot w [] .fall))))

/-- R187, R200: an access that needs a line from beyond the core freezes the pipeline, and LOAD_MISS_FILL, once nothing blocks its
request and none that R363 puts before it waits for the same unit, ends the freeze: the core cycles pass, the Stand obtains the line,
and the access goes on with it. An SC whose reservation is gone asks for nothing, and goes on once its time has passed.
R292, R293: an entry into which no store has merged for 32 core cycles is asked to drain; it starts at once when no older entry of its
line is left, and asking changes nothing else of the buffer. R294: a draining entry that nothing blocks is accepted, and leaves the
buffer.
R157: when its 64 core cycles are over, a reservation stays and defers nobody any longer. -/
def Obligations.MissesAndDrains : Prop :=
  (∀ (s : State) (k : Nat) (w : Word) (a : MemAcc),
  let kind := kindOf (opcodeOf w)
  (∀ pa, s.need k kind a (a.parts (sizeOf' (opcodeOf w))) = .fetch pa →
    ∃ s', s.attempt k w a = .freeze s' (.miss (pa / 64)) (some { a with since := (s.core k).ccyc })) ∧
  (∀ slot cycles syn retry, a.hi = none →
    (s.core k).freeze = some ⟨.miss (a.pa / 64), slot, w, some a⟩ → (s.core k).run = .running →
    let onward := fun (u : State) =>
      State.finish k slot w ((u.modCore k (fun c => { c with freeze := none })).attempt k w { a with got := a.pa / 64 :: a.got })
    (kind = .sc ∧ s.scHolds k a.pa = false →
      exec (.loadMissFill k (some cycles) syn retry) s = .next (onward ((s.missTime k kind a a.pa cycles).withdraw 1 k))) ∧
    (¬(kind = .sc ∧ s.scHolds k a.pa = false) →
      let s1 := s.offerFor k kind a.pa
      s1.blocked k kind a.pa = false → s1.outranked k kind a.pa = false →
      exec (.loadMissFill k (some cycles) syn retry) s =
        .next ((onward ((s1.missTime k kind a a.pa cycles).serve k kind a.device a.pa syn retry)).finishFill k (a.pa / 64))))) ∧
  (∀ (s : State) (k line : Nat) (e : MbEntry),
  (((s.core k).mb.find? (fun e => e.line == line && !e.asked)) = some e →
    let s1 := s.passTo k (e.last + 32)
    e.last + 32 ≤ (s1.core k).ccyc →
    exec (.mbIdleTimeout k line) s = .next (s1.modCore k (fun c => { c with mb := mbAsk (fun d => d == e) c.mb }))) ∧
  (∀ cycles syn retry, ((s.core k).mb.find? (fun e => e.line == line && e.draining)) = some e →
    let s1 := s.offerFor k .store (line * 64)
    s1.blocked k .store (line * 64) = false →
    let s2 := if (s1.core k).waitsDrain then s1.passCycles k (s1.within 1 (s1.rowTimes k .store false (line * 64)).2 cycles) else s1
    exec (.drainAccept k line cycles ⟨syn, retry⟩) s =
      .next ((((s2.serve k .store false (line * 64) syn retry).acceptEntry k e).modCore k
        (fun c => { c with mb := mbLeave c.mb e })).finishDrain k line))) ∧
  (∀ (mb : List MbEntry) (p : MbEntry → Bool) (i : Nat) (e : MbEntry), mb[i]? = some e →
    (mbAsk p mb).length = mb.length ∧
    (mbAsk p mb)[i]? = some { e with
      asked := e.asked || p e
      draining := e.draining || ((e.asked || p e) && !((mb.take i).any (·.line == e.line))) }) ∧
  (∀ (s : State) (k : Nat) (r : Reservation),
  (s.core k).reservation = some r → (s.core k).xops = [] →
  ∃ t, exec (.reservationDeferralEnd k) s = .next t ∧ (t.core k).reservation = some ⟨r.line, 0⟩ ∧ t.mem = s.mem)

/-- R88, R294: when an entry is accepted, memory holds its bytes, and every other byte keeps its value. No subchannel has failed, and the
stores of bytes are in their canonical form.
R88, R319: a Stand that obtains a line, readable or with ownership, changes the value of no byte of memory.
R319, R336: a Stand that obtains a line holds it. With ownership, no other Stand of its Grove holds it then; nor does any other Stand
of the package, when the line's home lists it and the Grove had to ask. -/
def Obligations.CoherentValues : Prop :=
  (∀ (s : State) (k : Nat) (e : MbEntry),
  s.mem.failed = [] → s.mem.Canonical → smRising 0 e.bytes = true → (∀ b ∈ e.bytes, b.1 < 64) → ∀ pa,
    (s.acceptEntry k e).mem.byte pa =
      if pa / 64 = e.line then (smFind? e.bytes (pa % 64)).getD (s.mem.byte pa) else s.mem.byte pa) ∧
  (∀ (s : State) (stand line pa : Nat), s.mem.failed = [] → s.mem.Canonical →
  (s.gainShared stand line).mem.byte pa = s.mem.byte pa ∧ (s.gainOwn stand line).mem.byte pa = s.mem.byte pa) ∧
  (∀ (s : State) (stand line : Nat), stand < 60 →
  ((s.gainShared stand line).mem.l2line stand line).isSome ∧ ((s.gainOwn stand line).mem.l2line stand line).isSome ∧
  (∀ t ∈ (s.gainOwn stand line).mem.l2, t.line = line → t.stand / 5 = stand / 5 → t.stand = stand ∧ t.excl = true) ∧
  ((s.mem.dirEnt line).isSome → (∀ g ∈ s.mem.gtag (stand / 5) line, g.st ≠ .e ∧ g.st ≠ .m) →
    ∀ t ∈ (s.gainOwn stand line).mem.l2, t.line = line → t.stand < 60 → t.stand = stand))

/-- R242, R244, R259: with TR = 0 an address below 2^42 is the physical address, once the compartment that owns it is the core's; an
address from 2^42 up is PGF PHYSICAL. A CMO of the control space or a Clearing is not checked for ownership (R173). At a leaf the permissions come first, in the order USER, READ, WRITE, EXEC, then ownership,
then the marks A and D, which neither a CMO nor a speculative walk checks (R257, R263); each names the level of the leaf.
R249, R252: a walk reads one 8-byte entry for each level from 4 down to the leaf, at the table's address plus 8 times the 9 bits of
the linear address for that level; an entry with V = 0 is PGF INVALID, and a malformed one is WLK. -/
def Obligations.Translation : Prop :=
  (∀ (s : State) (x : XCtx) (kind : XKind) (la level size : Nat) (e : DWord),
  (2 ^ 42 ≤ la → s.flat x kind la = .error (4, 6)) ∧
  (la < 2 ^ 42 → s.physFor x kind la = none → s.flat x kind la = .ok { pa := la, device := s.isControl la, level := 0 }) ∧
  (∀ n, x.cmp = some n → s.region la = .dram → s.owns n la = false → la < 2 ^ 42 → s.flat x kind la = .error (4, 6)) ∧
  (kind.isCmo = true → s.isControl la = true ∨ isClearing la = true → s.physFor x kind la = none) ∧
  (kind.isCmo = false → s.physFor x kind la = s.physFault x.cmp x.user la) ∧
  let pa := efld e 41 12 * 4096 / 2 ^ size * 2 ^ size + la % 2 ^ size
  let r := s.useLeaf x kind la e level size
  let userBad := (x.user = true ∧ ebit e 5 = false) ∨ (kind.isFetch = true ∧ x.user = false ∧ ebit e 5 = true)
  let readBad := kind.needsR = true ∧ ebit e 2 = false
  let writeBad := kind.needsW = true ∧ ebit e 3 = false
  let execBad := kind.isFetch = true ∧ (ebit e 4 = false ∨ (efld e 11 9 = 1 ∧ s.isLocal pa = false) ∨ s.isControl pa = true)
  let fits : Except (Nat × Nat) Xl := .ok { pa := pa, device := s.isControl pa || efld e 11 9 == 1, level := level }
  (userBad → r = .error (4, 5 + 8 * level)) ∧
  (¬userBad ∧ readBad → r = .error (4, 2 + 8 * level)) ∧
  (¬userBad ∧ ¬readBad ∧ writeBad → r = .error (4, 3 + 8 * level)) ∧
  (¬userBad ∧ ¬readBad ∧ ¬writeBad ∧ execBad → r = .error (4, 4 + 8 * level)) ∧
  (¬userBad ∧ ¬readBad ∧ ¬writeBad ∧ ¬execBad →
    (∀ f, s.physFor x kind pa = some f → r = .error (4, f + 8 * level)) ∧
    (s.physFor x kind pa = none → kind.isCmo = true ∨ kind.ahead = true → r = fits) ∧
    (s.physFor x kind pa = none → kind.isCmo = false → kind.ahead = false →
      (ebit e 7 = false → r = .error (6, 1 + 8 * level)) ∧
      (ebit e 7 = true ∧ kind.needsD = true ∧ ebit e 8 = false → r = .error (6, 2 + 8 * level)) ∧
      (ebit e 7 = true ∧ (kind.needsD = false ∨ ebit e 8 = true) → r = fits)))) ∧
  (∀ (s : State) (x : XCtx) (la t L : Nat) (rest : List Nat),
  let ea := t + 8 * (la / 2 ^ (12 + 9 * (L - 1)) % 512)
  let e := BitVec.ofNat 72 (s.mem.read ea 8)
  let r := s.walkFrom x la (L :: rest) t
  s.tableCheck x.cmp ea = 0 → s.mem.poisoned (ea / 64) = false →
  (ebit e 0 = false → r = (.fault 4 1 L 0, [ea])) ∧
  (ebit e 0 = true ∧ malformed x.pow2 L e = true → r = (.fault 5 4 L 0, [ea])) ∧
  (ebit e 0 = true ∧ malformed x.pow2 L e = false ∧ ebit e 1 = true → r = (.leaf e L, [ea])) ∧
  (ebit e 0 = true ∧ malformed x.pow2 L e = false ∧ ebit e 1 = false →
    r = ((s.walkFrom x la rest (efld e 41 12 * 4096)).1, ea :: (s.walkFrom x la rest (efld e 41 12 * 4096)).2)))

/-! ## Control and system instructions -/

/-- R161 to R163 (Table 4-12): BR, CALL and JRL test their condition on FL; a taken BR or CALL goes to its own address plus four times
the displacement, modulo 2^36, CALL writing its own address plus 4 to W63; a taken JRL goes to the register's value, read before the
link is written, and raises ALN MISALIGNED when it is no multiple of 4.
Table 4-12: the sixteen conditions on FL = Q V C N Z. -/
def Obligations.Branches : Prop :=
  (∀ (s s1 : State) (x : At) (w : Word), Issues s x w 0 s1 →
  let c := s1.core x.core
  let own := if x.slot = .second then c.pc + 4 else c.pc
  let target := (((own : Int) + 4 * disp25Of w) % 2 ^ 36).toNat
  let link := fun (r : Nat) => ([(.w r (BitVec.ofNat 36 (own + 4)), 1)] : Effs)
  let ends := fun (i : Instr) (es : Effs) (taken : Bool) (dest : Nat) =>
    exec i s = .next (s1.retire x.core x.slot w es (.branch taken dest))
  let t := condHolds (condOf w) c.fl
  let u := condHolds (fld w 3 0) c.fl
  let a := (c.srcA w).toNat
  (opcodeOf w = 32 → ends (.br x w) [] t target) ∧
  (opcodeOf w = 33 → ends (.call x w) (if t then link 63 else []) t target) ∧
  (opcodeOf w = 34 ∧ ¬(u = true ∧ a % 4 ≠ 0) → ends (.jrl x w) (if u then link (dstOf w) else []) u a) ∧
  (opcodeOf w = 34 ∧ u = true ∧ a % 4 ≠ 0 → exec (.jrl x w) s = .next (s1.trap x.core x.slot ⟨7, 1, a, none⟩))) ∧
  (∀ (z n c v q : Bool),
  let fl : BitVec 5 := BitVec.ofNat 5 (z.toNat + 2 * n.toNat + 4 * c.toNat + 8 * v.toNat + 16 * q.toNat)
  (List.range 16).map (fun i => condHolds i fl) =
    [true, z, !z, c, !c, n, !n, v, !v, c && !z, !c || z, n == v, n != v, !z && n == v, z || n != v, q])

/-- R164 to R167: RPT and RPTU put their count in RC (after a marked ERET, the count that ERET gave it); with a count of 0 execution goes
on after the target; otherwise the repeat is in progress. RPT takes 18 bits or a register; RPTU takes 9 bits.
R164: an iteration of a repeat counts RC down; the one that makes it 0 ends the repeat, and execution goes on after the target. The
core does not record, and nothing of it is in flight. -/
def Obligations.Repeats : Prop :=
  (∀ (s s1 : State) (x : At) (w target : Word), Issues s x w target s1 →
  let c := s1.core x.core
  let starts := fun (i : Instr) (unint : Bool) (count : Word) =>
    let n := if c.resume then c.rc else count
    exec i s = .next ((s1.modCore x.core (fun c =>
      if n = 0 then { c with pc := (c.pc + 8) % 2 ^ 36, resume := false }
      else { c with rep := some { pc := c.pc, word := w, target := target, unint := unint }, resume := false })).retire
        x.core x.slot w [(.rc n, 1)] .set)
  (opcodeOf w = 35 → starts (.rpt x w target) false
    (if fld w 28 28 = 1 then c.reg (fld w 22 17) else BitVec.ofNat 36 (fld w 17 0))) ∧
  (opcodeOf w = 36 → starts (.rptu x w target) true (BitVec.ofNat 36 (fld w 8 0)))) ∧
  (∀ (s : State) (k : Nat) (w : Word) (r : Rep),
  let c := s.core k
  c.rep = some r → c.pend = [] → c.div = [] → c.xops = [] → smFind? s.mftc k = none →
  let t := (s.retire k .iter w [] .fall).core k
  t.rc = c.rc - 1 ∧ (c.rc = 1 → t.rep = none ∧ t.pc = (r.pc + 8) % 2 ^ 36) ∧ (c.rc ≠ 1 → t.rep = some r ∧ t.pc = c.pc))

/-- R118, R119: a word that is undefined, fetched and issued alone where nothing comes first, raises UD with its smallest sub-code, and CS.FAULTWORD
takes the word. -/
def Obligations.UndefinedWords : Prop := ∀ (s s1 : State) (k sub : Nat) (w v target : Word),
  classOf w ≠ .pfx → (s.udOf k .single w target).isSome →
  (s.wake k).slotFits k .single w target = true → (s.wake k).fetch k ((s.wake k).core k).pc = .ok s1 → s1.noneFirst k = true →
  s1.udOf k .single w target = some (sub, v) →
  exec (.undefinedEncoding ⟨k, .single⟩ w target) s = .next (s1.trap k .single ⟨1, sub, 0, some v⟩) ∧ v = w ∧
  ∀ c ∈ udCauses (s1.xCauses k) w, sub ≤ c

/-- R82, R83, R169 (Table 3-5): CSRR writes the register's value with latency 2, CS.TIME and CS.EADDR as a pair; in user mode a register
that user mode may not read raises PRIV with sub-code 2. A core that neither records nor replays reads CS.TIME as the package time,
CS.RNG as a draw, and CS.IPEND as its pending sources. -/
def Obligations.CsReads : Prop := ∀ (s s1 : State) (x : At) (w : Word), Issues s x w 0 s1 → isSys w 0 →
  let k := x.core
  let c := s1.core k
  let n := argOf w
  let one := fun (s' : State) (v : Word) => exec (.csrr x w) s = .next (s'.retire k x.slot w [(.w (dstOf w) v, 2)] .fall)
  let two := fun (s' : State) (v : Nat) => exec (.csrr x w) s = .next (s'.retire k x.slot w (toP w v 2) .fall)
  let plain := [c.status, c.fpcsr, s1.coreid k, c.faultword, c.epc, c.estatus, c.ecause, 0, c.vbase, smGet 0 c.scratch 0,
    smGet 0 c.scratch 1, smGet 0 c.scratch 2, smGet 0 c.scratch 3, c.segtab, c.ptbase, c.asid, 0, 0, c.imask &&& 0xFFFFFFFF, 0, c.savedrc]
  (c.user = true ∧ n ∉ [0, 1, 2, 16, 17] → exec (.csrr x w) s = .next (s1.trap k x.slot ⟨2, 2, 0, none⟩)) ∧
  ((c.user = false ∨ n ∈ [0, 1, 2]) → n ∉ [7, 16, 17, 19] → ∀ v, plain[n]? = some v → one s1 v) ∧
  (c.user = false ∧ n = 7 → two s1 c.eaddr.toNat) ∧
  (smFind? s1.mftc k = none ∧ s1.replaying k = false →
    (n = 16 → two s1 (s1.time % 2 ^ 72)) ∧
    (n = 17 → one { s1 with draws := s1.draws + 1 } (Config.rngDraw s1.draws)) ∧
    (n = 19 ∧ c.user = false → one s1 (s1.ipend k)))

/-- R83, R170 (Tables 3-5 to 3-7): CSRW, once every short write has landed, writes the fields the register has; in user mode a register
user mode may not write raises PRIV. A reserved rounding mode, and FT = 1 on a core that no H contract covers, leave the register and
set CSREJ; a change of FT waits for FT_MODE_CHANGE. CSRX reads and writes.
R83, R169, R196 (Tables 3-5 to 3-7, 11-2): what a write leaves in each CS register. -/
def Obligations.CsWrites : Prop :=
  (∀ (s s1 : State) (x : At) (w : Word), Issues s x w 0 s1 →
  let k := x.core
  let n := argOf w
  let s2 := s1.settle k
  let v := if n = 7 then (s2.core k).regPair (srcAOf w) else ((s2.core k).reg (srcAOf w)).setWidth 72
  (isSys w 1 ∧ (s1.core k).user = true ∧ n ∉ [1, 2, 16, 17] → exec (.csrw x w) s = .next (s1.trap k x.slot ⟨2, 2, 0, none⟩)) ∧
  (isSys w 1 ∧ ((s1.core k).user = false ∨ n ∈ [1, 2, 16, 17]) →
    exec (.csrw x w) s = .next ((s2.csPut k n v).retire k x.slot w [] .fall)) ∧
  (isSys w 2 ∧ (s1.core k).user = true ∧ n ∉ [1, 2, 16, 17] → exec (.csrx x w) s = .next (s1.trap k x.slot ⟨2, 2, 0, none⟩)) ∧
  (isSys w 2 ∧ ((s1.core k).user = false ∨ n ∈ [1, 2, 16, 17]) →
    exec (.csrx x w) s = .next (((s2.csRead k n).1.csPut k n v).retire k x.slot w (csResult n (dstOf w) (s2.csRead k n).2) .fall))) ∧
  (∀ (c : Core) (covered : Bool) (v : DWord),
  let x : Word := v.extractLsb' 0 36
  let wr := fun n => c.csWrite covered n v
  let rejected := { c with status := c.status ||| 0x80 }
  (x.getLsbD 3 = true ∧ covered = false → wr 0 = rejected) ∧
  (x.getLsbD 3 = false ∨ covered = true →
    ((wr 0).status &&& 7 = x &&& 7) ∧ ((wr 0).status &&& 8 = c.status &&& 8) ∧
    ((wr 0).status.getLsbD 7 = (c.status.getLsbD 7 && !x.getLsbD 7)) ∧
    (wr 0).ftChange = (if x.getLsbD 3 = c.status.getLsbD 3 then none else some (x.getLsbD 3))) ∧
  (5 ≤ x.toNat % 8 → wr 1 = rejected) ∧ (x.toNat % 8 < 5 → wr 1 = { c with fpcsr := x &&& 0xF8FF }) ∧
  wr 4 = { c with epc := x } ∧ wr 5 = { c with estatus := x &&& 0x8F } ∧ wr 7 = { c with eaddr := v.extractLsb' 0 48 } ∧
  (x.toNat % 16 = 15 → wr 6 = rejected) ∧
  (x.toNat % 16 ≠ 15 ∧ x.toNat / 65536 % 16 ∈ [0, 8, 9, 11] → wr 6 = { c with ecause := x &&& 0x3000FFFFF }) ∧
  (x.toNat / 65536 % 16 ∉ [0, 8, 9, 11] → wr 6 = rejected) ∧
  (wr 8).vbase.toNat = x.toNat / 1024 * 1024 ∧
  (∀ i < 4, smGet (0 : Word) (wr (9 + i)).scratch i = x) ∧
  wr 13 = { c with segtab := x &&& 0xFFFFFF0FF } ∧ (wr 14).ptbase.toNat = x.toNat % 2 ^ 30 ∧ (wr 15).asid.toNat = x.toNat % 2 ^ 12 ∧
  (wr 18).imask.toNat = x.toNat % 2 ^ 32 ∧ wr 20 = { c with savedrc := x } ∧
  ∀ n, n ∈ [2, 3, 16, 17, 19] → wr n = c)

/-- R175: SYSCALL takes exception 13 and BREAK exception 14, with their argument as sub-code, in either mode.
R272 (Tables 11-2 and 11-3): an exception entry saves PC in CS.EPC, the status in CS.ESTATUS, the address in CS.EADDR and the cause,
with NEST and the repeat mark, in CS.ECAUSE; it clears MODE and IE, gives up the reservation, and goes to the vector table's entry
for the code. A machine check that cannot be handled (R592) is another matter. The core has no Understorey operation in flight.
R175, R272: what an exception of a word saves: CS.EPC names the word, the even word of a pair for its first slot, and for SYSCALL the
word after it; UD saves the offending word. -/
def Obligations.ExceptionEntry : Prop :=
  (∀ (s : State) (x : At) (w : Word),
  (isSys w 3 → Traps s x w (.syscall x w) ⟨13, argOf w, 0, none⟩) ∧ (isSys w 4 → Traps s x w (.brk x w) ⟨14, argOf w, 0, none⟩)) ∧
  (∀ (s : State) (k : Nat) (e : Entry),
  let c := s.core k
  ¬(e.code = 12 ∧ c.fatalMce e.sub = true) → c.xops = [] →
  let t := (s.enter k e).core k
  t.epc = BitVec.ofNat 36 e.epc ∧ t.eaddr = BitVec.ofNat 48 e.addr ∧ t.estatus = c.status &&& 0x8F ∧
  t.status.getLsbD 0 = false ∧ t.status.getLsbD 1 = false ∧ (∀ i, 2 ≤ i → t.status.getLsbD i = c.status.getLsbD i) ∧
  t.ecause = BitVec.ofNat 36 (e.code + 16 * (e.sub % 4096) + 65536 * e.orig +
    (if c.rep.isSome ∨ c.resume then 2 ^ 32 else 0) + if c.status.getLsbD 0 = false ∧ c.status.getLsbD 1 = false then 2 ^ 33 else 0) ∧
  t.pc = (c.vbase.toNat / 1024 * 1024 + 64 * e.code) % 2 ^ 36 ∧
  t.reservation = none ∧ t.rep = none ∧ t.pair = none ∧ t.freeze = none ∧ t.run = .running ∧
  (c.pend = [] ∧ c.div = [] → t.savedrc = if c.rep.isSome ∨ c.resume then c.rc else c.savedrc) ∧
  t.vbase = c.vbase ∧ t.scratch = c.scratch ∧ t.segtab = c.segtab ∧ t.ptbase = c.ptbase ∧ t.asid = c.asid ∧
  t.imask = c.imask ∧ t.faultword = c.faultword) ∧
  (∀ (s : State) (k : Nat) (slot : Slot) (e : Exc),
  let c := s.core k
  e.code ≠ 12 → c.xops = [] →
  let t := (s.trap k slot e).core k
  t.epc = BitVec.ofNat 36 (c.pc + (if slot = .second then 4 else 0) + if e.code = 13 then 4 else 0) ∧
  t.faultword = e.word.getD c.faultword)

/-- R176, R203, R617: ERET in supervisor mode returns: PC from CS.EPC without its two low bits, MODE, IE and TR from CS.ESTATUS, RC from
CS.SAVEDRC under the repeat mark; the reservation is given up and parked operations resume at the next issue. A change of FT waits for
FT_MODE_CHANGE, and one that no contract covers sets CSREJ. In user mode ERET raises PRIV.
R182: the short writes in flight at an ERET land before its target issues. -/
def Obligations.ExceptionReturn : Prop := ∀ (s s1 : State) (x : At) (w : Word), Issues s x w 0 s1 → isSys w 5 →
  let k := x.core
  let c := (s1.eretDrain k).core k
  let t := c.eret (s1.covered k)
  ((s1.core k).user = true → exec (.eret x w) s = .next (s1.trap k x.slot ⟨2, 1, 0, none⟩)) ∧
  ((s1.core k).user = false →
    exec (.eret x w) s = .next (((s1.eretDrain k).modCore k (fun c => c.eret (s1.covered k))).retire k x.slot w [] .set)) ∧
  ((s1.core k).xops = [] → ∀ p ∈ c.pend, p.due ≤ c.pcyc + 1) ∧
  t.pc = c.epc.toNat / 4 * 4 ∧ (∀ i < 3, t.status.getLsbD i = c.estatus.getLsbD i) ∧ t.status.getLsbD 3 = c.status.getLsbD 3 ∧
  t.status.getLsbD 7 = (c.estatus.getLsbD 7 || (c.estatus.getLsbD 3 && !s1.covered k)) ∧
  t.rc = (if c.ecause.getLsbD 32 then c.savedrc else c.rc) ∧ t.resume = c.ecause.getLsbD 32 ∧ t.reservation = none ∧ t.unpark = true ∧
  t.ftChange = (if (c.estatus.getLsbD 3 && s1.covered k) = c.status.getLsbD 3 then none
    else some (c.estatus.getLsbD 3 && s1.covered k))

/-- R160, R277: LWAIT holds until every long operation has landed; with no fault recorded it completes, and otherwise it takes the oldest
recorded fault with that fault's own code. R177: WAIT stops issue with PC at it, and a pending source or a recorded fault starts the core
again at the next word.
R159: each FENCE asks every entry of the merging buffer to drain, and holds what follows until the buffer is empty. -/
def Obligations.WaitingAndFences : Prop :=
  (∀ (s s1 : State) (x : At) (w : Word),
  let k := x.core
  let n := (s1.core k).longTime
  let landed := ((s1.cycles k 0x05 n).advance k n).landRest k
  (Issues s x w 0 s1 → isSys w 6 →
    ((landed.core k).faults = [] →
      exec (.lwait x w) s =
        .next ((((s1.cycles k 0x05 (n - 1)).advance k (n - 1)).landRest k).retire k x.slot w [] .fall)) ∧
    (∀ f rest, (landed.core k).faults = f :: rest →
      exec (.lwait x w) s = .next ((landed.modCore k (fun c => { c with faults := rest })).trap k x.slot ⟨f.code, f.sub, f.addr, none⟩))) ∧
  (Issues s x w 0 s1 → isSys w 12 →
    ((s1.core k).user = false → ∃ t, exec (.wait x w) s = .next t ∧ t.core k = { s1.core k with run := .waiting }) ∧
    ((s1.core k).user = true → exec (.wait x w) s = .next (s1.trap k x.slot ⟨2, 1, 0, none⟩))) ∧
  ((s.core k).run = .waiting → (s.core k).dbg = false → s.replaying k = false → smFind? s.mftc k = none →
    (s.pendingSources k ≠ 0 → ((s.wake k).core k).run = .running ∧ ((s.wake k).core k).pc = ((s.core k).pc + 4) % 2 ^ 36) ∧
    (s.pendingSources k = 0 → (s.core k).faults = [] → s.wake k = s))) ∧
  (∀ (s s1 : State) (x : At) (w : Word), Issues s x w 0 s1 → isSys w 7 →
  let f := fun (c : Core) => { c with mb := mbAsk (fun _ => true) c.mb, holdMb := true }
  ∀ i, i ∈ [(1, Instr.fenceL x w), (2, .fenceS x w), (3, .fenceA x w)] → argOf w % 4 = i.1 →
    exec i.2 s = .next ((s1.modCore x.core f).retire x.core x.slot w [] .fall))

/-- R171, R270 (Table 10-10): TLBI, privileged, once earlier stores are visible: by address it removes from the core's buffers every entry
whose page holds the address, by ASID the entries of that ASID that are not global, and all of them; with bit 2 of its argument the
broadcast goes to the other agents of the compartment.
R172, R174: TSYNC completes once every agent has been reached, and IFENCE, once earlier stores are visible, discards from L1I the lines
that the range maps to, and the line buffer; its broadcast goes to the compartment's other cores.
R171, R174, R194: a broadcast that reaches its agent does its work there and is no longer outstanding: an IFENCE discards lines of a
core's L1I and its line buffer; a TLBI removes entries from a core's buffers, an Understorey's, or a DMA engine's.
R268: it does not reach a core that is frozen for an access it has translated already. -/
def Obligations.Broadcasts : Prop :=
  (∀ (s s1 : State) (x : At) (w : Word), Issues s x w 0 s1 → isSys w 9 →
  let k := x.core
  let c := s1.core k
  let v := (c.srcA w).toNat
  let local_ := fun (form : Nat) => s1.modCore k (fun c => c.tlbi form (if form = 0 then v else v % 2 ^ 12))
  let all := fun (form : Nat) =>
    if fld w 2 2 = 1 then (local_ form).broadcast k true (.tlbi form (if form = 0 then v else v % 2 ^ 12)) else local_ form
  (∀ i, i ∈ [(0, Instr.tlbiByAddress x w), (1, .tlbiByAsid x w), (2, .tlbiAll x w)] → argOf w % 4 = i.1 →
    (c.user = true → exec i.2 s = .next (s1.trap k x.slot ⟨2, 1, 0, none⟩)) ∧
    (c.user = false ∧ c.mb = [] → exec i.2 s = .next ((all i.1).retire k x.slot w [] .fall))) ∧
  (∀ e ∈ tlbi 0 v c.dtlb, ¬(e.page ≤ v * 4096 ∧ v * 4096 < e.page + 2 ^ e.size)) ∧
  (∀ e ∈ tlbi 1 v c.dtlb, ¬(e.asid = v ∧ ebit e.leaf 6 = false)) ∧ tlbi 2 v c.dtlb = []) ∧
  (∀ (s s1 : State) (x : At) (w : Word), Issues s x w 0 s1 →
  let k := x.core
  let c := s1.core k
  let la := ((c.pairD w).extractLsb' 0 48).toNat
  let len := (c.srcA w).toNat
  let ranges := s1.mappedRanges (s1.coreCtx k) (len / 4096 + 2) la len
  let s2 := s1.modCore k (fun c => { c with l1i := c.l1i.filter (fun l => !lineIn ranges l), lbuf := [] })
  let s3 := if fld w 0 0 = 1 then s2.broadcast k false (.ifence ranges) else s2
  let wait := fun (t : State) (n : Nat) => (t.cycles k 0x05 n).advance k n
  (isSys w 10 ∧ c.user = true → exec (.tsync x w) s = .next (s1.trap k x.slot ⟨2, 1, 0, none⟩)) ∧
  (isSys w 10 ∧ c.user = false ∧ s1.tlbiOpen k = false →
    exec (.tsync x w) s = .next ((wait s1 tsyncTime).retire k x.slot w [] .fall)) ∧
  (isSys w 8 ∧ c.mb = [] → exec (.ifence x w) s = .next ((wait s3 (ifenceTime len - 1)).retire k x.slot w [] .fall))) ∧
  (∀ (s : State) (src : Nat) (b : Bcast),
  let left := s.mem.bcasts.erase b
  b ∈ s.mem.bcasts → b.src = src → (∀ d ∈ s.mem.bcasts, d.src = src → d.dst = b.dst → d = b) →
  (∀ r k, b.kind = .ifence r → b.dst = .core k → (s.core k).pair = none →
    ∃ t, exec (.ifenceBroadcastArrival src k) s = .next t ∧ t.mem.bcasts = left ∧ (t.core k).lbuf = [] ∧
      (t.core k).l1i = (s.core k).l1i.filter (fun l => !lineIn r l)) ∧
  (∀ form arg, b.kind = .tlbi form arg →
    (∀ k, b.dst = .core k → (s.core k).translated = true → exec (.tlbiBroadcastArrival src b.dst) s = .next s) ∧
    (∀ k, b.dst = .core k → (s.core k).translated = false →
      ∃ t, exec (.tlbiBroadcastArrival src b.dst) s = .next t ∧ t.mem.bcasts = left ∧
      (t.core k).dtlb = tlbi form arg (s.core k).dtlb ∧ (t.core k).itlb = tlbi form arg (s.core k).itlb ∧
      (t.core k).l2tlb = tlbi form arg (s.core k).l2tlb) ∧
    (∀ g, b.dst = .understorey g → ∃ t, exec (.tlbiBroadcastArrival src b.dst) s = .next t ∧ t.mem.bcasts = left ∧
      ∀ i < 4, smGet [] t.mem.utlb (g * 4 + i) = tlbi form arg (smGet [] s.mem.utlb (g * 4 + i))) ∧
    (∀ e, b.dst = .engine e → ∃ t, exec (.tlbiBroadcastArrival src b.dst) s = .next t ∧ t.mem.bcasts = left ∧
      smGet [] t.mem.dtc e = tlbi form arg (smGet [] s.mem.dtc e))))

/-! ## A core from one group to the next -/

/-- R184, R189, R276, R595: when nothing is in flight in a core that runs in supervisor mode with TR = 0 and FT = 0, and nothing else
comes first, a word of a line that the line buffer or L1I holds, at an address of DRAM that the compartment owns, that is not undefined
and that no hold of Table 7-3 keeps, issues alone with the registers, the memory and every other core as they are. -/
def Obligations.QuietWordIssues : Prop := ∀ (s : State) (k : Nat) (w : Word),
  let c := s.core k
  Quiet s k → classOf w ≠ .pfx → ¬(pairBit w = true ∧ c.pc % 8 = 0) → c.pc < 2 ^ 36 → s.region c.pc = .dram →
  s.physFault (s.cmpOf k) false c.pc = none → s.mem.poisoned (c.pc / 64) = false →
  udSingle (s.xCauses k) (c.pc % 8 == 4) w = none →
  (c.pc / 64 ∈ c.l1i ∨ c.pc / 64 ∈ c.lbuf.map (·.line)) → s.xWaits k w = none → (c.mb = [] ∨ opcodeOf w < 16 ∨ 31 < opcodeOf w) →
  ∃ s1, Issues s ⟨k, .single⟩ w 0 s1 ∧ s1.core k = { c with lbuf := (s1.core k).lbuf, opCyc := c.ccyc } ∧ s1.mem = s.mem ∧ s1.ctl = s.ctl ∧ ∀ j ≠ k, s1.core j = s.core j

/-- R122, R181 and the FRAME of every instruction that retires with register writes alone: one core cycle later the writes of latency 1
have landed, the others are in flight with their latency, PC names the next word, and nothing else has changed: no other register, flag
or CS register of the core, no other core, no byte of memory, no control register. -/
def Obligations.RetireFrame : Prop := ∀ (s : State) (k : Nat) (w : Word) (es : Effs), Quiet s k → (∀ e ∈ es, 1 ≤ e.2) →
  let c := s.core k
  let t := s.retire k .single w es .fall
  let d := t.core k
  (∀ r v, r ≠ 0 → lastWrite es r = some v → d.reg r = v) ∧ (∀ r, lastWrite es r = none → d.reg r = c.reg r) ∧ d.reg 0 = 0 ∧
  d.pend = (es.filter (fun e => decide (1 < e.2))).map (fun e => ⟨e.1, c.pcyc + e.2, c.seq⟩) ∧
  (∀ i < 5, (∀ e ∈ es, e.2 = 1 → e.1.writesFlag i = false) → d.fl.getLsbD i = c.fl.getLsbD i) ∧
  (∀ n, (∀ e ∈ es, ∀ v, e.2 = 1 → e.1 ≠ .ac n v) → d.acc n = c.acc n) ∧
  ((∀ e ∈ es, ∀ v, e.2 = 1 → e.1 ≠ .rc v) → d.rc = c.rc) ∧ ((∀ e ∈ es, ∀ v, e.2 = 1 → e.1 ≠ .fp v) → d.fpcsr = c.fpcsr) ∧
  ((∀ e ∈ es, ∀ r v, e.2 = 1 → e.1 ≠ .sg r v) → d.sg = c.sg) ∧
  d.pc = (c.pc + 4) % 2 ^ 36 ∧ d.ccyc = c.ccyc + 1 ∧ d.run = c.run ∧ d.status = c.status ∧ d.epc = c.epc ∧ d.estatus = c.estatus ∧
  d.ecause = c.ecause ∧ d.eaddr = c.eaddr ∧ d.vbase = c.vbase ∧ d.scratch = c.scratch ∧ d.segtab = c.segtab ∧ d.ptbase = c.ptbase ∧
  d.asid = c.asid ∧ d.imask = c.imask ∧ d.savedrc = c.savedrc ∧ d.faultword = c.faultword ∧ d.reservation = c.reservation ∧ d.mb = c.mb ∧
  t.mem = s.mem ∧ t.ctl = s.ctl ∧ t.evl = s.evl ∧ t.live = s.live ∧ ∀ j ≠ k, t.core j = s.core j

/-- R94, R181: of two writes to one register that land in the same cycle the later in program order is what the register holds; a write to
W0 is discarded, and W0 reads as zero.
R183, LONG_OPERATION_LANDING: the oldest operation of the divide unit lands in its core cycle: its register holds the result then, or
its fault waits to be delivered and nothing is written. Nothing else is in flight, no counter runs, and no other fault of the divide unit
waits (R278: a core holds one of it). -/
def Obligations.Landings : Prop :=
  (∀ (c : Core) (r due seq seq' : Nat) (u v : Word),
  c.opW = none → c.pend = [⟨.w r u, due, seq⟩, ⟨.w r v, due, seq'⟩] → due ≤ c.pcyc → seq < seq' →
  c.landShort.pend = [] ∧ (r ≠ 0 → c.landShort.reg r = v) ∧ c.landShort.reg 0 = 0 ∧ (r = 0 → c.landShort.w = c.w) ∧
  ∀ q ≠ r, c.landShort.reg q = c.reg q) ∧
  (∀ (s : State) (k r seq due : Nat) (v : Word) (fault : Option LongFault),
  let c := s.core k
  c.div = [⟨if fault = none then [.w r v] else [], fault, due, seq⟩] → c.pend = [] → c.xops = [] → c.freeze = none → c.opW = none →
  c.pair = none → s.replaying k = false → c.ccyc ≤ due → (∀ f, fault = some f → f.code ≠ 11 ∧ ∀ g ∈ c.faults, g.code = 11) → smFind? s.ctl (o_pmuCctl (groveOf k) (slotOf k)) = none →
  ∃ t, exec (.longOperationLanding k) s = .next t ∧ (t.core k).ccyc = due ∧ (t.core k).div = [] ∧
    (fault = none → r ≠ 0 → (t.core k).reg r = v) ∧ (fault = none → (t.core k).faults = c.faults) ∧
    (∀ f, fault = some f → f ∈ (t.core k).faults ∧ (t.core k).w = c.w) ∧ ∀ q, q ≠ r → (t.core k).reg q = c.reg q)

/-- R277, R281, R591: with nothing of a lower rank first, a core that stands at a boundary takes an interrupt from its lowest-numbered
pending source, LONG for its oldest recorded fault, and a machine check; CS.EPC names the boundary. The core does not record.
R592: a machine check that cannot be handled halts the compartment.
R282, R283: package time reaches a slot's compare value, and up to 10 ns later TIMER is pending; IPI.SET makes the inter-core source
pending, which CS.IPEND shows within 100 ns (how long after is a free value: log entry 105). -/
def Obligations.BoundaryEntries : Prop :=
  (∀ (s : State) (k : Nat),
  let c := s.core k
  c.run = .running → c.dbgStep = false → s.interruptible k = true → smFind? s.mftc k = none → s.replaying k = false →
  (s.mceDue k = false → s.longDue k = false → s.intDue k = true →
    exec (.interruptEntry k) s = .next (s.enter k ⟨0, ((lowestBit (s.pendingSources k)).getD 0) % 32, 0, c.pc, 0⟩)) ∧
  (∀ f rest, s.mceDue k = false → s.longDue k = true → c.faults = f :: rest →
    exec (.long k) s = .next ((s.modCore k (fun c => { c with faults := rest })).enter k ⟨10, f.sub, f.code, c.pc, f.addr⟩)) ∧
  (∀ sub, (sub ∈ c.mce ∨ (sub = 4 ∧ c.xops = []) ∨ sub = 5) → 3 ≤ sub → sub ≤ 5 →
    exec (.machineCheckAsync k sub) s = .next ((s.modCore k (fun c => { c with mce := c.mce.erase sub })).enter k ⟨12, sub, 0, c.pc, 0⟩))) ∧
  (∀ (s : State) (k n : Nat) (e : Entry), s.cmpOf k = some n → s.cmpState n ≠ .absent → e.code = 12 → (s.core k).fatalMce e.sub = true →
    (s.enter k e).cmpState n = .halted) ∧
  (∀ (s : State) (k : Nat), s.present k = true →
  let cmp := (s.ctlD (o_grvTcmpl (groveOf k) (slotOf k)) 0xFFFFFFFF).toNat +
    2 ^ 32 * (s.ctlD (o_grvTcmph (groveOf k) (slotOf k)) 0xFFFFFFFF).toNat
  let shown := cmp + Config.timerLag k cmp % 11
  (s.time < shown → exec (.timer k) s = .next { s with time := shown }) ∧
  (shown < 2 ^ 64 → smFind? s.lags (2 * k) = none → ({ s with time := shown } : State).srcTimer k = true) ∧
  (∃ t, exec (.ipiSet k) s = .next t ∧ t.ipiPend k = true ∧ t.mem = s.mem ∧ t.cores = s.cores ∧
    (∀ off, off ≠ o_grvIpi (groveOf k) (slotOf k) → t.ctlGet off = s.ctlGet off) ∧
    ((∀ e, smFind? s.lags (2 * k + 1) = some e → e.2 ≤ s.time + 100) →
      ∀ now, s.time + 100 ≤ now → ({ t with time := now } : State).srcIpi k = true)))

/-- R113, R213, R214: the group of an X word presents to its context and is held until the array accepts it; the core that could be
accepted first, in the round of slots, is granted, and its X word then issues: the operation is in flight, to land L core cycles after its
slot starts. R222: what it computes is the array's (a constant of Config). R220: UST.PARK.DISCARD removes a core's parked operations and
sets DROPPED. R215, R219: an operation lands in its landing cycle, its result in its destination, and one that is late is an OVERRUN (UFLT
sub-code 5), recorded while the core has room for it (log entry 101). -/
def Obligations.UnderstoreyOperations : Prop :=
  (∀ (s s1 : State) (x : At) (w : Word) (e : UstEntry), Issues s x w 0 s1 → 56 ≤ opcodeOf w → s1.xEntry x.core w = some e →
    exec (.xOperation x w) s = .next (((s1.landForRoom x.core).acceptX x w e).retire x.core x.slot w [] .fall)) ∧
  (∀ (s : State) (k : Nat) (w : Word) (e : UstEntry), (s.core k).mb = [] → 56 ≤ opcodeOf w → s.xEntry k w = some e →
    (s.core k).grant ≠ some e.ctx → s.groupHold k [w] = some (s.modCore k (fun c => { c with held := true, present := some e.ctx }))) ∧
  (∀ (s : State) (grove ctx k at_ : Nat), (∀ e ∈ s.cores, groveOf e.1 = grove → e.2.grant ≠ some ctx) →
    s.nextAccept grove ctx = some (k, at_) →
    ∃ t, exec (.ustAccept grove ctx (slotOf k)) s = .next t ∧ (t.core k).grant = some ctx ∧ (t.core k).present = none ∧ (t.core k).held = false) ∧
  (∀ (s : State) (x : At) (w : Word) (e : UstEntry) (u : UstSec) (n : Nat), s.cmpOf x.core = some n → s.recording n = false →
    s.mftMode n ≠ 3 → s.ustCfg (groveOf x.core) = some u → e.mem = false →
    let c := s.core x.core
    let t := s.acceptX x w e
    (∃ y, (t.core x.core).xops = c.xops ++ [y] ∧ y.due = c.startOf x.slot + s.xLatency e ∧ y.word = w ∧ y.ctx = e.ctx ∧ y.seq = c.seq ∧
      y.outcome = .done (Config.ustResult u.image e.ctx (xOperands c e w) y.cells.acc y.cells.mem []) []) ∧
    (t.core x.core).grant = none ∧ smFind? (t.ust (groveOf x.core)).lastSlot e.ctx = some (slotOf x.core)) ∧
  (∀ (s : State) (k : Nat) (x : XOp), s.clocked k = true → (s.core k).xops.find? (·.parked.isNone) = some x →
    exec (.ustLanding k false) s = .next (s.passTo k x.due) ∧
    (∀ y, ((s.passTo k (x.due - 1)).core k).xops.find? (·.seq == x.seq) = some y →
      x.due ≤ ((s.passTo k (x.due - 1)).core k).ccyc + 1 →
      exec (.ustLanding k true) s = .next (((s.passTo k (x.due - 1)).landX k y true).passTo k x.due))) ∧
  (∀ (s : State) (k : Nat) (x : XOp), x.mem = true → smFind? s.mftc k = none → s.mem.waits = [] →
    ((s.core k).faults.filter (·.code == 11)).length < 4 → ⟨11, 5, x.addr, x.seq⟩ ∈ ((s.landX k x true).core k).faults) ∧
  (∀ (s : State) (k : Nat) (x : XOp) (v : DWord), x.outcome = .done v [] → x.dstKind = 1 → x.dropLo = false → x.dst ≠ 0 →
    (s.core k).opW = none → s.mem.waits = [] → ((s.landX k x false).core k).reg x.dst = v.extractLsb' 0 36) ∧
  (∀ (s : State) (k : Nat), s.present k = true → s.mem.waits = [] →
    ∃ t, exec (.ustDiscard k) s = .next t ∧ (t.core k).xops = (s.core k).xops.filter (·.parked.isNone) ∧
      ((s.core k).xops.any (·.parked.isSome) = true → (t.ust (groveOf k)).dropped.getLsbD (slotOf k) = true))

/-- R189, R201, R203: the line for which fetch waits arrives, once nothing blocks its request, after bubbles: in normal mode it enters L1I,
and in either the line buffer, of which fixed-timing mode keeps the two read last. A change of CS.STATUS.FT, with the core at a boundary,
its merging buffer empty and no PREF outstanding, takes effect: FT is the value asked for, the local memories read as zero, nothing is held in L1I, L1D, the line
buffer, the predictor or the first-level translation buffers, and the other bits of CS.STATUS stay. -/
def Obligations.FetchFillAndModeChange : Prop := ∀ (s : State) (k : Nat),
  let c := s.core k
  (∀ a since la p cycles syn retry, c.run = .running → c.ftChange = none → c.fwait = some (a, since) → a / 64 = la / 64 →
    (s.translateIn k (s.coreCtx k) .fetch a).2.1 = .ok p →
    let s1 := s.offerFor k .fetch p.pa
    s1.blocked k .fetch p.pa = false →
    let ft := (s1.core k).ft
    let n := if ft then cycles else s1.within 0 (s1.rowTimes k .fetch p.device p.pa).2 cycles
    let s2 := ((s1.stall k n (s1.padded k p.device p.pa) since true).serve k .fetch true p.pa syn retry).count k 0x21 1
    exec (.fetchLineFill k la ⟨cycles, syn, retry⟩) s = .next ((s2.modCore k (fun c =>
      (if ft then c else c.fillFetch (p.pa / 64)).bufferLine a (p.pa / 64))).modCore k (fun c => { c with fwait := none }))) ∧
  (∀ (d : Core) (a line : Nat), line ∈ (d.fillFetch line).l1i ∧ (∀ l ∈ (d.fillFetch line).l1i, l ∈ d.l1i ∨ l = line) ∧
    ⟨a / 64, line, d.tr, d.user⟩ ∈ (d.bufferLine a line).lbuf ∧ (d.bufferLine a line).lbuf.length ≤ 2) ∧
  (∀ ft, c.ftChange = some ft → c.run = .running → c.mb = [] → c.prefs = [] → c.pair = none → c.freeze = none → c.xops = [] →
    ∃ t, exec (.ftModeChange k) s = .next t ∧
      let d := t.core k
      d.ft = ft ∧ d.ftChange = none ∧ d.lim = [] ∧ d.ldm = [] ∧ d.lbuf = [] ∧ d.l1i = [] ∧ d.l1d = [] ∧ d.btb = [] ∧ d.itlb = [] ∧
      d.dtlb = [] ∧ d.l2tlb = c.l2tlb ∧ (∀ i, i ≠ 3 → d.status.getLsbD i = c.status.getLsbD i) ∧
      (if ft then 1040 else 40) + c.ccyc ≤ d.ccyc)

/-! ## Coherence and DRAM -/

/-- R318, R322, R326, R331, R333 (Tables 13-5 and 13-7): a Grove's request at the home of a line with no open transaction: what the
directory entry becomes, and which messages leave. A read is forwarded to the responder or read from DRAM; RdX and Upg leave the
entry EX with the requester, every other holder being told to give the line up; RdCur leaves the entry as it is; a whole-line WrInv
invalidates every holder; WB and EvC release the sender. The Grove has no request for the line open and its route to the home does not
change (R23), the home's table has room (R325), and no request waits for the line.
R326: a request for a line with a transaction open waits in the home's transient queue. R328: a Grove whose request the home has taken is in
the transient state of its kind. -/
def Obligations.HomeRequests : Prop := ∀ (s : State) (g line : Nat) (e : DirEnt), g < 12 → s.homed line = true →
  (s.homeFree line = false → ∃ t, exec (.rdcur g line) s = .next t ∧ t.mem.msgs = s.mem.msgs ∧ t.mem.txns = s.mem.txns ∧
    ∃ w ∈ t.mem.waits, w.port = g ∧ w.line = line ∧ w.kind = .rdcur) ∧
  (s.homeFree line = true → s.mem.pending g line = false → s.moving g (s.homeFor line) = false →
  s.tableRoom (s.homeFor line) (s.rankOf g line).cls = true → e.line = line →
  let own : DirEnt := ⟨line, .ex, vecBit g, false, g⟩
  let entry := s.mem.dirEnt line
  let after := fun (c : Instr) (d : Option DirEnt) (l : List Msg) =>
    ∃ t, exec c s = .next t ∧ t.mem.dirEnt line = d ∧ t.mem.msgs = s.mem.msgs ++ l
  let joined := { e with vec := e.vec ||| vecBit g }
  let invs := fun (l : List Nat) => l.map (fun h => (⟨.inv, line, h⟩ : Msg))
  let enters := fun (c : Instr) (tr : GTrans) => ∃ t, exec c s = .next t ∧ ⟨g, line, tr, 0⟩ ∈ t.mem.gpend
  (s.mem.gtag g line = none → (entry = none → (s.victimStart line).2 = true) → enters (.rds g line) .is ∧ enters (.rdx g line) .im) ∧
  (s.mem.gtag g line = none →
    (entry = none → (s.victimStart line).2 = true → after (.rds g line) (some own) [⟨.mrd, line, g⟩]) ∧
    (entry = some e → e.st = .ow → after (.rds g line) (some joined) [⟨.fwdS g, line, e.resp⟩]) ∧
    (entry = some e → e.st = .ex → e.resp ≠ g →
      after (.rds g line) (some { joined with st := .sh, resp := if s.moesi then 15 else g }) [⟨.fwdS g, line, e.resp⟩]) ∧
    (entry = some e → e.st = .sh → after (.rds g line) (some { joined with resp := if s.moesi then 15 else g })
      [if e.resp ≠ 15 ∧ e.resp ≠ g then ⟨.fwdS g, line, e.resp⟩ else ⟨.mrd, line, g⟩]) ∧
    (entry = some e → e.resp ≠ 15 → e.resp ≠ g → after (.rdx g line) (some own)
      (⟨.fwdX g, line, e.resp⟩ :: invs (e.holders.filter (fun h => h != g && h != e.resp))))) ∧
  (∀ tag, s.mem.gtag g line = some tag →
    ((tag.st = .s ∨ tag.st = .f ∨ tag.st = .o) → entry = some e → e.st ≠ .ex → g ∈ e.holders →
      after (.upg g line) (some own) (⟨.data .e (s.mem.isDirty line), line, g⟩ :: invs (e.holders.filter (· != g))) ∧
      enters (.upg g line) .sm) ∧
    ((tag.st = .m ∨ tag.st = .o) → entry = some e → e.resp = g → e.st = .ex →
      ∀ bytes, after (.wb g line false bytes) none [⟨.mwr, line, g⟩]) ∧
    ((tag.st = .e ∨ tag.st = .f ∨ tag.st = .s) → s.evHint g line = true →
      ∃ t, exec (.evc g line) s = .next t ∧ t.mem.gtag g line = none ∧ t.mem.msgs = s.mem.msgs)) ∧
  (entry = some e → e.resp ≠ 15 → after (.rdcur g line) (some e) [⟨.fwdC g, line, e.resp⟩]) ∧
  (entry = none → after (.rdcur g line) none [⟨.mrd, line, g⟩]) ∧
  (∀ bytes, (maskedBytes bytes).length = 64 → entry = some e → e.holders ≠ [] →
    after (.wrinv g line bytes) (some e) (invs e.holders)))

/-- R319, R324, R332 (Tables 13-4 and 13-6): what a Grove does when a forward or an invalidation reaches it: FwdS leaves it a copy, FwdC
leaves it as it is, FwdX, Inv and BInv take the line from it, and its Stands and cores lose it too; with no copy it answers NOTHELD. R157, R330: while a core of the Grove defers requests for the line,
nothing happens.
R315: a line of the partner window has its home on the partner: a Grove's RdS and RdX leave for it and make no directory entry here, its
Inv takes the line from a Grove, and its Data installs the line with the bytes it brings (Table 13-9; how the messages meet the
partner is log entry 74).
R325, R327, R341: a fill installs the line at its Grove, unless every way of the set is locked (R300), and the Grove answers Cmp; an Ack is
no longer waited for; Cmp closes the transaction; a DRAM read that the order of R365 lets issue returns the line's data; a write reaches the
array's queue and its bytes are DRAM's; the state set switches when no transaction is open and no message is in flight, and until then new
requests are held.
R328: an invalidation turns SM into IM. -/
def Obligations.HolderMessages : Prop :=
  (∀ (s : State) (g line r : Nat) (bytes : List Byte), g < 12 →
  (s.groveDeferred g line = true →
    ∀ i, i ∈ [Instr.fwds g line bytes, .fwdx g line bytes, .fwdc g line bytes, .invMsg g line, .binv g line bytes] → exec i s = .next s) ∧
  (s.groveDeferred g line = false →
  let has := fun (k : MsgKind) => ⟨k, line, g⟩ ∈ s.mem.msgs ∧ ∀ m ∈ s.mem.msgs, m.line = line → m.port = g → m = ⟨k, line, g⟩
  let held := (s.mem.gtag g line).isSome
  let gone := fun (t : State) => t.mem.gtag g line = none ∧ (∀ l ∈ t.mem.l2, l.line = line → l.stand / 5 ≠ g) ∧
    ∀ e ∈ t.cores, groveOf e.1 = g → line ∉ e.2.l1d
  (has (.fwdS r) → held → ∃ t, exec (.fwds g line bytes) s = .next t ∧ (t.mem.gtag g line).isSome) ∧
  (has (.fwdX r) → held → ∃ t, exec (.fwdx g line bytes) s = .next t ∧ gone t) ∧
  (has (.fwdC r) → held → ∃ t, exec (.fwdc g line bytes) s = .next t ∧ t.mem.grove = s.mem.grove ∧ t.mem.l2 = s.mem.l2) ∧
  (has .inv → held → ∃ t, exec (.invMsg g line) s = .next t ∧ gone t ∧
    t.mem.msgs = s.mem.msgs.erase ⟨.inv, line, g⟩ ++ [⟨.ack false false, line, g⟩] ∧
    ∀ n, ⟨g, line, .sm, n⟩ ∈ s.mem.gpend → ⟨g, line, .im, n⟩ ∈ t.mem.gpend) ∧
  (has .binv → held → ∃ t, exec (.binv g line bytes) s = .next t ∧ gone t ∧
    t.mem.msgs = s.mem.msgs.erase ⟨.binv, line, g⟩ ++ [⟨.ack false (s.mem.groveDirty g line), line, g⟩]) ∧
  (∀ i, i ∈ [(MsgKind.fwdS r, Instr.fwds g line bytes), (.fwdX r, .fwdx g line bytes), (.fwdC r, .fwdc g line bytes),
      (.inv, .invMsg g line)] → has i.1 → held = false →
    exec i.2 s = .next (s.setMem { s.mem with msgs := s.mem.msgs.erase ⟨i.1, line, g⟩ ++ [⟨.ack true false, line, g⟩] })) ∧
  (s.spanLine line = true → held → (∀ m ∈ s.mem.msgs, m.line ≠ line) →
    ∃ t, exec (.invMsg g line) s = .next t ∧ gone t ∧ t.mem.msgs = s.mem.msgs ++ [⟨.ack false false, line, 13⟩]))) ∧
  (∀ (s : State) (g line : Nat) (txn : Txn), g < 12 → s.txnOf line = some txn → txn.port = g →
  let has := fun (k : MsgKind) => ⟨k, line, g⟩ ∈ s.mem.msgs ∧ ∀ m ∈ s.mem.msgs, m.line = line → m = ⟨k, line, g⟩
  (∀ st d, has (.data st d) → txn.acks = [] → txn.kind = .rds → ((s.mem.gtag g line).isSome ∨ s.fullTags g line = false) →
    (∀ p ∈ s.mem.gpend, p.grove = g → p.line = line → p.mark = 0) →
    ∀ st bytes, ∃ t, exec (.dataMsg g line st bytes) s = .next t ∧
      (t.mem.gtag g line).isSome ∧ t.mem.pending g line = false ∧ ⟨.cmp, line, g⟩ ∈ t.mem.msgs) ∧
  ((s.mem.gtag g line).isSome = false → s.fullTags g line = true → ∀ st bytes, exec (.dataMsg g line st bytes) s = .next s) ∧
  (has (.ack false false) → g ∈ txn.acks → txn.mr = true → s.mem.waits = [] →
    ∃ t, exec (.ackMsg g line) s = .next t ∧ ∃ u, t.txnOf line = some u ∧ u.acks = txn.acks.erase g) ∧
  (has .cmp → s.mem.waits = [] → ∃ t, exec (.cmpMessage g line) s = .next t ∧ t.txnOf line = none) ∧
  (has .mrd → s.subAnswers line = true → s.mem.poisoned line = false → txn.kind = .rds → s.mayIssue line txn.rank = true → ∀ retry,
    ∃ t, exec (.mrd line [] retry) s = .next t ∧ t.mem.msgs = s.mem.msgs.erase ⟨.mrd, line, g⟩ ++ [⟨.data txn.grant false, line, g⟩]) ∧
  (has .mwr → s.queueRoom line = true → txn.kind = .evc → (∀ u ∈ s.mem.txns, u.line = line → u = txn) → s.mem.waits = [] →
    ∃ t, exec (.mwr line) s = .next t ∧ t.mem.isDirty line = false ∧ ∃ e ∈ smGet [] t.dram.wq (subchannelOf line), e.1 = line) ∧
  (∀ b (u : State), u.mem.waits = [] → (u.moesi = b ∨ u.fabricQuiet = true) → ∃ t, exec (.stateSetSwitch b) u = .next t ∧ t.moesi = b ∧ t.switching = false) ∧
  (∀ b (u : State), u.moesi ≠ b → u.fabricQuiet = false → ∃ t, exec (.stateSetSwitch b) u = .next t ∧ t.moesi = u.moesi ∧
    t.switching = true ∧ ∀ l, t.homeFree l = false)) ∧
  (∀ (s : State) (g line : Nat), g < 12 → s.spanLine line = true →
  (s.mem.gtag g line = none → s.moving g 12 = false → (∀ p ∈ s.mem.gpend, p.line ≠ line) →
    (∃ t, exec (.rds g line) s = .next t ∧ t.mem.gpend = s.mem.gpend ++ [⟨g, line, .is, 0⟩] ∧ t.mem.dir = s.mem.dir ∧
      .request 0 g line [] ∈ t.sent) ∧
    (∃ t, exec (.rdx g line) s = .next t ∧ t.mem.gpend = s.mem.gpend ++ [⟨g, line, .im, 0⟩] ∧ t.mem.dir = s.mem.dir ∧
      .request 1 g line [] ∈ t.sent)) ∧
  (∀ st bytes, s.txnOf line = none → s.mem.gpend = [⟨g, line, .im, 0⟩] → bytes.length = 64 → s.mem.failed = [] → s.mem.Canonical →
    s.mem.isDirty line = false →
    ∃ t, exec (.dataMsg g line st bytes) s = .next t ∧ (t.mem.gtag g line).isSome ∧
      t.mem.gpend = [] ∧ ⟨.cmp, line, g⟩ ∈ t.mem.msgs ∧ ∀ i b, bytes[i]? = some b → t.mem.byte (line * 64 + i) = b))

/-- R308 to R310: GO on an idle register set starts the command over the lines of START and LENGTH (0 meaning 2^32) in the space it names,
or ends at once with RESULT 1 when they pass the space's end; ABORT ends it with RESULT 2; the engine's next line counts DONE up, and the
last one ends it with RESULT 0. R307: an engine serves its register sets in turn.
R173, R310: cleaning a Grove's copy changes the value of no byte and leaves the line not dirty; invalidating discards the copy. -/
def Obligations.RangeCommands : Prop :=
  (∀ (s : State) (who : Sender) (l3 : Bool) (g i : Nat), s.setOk who l3 g i = true →
  let start := ((s.ctlGet (oMstartLo l3 g i)).toNat + 2 ^ 32 * fget (s.ctlGet (oMstartHi l3 g i)) 15 0) / 64 * 64
  let n := (s.ctlGet (oMlength l3 g i)).toNat
  let lines := if n = 0 then 2 ^ 32 else n
  (∀ c, c ∈ [(1, Instr.rangeClean who l3 g i false), (2, .rangeInvalidate who l3 g i false),
      (3, .rangeCleanAndInvalidate who l3 g i false)] → s.rangeOf l3 g i = none →
    (start + 64 * lines ≤ 2 ^ 42 → ∃ t r, exec c.2 s = .next t ∧ t.rangeOf l3 g i = some r ∧ r.op = c.1 ∧ r.linear = false ∧
      r.start = start ∧ r.lines = lines ∧ r.done = 0 ∧ r.owner = s.cmpOf (g * 20 + i)) ∧
    (2 ^ 42 < start + 64 * lines → ∃ t, exec c.2 s = .next t ∧ t.rangeOf l3 g i = none ∧ t.mem.dirty = s.mem.dirty)) ∧
  (∀ r, s.rangeOf l3 g i = some r →
    (∃ t, exec (.rangeAbort who l3 g i) s = .next t ∧ t.rangeOf l3 g i = none) ∧
    (s.rangeTurn l3 g i ≠ some i → exec (.rangeEngineLine l3 g i) s = .next s) ∧
    (s.rangeTurn l3 g i = some i → r.walks = false → r.done + 1 < r.lines → ∃ t r', exec (.rangeEngineLine l3 g i) s = .next t ∧ t.rangeOf l3 g i = some r' ∧
      r'.done = r.done + 1) ∧
    (s.rangeTurn l3 g i = some i → r.walks = false → r.lines ≤ r.done + 1 → ∃ t, exec (.rangeEngineLine l3 g i) s = .next t ∧ t.rangeOf l3 g i = none))) ∧
  (∀ (s : State) (g line : Nat) (tag : GTag), s.mem.failed = [] → s.mem.Canonical →
  s.mem.gtag g line = some tag →
  ((tag.st = .m ∨ tag.st = .o) → (s.groveAct 1 g line).mem.isDirty line = false) ∧
  (∀ pa, (s.groveAct 1 g line).mem.byte pa = s.mem.byte pa) ∧ (∀ pa, (s.groveAct 3 g line).mem.byte pa = s.mem.byte pa) ∧
  (s.groveAct 2 g line).mem.gtag g line = none ∧ (s.groveAct 3 g line).mem.gtag g line = none ∧
  (∀ pa, pa / 64 ≠ line → (s.groveAct 2 g line).mem.byte pa = s.mem.byte pa))

/-- R365, R384, R385, R389, R391: refresh, the temperature reading, the ZQ latch and the oscillator reading of a rank in service, when they are
due, note their time; a write batch that is due and leaves every waiting H read its deadline takes its writes out of the queue, in the order
of R363; a correction write, a scrub read and an initialiser's read, all of class B, go on when no refresh is due and no H or S read waits
(R365). None of them changes what a byte of memory reads as, on lines that read clean. -/
def Obligations.DramMaintenance : Prop := ∀ (s : State) (sub rank : Nat),
  let key := 2 * sub + rank
  let keeps := fun (t : State) => t.mem = s.mem
  s.subState sub = 1 → sub < 16 →
  (s.rankOk sub rank = true →
    (smGet 0 s.dram.refAt key + s.refreshInterval key ≤ s.time →
      ∃ t, exec (.refresh sub rank) s = .next t ∧ smGet 0 t.dram.refAt key = s.time ∧ keeps t) ∧
    (smGet 0 s.dram.mr4At key + 16000000 ≤ s.time → ∀ hot,
      ∃ t, exec (.mr4Read sub rank hot) s = .next t ∧ smGet 0 t.dram.mr4At key = s.time ∧
        t.refreshInterval key = (if hot then 1950 else 3900) ∧ keeps t) ∧
    (s.inWindow key = true → smGet 0 s.dram.zqAt key + 128000000 ≤ s.time →
      ∃ t, exec (.zqCalibration sub rank) s = .next t ∧ smGet 0 t.dram.zqAt key = s.time ∧ keeps t) ∧
    (s.inWindow key = true → smGet 0 s.dram.oscAt key + 16000000 ≤ s.time → ∀ drift,
      ∃ t, exec (.dqsOscillatorRead sub rank drift) s = .next t ∧ smGet 0 t.dram.oscAt key = s.time ∧
        (drift = true → sub ∈ t.dram.drift) ∧ keeps t)) ∧
  (∀ n, s.batchDue sub = true → s.batchFits sub n = true → s.refreshDue sub = false →
    ∃ t, exec (.writeBatch sub n) s = .next t ∧ smGet [] t.dram.wq sub = batchRest s.time n (smGet [] s.dram.wq sub) ∧ keeps t) ∧
  (s.refreshDue sub = true → (∀ n, exec (.writeBatch sub n) s = .next s) ∧ exec (.correctionWrite sub) s = .next s) ∧
  (s.mayIssueB sub = true → ∃ t, exec (.correctionWrite sub) s = .next t ∧
    smGet [] t.dram.corr sub = (smGet [] s.dram.corr sub).drop 1 ∧ keeps t) ∧
  (∀ retry, s.mayIssueB sub = true → smGet 0 s.dram.scrubAt sub + s.scrubPeriod sub / 2 ^ s.board.log2Lines ≤ s.time →
    s.mem.poisoned (subLine sub (smGet 0 s.dram.scrubY sub)) = false →
    ∃ t, exec (.scrubRead sub [] retry) s = .next t ∧ keeps t ∧ smGet 0 t.dram.scrubAt sub = s.time ∧
      smGet 0 t.dram.scrubY sub = (smGet 0 s.dram.scrubY sub + 1) % 2 ^ s.board.log2Lines) ∧
  (∀ ch granule line retry, ch < 8 → s.initGranule ch = some granule →
    ((List.range 32).map (max (smGet 0 s.dram.initAt ch) (granule * 32768) + ·)).find? (fun y => subchannelOf y / 2 == ch) = some line →
    s.subState (subchannelOf line) = 1 → s.mayIssueB (subchannelOf line) = true → s.mem.poisoned line = false →
    ∃ t, exec (.initialiserLine ch [] retry) s = .next t ∧ keeps t ∧ line < smGet 0 t.dram.initAt ch)

/-- R379, R384, R387, R388 (Table 15-5): a line whose write is queued is read from that write; a line read clean changes nothing; a corrected one is recorded, counted once, and queued for
correction; an uncorrectable one that its retry does not recover is poison. R395, R396: a third failed retraining attempt makes a
subchannel FAILED, and success returns it to service.
R379: a codeword with no more than one bit in error is corrected, whichever bit it is, and one with two is never taken for another
word: the columns of the code are 80 different values of odd weight.
R383: the address map is a bijection between the lines of a subchannel and their places: two lines of DRAM with one place are one
line. -/
def Obligations.DramErrors : Prop :=
  ((∀ (s : State) (line : Nat) (syn retry : List Nat) (scrub : Bool), s.mem.poisoned line = false → s.freshLine line = false →
    let t := s.dramRead line syn retry scrub
    if (∃ e ∈ smGet [] s.dram.wq (subchannelOf line), e.1 = line) then t = s else
    (lineClass syn = .clean → t = s) ∧
    (∀ m y, lineClass syn = .corrected m y → t.mem = s.mem ∧ line ∈ smGet [] t.dram.corr (subchannelOf line)) ∧
    (∀ m y b m' y' b', lineClass syn = .uncorrectable m y b → lineClass retry = .uncorrectable m' y' b' →
      t.mem.poisoned line = true ∧ t.mem.byte = s.mem.byte) ∧
    (lineClass syn = .poison → t.mem.poisoned line = true)) ∧
  (∀ (s : State) (sub : Nat), sub < 16 → s.fabricQuiet = true →
    (s.subState sub = 1 → s.retrainDue sub = true → ∃ t, exec (.subchannelRetrain sub .begin) s = .next t ∧ t.subState sub = 2) ∧
    (s.subState sub = 2 → ∃ t, exec (.subchannelRetrain sub (.attempt true)) s = .next t ∧ t.subState sub = 1) ∧
    (s.subState sub = 2 → smGet 0 s.dram.fails sub = 2 →
      ∃ t, exec (.subchannelRetrain sub (.attempt false)) s = .next t ∧ t.subState sub = 3 ∧ sub ∈ t.mem.failed))) ∧
  ((∀ i < 72, classify (hsiao i) = .dataBit i) ∧ (∀ j < 8, classify (2 ^ j) = .checkBit j) ∧ classify 0 = .clean ∧
  ∀ i < 72, (∀ k < 72, k ≠ i → classify (hsiao i ^^^ hsiao k) = .uncorrectable) ∧ ∀ j < 8, classify (hsiao i ^^^ 2 ^ j) = .uncorrectable) ∧
  (∀ (b : Board) (u v : Nat), 9 + b.ranks2.toNat + 8 ≤ b.log2Lines →
  u < 2 ^ (b.log2Lines + 4) → v < 2 ^ (b.log2Lines + 4) → b.place u = b.place v → u = v)

/-! ## Shapers, the Chart, queues and engines -/

/-- R351, R354, R356: a request that its shaper holds is accepted when its buckets have refilled: under an H contract that covers it in
class H, with the deadline of its path (on a reroute 100 ns later for each hop, or none), one unit taken from each bucket concerned, which hold one then; without a contract in class B. -/
def Obligations.ShaperAcceptance : Prop := ∀ (s : State) (k i : Nat) (q : HeldReq), k ≠ 6 → s.heldOf k i = some q →
  (s.covering q true = none → s.covering q false = none → After (.shaperAccept k i) s fun t =>
    t.held = s.held.erase q ∧ t.buckets = s.buckets ∧ ∃ n, t.flight = s.flight ++ [⟨2, n, q, s.time, 0⟩]) ∧
  (∀ ci c n, k ≠ 1 → s.covering q true = some (ci, c) → s.covering q false = none → s.waitFor ci c q = some n →
    q.items.Nodup → (∀ b ∈ s.buckets, b.at_ ≤ s.time) → 1 ≤ c.burst q.write →
    let now : State := { s with time := s.time + n }
    After (.shaperAccept k i) s fun t =>
      t.time = s.time + n ∧ t.held = s.held.erase q ∧ t.flight = s.flight ++ [⟨0, c.cmp, q, t.time, if s.detour q = 0 then t.time + s.pathBound q
          else if c.reroute then t.time + s.pathBound q + 100 * s.detour q else 0⟩] ∧
      ∀ sp ∈ q.buckets, unitTokens ≤ now.tokens ci c q.item q.write sp ∧
        t.tokens ci c q.item q.write sp = now.tokens ci c q.item q.write sp - unitTokens)

/-- R52, R57, R58, R64: APPLY begins at step 1 with STATUS.BUSY; STOP makes a running compartment STOPPING; START and RESUME make a stopped
one RUNNING and end with code 0; a compartment that does not exist ends an operation with code 9.
R53, R57, R59, R60, R61, R63: the operation in progress. STOP leaves its targets STOPPED; the commit of an update puts the merged Chart in
force and in the Chart store, and raises its targets' GENERATION; its release makes its targets RUNNING; ABORT before step 6 ends it with code
19 and the partner's timeout with code 18, the Chart in force and the store as they were. -/
def Obligations.ChartOperations : Prop :=
  (∀ (s : State) (who : Sender) (n : Nat),
  s.chtReach who = true → s.cht = none → n < 32 →
  let result := fun (t : State) (code : Nat) => t.cht = none ∧ fget (t.ctlGet o_chtResult) 31 24 = code
  let known := (s.cmpSec n).isSome = true ∧ s.mayName (s.submitter who) n = true
  After (.apply (.go who 0)) s (fun t => t.live = s.live ∧ fbit (t.ctlGet o_chtStatus) 31 = true ∧
    ∃ op, t.cht = some op ∧ op.kind = .apply ∧ op.step = 1 ∧ op.submitter = s.submitter who) ∧
  (s.cmpSec n = none → After (.stop (.go who n)) s (result · 9) ∧ After (.start who n false) s (result · 9) ∧
    After (.resume who n) s (result · 9)) ∧
  (known → s.cmpState n = .running → After (.stop (.go who n)) s fun t =>
    t.cmpState n = .stopping ∧ ∃ op, t.cht = some op ∧ op.kind = .stop ∧ op.targets = [n]) ∧
  (known → (s.cmpState n = .stopped ∨ s.cmpState n = .halted) → s.mayRaise n = true → After (.start who n false) s fun t =>
    t.cmpState n = .running ∧ result t 0) ∧
  (known → s.cmpState n = .stopped → s.mayRaise n = true → After (.resume who n) s fun t => t.cmpState n = .running ∧ result t 0)) ∧
  (∀ (s : State) (op : ChtOp), s.cht = some op → op.full = false → op.step ≤ 7 →
  let result := fun (t : State) (code : Nat) => t.cht = none ∧ fget (t.ctlGet o_chtResult) 31 24 = code
  let reversed := fun (code : Nat) (t : State) => result t code ∧ t.live = s.live ∧ t.store = s.store
  let commits := fun (t : State) => t.live = s.chtNext op ∧ t.store = some (s.chtNext op) ∧
    (∃ op', t.cht = some op' ∧ op'.step = 7) ∧
    (op.targets.Nodup → ∀ n ∈ op.targets, smGet 0 t.generation n = (smGet 0 s.generation n + 1) % 65536)
  (op.kind = .stop → s.chtStoppable op = true → After (.stop .next) s fun t =>
    result t 0 ∧ ∀ n ∈ op.targets, s.cmpState n = .stopping → t.cmpState n = .stopped) ∧
  (op.kind = .apply → op.step = 6 → s.paired op = false → After (.apply .next) s commits) ∧
  (op.kind = .apply → op.step = 7 → After (.apply .next) s fun t =>
    result t 0 ∧ ∀ n ∈ op.targets, s.cmpState n = .changing → s.mayRaise n = true → (s.cmpSec n).isSome → t.cmpState n = .running) ∧
  (op.step = 6 → s.paired op = true → s.live.pairIndex = 1 → After .partnerCommitSignal s commits) ∧
  (op.step < 6 → s.paired op = true → op.partner ≠ some op.update.digest → op.go + 5000000 ≤ s.time →
    After .partnerStageTimeout s (reversed 18)) ∧
  (∀ who, op.step < 6 → s.chtReach who = true → fget (s.ctlGet o_chtCtrl) 27 24 ≤ 4 → After (.chtAbort who) s (reversed 19)))

/-- R402, R406 (Table 16-2): ENABLE of a DISABLED queue whose context passes its checks makes it RUNNING with both indexes 0, and of another
leaves it DISABLED with CAUSE 1; DISABLE makes it DISABLED; REARM makes a HALTED queue whose cause has gone RUNNING; HALT makes a RUNNING
one HALTED with CAUSE 2.
R408 to R411: a doorbell of a queue's owner, or of PF0, moves its software index; an index out of the ring's range halts the queue with
CAUSE 6; one of another compartment, or on a DISABLED queue, changes no queue and is counted. DBARM also arms, or notifies at once when
entries wait. -/
def Obligations.Queues : Prop :=
  (∀ (s : State) (who : Sender) (q : Nat), s.selected who = some q →
  let x := s.queue q
  let others := fun (t : State) => t.mem = s.mem ∧ ∀ p ≠ q, t.queue p = s.queue p
  (x.st = 0 → s.contextOk q = true → After (.qmEnable who) s fun t =>
    (t.queue q).st = 1 ∧ (t.queue q).sw = 0 ∧ (t.queue q).dev = 0 ∧ (t.queue q).regs = x.regs ∧ others t) ∧
  (x.st = 0 → s.contextOk q = false → After (.qmEnable who) s fun t => t.queue q = { x with cause := 1 } ∧ others t) ∧
  After (.qmDisable who) s (fun t => (t.queue q).st = 0 ∧ (t.queue q).cause = 0 ∧
    ∀ e < 64, (s.engine e).st ≠ 0 → (s.engine e).queue = q → (t.engine e).st = 0) ∧
  (x.st = 2 → s.causePersists q = false → After (.qmRearm who) s fun t => t.queue q = { x with st := 1, cause := 0 } ∧ others t) ∧
  (x.st = 1 → After (.qmHalt who) s fun t => t.queue q = { x with st := 2, cause := 2 } ∧ others t)) ∧
  (∀ (s : State) (who : Sender) (q index : Nat),
  s.reach who o_qmDb = true → s.reach who o_qmDbarm = true → q < 65536 → index < 65536 →
  let x := s.queue q
  let mine := who = .host ∨ s.qOwner q = s.senderCmp who
  let inside := x.heldAt index ≤ x.size ∧ (index + 65536 - x.sw) % 65536 ≤ x.size
  let refused := fun (t : State) => t.qm = s.qm ∧ t.mem = s.mem ∧ t.ctlGet o_qmOwnerr = satInc (s.ctlGet o_qmOwnerr)
  let becomes := fun (y : Queue) (t : State) => t.queue q = y ∧ t.mem = s.mem ∧ ∀ p ≠ q, t.queue p = s.queue p
  (¬mine ∨ x.st = 0 → After (.dbRing who q index) s refused ∧ After (.dbarm who q index) s refused) ∧
  (mine ∧ x.st ≠ 0 ∧ ¬inside → After (.dbRing who q index) s (becomes { x with st := 2, cause := 6 }) ∧
    After (.dbarm who q index) s (becomes { x with st := 2, cause := 6 })) ∧
  (mine ∧ x.st ≠ 0 ∧ inside ∧ x.kind ≠ 2 → After (.dbRing who q index) s (becomes { x with sw := index }) ∧
    (x.produced = true ∨ x.heldAt index = 0 → After (.dbarm who q index) s (becomes { x with sw := index, armed := true })) ∧
    (x.produced = false ∧ x.heldAt index ≠ 0 ∧ x.nEn = true → After (.dbarm who q index) s fun t =>
      becomes { x with sw := index, armed := false } t ∧ fbit (t.ctlGet (o_qmNpend x.nCore)) x.nVec = true)))

/-- R404, R421, R422: the queue manager delivers the message at the head of a SEND queue to the RECEIVE queue that names it: its 64 bytes are
those of the entry, and both queues' indexes move on. A destination that does not run is status 16, one that names another queue 18.
R412, R416, R420, R423: an engine at work on a descriptor of physical addresses, with nothing that shapes its requests. One step of COPY or
FILL writes the bytes up to the next line boundary; NOP ends at once; a descriptor with a reserved OP is taken and ends at once; RESUME
lets a parked engine go on from DONE, and DISCARD ends its descriptor.
R404, R418: a completion record for a queue that is no enabled COMPLETE queue of its owner is counted as lost; in one with room it enters, and
its device index moves; for one that is full it is held. -/
def Obligations.MessagesAndEngines : Prop :=
  (∀ (s : State) (q : Nat),
  let x := s.queue q
  let r := s.queue x.arg
  q < 65536 → x.st = 1 → x.kind = 3 → x.held ≠ 0 → s.recHeld q = false → s.mem.poisoned (lineOf x.entryAt) = false →
  (r.st ≠ 1 → s.messageFate q = some 16) ∧ (r.st = 1 → r.kind ≠ 4 ∨ r.other ≠ q → s.messageFate q = some 18) ∧
  (r.st = 1 → r.kind = 4 → r.other = q → r.full = false → x.okRec = false → s.mem.failed = [] → s.mem.Canonical →
    (∀ n, s.recording n = false) → r.entryAt % 64 = 0 →
    x.shadow / 64 ≠ r.entryAt / 64 → (x.shadow + 3) / 64 ≠ r.entryAt / 64 → r.shadow / 64 ≠ r.entryAt / 64 → (r.shadow + 3) / 64 ≠ r.entryAt / 64 →
    After (.messageDelivery q) s fun t =>
      (t.queue q).dev = (x.dev + 1) % 65536 ∧ (t.queue x.arg).dev = (r.dev + 1) % 65536 ∧
      ∀ i < 64, t.mem.byte (r.entryAt + i) = s.mem.byte (x.entryAt + i)) ∧
  (∀ status, s.messageFate q = some status → status ≠ 0 → After (.messageDelivery q) s fun t => (t.queue q).dev = (x.dev + 1) % 65536) ∧
  (s.messageFate q = none → After (.messageDelivery q) s (· = s))) ∧
  (∀ (s : State) (e n : Nat), e < 64 → s.eOwner e = some n →
  let x := s.engine e
  let d := x.d
  let left := d.length - x.done
  let da := d.dst + x.done
  let sa := d.src + x.done
  let shaped := s.live.contracts ≠ [] ∨ s.held ≠ [] ∨ s.flight ≠ []
  let writes := fun (m : Nat) (f : Nat → Byte) (t : State) => (t.engine e).done = x.done + m ∧ ∀ i < m, t.mem.byte (da + i) = f i
  (x.st = 1 → d.op ≤ 1 → d.srcSp = 0 → d.dstSp = 0 → x.done < d.length → s.dmaMay n da true = true → ¬shaped → s.recording n = false →
    s.mem.failed = [] → s.mem.Canonical →
    (d.op = 1 → After (.fill e 1) s (writes (min left (64 - da % 64)) fun i => BitVec.ofNat 9 (d.pattern / 512 ^ ((x.done + i) % 4)))) ∧
    (d.op = 0 → s.dmaMay n sa false = true → s.mem.poisoned (lineOf sa) = false →
      After (.copy e 1) s (writes (min (min left (64 - da % 64)) (64 - sa % 64)) fun i => s.mem.byte (sa + i)))) ∧
  (x.st = 1 → d.op = 2 → After (.nop e) s fun t => (t.engine e).st = 0) ∧
  (∀ q, x.st = 0 → s.nextQueue e = some q → (s.queue q).kind = 1 → s.mem.poisoned (lineOf (s.queue q).entryAt) = false →
    3 ≤ (descOf (s.descAt q)).op → After (.descriptorReservedOp e) s fun t =>
      (t.engine e).st = 0 ∧ (t.queue q).dev = ((s.queue q).dev + 1) % 65536) ∧
  (∀ who, s.reach who (o_engCtrl e) = true → x.st = 2 →
    After (.engResume who e) s (fun t => t.engine e = { x with st := 1, issued := x.done } ∧ t.mem.byte = s.mem.byte) ∧
    After (.engDiscard who e) s fun t => (t.engine e).st = 0)) ∧
  (∀ (s : State) (r : HeldRec),
  let x := s.queue r.cq
  let fits := x.st ≠ 0 ∧ x.kind = 2 ∧ s.qOwner r.cq = s.qOwner r.src ∧ (s.qOwner r.cq).isSome = true
  (¬fits → s.record1 r = s.ctlInc o_qmLostrec) ∧
  (fits → x.full = true → (s.record1 r).qm.recs = s.qm.recs ++ [r] ∧ (s.record1 r).mem = s.mem) ∧
  (fits → x.full = false → (∀ h ∈ s.qm.recs, h.cq ≠ r.cq) →
    ((s.record1 r).queue r.cq).dev = (x.dev + 1) % 65536 ∧ (s.record1 r).qm.recs = s.qm.recs))

/-! ## Network and host -/

/-- R431 (Table 17-4): a frame that a stage drops is counted by its port and cause, and reaches no queue; one that a rule without a stream sends
to one other port enters that port's egress queue of its class.
R432, R438, R439, R442: the next entry of a NETOUT queue enters the egress queue of its rule's class, with the tags its rule inserts; an entry whose
port is not up ends at once. R443: with every gate open and no shaper, the highest class with a frame is sent. -/
def Obligations.NetworkFrames : Prop :=
  (∀ (s : State) (port : Nat) (octs : List Nat) (fcs frag : Bool) (busy : Nat),
  port < 16 → s.portUp port = true →
  let o := octs.map (· % 256)
  let len := octs.length + 4
  let dropped := fun (cause : Nat) (t : State) => t.net.ports = s.net.ports ∧ t.mem = s.mem ∧
    smGet 0 t.net.drops (port * 32 + cause) = min (smGet 0 s.net.drops (port * 32 + cause) + 1) (2 ^ 32 - 1)
  let i := Instr.frameReceive port octs fcs frag busy
  let good := busy ≤ 9216 ∧ fcs = true ∧ 64 ≤ len ∧ len ≤ 9216 ∧ frag = true
  (9216 < busy → After i s (dropped 15)) ∧ (busy ≤ 9216 ∧ fcs = false → After i s (dropped 1)) ∧
  (busy ≤ 9216 ∧ fcs = true ∧ len < 64 → After i s (dropped 2)) ∧ (busy ≤ 9216 ∧ fcs = true ∧ 9216 < len → After i s (dropped 3)) ∧
  (busy ≤ 9216 ∧ fcs = true ∧ 64 ≤ len ∧ len ≤ 9216 ∧ frag = false → After i s (dropped 4)) ∧
  (good → s.netSec port = none → After i s (dropped 6)) ∧
  (∀ sec, good → s.netSec port = some sec → netMacsec sec = false →
    let f := parseTags (netPvid sec) (netDefPcp sec) o
    (findRule sec o f.vid = none → After i s (dropped 6)) ∧
    (∀ j r q, findRule sec o f.vid = some (j, r) → r.stream = 0xFFFF → q < 16 → q ≠ port → r.ports = 2 ^ q → s.portUp q = true →
      s.egressRoom q f.pcp (s.wireOn q o) = true → After i s fun t =>
        smGet [] (t.port q).queues f.pcp = smGet [] (s.port q).queues f.pcp ++ [⟨o, s.wireOn q o, none, none⟩]))) ∧
  ((∀ (s : State) (q p : Nat) (sec : List Nat) (r : EgRule),
    let x := s.queue q
    let pa := x.entryAt
    let buf := s.mem.read pa 4 + 2 ^ 36 * (s.mem.read (pa + 4) 4 % 64)
    let len := s.mem.read (pa + 8) 4
    let mac := macExtra (some sec) (buildFrame r 0 0 (s.mem.octets (x.pack == 2) buf 0 14))
    let w := max 64 (len + (if r.untagged then 0 else 4) + (if r.rtag then 6 else 0) + 4 + mac)
    q < 65536 → x.st = 1 → x.kind = 6 → s.outWaiting q = 0 → x.held ≠ 0 → s.mem.poisoned (lineOf pa) = false →
    s.egressOf x.other = some (p, sec, r) → w ≤ 9216 → len ≤ 9200 →
    (s.portUp p = false → After (.egressDequeue q) s fun t => (t.queue q).dev = (x.dev + 1) % 65536 ∧ t.net = s.net) ∧
    (s.portUp p = true → x.pack ≠ 2 → 12 ≤ len → (∃ n, s.qOwner q = some n ∧ s.ownsRange n buf len = true) → s.mem.poison = [] → s.mem.lost = [] →
      s.mem.failed = [] → s.egressRoom p r.tc w = true → s.live.contracts = [] → After (.egressDequeue q) s fun t =>
        ∃ f, smGet [] (t.port p).queues r.tc = smGet [] (s.port p).queues r.tc ++ [f] ∧ f.left = w ∧
          f.octs = buildFrame r (smGet 0 s.net.seqs x.other) mac (s.mem.octets false buf 0 len))) ∧
  (∀ (s : State) (p c : Nat) (f : NetFrame) (rest : List NetFrame),
    let x := s.port p
    p < 16 → s.portUp p = true → s.netSec p = none → x.list = [] → x.part = none → x.curEnd ≤ s.time → c < 8 →
    smGet [] x.queues c = f :: rest → (∀ d, c < d → d < 8 → smGet [] x.queues d = []) → f.ent = none →
    After (.transmissionSelection p) s fun t => .frame p f.octs ∈ t.sent ∧ smGet [] (t.port p).queues c = rest ∧
      (t.port p).curEnd = s.time + s.wireTime p (max 64 (f.octs.length + 4))))

/-- R429, R444 to R448, R451: a gate entry whose interval is over gives way to the next; a write of TOFFSET makes gPTP time the package time plus the
offset and NETTIME pending on the cores whose compartment owns a stream, which a read of TEVENT ends, and so does a change of SYNCED; INSTALL
takes the staged key and clears the staged registers; a port that comes up at its declared rate is UP; a wake outside Park sets PORTSTAT.WAKE. -/
def Obligations.NetworkControl : Prop := ∀ (s : State) (port : Nat), port < 16 →
  let x := s.port port
  let timed := fun (t : State) => ∀ k, k ∈ t.nettime ↔ k < 240 ∧ (k ∈ s.nettime ∨ ∃ n, s.cmpOf k = some n ∧ s.ownsAny n 5 = true)
  (x.next = none → x.list ≠ [] → x.gateEnd ≤ s.gptp → ∀ g, x.list[x.succ]? = some g → After (.gateEntry port) s fun t =>
    (t.port port).gate = x.succ ∧ (t.port port).gateEnd = x.gateEnd + g.interval ∧
    (t.port port).hold = (g.op == 1 || (g.op != 2 && x.hold)) ∧ (t.port port).list = x.list ∧ (t.port port).queues = x.queues) ∧
  (∀ v, After (.toffsetWrite v) s fun t => t.gptp = s.time + signed64 (v % 2 ^ 64) ∧ timed t ∧ t.mem = s.mem) ∧
  (∀ b, fbit (s.ctlGet o_nswStatus) 30 ≠ b → After (.syncedChange b) s fun t => fbit (t.ctlGet o_nswStatus) 30 = b ∧ timed t) ∧
  (∀ k, s.reach (.core k) o_nswTevent = true → After (.teventRead k) s fun t => t.nettime = s.nettime.filter (· != k)) ∧
  (∀ who cmd, s.reach who (o_nswMscmd port) = true → After (.macsecInstall who port cmd) s fun t =>
    (∃ a ∈ t.net.sas, a.port = port ∧ a.rx = fbit cmd 29 ∧ a.an = fget cmd 26 25 ∧ a.xpn = fbit cmd 30 ∧
      ∀ i < 8, a.key / 2 ^ (32 * i) % 2 ^ 32 = (s.ctlGet (o_nswMskey port i)).toNat) ∧ ∀ i < 8, t.ctlGet (o_nswMskey port i) = 0) ∧
  (s.portRate port ≠ 0 → s.portState port = 1 → After (.portLinkChange port true (s.portRate port)) s fun t => t.portState port = 2) ∧
  (s.pwr.phase = .run → After (.phyWake port) s fun t => fbit (t.ctlGet (o_nswPortstat port)) 27 = true ∧ t.mem = s.mem)

/-- R462 to R466, R468: a posted write through an open window (plain octets, no contract of its class) changes exactly the bytes it covers; a
read returns the low octets of the bytes; through a closed window a write changes nothing and is counted, and a read is answered with
Unsupported Request. -/
def Obligations.HostMemory : Prop := ∀ (s : State) (v off : Nat) (octs : List Nat), v < 32 → octs ≠ [] →
  fbit (s.ctlGet o_hepStatus) 30 = true → s.credited = true →
  let w := off / 2 ^ 28 % 256
  let o := off % 2 ^ 28
  let x := s.win v w
  let n := octs.length
  let writeOpen := s.winOpen v w o n = true ∧ x.wr = true
  let readOpen := s.winOpen v w o n = true ∧ x.rd = true
  let clean := s.mem.failed = [] ∧ s.mem.poison = [] ∧ s.mem.lost = [] ∧ s.mem.Canonical
  let plain := x.bell = false ∧ x.pack = 1 ∧ s.live.contracts = []
  (¬writeOpen → After (.hostMemWrite v off octs .none) s fun t => t.mem = s.mem ∧ t.qm = s.qm ∧
    smGet 0 t.hep.cnt (65 + v) = min (smGet 0 s.hep.cnt (65 + v) + 1) (2 ^ 32 - 1)) ∧
  (writeOpen ∧ plain ∧ clean → s.winMft v x o n = false → smGet [] s.hep.hold v = [] → (∀ c, s.recording c = false) →
    After (.hostMemWrite v off octs .none) s fun t => (∀ i < n, t.mem.byte (x.base + o + i) = BitVec.ofNat 9 (octs.getD i 0 % 256)) ∧
      ∀ pa, (pa < x.base + o ∨ x.base + o + n ≤ pa) → t.mem.byte pa = s.mem.byte pa) ∧
  (writeOpen → x.bell = true → n = 4 → o = 0 → smGet [] s.hep.hold v = [] → exec (.hostMemWrite v off octs .none) s =
    .next (s.doorbell (s.fOwner v) o_qmDb (octVal octs % 65536) (octVal octs / 65536) false)) ∧
  ((∀ e ∈ s.hep.hold, e.2 = []) →
    (¬readOpen → After (.hostMemRead v off n .none) s fun t =>
      (∃ l, t.sent = .completion 1 [] false :: (l ++ s.sent) ∧ ∀ e ∈ l, ∃ sev, e = .err (1 + v) sev) ∧ t.mem = s.mem) ∧
    (readOpen ∧ plain ∧ clean → n ≤ 128 - off % 128 → After (.hostMemRead v off n .none) s fun t =>
      t.sent = .completion 0 ((List.range n).map fun i => (s.mem.byte (x.base + o + i)).toNat % 256) false :: s.sent ∧ t.mem = s.mem))

/-- R455, R458: a configuration request and a request to BAR0: a read returns the register, a write sets its writable bits and clears those it
writes 1 to; a function in reset answers with a retry, one that is absent and a frame that does not run with Unsupported Request, and an
access that is not one aligned dword with Completer Abort.
R460, R461, R469 to R471: a writer selects entries of its own functions only; a commit of an entry that passes the checks puts the staged target
in force, and any other leaves the table and sets WREJ; a vector that its function may send goes out, and one that it may not is pending; a
doorbell of the host sets bits of HDB, in its turn behind held writes to the function (R468). -/
def Obligations.HostRegisters : Prop :=
  (∀ (s : State) (fn off : Nat), fn < 33 → off < 4096 → off % 4 = 0 →
  fbit (s.ctlGet o_hepStatus) 30 = true →
  let answers := fun (c : Sent) (t : State) => (∃ l, t.sent = c :: (l ++ s.sent) ∧ ∀ e ∈ l, ∃ sev, e = .err fn sev ∨ e = .err 0 sev) ∧
    t.mem = s.mem ∧ t.ctl = s.ctl
  let there := fn < 2 ∨ s.vfOn fn = true
  let bits := fun (v : Nat) => BitVec.ofNat 32 v
  let m := cfgMask fn off
  (s.hep.ready = false ∨ s.inFlr fn = true → ∀ wr be, After (.hostConfigRequest fn off wr be) s (answers (.completion 2 [] false))) ∧
  (s.hep.ready = true ∧ s.inFlr fn = false → ¬there → ∀ wr be, After (.hostConfigRequest fn off wr be) s (answers (.completion 1 [] false))) ∧
  (s.hep.ready = true ∧ s.inFlr fn = false → there → ∀ be, After (.hostConfigRequest fn off none be) s
    (answers (.completion 0 (valOct (s.cfgRead fn off) 4) false))) ∧
  (s.hep.ready = true ∧ s.inFlr fn = false → there → off ≠ 0x270 → ∀ v < 2 ^ 32, After (.hostConfigRequest fn off (some v) 15) s fun t =>
    t.sent.head? = some (.completion 0 [] false) ∧
    t.cfg fn off = (((bits (s.cfg fn off) &&& ~~~(bits m.1)) ||| (bits v &&& bits m.1)) &&& ~~~(bits v &&& bits m.2)).toNat) ∧
  (∀ a dws be, a < 0x1000000 → a % 4 = 0 → (∀ e ∈ s.hep.hold, e.2 = []) →
    (s.bar0Open 0 a = false → After (.hostBar0Access 0 a dws be none .none) s (answers (.completion 1 [] false))) ∧
    (s.bar0Open 0 a = true → ¬(dws = 1 ∧ be = 15) → After (.hostBar0Access 0 a dws be none .none) s (answers (.completion 4 [] false)))) ∧
  (∀ a, a < 0x1000000 → a % 4 = 0 → a / 0x10000 ≠ 0x1E → a / 0x10000 ≠ 0x1F → (∀ e ∈ s.hep.hold, e.2 = []) → s.bar0Open 0 a = true →
    exec (.hostBar0Access 0 a 1 15 none .none) s =
      .next ((s.ctlRead .host a).1.emit (.completion 0 (valOct (s.ctlRead .host a).2.toNat 4) false)) ∧
    ∀ v, exec (.hostBar0Access 0 a 1 15 (some v) .none) s = .next (s.ctlWrite .host a (r32 v)))) ∧
  (∀ (s : State) (who : Sender) (v win : Nat), v < 32 → win < 256 →
  let w := s.writerId who
  let key := smGet 0 s.hep.wsel w
  let tgt := smGet 0 s.hep.wtgt w
  let refused := fun (t : State) => t.hep = s.hep ∧ fbit (t.ctlGet o_hepStatus) 31 = true
  (s.reach who o_hepWsel = true → (w = 32 ∨ s.fOwner v = some w) → After (.hepWselWrite who v win) s fun t =>
    smGet 0 t.hep.wsel w = v * 256 + win ∧ t.hep.wins = s.hep.wins) ∧
  (s.reach who o_hepWsel = true → ¬(w = 32 ∨ s.fOwner v = some w) → After (.hepWselWrite who v win) s refused) ∧
  (∀ cfg, s.reach who o_hepWcfg = true → let ok := (w = 32 ∨ s.fOwner (key / 256) = some w) ∧ s.winOk (key / 256) tgt (cfg &&& 0xFF00FFFF) = true
    (ok → After (.hepWcfgWrite who cfg) s fun t => t.win (key / 256) (key % 256) = ⟨cfg &&& 0xFF00FFFF, tgt⟩) ∧
    (¬ok → After (.hepWcfgWrite who cfg) s refused)) ∧
  (∀ vec < 2048, s.reach who (o_hepMsisend v) = true → s.intMode (1 + v) ≠ 0 →
    (∀ m, s.msgOf (1 + v) vec = some m → After (.msisend who v vec) s fun t => m ∈ t.sent) ∧
    (s.msgOf (1 + v) vec = none → After (.msisend who v vec) s fun t => vec ∈ smGet [] t.hep.pend (1 + v))) ∧
  (∀ bits, fbit (s.ctlGet o_hepStatus) 30 = true → s.credited = true → s.fnOpen v = true →
    (smGet [] s.hep.hold v = [] → After (.hdbset v bits) s fun t => t.ctlGet (o_hepHdb v) = s.ctlGet (o_hepHdb v) ||| bits) ∧
    (smGet [] s.hep.hold v ≠ [] → After (.hdbset v bits) s fun t => t.ctl = s.ctl ∧
      smGet [] t.hep.hold v = smGet [] s.hep.hold v ++ [⟨256, 0xC004, valOct bits.toNat 4⟩])))

/-- R467, R476: a completion adds its octets to the read it answers, one with an error and a timeout end the descriptor of the engine, and one that
answers no read is counted; a link-layer retry sets its bit of PF0's correctable status.
R424, R453, R472 to R475: a function-level reset clears what is pending and keeps the function silent until it completes, with its configuration
space at reset values; Bus Master Enable 0 ends the function's DMA; VF Enable 0 resets every VF; a link that is lost resets every
function, and one that comes up shows its rate and width and readies them. -/
def Obligations.HostResets : Prop :=
  (∀ (s : State) (fn tag : Nat) (octs : List Nat), fn < 32 →
  let found := s.hep.reads.find? (fun r => r.fn == 1 + fn && r.tag == tag)
  (∀ r, found = some r →
    (r.dead = false → octs.length + r.got.length ≤ r.len → r.len ≠ 0 → After (.hostCompletion fn tag 0 octs .none) s fun t =>
      { r with got := r.got ++ octs.map (· % 256) } ∈ t.hep.reads ∧ t.mem = s.mem) ∧
    (r.dead = false → ∀ status, status ≠ 0 → After (.hostCompletion fn tag status octs .none) s fun t => (t.engine r.engine).st = 0) ∧
    (r.dead = false → After (.completionTimeout fn tag) s fun t => (t.engine r.engine).st = 0)) ∧
  (found = none → ∀ status, After (.hostCompletion fn tag status octs .none) s fun t => t.hep.reads = s.hep.reads ∧ t.mem = s.mem ∧
    smGet 0 t.hep.cnt (6 * 64 + 1 + fn) = min (smGet 0 s.hep.cnt (6 * 64 + 1 + fn) + 1) (2 ^ 32 - 1)) ∧
  (∀ k b, [0, 6, 7, 8, 12][k]? = some b → After (.linkLayerRetry k) s fun t => t.cfgBit 0 0x110 b = true)) ∧
  (∀ (s : State),
  let linkDown := fun (t : State) => fbit (t.ctlGet o_hepStatus) 30 = false ∧ t.hep.ready = false ∧ ∀ fn < 33, t.inFlr fn = true
  (∀ fn < 33, fn ≠ 1 → s.inFlr fn = false → After (.functionLevelReset fn false) s fun t => t.inFlr fn = true ∧
    smGet [] t.hep.pend fn = [] ∧ (fn ≠ 0 → fbit (t.ctlGet (o_hepFnstate (fn - 1))) 26 = true)) ∧
  (∀ fn < 33, fn ≠ 1 → s.inFlr fn = true → After (.functionLevelReset fn true) s fun t => t.inFlr fn = false ∧
    ∀ off < 4096, t.cfg fn off = s.cfgReset fn off) ∧
  (∀ fn < 33, s.inFlr fn = false → ∀ on, After (.busMasterEnableWrite fn on) s fun t => t.cfgBit fn 4 2 = on ∧
    (on = false → fn ≠ 0 → ∀ e < 64, (s.engine e).st ≠ 0 → (s.engine e).d.host = true → (s.engine e).d.func = fn - 1 → (t.engine e).st = 0)) ∧
  (s.inFlr 1 = false → ∀ on, After (.vfEnableWrite on) s fun t => t.cfgBit 1 0x268 0 = on ∧
    (s.cfgBit 1 0x268 0 = true → on = false → ∀ fn, 2 ≤ fn → fn < 33 → t.inFlr fn = true)) ∧
  After .hotReset s (fun t => linkDown t ∧ t.hep.training = !s.hep.perst) ∧
  After .perstAssert s (fun t => linkDown t ∧ t.hep.perst = true ∧ t.hep.training = false) ∧
  After .pcieRefclkLoss s (fun t => linkDown t ∧ t.hep.training = !s.hep.perst) ∧
  After .perstDeassert s (fun t => t.hep.perst = false ∧ t.hep.training = true ∧ t.mem = s.mem) ∧
  (∀ rate width, s.hep.training = true → s.hep.perst = false → 60000000 ≤ s.time → 1 ≤ rate → rate ≤ 5 → width ∈ [1, 4, 8, 16] →
    width ≤ s.board.pexLanes → After (.hostLinkUp rate width) s fun t =>
      let st := t.ctlGet o_hepStatus
      fbit st 30 = true ∧ fget st 29 27 = rate ∧ fget st 26 22 = width ∧ t.hep.ready = true ∧ ∀ fn < 33, t.inFlr fn = false))

/-! ## Links and the pair -/

/-- R479 to R482: a data flit that arrives as sent, in sequence, moves the receiver on; one with a wrong CRC is discarded and asked for again, and
the receiver waits for it; the transmitter then replays; with no header flit for 16 flit times a control flit goes out. A flit with a
single bit inverted on the wire has a wrong CRC. R20, R23, R479: a new flit of this package carries no more messages than it holds, each of
which takes this link; one that it has sent before is sent again as it was. -/
def Obligations.FlitRetry : Prop :=
  (∀ (s : State) (l d : Nat) (f e : BitVec 640) (msgs : List (Nat × Nat × Nat)), l < 36 → d < 2 → s.linkUp l = true →
    let x := s.linkDir l d
    let got := (f ^^^ e).toNat
    let crcOk := flitCrc (got % 2 ^ 608) = got / 2 ^ 608
    x.sendable l f.toNat = true → s.maySend l d f.toNat = true →
    (f.toNat ∈ x.buf ∨ (msgs.length ≤ flitHolds f.toNat ∧ s.takesLink l msgs = true)) →
    (e = 0 → crcOk → flitKind f.toNat = 2 → flitSeq f.toNat = x.expect → After (.flitReceive l d f e ⟨false, msgs⟩) s fun t =>
      (t.linkDir l d).expect = (x.expect + 1) % 1024 ∧ (t.linkDir l d).asked = false ∧ t.mem = s.mem ∧ ((∀ g, smFind? s.ctl (o_pmuUctl g) = none) → t.ctl = s.ctl)) ∧
    (¬crcOk → After (.flitReceive l d f e ⟨false, msgs⟩) s fun t =>
      (t.linkDir l d).expect = x.expect ∧ (t.linkDir l d).asked = true ∧ t.mem = s.mem)) ∧
  (∀ (s : State) (l d : Nat), l < 38 → d < 2 → s.linkUp l = true →
    let x := s.linkDir l d
    (x.asked = true → x.replaying = false → After (.retryRequest l d) s fun t =>
      (t.linkDir l d).replaying = true ∧ (t.linkDir l d).replays = x.replays + 1) ∧
    (x.headerAt + s.idleTime l ≤ s.time → After (.idleControlFlit l d) s fun t =>
      t.sent = .flit l :: s.sent ∧ (t.linkDir l d).headerAt = s.time)) ∧
  (∀ (f : BitVec 640) (i : Nat), i < 640 → flitCrc (f.toNat % 2 ^ 608) = f.toNat / 2 ^ 608 →
    let got := (f ^^^ BitVec.twoPow 640 i).toNat
    flitCrc (got % 2 ^ 608) ≠ got / 2 ^ 608)

/-- R483 to R490: training goes from BIST, which leaves the lanes that failed, over MAP, DESKEW and VERSION to FULL or HALF; a lane below margin and
the lanes of a lost clock are marked; a quiet window puts a spare in a failed lane's place; with none left the module drops to half width;
FRY.CTRL retrains a module, and takes one that is DISABLED back to BIST.
R20 to R23 (Table 1-4): at a flush point traffic between two dies moves to the first route whose modules are up: a ring link between
neighbours, otherwise the spokes; a Grove without a spoke goes round the ring. Of a spoke's two modules a line's traffic takes the one of its
parity, and the other where the route has only that; while the route to its home changes, a Grove's requests and write-backs are held. R594: a transaction without its reply is closed, and its line is
poison. -/
def Obligations.FerryLanes : Prop :=
  (∀ (s : State) (m : Nat), m < 36 →
  let x := s.ferry m
  (∀ a b, s.trains = true →
    (x.st = .off → After (.ferryTrainingStep m a b) s fun t => (t.ferry m).st = .bist) ∧
    (x.st = .bist → After (.ferryTrainingStep m a b) s fun t => (t.ferry m).st = .map ∧
      ∀ i < 64, (t.ferry m).d0.failed.testBit i = !a.getLsbD i ∧ (t.ferry m).d1.failed.testBit i = !b.getLsbD i) ∧
    (x.st = .map → x.d0.failed = x.d1.failed → x.d0.spfail = x.d1.spfail → x.d1.bare = [] → x.half = false →
      After (.ferryTrainingStep m a b) s fun t => (t.ferry m).st = .deskew ∧ (t.ferry m).half = false) ∧
    (x.st = .deskew → After (.ferryTrainingStep m a b) s fun t => (t.ferry m).st = .version) ∧
    (x.st = .version → After (.ferryTrainingStep m a b) s fun t =>
      (t.ferry m).st = (if x.half then .half else .full) ∧ (t.ferry m).attempts = 0 ∧ (t.ferry m).version = if m < 24 then 12 else 20)) ∧
  (∀ d lanes, d < 2 → x.st = .full → (∀ l ∈ lanes, l < 65) → After (.eyeMonitorSample m d lanes) s fun t =>
    (∀ l ∈ lanes, ((t.ferry m).dir d).failed.testBit l = true) ∧ (t.ferry m).st = .full) ∧
  (∀ d, d < 2 → x.st = .full → After (.laneLossOfLock m d 2) s fun t => ((t.ferry m).dir d).failed.testBit 64 = true) ∧
  (∀ d lane rest sp, d < 2 → x.st = .full → x.bistWindow = false → (x.dir d).bare = lane :: rest → (x.dir d).freeSpare = some sp →
    After (.remap m d []) s fun t => smFind? ((t.ferry m).dir d).assign sp = some lane ∧ (t.ferry m).st = .full) ∧
  (x.st = .full → (∃ d < 2, (x.dir d).bare ≠ [] ∧ (x.dir d).freeSpare = none) → x.d0.halfOk false = true → x.d1.halfOk false = true →
    s.pwr.phase = .boot → After (.halfWidth m) s fun t => (t.ferry m).st = .retrain ∧ (t.ferry m).half = true ∧ (t.ferry m).upper = false) ∧
  (∀ g loc, g < 12 → loc < 4 → localModule g loc = m → s.reach .host (o_fryCtrl g loc) = true →
    (s.ferryUp m = true → s.pwr.phase = .boot → After (.fryRetrain g loc) s fun t => (t.ferry m).st = .retrain) ∧
    (x.st = .disabled → After (.fryEnable g loc) s fun t => (t.ferry m).st = .bist ∧ (t.ferry m).attempts = 0))) ∧
  (∀ (s : State) (a b : Nat), a < 12 → b < 12 → a ≠ b →
  (∀ r, s.routeFor a b = some r → r ≠ s.routeInForce a b → (∀ m ∈ s.routeInForce a b, s.flushed m = true) →
    After (.routeChange a b) s fun t => t.routeInForce a b = r ∧ t.mem = s.mem) ∧
  (b = (a + 1) % 12 → s.ferryUp (24 + a) = true → s.routeFor a b = some [24 + a]) ∧
  ((b ≠ (a + 1) % 12 ∧ a ≠ (b + 1) % 12) → s.spokeUp a = true → s.spokeUp b = true →
    s.routeFor a b = some (s.spokeModules a ++ s.spokeModules b)) ∧
  (s.spokeUp a = false → s.ferryUp (24 + a) = true → s.spokeUp ((a + 1) % 12) = true →
    s.toLanding a = some ((24 + a) :: s.spokeModules ((a + 1) % 12))) ∧
  (∀ route line g, g < 12 → (∀ i < 2, 2 * g + i ∈ route ↔ 2 * g + i ∈ wayOf route line) ∨
    (2 * g ∈ route ∧ 2 * g + 1 ∈ route ∧ ∀ i < 2, 2 * g + i ∈ wayOf route line ↔ i = lineParity line)) ∧
  (∀ route line m, 24 ≤ m → (m ∈ wayOf route line ↔ m ∈ route)) ∧
  (∀ line, s.homed line = true → s.moving a (s.homeFor line) = true →
    (∀ i ∈ [Instr.rds a line, .rdx a line, .upg a line, .evc a line], exec i s = .next s) ∧
    ∀ keep bytes, exec (.wb a line keep bytes) s = .next s) ∧
  (∀ line port txn, s.mem.waits = [] → s.mem.txns.find? (fun t => t.line == line && t.port == port) = some txn →
    After (.txnTimeout line port) s fun t => t.mem.poisoned line = true ∧ t.mem.txns = s.mem.txns.erase txn))

/-- R494 to R501: the training of a port, its heartbeat; a partner that matches and authenticates itself joins the pair under a new epoch with
new link keys (R568), one that matches and does not authenticate is counted, and another is a mismatch; a mirror write reaches the standby
copy of a mirrored compartment, on the port of its line's parity when both are up (R26), and any other line stays; the copy of a compartment
ends with MIRSYNC.
R502 to R507: a pair that has heard nothing for 200 microseconds splits, and its Keeper asks the witness; a frame of the witness's stream that is
no valid answer is counted and decides nothing; a valid one decides for the side it names, and after 20 ms without one SENIOR decides; the
winner of a mirrored compartment starts its standby copy. -/
def Obligations.Crossing : Prop :=
  (∀ (s : State) (port : Nat), port < 2 →
  let x := s.xport port
  let trains := bitOf s.board.xng port = true ∧ s.pairedChart = true ∧ s.trains = true
  (trains → (∀ a b, x.st = 0 → After (.crossingTraining port a b) s fun t => (t.xport port).st = 1) ∧
    (x.st = 1 → After (.crossingTraining port 0xFFFF 0xFFFF) s fun t => (t.xport port).st = 2) ∧
    (x.st = 1 → After (.crossingTraining port 0x00FF 0xFFFF) s fun t => (t.xport port).st = 3 ∧ (t.xport port).upper = false) ∧
    (x.st = 1 → After (.crossingTraining port 0x7F7F 0xFFFF) s fun t => (t.xport port).st = 5)) ∧
  (x.up = true → s.keeperOn = true → x.beatAt + 10000 ≤ s.time → After (.heartbeat port) s fun t => t.sent = .heartbeat port :: s.sent) ∧
  (∀ index dsn stepping digest epoch claims span pub mac, s.anyPortUp = true → s.pairedChart = true → s.links.pair ≠ 3 → s.live.cmps ≠ [] →
    let ok := index = 1 - s.live.pairIndex ∧ stepping = landingStepping ∧ digest = s.pairDigest
    let own := mac = Config.hmac384 (octVal (smGet [] s.sec.slots 9)) pub
    (¬ok → After (.pairJoin index dsn stepping ⟨digest, pub, mac⟩ epoch claims span) s fun t => t.links.pair = 6) ∧
    (ok → s.links.pair ≠ 2 → ¬own → After (.pairJoin index dsn stepping ⟨digest, pub, mac⟩ epoch claims span) s fun t =>
      t.links = s.links ∧ t.ctlGet (o_xngProterr 0) = satInc (s.ctlGet (o_xngProterr 0))) ∧
    (ok → s.links.pair ≠ 2 → own → After (.pairJoin index dsn stepping ⟨digest, pub, mac⟩ epoch claims span) s fun t =>
      t.links.pair = 2 ∧ (∀ p < 2, (t.xport p).flits0 = 0 ∧ (t.xport p).flits1 = 0) ∧ (t.ctlGet o_xngEpoch).toNat = (max epoch (s.ctlGet o_xngEpoch).toNat + 1) % 2 ^ 32)) ∧
  (∀ line, (s.xport 0).up = true → (s.xport 1).up = true → s.xngFor line = some (lineParity line)) ∧
  (∀ line, s.xngFor line ≠ some port → ∀ bytes, exec (.mirrorWrite port line bytes) s = .next s) ∧
  (∀ line bytes, s.xngFor line = some port → s.links.pair = 2 → bytes.length = 64 → s.mem.failed = [] → s.mem.Canonical →
    (s.standbyLine line = true → s.homeFree line = true → s.anyDeferred line = false → s.partnerHolds line = false → After (.mirrorWrite port line bytes) s fun t => ∀ i < 64, t.mem.byte (line * 64 + i) = bytes.getD i 0) ∧
    (s.standbyLine line = false → After (.mirrorWrite port line bytes) s fun t => t.mem = s.mem ∧
      t.ctlGet (o_xngProterr port) = satInc (s.ctlGet (o_xngProterr port)))) ∧
  (∀ n < 32, s.links.pair = 2 → s.mirrored n = true → s.links.active = some true → smGet 0 s.links.copied n < s.dramLines n →
    After (.mirrorCopy n) s fun t => smGet 0 t.links.copied n = smGet 0 s.links.copied n + 1 ∧
      (smGet 0 s.links.copied n + 1 = s.dramLines n → fbit (t.ctlGet o_xngMirsync) n = true))) ∧
  (∀ (s : State),
  (s.links.pair = 2 → s.links.heardAt + 200000 ≤ s.time → s.cht = none → After .split s fun t =>
    t.links.pair = (if s.pairCmps.any (fun n => s.cmpState n == .running) then 3 else 1) ∧ fbit (t.ctlGet o_xngSplitinfo) 31 = true) ∧
  (∀ x, s.links.split = some x → s.links.pair = 3 →
    (s.time ≤ x.t0 + 20000000 → x.asked = 0 → After .witnessQuery s fun t => t.draws = s.draws + 1 ∧
      ∃ y o, t.links.split = some y ∧ y.nonces = x.nonces ++ [(Config.rngDraw s.draws).toNat % 2 ^ 32] ∧ t.sent = .witness o :: s.sent) ∧
    (∀ f rest, s.net.keeper = f :: rest →
      (witnessPayload f = none → After .witnessAnswer s fun t => t.links = s.links ∧ t.net.keeper = rest) ∧
      (∀ o, witnessPayload f = some o → le o 0 2 = 0x4752 → le o 2 1 = 2 → le o 3 1 ≤ 1 → le o 8 8 = s.pairId →
        le o 0x10 4 = (s.ctlGet o_xngEpoch).toNat → x.nonces.contains (le o 0x14 4) = true → s.time ≤ x.t0 + 20000000 →
        After .witnessAnswer s fun t => t.net.keeper = rest ∧
          (sub o 0x18 16 = s.witnessMac (sub o 0 0x18) →
            t.links.pair = (if le o 3 1 = s.live.pairIndex then 4 else 5) ∧ t.links.split = none) ∧
          (sub o 0x18 16 ≠ s.witnessMac (sub o 0 0x18) → t.links = s.links))) ∧
    (x.t0 + 20000000 < s.time → After .splitResultTimeout s fun t => t.links.pair = (if s.senior then 4 else 5) ∧ t.links.split = none)) ∧
  (∀ n t0, s.links.takeAt = some t0 → t0 ≤ s.time → s.mirrored n = true → s.cmpState n = .stopped → (s.cmpSec n).isSome →
    After (.takeover n) s fun t => t.cmpState n = .running ∧ t.links.active = some true))

/-! ## Manifest, power and security -/

/-- R512, R513, R518, R522, R524, R526 to R532: a chunk that can hold no further group ends with CHUNK_LIMIT; the writer writes one block of 34 waiting
slots; STOP ends the session with cause 1; ARM arms a stopped compartment and DISARM undoes it; RIDX releases no more than is used; a
replay with a key that does not unwrap diverges with kind 6, and a replayed chunk whose hash differs with kind 1. -/
def Obligations.ManifestCommands : Prop := ∀ (s : State) (n : Nat), n < 32 →
  let mode := fun (t : State) => fget (t.ctlGet (o_mftCstate n)) 31 29
  let diverges := fun (kind : Nat) (t : State) => mode t = 5 ∧ t.cmpState n = .stopped ∧ fget (t.ctlGet o_mftDivinfo) 30 27 = kind
  (∀ k c, smFind? s.mftc k = some c → s.cmpOf k = some n → s.recording n = true → 65535 ≤ c.len → (s.core k).pair = none →
    After (.chunkLimit k) s fun t => (∃ d, smFind? t.mftc k = some d ∧ d.chunk = c.chunk + 1 ∧ d.len = 0) ∧
      (t.sess n).slots.length = (s.sess n).slots.length + (if s.chunkStores k c.chunk then 0 else 1) ∧ t.mem = s.mem) ∧
  (s.recording n = true → 34 ≤ (s.sess n).slots.length → s.mftFull n = false → (s.cmpSec n).isSome → After (.manifestBlockWrite n) s fun t =>
    t.sess n = { s.sess n with slots := (s.sess n).slots.drop 34, bseq := (s.sess n).bseq + 1 } ∧
    t.ctlGet (o_mftWidx n) = s.ctlGet (o_mftWidx n) + 1) ∧
  (∀ who, s.reach who (o_mftCtrl n) = true → s.recording n = true → After (.mftStop who n) s fun t =>
    mode t = 4 ∧ fget (t.ctlGet (o_mftCstate n)) 28 25 = 1) ∧
  (s.reach .host o_mftCmd = true →
    (s.cmpState n = .stopped → s.mftMode n = 0 → After (.arm n) s fun t => mode t = 1) ∧
    (s.mftMode n = 1 → After (.disarm n) s fun t => mode t = 0) ∧
    (s.mftMode n ≠ 1 → s.recording n = false → After (.disarm n) s fun t => t.mft = s.mft ∧ fbit (t.ctlGet o_mftStatus) 31 = true) ∧
    (∀ blocks c, s.cmpSec n = some c → c.manifest = false → s.cmpState n = .stopped → fbit (s.ctlGet o_mftStatus) 30 = false →
      After (.replay n blocks) s fun t =>
        Config.keyUnwrap (octVal (smGet [] s.sec.slots 10)) (smGet [] s.sec.staged n) = none → diverges 6 t)) ∧
  (∀ who v, v < 2 ^ 32 → s.reach who (o_mftRidx n) = true →
    let released := (v + 2 ^ 32 - (s.ctlGet (o_mftRidx n)).toNat) % 2 ^ 32
    (released ≤ s.mftUsed n → After (.ridxWrite who n v) s fun t => (t.ctlGet (o_mftRidx n)).toNat = v ∧ t.mem = s.mem) ∧
    (s.mftUsed n < released → After (.ridxWrite who n v) s fun t => t.ctlGet (o_mftRidx n) = s.ctlGet (o_mftRidx n) ∧
      fbit (t.ctlGet o_mftStatus) 31 = true)) ∧
  (∀ agent k c r rest, s.mftMode n = 3 → agent ≠ 255 → (s.coresOf n).find? (fun k => s.rank k == agent) = some k → smFind? s.mftc k = some c →
    (s.core k).mftFrozen = false → c.replay = r :: rest → r.type = 2 → r.offset = c.len % 65536 →
    crcItem c.crc 0x300 (s.core k).pc % 2 ^ 64 ≠ r.data → After (.replayChunk n agent []) s (diverges 1))

/-- R536 to R540 (Table 21-3): power starts the boot at step 1; the checks, the self-test, and the training of DRAM end their steps; a generator that
fails the self-test is a tamper event, and a bad header stops the boot with ERROR 2. R534: power that falls leaves nothing but the fuses.
R553 to R555, R609: a Park request starts the grace period, which ends in Park with nothing running; the alarm and a wake pin end Park at boot step
2; RAILOK lets the boot go on to step 4. -/
def Obligations.BootAndPark : Prop :=
  (∀ (s : State),
  let at_ := fun (n : Nat) (t : State) => t.pwr.phase = .boot ∧ t.pwr.step = n ∧ fget (t.ctlGet o_pwrBootstat) 31 28 = n
  (s.pwr.phase = .off → After .powerOn s (at_ 1)) ∧
  (s.pwr.phase = .boot →
    (s.pwr.step = 1 → After (.bootStep .checks) s (at_ 2)) ∧
    (∀ tags, s.pwr.step = 2 → After (.bootStep (.selftest true tags)) s fun t => at_ 3 t ∧ t.sec.keys = !s.sec.dbgState) ∧
    (∀ tags, s.pwr.step = 2 → After (.bootStep (.selftest false tags)) s fun t => t.pwr.phase = .tamper) ∧
    (∀ h b fa fb, s.pwr.step = 3 → s.pwr.fwOk = false → headerOk h = false → After (.bootStep (.flash h b fa fb)) s fun t =>
      t.pwr.phase = .stopped ∧ fget (t.ctlGet o_pwrBootstat) 27 24 = 2) ∧
    (∀ failed, s.pwr.step = 4 → After (.bootStep (.dram failed)) s fun t => at_ 5 t ∧
      ∀ c < 16, s.subState c ≠ 3 → s.subState c ≠ 4 → s.subState c ≠ 5 → t.subState c = if failed.contains c then 3 else 1)) ∧
  After .powerLoss s (fun t => t.pwr.phase = .off ∧ t.cores = [] ∧ t.ctl = [] ∧ t.live = Chart.empty ∧ t.store = none ∧ t.mem.dram = [] ∧
    t.sec.keys = false ∧ t.sec.field = s.sec.field ∧ t.sec.slots = s.sec.slots ∧ t.sec.svnFloor = s.sec.svnFloor ∧ t.fuses = s.fuses)) ∧
  (∀ (s : State),
  let wakes := fun (cause : Nat) (t : State) => t.pwr.phase = .waking ∧ t.pwr.step = 2 ∧ t.pwr.parkN = false ∧ (t.ctlGet o_pwrWakecause).toNat = cause
  let alarm := (s.ctlGet o_pwrAlarmLo).toNat + 2 ^ 32 * (s.ctlGet o_pwrAlarmHi).toNat
  (s.reach .host o_pwrCtrl = true → s.parkReady = true → After .park s fun t => t.pwr.phase = .parking ∧ t.pwr.parkReq = false ∧
    t.pwr.graceEnd = s.time + fget (s.ctlGet o_pwrParkcfg) 15 0 * 1000000) ∧
  (s.reach .host o_pwrCtrl = true → s.pwr.phase = .run → s.parkReady = false → After .park s fun t => t.pwr.phase = .run ∧ t.pwr.parkReq = true) ∧
  (s.pwr.phase = .parking → s.pwr.exit = none → s.pwr.graceEnd ≤ s.time → (∀ m ∈ s.live.cmps, s.cmpState m.id ≠ .running) →
    After .parkGraceExpiry s fun t => t.pwr.phase = .park ∧ t.pwr.parkN = true ∧ t.cores = [] ∧ t.sec.keys = false ∧ t.logOff = true) ∧
  (s.pwr.phase = .park → alarm ≠ 2 ^ 64 - 1 → alarm ≤ s.time → After .parkAlarm s (wakes (3 * 2 ^ 30))) ∧
  (∀ pin level ns, s.pwr.phase = .park → pin < 32 → bitOf s.board.wakeGpio pin = true → bitOf s.board.wakePol pin = level → 10000 ≤ ns →
    After (.gpioWake pin level ns) s (wakes (2 * 2 ^ 30 + pin))) ∧
  (s.pwr.phase = .waking → s.pwr.fwOk = true → After (.railok true) s fun t => t.pwr.phase = .boot ∧ t.pwr.step = 4 ∧ t.pwr.railOk = true) ∧
  (s.pwr.phase = .run → ∀ level, After (.railok level) s fun t => t.pwr = { s.pwr with railOk := level }))

/-- R535, R542, R593 (Table 21-5): RESET_N held for a microsecond, PWR.CTRL.WARMRST, the Keeper's watchdog and lockstep, and a fatal error each start a
package warm reset with its own cause in RSTCAUSE: every core stops, nothing cached stays, and boot begins at step 1 (with RESET_N, once it is
high). A shorter pulse changes nothing. R25: a package stopped for want of a spoke is left by RESET_N, WARMRST or the loss of power alone.
R543, R549, R567: a tamper sensor that trips, and a reference clock out of range or lost for long enough, overwrite every secret but the fuses'
and hold the package; it boots once every sensor has been in range for 100 ms. -/
def Obligations.PackageResets : Prop :=
  (∀ (s : State),
  let reset := fun (cause : Nat) (t : State) => fget (t.ctlGet o_pwrRstcause) 31 28 = cause ∧ t.cores = [] ∧ t.live = Chart.empty ∧
    t.mem.l2 = [] ∧ t.mem.grove = [] ∧ t.mem.dirty = [] ∧ t.mem.clr = [] ∧ t.cht = none ∧ t.qm = Qm.reset ∧ t.sec.slots = s.sec.slots
  let boots := fun (t : State) => t.pwr.phase = .boot ∧ t.pwr.step = 1
  (∀ ns < 1000, After (.resetN ns) s (· = s)) ∧
  (s.awake = true → s.pwr.phase ≠ .held → (∀ ns, 1000 ≤ ns → After (.resetN ns) s fun t => reset 1 t ∧ t.pwr.phase = .held) ∧
    (s.reach .host o_pwrCtrl = true → After .warmrst s fun t => reset 2 t ∧ boots t) ∧
    (∀ row chart, s.noSpokeStop = false → After (.packageFatalError row chart) s fun t => reset 6 t ∧ boots t ∧ (chart = true → t.store = none)) ∧
    (∀ row chart, s.noSpokeStop = true → After (.packageFatalError row chart) s fun t => t.pwr = s.pwr ∧ t.cores = s.cores ∧ t.live = s.live)) ∧
  (s.noSpokeStop = true → After .watchdogExpiry s (· = s) ∧ After .lockstepMismatch s (· = s)) ∧
  (s.pwr.phase = .held → After .resetNRelease s boots) ∧
  (s.keeperOn = true → s.noSpokeStop = false → After .watchdogExpiry s (fun t => reset 3 t ∧ boots t) ∧ After .lockstepMismatch s fun t => reset 4 t ∧ boots t)) ∧
  (∀ (s : State), s.pwr.phase ≠ .off →
  let wiped := fun (bit : Nat) (t : State) => t.pwr.phase = .tamper ∧ t.sec.keys = false ∧ t.sec.wraps = [] ∧ t.store = none ∧ t.mem.dram = [] ∧
    t.cores = [] ∧ fbit (t.ctlGet o_secTamper) bit = true ∧ t.sec.slots = s.sec.slots
  (∀ i < 6, After (.tamper i) s (wiped (31 - i))) ∧
  (∀ lost ppm ns, (if lost then 1000 ≤ ns else 1000 < ppm ∧ 10000 ≤ ns) → After (.refclkFault lost ppm ns) s (wiped 29)) ∧
  (∀ lost ppm ns, ¬(if lost then 1000 ≤ ns else 1000 < ppm ∧ 10000 ≤ ns) → After (.refclkFault lost ppm ns) s (· = s)) ∧
  (s.pwr.phase = .tamper → s.pwr.quietFrom + 100000000 ≤ s.time → After .tamperRelease s fun t => t.pwr.phase = .boot ∧ t.pwr.step = 1))

/-- R544 to R546, R602: GRVRST resets a Grove that is cut off, and is refused for another; a core reset waits for the core's boundary and then starts it
from its compartment's ENTRY with everything at its initial value, held while HOLD is 1; HOLD 0 lets it start; a supply target goes out. -/
def Obligations.GroveAndCoreReset : Prop := ∀ (s : State) (g k : Nat), g < 12 → k < 240 →
  let crst := o_grvCrst (groveOf k) (slotOf k)
  (s.reach .host o_pwrGrvrst = true →
    (s.cutOff g = true → After (.groveReset g false) s fun t => t.pwr.grove = some g ∧ (∀ l < 4, (t.ferry (localModule g l)).st = .bist) ∧
      ∀ e ∈ t.cores, groveOf e.1 = g → e.2.run = .absent ∨ e.2 = Core.zero) ∧
    (s.cutOff g = false → After (.groveReset g false) s fun t => t.mem = s.mem ∧ t.cores = s.cores ∧ fbit (t.ctlGet o_pwrGrvrst) 29 = true)) ∧
  (s.pwr.grove = some g → (∀ l < 4, (s.ferry (localModule g l)).up = true) → After (.groveReset g true) s fun t =>
    t.pwr.grove = none ∧ fbit (t.ctlGet o_pwrGrvrst) 30 = true) ∧
  (∀ who, s.reach who crst = true →
    (s.crstRefused k = true → After (.coreReset who k false) s fun t => t.pwr.crst = s.pwr.crst ∧ fbit (t.ctlGet crst) 28 = true) ∧
    (s.crstRefused k = false → After (.coreReset who k false) s fun t => k ∈ t.pwr.crst ∧ t.mem = s.mem) ∧
    ((s.core k).run = .held → After (.holdRelease who k) s fun t => (t.core k).run = s.afterHold k ∧ fbit (t.ctlGet crst) 30 = false)) ∧
  (∀ n m who, s.cmpOf k = some n → s.cmpSec n = some m → k ∈ s.pwr.crst → s.resettable k = true → (s.core k).rep = none →
    (s.core k).run = .running → After (.coreReset who k true) s fun t =>
      k ∉ t.pwr.crst ∧ t.core k = { Core.initial m.entry m.ftStart with t0 := s.time, run := if s.hold k then .held else .running }) ∧
  (∀ target, 6800 ≤ target → target ≤ 8200 → target % 50 = 0 → s.pwr.phase = .run → After (.avsTargetSet g target) s fun t =>
    t.sent = .avs g target :: s.sent)

/-- R559, R560, R562, R565 (Table 22-5): the operations of SEC.CMD with their results, after each of which PROVDATA reads as zero; a reseed of the
generator, and a third failure of its health test within a second.
R570, R571: a read of CHALLENGE draws a fresh one; a token that does not verify is counted and closes SUBMIT for a second; one that does grants its
level, at level 1 without the compartments that record; CLOSE ends the grant, and halted cores go on. -/
def Obligations.Security : Prop :=
  (∀ (s : State) (slot : Nat), slot < 11 → s.reach .host o_secCmd = true →
  fbit (s.ctlGet o_secStatus) 27 = false →
  let ends := fun (code : Nat) (t : State) => fget (t.ctlGet o_secResult) 31 28 = code ∧ (∀ i < 24, t.ctlGet (o_secProvdata i) = 0) ∧ t.mem = s.mem
  let key := s.provData (if publicSlot slot then 96 else 32)
  (s.sec.field = true → ∀ f, After (.provision slot f) s fun t => ends 1 t ∧ t.sec = s.sec) ∧
  (s.sec.field = false → slotSet s.sec slot = true → ∀ f, After (.provision slot f) s fun t => ends 2 t ∧ t.sec = s.sec) ∧
  (s.sec.field = false → slotSet s.sec slot = false → publicSlot slot = false ∨ Config.validPublicKey key = true →
    After (.provision slot true) s fun t => ends 0 t ∧ smFind? t.sec.slots slot = some key) ∧
  ((∃ i < 4, i ≠ slot ∧ slotSet s.sec i = true ∧ i ∉ s.sec.revoked) → slot < 4 → After (.revoke slot true) s fun t =>
    ends 0 t ∧ slot ∈ t.sec.revoked ∧ t.sec.slots = s.sec.slots) ∧
  (4 ≤ slot → After (.revoke slot true) s fun t => ends 3 t ∧ t.sec = s.sec) ∧
  (s.cht = none → After .raiseSvn s fun t => ends 0 t ∧ t.sec.svnFloor = max s.sec.svnFloor (min 64 s.live.svn)) ∧
  (s.sec.field = false → After (.lock true) s fun t => ends 0 t ∧ t.sec.field = true) ∧
  After (.raiseFwsvn true) s (fun t => ends 0 t ∧ t.sec.fwFloor = max s.sec.fwFloor s.sec.fwSvn) ∧
  (s.keeperOn = true → After (.drbgReseed true) s (fun t => t.sec.seedAt = max s.time (s.sec.seedAt + 1000000) ∧ t.time = t.sec.seedAt) ∧
    (2 ≤ (s.sec.failAt.filter (fun t => decide (s.time < t + 1000000000))).length → After (.drbgReseed false) s fun t => t.pwr.phase = .tamper))) ∧
  (∀ (s : State) (jtag : Bool), s.dbgReach jtag = true →
  let level := fget (s.ctlGet o_dbgReq) 31 30
  let good := slotSet s.sec 8 = true ∧ Config.ecdsaVerify (smGet [] s.sec.slots 8) (s.tokenMessage level) s.token = true
  After (.challengeRead jtag) s (fun t => t.draws = s.draws + 8 ∧
    ∀ i < 8, t.ctlGet (o_dbgChallenge i) = (Config.rngDraw (s.draws + i)).setWidth 32) ∧
  (s.sec.holdOff ≤ s.time → ¬((level = 1 ∨ level = 2) ∧ good) → After (.submit jtag) s fun t => t.sec.holdOff = s.time + 1000000000 ∧
    t.ctlGet o_dbgFails = satInc (s.ctlGet o_dbgFails) ∧ t.ctlGet o_dbgStatus = s.ctlGet o_dbgStatus) ∧
  (s.sec.holdOff ≤ s.time → level = 1 → After (.submit jtag) s fun t => good → fget (t.ctlGet o_dbgStatus) 31 30 = 1 ∧
    ∀ n < 32, fbit (t.ctlGet o_dbgMask) n = (fbit (s.ctlGet o_dbgReqmask) n && !s.recording n)) ∧
  (s.time < s.sec.holdOff → After (.submit jtag) s (· = s)) ∧
  After (.close jtag) s (fun t => t.ctlGet o_dbgStatus = 0 ∧ t.halts = [] ∧ ∀ k < 240, (t.core k).dbg = false))

/-- R573, R574: HALT stops a core that a grant covers at its boundary, without changing its registers; RUN and STEP let a halted one go on, and AGO reads its
registers; without a grant the write is counted and nothing else changes.
R8 to R10, R585 (Table 0-5): a write of a register without effects of its own sets its RW fields, clears its W1C bits where 1 is written, and leaves
the rest; a reserved value leaves it and sets the block's WREJ. A read shows the fields of the view and clears RC fields; the reads of UCNTH and
UCNTL latch and empty. -/
def Obligations.DebugAndRegisters : Prop :=
  (∀ (s : State) (jtag : Bool) (k : Nat), k < 240 →
  (if jtag then s.keeperOn = true else s.reach .host (cdbgOff k 0) = true) →
  let c := s.core k
  let counted := fun (t : State) => t = s.ctlInc (cdbgFstatus k + 4)
  (s.granted k = false → After (.cdbgHalt jtag k false) s counted ∧ After (.cdbgRun jtag k) s counted ∧ After (.cdbgStep jtag k) s counted ∧
    After (.cdbgAgo jtag k) s counted) ∧
  (s.granted k = true →
    (s.canHalt k = true → s.stoppable k = true → c.run = .waiting → After (.cdbgHalt jtag k false) s fun t =>
      t.core k = { c with dbg := true, dbgStep := false, dbgReason := 1 }) ∧
    (s.canHalt k = true → s.stoppable k = true → c.run = .running → After (.cdbgHalt jtag k false) s fun t =>
      (t.core k).dbg = true ∧ (t.core k).pc = c.pc ∧ k ∉ t.halts) ∧
    (s.canHalt k = true → s.stoppable k = false → After (.cdbgHalt jtag k false) s fun t => k ∈ t.halts ∧ t.cores = s.cores) ∧
    (c.dbg = true → After (.cdbgRun jtag k) s (fun t => (t.core k).dbg = false ∧ (t.core k).dbgStep = false) ∧
      After (.cdbgStep jtag k) s fun t => (t.core k).dbg = false ∧ (t.core k).dbgStep = true) ∧
    (c.dbg = false → After (.cdbgRun jtag k) s fun t => fbit (t.ctlGet (cdbgFstatus k)) 31 = true ∧ t.cores = s.cores) ∧
    (∀ r < 64, c.dbg = true → s.ctlGet (cdbgOff k 0x10) = r32 r → After (.cdbgAgo jtag k) s fun t =>
      (t.ctlGet (cdbgOff k 0x20)).toNat = (c.reg r).toNat % 2 ^ 32 ∧ (t.ctlGet (cdbgOff k 0x24)).toNat = (c.reg r).toNat / 2 ^ 32 ∧ t.cores = s.cores))) ∧
  ((∀ (s : State) (off : Nat) (l : CtlLoc) (r : RegRow) (ix : List Nat),
    off % 4 = 0 → off < 0x1000000 → ctlLoc off = some l → rowAt l = some (r, ix) → s.reach .host off = true →
    let mask := fun (a : Acs) => r.mask false (· == a)
    (∀ v, l.blk ∈ [.glb, .tt, .dmc, .nsw, .nsws, .tev, .dir, .xng, .qmn] → (∀ f ∈ r.fields, f.priv ≠ .wo) →
      let bad := r.fields.any (·.bad v) = true ∨ s.reserved l (ix.headD 0) v = true
      (¬bad → After (.registerWrite .host off v) s fun t =>
        t.ctlGet l.off = ((((s.ctlGet l.off &&& ~~~(mask .rw)) ||| (v &&& mask .rw)) &&& ~~~(v &&& mask .w1c)) ||| (v &&& mask .w1s)) ∧
        (∀ o ≠ l.off, t.ctlGet o = s.ctlGet o) ∧ t.mem = s.mem ∧ t.cores = s.cores) ∧
      (bad → After (.registerWrite .host off v) s fun t => t = s.setWrej l)) ∧
    (l.blk ∈ [.glb, .tt, .dmc, .nsws, .dir, .qmn, .grv, .fry, .xng] → After (.rcRead .host off) s fun t =>
      t.sent = .completion 0 (valOct (s.regVal 32 l ix &&& r.mask false Acs.shown).toNat 4) false :: s.sent ∧
      t.ctlGet l.off &&& mask .rc = 0 ∧ (mask .rc = 0 → t.ctl = s.ctl))) ∧
  (∀ (s : State) (g c : Nat), g < 12 → c < 8 →
    (s.reach .host (o_pmuUcnth g c) = true → After (.ucnthRead .host g c) s fun t =>
      smFind? t.ulatch (8 * g + c) = some (s.countUp.ctlGet (o_pmuUcntl g c))) ∧
    (s.reach .host (o_pmuUcntl g c) = true → After (.ucntlRead .host g c) s fun t => smFind? t.ulatch (8 * g + c) = none ∧
      t.sent = .completion 0 (valOct ((smFind? s.ulatch (8 * g + c)).getD (s.countUp.ctlGet (o_pmuUcntl g c))).toNat 4) false :: s.sent)))

/-! ## Events and engines -/

/-- What each of these commands does when nothing keeps it back. R272, R277, R281, R591, R592: an interrupt, LONG and a machine check take the
core to its vector, with CS.EPC at the boundary and the cause in CS.ECAUSE; a machine check that cannot be handled halts the compartment.
R282, R283: the timer's compare value is reached; IPI.SET sets PEND. R307 to R310: GO starts a range command, in either space, or ends
it with RESULT 1; GO at a busy register set is refused; ABORT ends a command with RESULT 2; an engine's next visit counts on, and its last
ends the command. R431, R438, R439, R443: a received frame that passes the first stages goes by its rule; an entry of a NETOUT queue, packed or
dense, becomes a frame of its rule's class; a port sends the first frame of the highest class that may start. The core neither records nor
has an operation in flight. -/
def Obligations.EventsAndEngines : Prop :=
  (∀ (s : State) (k : Nat),
  let c := s.core k
  let enters := fun (code sub : Nat) (t : State) =>
    let d := t.core k
    d.pc = (c.vbase.toNat / 1024 * 1024 + 64 * code) % 2 ^ 36 ∧ d.epc = BitVec.ofNat 36 c.pc ∧ d.ecause.toNat % 16 = code ∧
    d.ecause.toNat / 16 % 4096 = sub % 4096 ∧ d.estatus = c.status &&& 0x8F ∧ d.status.getLsbD 0 = false ∧ d.status.getLsbD 1 = false
  c.run = .running → c.dbgStep = false → s.interruptible k = true → smFind? s.mftc k = none → s.replaying k = false → c.xops = [] →
  c.div = [] →
  (s.mceDue k = false → s.longDue k = false → s.intDue k = true →
    After (.interruptEntry k) s (enters 0 (((lowestBit (s.pendingSources k)).getD 0) % 32))) ∧
  (∀ f rest, s.mceDue k = false → s.longDue k = true → c.faults = f :: rest → f.code < 16 → After (.long k) s fun t =>
    enters 10 f.sub t ∧ (t.core k).ecause.toNat / 65536 % 16 = f.code ∧ (t.core k).eaddr = BitVec.ofNat 48 f.addr ∧ (t.core k).faults = rest) ∧
  (∀ sub, (sub = 3 ∧ 3 ∈ c.mce ∨ sub = 4) → c.fatalMce sub = false → After (.machineCheckAsync k sub) s fun t =>
    enters 12 sub t ∧ (t.core k).mce = c.mce.erase sub) ∧
  (∀ sub n, (sub = 3 ∧ 3 ∈ c.mce ∨ sub = 4 ∨ sub = 5) → c.fatalMce sub = true → s.cmpOf k = some n → s.cmpState n ≠ .absent →
    After (.machineCheckAsync k sub) s fun t => t.cmpState n = .halted)) ∧
  (∀ (s : State) (k : Nat), s.present k = true →
    (s.time < s.compare k + Config.timerLag k (s.compare k) % 11 → After (.timer k) s fun t =>
      t = { s with time := s.compare k + Config.timerLag k (s.compare k) % 11 }) ∧
    After (.ipiSet k) s fun t => t.ipiPend k = true ∧ t.mem = s.mem ∧ t.cores = s.cores) ∧
  (∀ (s : State) (who : Sender) (l3 : Bool) (g i : Nat), s.setOk who l3 g i = true →
  let start := ((s.ctlGet (oMstartLo l3 g i)).toNat + 2 ^ 32 * fget (s.ctlGet (oMstartHi l3 g i)) 15 0) / 64 * 64
  let n := (s.ctlGet (oMlength l3 g i)).toNat
  let lines := if n = 0 then 2 ^ 32 else n
  let result := fun (t : State) (code : Nat) => t.rangeOf l3 g i = none ∧ fget (t.ctlGet (oMstatus l3 g i)) 27 24 = code
  (∀ space, ∀ c ∈ [(1, Instr.rangeClean who l3 g i space), (2, .rangeInvalidate who l3 g i space), (3, .rangeCleanAndInvalidate who l3 g i space)],
    let linear := space && who != .host
    let top := if linear then 2 ^ 48 else 2 ^ 42
    (s.rangeOf l3 g i = none → start + 64 * lines ≤ top → After c.2 s fun t => ∃ r, t.rangeOf l3 g i = some r ∧ r.op = c.1 ∧
      r.linear = linear ∧ r.start = start ∧ r.lines = lines ∧ r.done = 0 ∧ fbit (t.ctlGet (oMstatus l3 g i)) 31 = true) ∧
    (s.rangeOf l3 g i = none → top < start + 64 * lines → After c.2 s (result · 1)) ∧
    ((s.rangeOf l3 g i).isSome = true → After c.2 s fun t => t.mem = s.mem ∧ fbit (t.ctlGet (oMstatus l3 g i)) 29 = true)) ∧
  (∀ r, s.rangeOf l3 g i = some r →
    After (.rangeAbort who l3 g i) s (result · 2) ∧
    (s.rangeTurn l3 g i = some i → let last := if r.walks then 2048 ≤ r.done + 1 else r.lines ≤ r.done + 1
      (last → After (.rangeEngineLine l3 g i) s (result · 0)) ∧
      (¬last → After (.rangeEngineLine l3 g i) s fun t => ∃ r', t.rangeOf l3 g i = some r' ∧ r'.done = r.done + 1 ∧ r'.op = r.op)))) ∧
  (∀ (s : State) (port : Nat) (octs : List Nat) (busy : Nat) (sec : List Nat) (j : Nat) (r : InRule),
    let o := octs.map (· % 256)
    let f := parseTags (netPvid sec) (netDefPcp sec) o
    port < 16 → s.portUp port = true → busy ≤ 9216 → 60 ≤ octs.length → octs.length ≤ 9212 → s.netSec port = some sec → netMacsec sec = false →
    findRule sec o f.vid = some (j, r) → exec (.frameReceive port octs true true busy) s = .next (s.ruled port j r o f s.gptp)) ∧
  (∀ (s : State) (q p : Nat) (sec : List Nat) (r : EgRule),
    let x := s.queue q
    let pa := x.entryAt
    let dense := x.pack == 2
    let buf := s.mem.read pa 4 + 2 ^ 36 * (s.mem.read (pa + 4) 4 % 64)
    let len := s.mem.read (pa + 8) 4
    let mac := macExtra (some sec) (buildFrame r 0 0 (s.mem.octets dense buf 0 14))
    let w := max 64 (len + (if r.untagged then 0 else 4) + (if r.rtag then 6 else 0) + 4 + mac)
    q < 65536 → x.st = 1 → x.kind = 6 → s.outWaiting q = 0 → x.held ≠ 0 → s.mem.poisoned (lineOf pa) = false →
    s.egressOf x.other = some (p, sec, r) → w ≤ 9216 → len ≤ 9200 → s.portUp p = true → 12 ≤ len →
    (dense = true → buf % 8 = 0) → (∃ n, s.qOwner q = some n ∧ s.ownsRange n buf (packedLen dense len) = true) → s.mem.poison = [] →
    s.mem.lost = [] → s.mem.failed = [] → s.egressRoom p r.tc w = true → s.live.contracts = [] → After (.egressDequeue q) s fun t =>
      ∃ f, smGet [] (t.port p).queues r.tc = smGet [] (s.port p).queues r.tc ++ [f] ∧ f.left = w ∧
        f.octs = buildFrame r (smGet 0 s.net.seqs x.other) mac (s.mem.octets dense buf 0 len)) ∧
  (∀ (s : State) (p c : Nat) (cs : List Nat) (f : NetFrame) (rest : List NetFrame), p < 16 → s.portUp p = true →
    (s.port p).curEnd ≤ s.time → smGet [] (s.port p).queues c = f :: rest →
    let sec := s.netSec p
    let s1 := s.setPort p { s.port p with credit := s.credits p sec, creditAt := s.time }
    s1.eligible p sec = c :: cs →
    exec (.transmissionSelection p) s = .next ((s1.setPort p { s1.port p with
      queues := smPut [] (s1.port p).queues c rest }).putOnWire p c f sec))

/-! ## The block as a whole -/

/-- The block takes the command at the front of its queue: its step is the command's effect with the queue's rest. With no command it idles for one tick
of the time base (log entry 6). -/
def Obligations.StepRunsFrontCommand : Prop := ∀ (s : State) (c : Instr) (rest : List Instr),
  step { s with pending := c :: rest } = exec c { s with pending := rest } ∧ step { s with pending := [] } = .next { s with pending := [] }.tick

/-- R34, R35, R46, R82, R540, R595: right after a power-on reset no command waits, no Chart is in force, no byte of memory is held, the event log is empty, the power
state is Off, and a core that a compartment starts has W0 to W63, the accumulators, FL, RC and CS.STATUS zero and S0 whole. -/
def Obligations.ResetState : Prop :=
  let s := State.reset
  let c := Core.initial 0 false
  s.pending = [] ∧ s.live = Chart.empty ∧ s.store = none ∧ s.mem.dram = [] ∧ s.mem.l2 = [] ∧ s.evl.recs = [] ∧ s.pwr.phase = .off ∧ s.time = 0 ∧
  s.mem.Canonical ∧ (∀ r, c.reg r = 0) ∧ (∀ n, c.acc n = 0) ∧ c.fl = 0 ∧ c.rc = 0 ∧ c.status = 0 ∧ c.seg 0 = SegDesc.whole ∧
  (∀ i, i ≠ 0 → c.seg i = SegDesc.null) ∧ s.cores = []

/-- Every command completes in every state: no meaning of this model stops. -/
def Obligations.EveryCommandCompletes : Prop := ∀ (i : Instr) (s : State), ∃ t, exec i s = .next t

/-- What every step keeps: the stores of bytes in their canonical form, and the fuses of the part (R32 to R35); a command leaves the queue as it is. -/
def Obligations.StepKeepsInvariant : Prop := ∀ (s t : State), step s = .next t →
  (s.mem.Canonical → t.mem.Canonical) ∧ t.fuses = s.fuses ∧ t.pending = s.pending.drop 1
end

