-- ==== Sys2Proof/Laws/State.lean ====
section
/-!
SUPPORT. Each named update of the state changes one field: one lemma for every other field.
-/
namespace Sys2Proof.Machine

section
variable (s : State) (k : Nat) (c : Core)
@[simp] theorem State.setCore_pending : (s.setCore k c).pending = s.pending := rfl
@[simp] theorem State.setCore_time : (s.setCore k c).time = s.time := rfl
@[simp] theorem State.setCore_draws : (s.setCore k c).draws = s.draws := rfl
@[simp] theorem State.setCore_fuses : (s.setCore k c).fuses = s.fuses := rfl
@[simp] theorem State.setCore_board : (s.setCore k c).board = s.board := rfl
@[simp] theorem State.setCore_mem : (s.setCore k c).mem = s.mem := rfl
@[simp] theorem State.setCore_ctl : (s.setCore k c).ctl = s.ctl := rfl
@[simp] theorem State.setCore_ulatch : (s.setCore k c).ulatch = s.ulatch := rfl
@[simp] theorem State.setCore_live : (s.setCore k c).live = s.live := rfl
@[simp] theorem State.setCore_store : (s.setCore k c).store = s.store := rfl
@[simp] theorem State.setCore_cmps : (s.setCore k c).cmps = s.cmps := rfl
@[simp] theorem State.setCore_generation : (s.setCore k c).generation = s.generation := rfl
@[simp] theorem State.setCore_cht : (s.setCore k c).cht = s.cht := rfl
@[simp] theorem State.setCore_evl : (s.setCore k c).evl = s.evl := rfl
@[simp] theorem State.setCore_buckets : (s.setCore k c).buckets = s.buckets := rfl
@[simp] theorem State.setCore_held : (s.setCore k c).held = s.held := rfl
@[simp] theorem State.setCore_flight : (s.setCore k c).flight = s.flight := rfl
@[simp] theorem State.setCore_usts : (s.setCore k c).usts = s.usts := rfl
@[simp] theorem State.setCore_lags : (s.setCore k c).lags = s.lags := rfl
@[simp] theorem State.setCore_lagCount : (s.setCore k c).lagCount = s.lagCount := rfl
@[simp] theorem State.setCore_halts : (s.setCore k c).halts = s.halts := rfl
@[simp] theorem State.setCore_mft : (s.setCore k c).mft = s.mft := rfl
@[simp] theorem State.setCore_mftc : (s.setCore k c).mftc = s.mftc := rfl
@[simp] theorem State.setCore_nettime : (s.setCore k c).nettime = s.nettime := rfl
@[simp] theorem State.setCore_dram : (s.setCore k c).dram = s.dram := rfl
@[simp] theorem State.setCore_qm : (s.setCore k c).qm = s.qm := rfl
@[simp] theorem State.setCore_hep : (s.setCore k c).hep = s.hep := rfl
@[simp] theorem State.setCore_net : (s.setCore k c).net = s.net := rfl
@[simp] theorem State.setCore_links : (s.setCore k c).links = s.links := rfl
@[simp] theorem State.setCore_pwr : (s.setCore k c).pwr = s.pwr := rfl
@[simp] theorem State.setCore_sec : (s.setCore k c).sec = s.sec := rfl
@[simp] theorem State.setCore_sent : (s.setCore k c).sent = s.sent := rfl
@[simp] theorem State.setCore_logOff : (s.setCore k c).logOff = s.logOff := rfl
end

section
variable (s : State) (k : Nat) (f : Core → Core)
@[simp] theorem State.modCore_pending : (s.modCore k f).pending = s.pending := rfl
@[simp] theorem State.modCore_time : (s.modCore k f).time = s.time := rfl
@[simp] theorem State.modCore_draws : (s.modCore k f).draws = s.draws := rfl
@[simp] theorem State.modCore_fuses : (s.modCore k f).fuses = s.fuses := rfl
@[simp] theorem State.modCore_board : (s.modCore k f).board = s.board := rfl
@[simp] theorem State.modCore_mem : (s.modCore k f).mem = s.mem := rfl
@[simp] theorem State.modCore_ctl : (s.modCore k f).ctl = s.ctl := rfl
@[simp] theorem State.modCore_ulatch : (s.modCore k f).ulatch = s.ulatch := rfl
@[simp] theorem State.modCore_live : (s.modCore k f).live = s.live := rfl
@[simp] theorem State.modCore_store : (s.modCore k f).store = s.store := rfl
@[simp] theorem State.modCore_cmps : (s.modCore k f).cmps = s.cmps := rfl
@[simp] theorem State.modCore_generation : (s.modCore k f).generation = s.generation := rfl
@[simp] theorem State.modCore_cht : (s.modCore k f).cht = s.cht := rfl
@[simp] theorem State.modCore_evl : (s.modCore k f).evl = s.evl := rfl
@[simp] theorem State.modCore_buckets : (s.modCore k f).buckets = s.buckets := rfl
@[simp] theorem State.modCore_held : (s.modCore k f).held = s.held := rfl
@[simp] theorem State.modCore_flight : (s.modCore k f).flight = s.flight := rfl
@[simp] theorem State.modCore_usts : (s.modCore k f).usts = s.usts := rfl
@[simp] theorem State.modCore_lags : (s.modCore k f).lags = s.lags := rfl
@[simp] theorem State.modCore_lagCount : (s.modCore k f).lagCount = s.lagCount := rfl
@[simp] theorem State.modCore_halts : (s.modCore k f).halts = s.halts := rfl
@[simp] theorem State.modCore_mft : (s.modCore k f).mft = s.mft := rfl
@[simp] theorem State.modCore_mftc : (s.modCore k f).mftc = s.mftc := rfl
@[simp] theorem State.modCore_nettime : (s.modCore k f).nettime = s.nettime := rfl
@[simp] theorem State.modCore_dram : (s.modCore k f).dram = s.dram := rfl
@[simp] theorem State.modCore_qm : (s.modCore k f).qm = s.qm := rfl
@[simp] theorem State.modCore_hep : (s.modCore k f).hep = s.hep := rfl
@[simp] theorem State.modCore_net : (s.modCore k f).net = s.net := rfl
@[simp] theorem State.modCore_links : (s.modCore k f).links = s.links := rfl
@[simp] theorem State.modCore_pwr : (s.modCore k f).pwr = s.pwr := rfl
@[simp] theorem State.modCore_sec : (s.modCore k f).sec = s.sec := rfl
@[simp] theorem State.modCore_sent : (s.modCore k f).sent = s.sent := rfl
@[simp] theorem State.modCore_logOff : (s.modCore k f).logOff = s.logOff := rfl
end

section
variable (s : State) (f : Nat → Core → Core)
@[simp] theorem State.modCores_pending : (s.modCores f).pending = s.pending := rfl
@[simp] theorem State.modCores_time : (s.modCores f).time = s.time := rfl
@[simp] theorem State.modCores_draws : (s.modCores f).draws = s.draws := rfl
@[simp] theorem State.modCores_fuses : (s.modCores f).fuses = s.fuses := rfl
@[simp] theorem State.modCores_board : (s.modCores f).board = s.board := rfl
@[simp] theorem State.modCores_mem : (s.modCores f).mem = s.mem := rfl
@[simp] theorem State.modCores_ctl : (s.modCores f).ctl = s.ctl := rfl
@[simp] theorem State.modCores_ulatch : (s.modCores f).ulatch = s.ulatch := rfl
@[simp] theorem State.modCores_live : (s.modCores f).live = s.live := rfl
@[simp] theorem State.modCores_store : (s.modCores f).store = s.store := rfl
@[simp] theorem State.modCores_cmps : (s.modCores f).cmps = s.cmps := rfl
@[simp] theorem State.modCores_generation : (s.modCores f).generation = s.generation := rfl
@[simp] theorem State.modCores_cht : (s.modCores f).cht = s.cht := rfl
@[simp] theorem State.modCores_evl : (s.modCores f).evl = s.evl := rfl
@[simp] theorem State.modCores_buckets : (s.modCores f).buckets = s.buckets := rfl
@[simp] theorem State.modCores_held : (s.modCores f).held = s.held := rfl
@[simp] theorem State.modCores_flight : (s.modCores f).flight = s.flight := rfl
@[simp] theorem State.modCores_usts : (s.modCores f).usts = s.usts := rfl
@[simp] theorem State.modCores_lags : (s.modCores f).lags = s.lags := rfl
@[simp] theorem State.modCores_lagCount : (s.modCores f).lagCount = s.lagCount := rfl
@[simp] theorem State.modCores_halts : (s.modCores f).halts = s.halts := rfl
@[simp] theorem State.modCores_mft : (s.modCores f).mft = s.mft := rfl
@[simp] theorem State.modCores_mftc : (s.modCores f).mftc = s.mftc := rfl
@[simp] theorem State.modCores_nettime : (s.modCores f).nettime = s.nettime := rfl
@[simp] theorem State.modCores_dram : (s.modCores f).dram = s.dram := rfl
@[simp] theorem State.modCores_qm : (s.modCores f).qm = s.qm := rfl
@[simp] theorem State.modCores_hep : (s.modCores f).hep = s.hep := rfl
@[simp] theorem State.modCores_net : (s.modCores f).net = s.net := rfl
@[simp] theorem State.modCores_links : (s.modCores f).links = s.links := rfl
@[simp] theorem State.modCores_pwr : (s.modCores f).pwr = s.pwr := rfl
@[simp] theorem State.modCores_sec : (s.modCores f).sec = s.sec := rfl
@[simp] theorem State.modCores_sent : (s.modCores f).sent = s.sent := rfl
@[simp] theorem State.modCores_logOff : (s.modCores f).logOff = s.logOff := rfl
end

section
variable (s : State) (m : Mem)
@[simp] theorem State.setMem_pending : (s.setMem m).pending = s.pending := rfl
@[simp] theorem State.setMem_time : (s.setMem m).time = s.time := rfl
@[simp] theorem State.setMem_draws : (s.setMem m).draws = s.draws := rfl
@[simp] theorem State.setMem_fuses : (s.setMem m).fuses = s.fuses := rfl
@[simp] theorem State.setMem_board : (s.setMem m).board = s.board := rfl
@[simp] theorem State.setMem_cores : (s.setMem m).cores = s.cores := rfl
@[simp] theorem State.setMem_ctl : (s.setMem m).ctl = s.ctl := rfl
@[simp] theorem State.setMem_ulatch : (s.setMem m).ulatch = s.ulatch := rfl
@[simp] theorem State.setMem_live : (s.setMem m).live = s.live := rfl
@[simp] theorem State.setMem_store : (s.setMem m).store = s.store := rfl
@[simp] theorem State.setMem_cmps : (s.setMem m).cmps = s.cmps := rfl
@[simp] theorem State.setMem_generation : (s.setMem m).generation = s.generation := rfl
@[simp] theorem State.setMem_cht : (s.setMem m).cht = s.cht := rfl
@[simp] theorem State.setMem_evl : (s.setMem m).evl = s.evl := rfl
@[simp] theorem State.setMem_buckets : (s.setMem m).buckets = s.buckets := rfl
@[simp] theorem State.setMem_held : (s.setMem m).held = s.held := rfl
@[simp] theorem State.setMem_flight : (s.setMem m).flight = s.flight := rfl
@[simp] theorem State.setMem_usts : (s.setMem m).usts = s.usts := rfl
@[simp] theorem State.setMem_lags : (s.setMem m).lags = s.lags := rfl
@[simp] theorem State.setMem_lagCount : (s.setMem m).lagCount = s.lagCount := rfl
@[simp] theorem State.setMem_halts : (s.setMem m).halts = s.halts := rfl
@[simp] theorem State.setMem_mft : (s.setMem m).mft = s.mft := rfl
@[simp] theorem State.setMem_mftc : (s.setMem m).mftc = s.mftc := rfl
@[simp] theorem State.setMem_nettime : (s.setMem m).nettime = s.nettime := rfl
@[simp] theorem State.setMem_dram : (s.setMem m).dram = s.dram := rfl
@[simp] theorem State.setMem_qm : (s.setMem m).qm = s.qm := rfl
@[simp] theorem State.setMem_hep : (s.setMem m).hep = s.hep := rfl
@[simp] theorem State.setMem_net : (s.setMem m).net = s.net := rfl
@[simp] theorem State.setMem_links : (s.setMem m).links = s.links := rfl
@[simp] theorem State.setMem_pwr : (s.setMem m).pwr = s.pwr := rfl
@[simp] theorem State.setMem_sec : (s.setMem m).sec = s.sec := rfl
@[simp] theorem State.setMem_sent : (s.setMem m).sent = s.sent := rfl
@[simp] theorem State.setMem_logOff : (s.setMem m).logOff = s.logOff := rfl
end

section
variable (s : State) (g : Nat) (u : Ust)
@[simp] theorem State.setUst_pending : (s.setUst g u).pending = s.pending := rfl
@[simp] theorem State.setUst_time : (s.setUst g u).time = s.time := rfl
@[simp] theorem State.setUst_draws : (s.setUst g u).draws = s.draws := rfl
@[simp] theorem State.setUst_fuses : (s.setUst g u).fuses = s.fuses := rfl
@[simp] theorem State.setUst_board : (s.setUst g u).board = s.board := rfl
@[simp] theorem State.setUst_cores : (s.setUst g u).cores = s.cores := rfl
@[simp] theorem State.setUst_mem : (s.setUst g u).mem = s.mem := rfl
@[simp] theorem State.setUst_ctl : (s.setUst g u).ctl = s.ctl := rfl
@[simp] theorem State.setUst_ulatch : (s.setUst g u).ulatch = s.ulatch := rfl
@[simp] theorem State.setUst_live : (s.setUst g u).live = s.live := rfl
@[simp] theorem State.setUst_store : (s.setUst g u).store = s.store := rfl
@[simp] theorem State.setUst_cmps : (s.setUst g u).cmps = s.cmps := rfl
@[simp] theorem State.setUst_generation : (s.setUst g u).generation = s.generation := rfl
@[simp] theorem State.setUst_cht : (s.setUst g u).cht = s.cht := rfl
@[simp] theorem State.setUst_evl : (s.setUst g u).evl = s.evl := rfl
@[simp] theorem State.setUst_buckets : (s.setUst g u).buckets = s.buckets := rfl
@[simp] theorem State.setUst_held : (s.setUst g u).held = s.held := rfl
@[simp] theorem State.setUst_flight : (s.setUst g u).flight = s.flight := rfl
@[simp] theorem State.setUst_lags : (s.setUst g u).lags = s.lags := rfl
@[simp] theorem State.setUst_lagCount : (s.setUst g u).lagCount = s.lagCount := rfl
@[simp] theorem State.setUst_halts : (s.setUst g u).halts = s.halts := rfl
@[simp] theorem State.setUst_mft : (s.setUst g u).mft = s.mft := rfl
@[simp] theorem State.setUst_mftc : (s.setUst g u).mftc = s.mftc := rfl
@[simp] theorem State.setUst_nettime : (s.setUst g u).nettime = s.nettime := rfl
@[simp] theorem State.setUst_dram : (s.setUst g u).dram = s.dram := rfl
@[simp] theorem State.setUst_qm : (s.setUst g u).qm = s.qm := rfl
@[simp] theorem State.setUst_hep : (s.setUst g u).hep = s.hep := rfl
@[simp] theorem State.setUst_net : (s.setUst g u).net = s.net := rfl
@[simp] theorem State.setUst_links : (s.setUst g u).links = s.links := rfl
@[simp] theorem State.setUst_pwr : (s.setUst g u).pwr = s.pwr := rfl
@[simp] theorem State.setUst_sec : (s.setUst g u).sec = s.sec := rfl
@[simp] theorem State.setUst_sent : (s.setUst g u).sent = s.sent := rfl
@[simp] theorem State.setUst_logOff : (s.setUst g u).logOff = s.logOff := rfl
end

section
variable (s : State) (n : Nat) (c : CmpState)
@[simp] theorem State.setCmpState_pending : (s.setCmpState n c).pending = s.pending := rfl
@[simp] theorem State.setCmpState_time : (s.setCmpState n c).time = s.time := rfl
@[simp] theorem State.setCmpState_draws : (s.setCmpState n c).draws = s.draws := rfl
@[simp] theorem State.setCmpState_fuses : (s.setCmpState n c).fuses = s.fuses := rfl
@[simp] theorem State.setCmpState_board : (s.setCmpState n c).board = s.board := rfl
@[simp] theorem State.setCmpState_cores : (s.setCmpState n c).cores = s.cores := rfl
@[simp] theorem State.setCmpState_mem : (s.setCmpState n c).mem = s.mem := rfl
@[simp] theorem State.setCmpState_ctl : (s.setCmpState n c).ctl = s.ctl := rfl
@[simp] theorem State.setCmpState_ulatch : (s.setCmpState n c).ulatch = s.ulatch := rfl
@[simp] theorem State.setCmpState_live : (s.setCmpState n c).live = s.live := rfl
@[simp] theorem State.setCmpState_store : (s.setCmpState n c).store = s.store := rfl
@[simp] theorem State.setCmpState_generation : (s.setCmpState n c).generation = s.generation := rfl
@[simp] theorem State.setCmpState_cht : (s.setCmpState n c).cht = s.cht := rfl
@[simp] theorem State.setCmpState_evl : (s.setCmpState n c).evl = s.evl := rfl
@[simp] theorem State.setCmpState_buckets : (s.setCmpState n c).buckets = s.buckets := rfl
@[simp] theorem State.setCmpState_held : (s.setCmpState n c).held = s.held := rfl
@[simp] theorem State.setCmpState_flight : (s.setCmpState n c).flight = s.flight := rfl
@[simp] theorem State.setCmpState_usts : (s.setCmpState n c).usts = s.usts := rfl
@[simp] theorem State.setCmpState_lags : (s.setCmpState n c).lags = s.lags := rfl
@[simp] theorem State.setCmpState_lagCount : (s.setCmpState n c).lagCount = s.lagCount := rfl
@[simp] theorem State.setCmpState_halts : (s.setCmpState n c).halts = s.halts := rfl
@[simp] theorem State.setCmpState_mft : (s.setCmpState n c).mft = s.mft := rfl
@[simp] theorem State.setCmpState_mftc : (s.setCmpState n c).mftc = s.mftc := rfl
@[simp] theorem State.setCmpState_nettime : (s.setCmpState n c).nettime = s.nettime := rfl
@[simp] theorem State.setCmpState_dram : (s.setCmpState n c).dram = s.dram := rfl
@[simp] theorem State.setCmpState_qm : (s.setCmpState n c).qm = s.qm := rfl
@[simp] theorem State.setCmpState_hep : (s.setCmpState n c).hep = s.hep := rfl
@[simp] theorem State.setCmpState_net : (s.setCmpState n c).net = s.net := rfl
@[simp] theorem State.setCmpState_links : (s.setCmpState n c).links = s.links := rfl
@[simp] theorem State.setCmpState_pwr : (s.setCmpState n c).pwr = s.pwr := rfl
@[simp] theorem State.setCmpState_sec : (s.setCmpState n c).sec = s.sec := rfl
@[simp] theorem State.setCmpState_sent : (s.setCmpState n c).sent = s.sent := rfl
@[simp] theorem State.setCmpState_logOff : (s.setCmpState n c).logOff = s.logOff := rfl
end

section
variable (s : State) (o : Nat) (v : Reg32)
@[simp] theorem State.ctlSet_pending : (s.ctlSet o v).pending = s.pending := rfl
@[simp] theorem State.ctlSet_time : (s.ctlSet o v).time = s.time := rfl
@[simp] theorem State.ctlSet_draws : (s.ctlSet o v).draws = s.draws := rfl
@[simp] theorem State.ctlSet_fuses : (s.ctlSet o v).fuses = s.fuses := rfl
@[simp] theorem State.ctlSet_board : (s.ctlSet o v).board = s.board := rfl
@[simp] theorem State.ctlSet_cores : (s.ctlSet o v).cores = s.cores := rfl
@[simp] theorem State.ctlSet_mem : (s.ctlSet o v).mem = s.mem := rfl
@[simp] theorem State.ctlSet_ulatch : (s.ctlSet o v).ulatch = s.ulatch := rfl
@[simp] theorem State.ctlSet_live : (s.ctlSet o v).live = s.live := rfl
@[simp] theorem State.ctlSet_store : (s.ctlSet o v).store = s.store := rfl
@[simp] theorem State.ctlSet_cmps : (s.ctlSet o v).cmps = s.cmps := rfl
@[simp] theorem State.ctlSet_generation : (s.ctlSet o v).generation = s.generation := rfl
@[simp] theorem State.ctlSet_cht : (s.ctlSet o v).cht = s.cht := rfl
@[simp] theorem State.ctlSet_evl : (s.ctlSet o v).evl = s.evl := rfl
@[simp] theorem State.ctlSet_buckets : (s.ctlSet o v).buckets = s.buckets := rfl
@[simp] theorem State.ctlSet_held : (s.ctlSet o v).held = s.held := rfl
@[simp] theorem State.ctlSet_flight : (s.ctlSet o v).flight = s.flight := rfl
@[simp] theorem State.ctlSet_usts : (s.ctlSet o v).usts = s.usts := rfl
@[simp] theorem State.ctlSet_lags : (s.ctlSet o v).lags = s.lags := rfl
@[simp] theorem State.ctlSet_lagCount : (s.ctlSet o v).lagCount = s.lagCount := rfl
@[simp] theorem State.ctlSet_halts : (s.ctlSet o v).halts = s.halts := rfl
@[simp] theorem State.ctlSet_mft : (s.ctlSet o v).mft = s.mft := rfl
@[simp] theorem State.ctlSet_mftc : (s.ctlSet o v).mftc = s.mftc := rfl
@[simp] theorem State.ctlSet_nettime : (s.ctlSet o v).nettime = s.nettime := rfl
@[simp] theorem State.ctlSet_dram : (s.ctlSet o v).dram = s.dram := rfl
@[simp] theorem State.ctlSet_qm : (s.ctlSet o v).qm = s.qm := rfl
@[simp] theorem State.ctlSet_hep : (s.ctlSet o v).hep = s.hep := rfl
@[simp] theorem State.ctlSet_net : (s.ctlSet o v).net = s.net := rfl
@[simp] theorem State.ctlSet_links : (s.ctlSet o v).links = s.links := rfl
@[simp] theorem State.ctlSet_pwr : (s.ctlSet o v).pwr = s.pwr := rfl
@[simp] theorem State.ctlSet_sec : (s.ctlSet o v).sec = s.sec := rfl
@[simp] theorem State.ctlSet_sent : (s.ctlSet o v).sent = s.sent := rfl
@[simp] theorem State.ctlSet_logOff : (s.ctlSet o v).logOff = s.logOff := rfl
end

section
variable (s : State) (o : Nat) (f : Reg32 → Reg32)
@[simp] theorem State.ctlMod_pending : (s.ctlMod o f).pending = s.pending := rfl
@[simp] theorem State.ctlMod_time : (s.ctlMod o f).time = s.time := rfl
@[simp] theorem State.ctlMod_draws : (s.ctlMod o f).draws = s.draws := rfl
@[simp] theorem State.ctlMod_fuses : (s.ctlMod o f).fuses = s.fuses := rfl
@[simp] theorem State.ctlMod_board : (s.ctlMod o f).board = s.board := rfl
@[simp] theorem State.ctlMod_cores : (s.ctlMod o f).cores = s.cores := rfl
@[simp] theorem State.ctlMod_mem : (s.ctlMod o f).mem = s.mem := rfl
@[simp] theorem State.ctlMod_ulatch : (s.ctlMod o f).ulatch = s.ulatch := rfl
@[simp] theorem State.ctlMod_live : (s.ctlMod o f).live = s.live := rfl
@[simp] theorem State.ctlMod_store : (s.ctlMod o f).store = s.store := rfl
@[simp] theorem State.ctlMod_cmps : (s.ctlMod o f).cmps = s.cmps := rfl
@[simp] theorem State.ctlMod_generation : (s.ctlMod o f).generation = s.generation := rfl
@[simp] theorem State.ctlMod_cht : (s.ctlMod o f).cht = s.cht := rfl
@[simp] theorem State.ctlMod_evl : (s.ctlMod o f).evl = s.evl := rfl
@[simp] theorem State.ctlMod_buckets : (s.ctlMod o f).buckets = s.buckets := rfl
@[simp] theorem State.ctlMod_held : (s.ctlMod o f).held = s.held := rfl
@[simp] theorem State.ctlMod_flight : (s.ctlMod o f).flight = s.flight := rfl
@[simp] theorem State.ctlMod_usts : (s.ctlMod o f).usts = s.usts := rfl
@[simp] theorem State.ctlMod_lags : (s.ctlMod o f).lags = s.lags := rfl
@[simp] theorem State.ctlMod_lagCount : (s.ctlMod o f).lagCount = s.lagCount := rfl
@[simp] theorem State.ctlMod_halts : (s.ctlMod o f).halts = s.halts := rfl
@[simp] theorem State.ctlMod_mft : (s.ctlMod o f).mft = s.mft := rfl
@[simp] theorem State.ctlMod_mftc : (s.ctlMod o f).mftc = s.mftc := rfl
@[simp] theorem State.ctlMod_nettime : (s.ctlMod o f).nettime = s.nettime := rfl
@[simp] theorem State.ctlMod_dram : (s.ctlMod o f).dram = s.dram := rfl
@[simp] theorem State.ctlMod_qm : (s.ctlMod o f).qm = s.qm := rfl
@[simp] theorem State.ctlMod_hep : (s.ctlMod o f).hep = s.hep := rfl
@[simp] theorem State.ctlMod_net : (s.ctlMod o f).net = s.net := rfl
@[simp] theorem State.ctlMod_links : (s.ctlMod o f).links = s.links := rfl
@[simp] theorem State.ctlMod_pwr : (s.ctlMod o f).pwr = s.pwr := rfl
@[simp] theorem State.ctlMod_sec : (s.ctlMod o f).sec = s.sec := rfl
@[simp] theorem State.ctlMod_sent : (s.ctlMod o f).sent = s.sent := rfl
@[simp] theorem State.ctlMod_logOff : (s.ctlMod o f).logOff = s.logOff := rfl
end

section
variable (s : State) (l : List Instr)
@[simp] theorem State.setPending_time : (s.setPending l).time = s.time := rfl
@[simp] theorem State.setPending_draws : (s.setPending l).draws = s.draws := rfl
@[simp] theorem State.setPending_fuses : (s.setPending l).fuses = s.fuses := rfl
@[simp] theorem State.setPending_board : (s.setPending l).board = s.board := rfl
@[simp] theorem State.setPending_cores : (s.setPending l).cores = s.cores := rfl
@[simp] theorem State.setPending_mem : (s.setPending l).mem = s.mem := rfl
@[simp] theorem State.setPending_ctl : (s.setPending l).ctl = s.ctl := rfl
@[simp] theorem State.setPending_ulatch : (s.setPending l).ulatch = s.ulatch := rfl
@[simp] theorem State.setPending_live : (s.setPending l).live = s.live := rfl
@[simp] theorem State.setPending_store : (s.setPending l).store = s.store := rfl
@[simp] theorem State.setPending_cmps : (s.setPending l).cmps = s.cmps := rfl
@[simp] theorem State.setPending_generation : (s.setPending l).generation = s.generation := rfl
@[simp] theorem State.setPending_cht : (s.setPending l).cht = s.cht := rfl
@[simp] theorem State.setPending_evl : (s.setPending l).evl = s.evl := rfl
@[simp] theorem State.setPending_buckets : (s.setPending l).buckets = s.buckets := rfl
@[simp] theorem State.setPending_held : (s.setPending l).held = s.held := rfl
@[simp] theorem State.setPending_flight : (s.setPending l).flight = s.flight := rfl
@[simp] theorem State.setPending_usts : (s.setPending l).usts = s.usts := rfl
@[simp] theorem State.setPending_lags : (s.setPending l).lags = s.lags := rfl
@[simp] theorem State.setPending_lagCount : (s.setPending l).lagCount = s.lagCount := rfl
@[simp] theorem State.setPending_halts : (s.setPending l).halts = s.halts := rfl
@[simp] theorem State.setPending_mft : (s.setPending l).mft = s.mft := rfl
@[simp] theorem State.setPending_mftc : (s.setPending l).mftc = s.mftc := rfl
@[simp] theorem State.setPending_nettime : (s.setPending l).nettime = s.nettime := rfl
@[simp] theorem State.setPending_dram : (s.setPending l).dram = s.dram := rfl
@[simp] theorem State.setPending_qm : (s.setPending l).qm = s.qm := rfl
@[simp] theorem State.setPending_hep : (s.setPending l).hep = s.hep := rfl
@[simp] theorem State.setPending_net : (s.setPending l).net = s.net := rfl
@[simp] theorem State.setPending_links : (s.setPending l).links = s.links := rfl
@[simp] theorem State.setPending_pwr : (s.setPending l).pwr = s.pwr := rfl
@[simp] theorem State.setPending_sec : (s.setPending l).sec = s.sec := rfl
@[simp] theorem State.setPending_sent : (s.setPending l).sent = s.sent := rfl
@[simp] theorem State.setPending_logOff : (s.setPending l).logOff = s.logOff := rfl
end

section
variable (s : State) (f : Dram → Dram)
@[simp] theorem State.modDram_pending : (s.modDram f).pending = s.pending := rfl
@[simp] theorem State.modDram_time : (s.modDram f).time = s.time := rfl
@[simp] theorem State.modDram_draws : (s.modDram f).draws = s.draws := rfl
@[simp] theorem State.modDram_fuses : (s.modDram f).fuses = s.fuses := rfl
@[simp] theorem State.modDram_board : (s.modDram f).board = s.board := rfl
@[simp] theorem State.modDram_cores : (s.modDram f).cores = s.cores := rfl
@[simp] theorem State.modDram_mem : (s.modDram f).mem = s.mem := rfl
@[simp] theorem State.modDram_ctl : (s.modDram f).ctl = s.ctl := rfl
@[simp] theorem State.modDram_ulatch : (s.modDram f).ulatch = s.ulatch := rfl
@[simp] theorem State.modDram_live : (s.modDram f).live = s.live := rfl
@[simp] theorem State.modDram_store : (s.modDram f).store = s.store := rfl
@[simp] theorem State.modDram_cmps : (s.modDram f).cmps = s.cmps := rfl
@[simp] theorem State.modDram_generation : (s.modDram f).generation = s.generation := rfl
@[simp] theorem State.modDram_cht : (s.modDram f).cht = s.cht := rfl
@[simp] theorem State.modDram_evl : (s.modDram f).evl = s.evl := rfl
@[simp] theorem State.modDram_buckets : (s.modDram f).buckets = s.buckets := rfl
@[simp] theorem State.modDram_held : (s.modDram f).held = s.held := rfl
@[simp] theorem State.modDram_flight : (s.modDram f).flight = s.flight := rfl
@[simp] theorem State.modDram_usts : (s.modDram f).usts = s.usts := rfl
@[simp] theorem State.modDram_lags : (s.modDram f).lags = s.lags := rfl
@[simp] theorem State.modDram_lagCount : (s.modDram f).lagCount = s.lagCount := rfl
@[simp] theorem State.modDram_halts : (s.modDram f).halts = s.halts := rfl
@[simp] theorem State.modDram_mft : (s.modDram f).mft = s.mft := rfl
@[simp] theorem State.modDram_mftc : (s.modDram f).mftc = s.mftc := rfl
@[simp] theorem State.modDram_nettime : (s.modDram f).nettime = s.nettime := rfl
@[simp] theorem State.modDram_qm : (s.modDram f).qm = s.qm := rfl
@[simp] theorem State.modDram_hep : (s.modDram f).hep = s.hep := rfl
@[simp] theorem State.modDram_net : (s.modDram f).net = s.net := rfl
@[simp] theorem State.modDram_links : (s.modDram f).links = s.links := rfl
@[simp] theorem State.modDram_pwr : (s.modDram f).pwr = s.pwr := rfl
@[simp] theorem State.modDram_sec : (s.modDram f).sec = s.sec := rfl
@[simp] theorem State.modDram_sent : (s.modDram f).sent = s.sent := rfl
@[simp] theorem State.modDram_logOff : (s.modDram f).logOff = s.logOff := rfl
end

section
variable (s : State) (e : Nat) (x : Engine)
@[simp] theorem State.setEngine_pending : (s.setEngine e x).pending = s.pending := rfl
@[simp] theorem State.setEngine_time : (s.setEngine e x).time = s.time := rfl
@[simp] theorem State.setEngine_draws : (s.setEngine e x).draws = s.draws := rfl
@[simp] theorem State.setEngine_fuses : (s.setEngine e x).fuses = s.fuses := rfl
@[simp] theorem State.setEngine_board : (s.setEngine e x).board = s.board := rfl
@[simp] theorem State.setEngine_cores : (s.setEngine e x).cores = s.cores := rfl
@[simp] theorem State.setEngine_mem : (s.setEngine e x).mem = s.mem := rfl
@[simp] theorem State.setEngine_ctl : (s.setEngine e x).ctl = s.ctl := rfl
@[simp] theorem State.setEngine_ulatch : (s.setEngine e x).ulatch = s.ulatch := rfl
@[simp] theorem State.setEngine_live : (s.setEngine e x).live = s.live := rfl
@[simp] theorem State.setEngine_store : (s.setEngine e x).store = s.store := rfl
@[simp] theorem State.setEngine_cmps : (s.setEngine e x).cmps = s.cmps := rfl
@[simp] theorem State.setEngine_generation : (s.setEngine e x).generation = s.generation := rfl
@[simp] theorem State.setEngine_cht : (s.setEngine e x).cht = s.cht := rfl
@[simp] theorem State.setEngine_evl : (s.setEngine e x).evl = s.evl := rfl
@[simp] theorem State.setEngine_buckets : (s.setEngine e x).buckets = s.buckets := rfl
@[simp] theorem State.setEngine_held : (s.setEngine e x).held = s.held := rfl
@[simp] theorem State.setEngine_flight : (s.setEngine e x).flight = s.flight := rfl
@[simp] theorem State.setEngine_usts : (s.setEngine e x).usts = s.usts := rfl
@[simp] theorem State.setEngine_lags : (s.setEngine e x).lags = s.lags := rfl
@[simp] theorem State.setEngine_lagCount : (s.setEngine e x).lagCount = s.lagCount := rfl
@[simp] theorem State.setEngine_halts : (s.setEngine e x).halts = s.halts := rfl
@[simp] theorem State.setEngine_mft : (s.setEngine e x).mft = s.mft := rfl
@[simp] theorem State.setEngine_mftc : (s.setEngine e x).mftc = s.mftc := rfl
@[simp] theorem State.setEngine_nettime : (s.setEngine e x).nettime = s.nettime := rfl
@[simp] theorem State.setEngine_dram : (s.setEngine e x).dram = s.dram := rfl
@[simp] theorem State.setEngine_hep : (s.setEngine e x).hep = s.hep := rfl
@[simp] theorem State.setEngine_net : (s.setEngine e x).net = s.net := rfl
@[simp] theorem State.setEngine_links : (s.setEngine e x).links = s.links := rfl
@[simp] theorem State.setEngine_pwr : (s.setEngine e x).pwr = s.pwr := rfl
@[simp] theorem State.setEngine_sec : (s.setEngine e x).sec = s.sec := rfl
@[simp] theorem State.setEngine_sent : (s.setEngine e x).sent = s.sent := rfl
@[simp] theorem State.setEngine_logOff : (s.setEngine e x).logOff = s.logOff := rfl
end

section
variable (s : State) (q : Nat) (x : Queue)
@[simp] theorem State.setQueue_pending : (s.setQueue q x).pending = s.pending := rfl
@[simp] theorem State.setQueue_time : (s.setQueue q x).time = s.time := rfl
@[simp] theorem State.setQueue_draws : (s.setQueue q x).draws = s.draws := rfl
@[simp] theorem State.setQueue_fuses : (s.setQueue q x).fuses = s.fuses := rfl
@[simp] theorem State.setQueue_board : (s.setQueue q x).board = s.board := rfl
@[simp] theorem State.setQueue_cores : (s.setQueue q x).cores = s.cores := rfl
@[simp] theorem State.setQueue_mem : (s.setQueue q x).mem = s.mem := rfl
@[simp] theorem State.setQueue_ctl : (s.setQueue q x).ctl = s.ctl := rfl
@[simp] theorem State.setQueue_ulatch : (s.setQueue q x).ulatch = s.ulatch := rfl
@[simp] theorem State.setQueue_live : (s.setQueue q x).live = s.live := rfl
@[simp] theorem State.setQueue_store : (s.setQueue q x).store = s.store := rfl
@[simp] theorem State.setQueue_cmps : (s.setQueue q x).cmps = s.cmps := rfl
@[simp] theorem State.setQueue_generation : (s.setQueue q x).generation = s.generation := rfl
@[simp] theorem State.setQueue_cht : (s.setQueue q x).cht = s.cht := rfl
@[simp] theorem State.setQueue_evl : (s.setQueue q x).evl = s.evl := rfl
@[simp] theorem State.setQueue_buckets : (s.setQueue q x).buckets = s.buckets := rfl
@[simp] theorem State.setQueue_held : (s.setQueue q x).held = s.held := rfl
@[simp] theorem State.setQueue_flight : (s.setQueue q x).flight = s.flight := rfl
@[simp] theorem State.setQueue_usts : (s.setQueue q x).usts = s.usts := rfl
@[simp] theorem State.setQueue_lags : (s.setQueue q x).lags = s.lags := rfl
@[simp] theorem State.setQueue_lagCount : (s.setQueue q x).lagCount = s.lagCount := rfl
@[simp] theorem State.setQueue_halts : (s.setQueue q x).halts = s.halts := rfl
@[simp] theorem State.setQueue_mft : (s.setQueue q x).mft = s.mft := rfl
@[simp] theorem State.setQueue_mftc : (s.setQueue q x).mftc = s.mftc := rfl
@[simp] theorem State.setQueue_nettime : (s.setQueue q x).nettime = s.nettime := rfl
@[simp] theorem State.setQueue_dram : (s.setQueue q x).dram = s.dram := rfl
@[simp] theorem State.setQueue_hep : (s.setQueue q x).hep = s.hep := rfl
@[simp] theorem State.setQueue_net : (s.setQueue q x).net = s.net := rfl
@[simp] theorem State.setQueue_links : (s.setQueue q x).links = s.links := rfl
@[simp] theorem State.setQueue_pwr : (s.setQueue q x).pwr = s.pwr := rfl
@[simp] theorem State.setQueue_sec : (s.setQueue q x).sec = s.sec := rfl
@[simp] theorem State.setQueue_sent : (s.setQueue q x).sent = s.sent := rfl
@[simp] theorem State.setQueue_logOff : (s.setQueue q x).logOff = s.logOff := rfl
end

section
variable (s : State) (f : Sec → Sec)
@[simp] theorem State.modSec_pending : (s.modSec f).pending = s.pending := rfl
@[simp] theorem State.modSec_time : (s.modSec f).time = s.time := rfl
@[simp] theorem State.modSec_draws : (s.modSec f).draws = s.draws := rfl
@[simp] theorem State.modSec_fuses : (s.modSec f).fuses = s.fuses := rfl
@[simp] theorem State.modSec_board : (s.modSec f).board = s.board := rfl
@[simp] theorem State.modSec_cores : (s.modSec f).cores = s.cores := rfl
@[simp] theorem State.modSec_mem : (s.modSec f).mem = s.mem := rfl
@[simp] theorem State.modSec_ctl : (s.modSec f).ctl = s.ctl := rfl
@[simp] theorem State.modSec_ulatch : (s.modSec f).ulatch = s.ulatch := rfl
@[simp] theorem State.modSec_live : (s.modSec f).live = s.live := rfl
@[simp] theorem State.modSec_store : (s.modSec f).store = s.store := rfl
@[simp] theorem State.modSec_cmps : (s.modSec f).cmps = s.cmps := rfl
@[simp] theorem State.modSec_generation : (s.modSec f).generation = s.generation := rfl
@[simp] theorem State.modSec_cht : (s.modSec f).cht = s.cht := rfl
@[simp] theorem State.modSec_evl : (s.modSec f).evl = s.evl := rfl
@[simp] theorem State.modSec_buckets : (s.modSec f).buckets = s.buckets := rfl
@[simp] theorem State.modSec_held : (s.modSec f).held = s.held := rfl
@[simp] theorem State.modSec_flight : (s.modSec f).flight = s.flight := rfl
@[simp] theorem State.modSec_usts : (s.modSec f).usts = s.usts := rfl
@[simp] theorem State.modSec_lags : (s.modSec f).lags = s.lags := rfl
@[simp] theorem State.modSec_lagCount : (s.modSec f).lagCount = s.lagCount := rfl
@[simp] theorem State.modSec_halts : (s.modSec f).halts = s.halts := rfl
@[simp] theorem State.modSec_mft : (s.modSec f).mft = s.mft := rfl
@[simp] theorem State.modSec_mftc : (s.modSec f).mftc = s.mftc := rfl
@[simp] theorem State.modSec_nettime : (s.modSec f).nettime = s.nettime := rfl
@[simp] theorem State.modSec_dram : (s.modSec f).dram = s.dram := rfl
@[simp] theorem State.modSec_qm : (s.modSec f).qm = s.qm := rfl
@[simp] theorem State.modSec_hep : (s.modSec f).hep = s.hep := rfl
@[simp] theorem State.modSec_net : (s.modSec f).net = s.net := rfl
@[simp] theorem State.modSec_links : (s.modSec f).links = s.links := rfl
@[simp] theorem State.modSec_pwr : (s.modSec f).pwr = s.pwr := rfl
@[simp] theorem State.modSec_sent : (s.modSec f).sent = s.sent := rfl
@[simp] theorem State.modSec_logOff : (s.modSec f).logOff = s.logOff := rfl
end

section
variable (s : State) (f : Pwr → Pwr)
@[simp] theorem State.modPwr_pending : (s.modPwr f).pending = s.pending := rfl
@[simp] theorem State.modPwr_time : (s.modPwr f).time = s.time := rfl
@[simp] theorem State.modPwr_draws : (s.modPwr f).draws = s.draws := rfl
@[simp] theorem State.modPwr_fuses : (s.modPwr f).fuses = s.fuses := rfl
@[simp] theorem State.modPwr_board : (s.modPwr f).board = s.board := rfl
@[simp] theorem State.modPwr_cores : (s.modPwr f).cores = s.cores := rfl
@[simp] theorem State.modPwr_mem : (s.modPwr f).mem = s.mem := rfl
@[simp] theorem State.modPwr_ctl : (s.modPwr f).ctl = s.ctl := rfl
@[simp] theorem State.modPwr_ulatch : (s.modPwr f).ulatch = s.ulatch := rfl
@[simp] theorem State.modPwr_live : (s.modPwr f).live = s.live := rfl
@[simp] theorem State.modPwr_store : (s.modPwr f).store = s.store := rfl
@[simp] theorem State.modPwr_cmps : (s.modPwr f).cmps = s.cmps := rfl
@[simp] theorem State.modPwr_generation : (s.modPwr f).generation = s.generation := rfl
@[simp] theorem State.modPwr_cht : (s.modPwr f).cht = s.cht := rfl
@[simp] theorem State.modPwr_evl : (s.modPwr f).evl = s.evl := rfl
@[simp] theorem State.modPwr_buckets : (s.modPwr f).buckets = s.buckets := rfl
@[simp] theorem State.modPwr_held : (s.modPwr f).held = s.held := rfl
@[simp] theorem State.modPwr_flight : (s.modPwr f).flight = s.flight := rfl
@[simp] theorem State.modPwr_usts : (s.modPwr f).usts = s.usts := rfl
@[simp] theorem State.modPwr_lags : (s.modPwr f).lags = s.lags := rfl
@[simp] theorem State.modPwr_lagCount : (s.modPwr f).lagCount = s.lagCount := rfl
@[simp] theorem State.modPwr_halts : (s.modPwr f).halts = s.halts := rfl
@[simp] theorem State.modPwr_mft : (s.modPwr f).mft = s.mft := rfl
@[simp] theorem State.modPwr_mftc : (s.modPwr f).mftc = s.mftc := rfl
@[simp] theorem State.modPwr_nettime : (s.modPwr f).nettime = s.nettime := rfl
@[simp] theorem State.modPwr_dram : (s.modPwr f).dram = s.dram := rfl
@[simp] theorem State.modPwr_qm : (s.modPwr f).qm = s.qm := rfl
@[simp] theorem State.modPwr_hep : (s.modPwr f).hep = s.hep := rfl
@[simp] theorem State.modPwr_net : (s.modPwr f).net = s.net := rfl
@[simp] theorem State.modPwr_links : (s.modPwr f).links = s.links := rfl
@[simp] theorem State.modPwr_sec : (s.modPwr f).sec = s.sec := rfl
@[simp] theorem State.modPwr_sent : (s.modPwr f).sent = s.sent := rfl
@[simp] theorem State.modPwr_logOff : (s.modPwr f).logOff = s.logOff := rfl
end

section
variable (s : State) (f : Net → Net)
@[simp] theorem State.modNet_pending : (s.modNet f).pending = s.pending := rfl
@[simp] theorem State.modNet_time : (s.modNet f).time = s.time := rfl
@[simp] theorem State.modNet_draws : (s.modNet f).draws = s.draws := rfl
@[simp] theorem State.modNet_fuses : (s.modNet f).fuses = s.fuses := rfl
@[simp] theorem State.modNet_board : (s.modNet f).board = s.board := rfl
@[simp] theorem State.modNet_cores : (s.modNet f).cores = s.cores := rfl
@[simp] theorem State.modNet_mem : (s.modNet f).mem = s.mem := rfl
@[simp] theorem State.modNet_ctl : (s.modNet f).ctl = s.ctl := rfl
@[simp] theorem State.modNet_ulatch : (s.modNet f).ulatch = s.ulatch := rfl
@[simp] theorem State.modNet_live : (s.modNet f).live = s.live := rfl
@[simp] theorem State.modNet_store : (s.modNet f).store = s.store := rfl
@[simp] theorem State.modNet_cmps : (s.modNet f).cmps = s.cmps := rfl
@[simp] theorem State.modNet_generation : (s.modNet f).generation = s.generation := rfl
@[simp] theorem State.modNet_cht : (s.modNet f).cht = s.cht := rfl
@[simp] theorem State.modNet_evl : (s.modNet f).evl = s.evl := rfl
@[simp] theorem State.modNet_buckets : (s.modNet f).buckets = s.buckets := rfl
@[simp] theorem State.modNet_held : (s.modNet f).held = s.held := rfl
@[simp] theorem State.modNet_flight : (s.modNet f).flight = s.flight := rfl
@[simp] theorem State.modNet_usts : (s.modNet f).usts = s.usts := rfl
@[simp] theorem State.modNet_lags : (s.modNet f).lags = s.lags := rfl
@[simp] theorem State.modNet_lagCount : (s.modNet f).lagCount = s.lagCount := rfl
@[simp] theorem State.modNet_halts : (s.modNet f).halts = s.halts := rfl
@[simp] theorem State.modNet_mft : (s.modNet f).mft = s.mft := rfl
@[simp] theorem State.modNet_mftc : (s.modNet f).mftc = s.mftc := rfl
@[simp] theorem State.modNet_nettime : (s.modNet f).nettime = s.nettime := rfl
@[simp] theorem State.modNet_dram : (s.modNet f).dram = s.dram := rfl
@[simp] theorem State.modNet_qm : (s.modNet f).qm = s.qm := rfl
@[simp] theorem State.modNet_hep : (s.modNet f).hep = s.hep := rfl
@[simp] theorem State.modNet_links : (s.modNet f).links = s.links := rfl
@[simp] theorem State.modNet_pwr : (s.modNet f).pwr = s.pwr := rfl
@[simp] theorem State.modNet_sec : (s.modNet f).sec = s.sec := rfl
@[simp] theorem State.modNet_sent : (s.modNet f).sent = s.sent := rfl
@[simp] theorem State.modNet_logOff : (s.modNet f).logOff = s.logOff := rfl
end

section
variable (s : State) (f : Hep → Hep)
@[simp] theorem State.modHep_pending : (s.modHep f).pending = s.pending := rfl
@[simp] theorem State.modHep_time : (s.modHep f).time = s.time := rfl
@[simp] theorem State.modHep_draws : (s.modHep f).draws = s.draws := rfl
@[simp] theorem State.modHep_fuses : (s.modHep f).fuses = s.fuses := rfl
@[simp] theorem State.modHep_board : (s.modHep f).board = s.board := rfl
@[simp] theorem State.modHep_cores : (s.modHep f).cores = s.cores := rfl
@[simp] theorem State.modHep_mem : (s.modHep f).mem = s.mem := rfl
@[simp] theorem State.modHep_ctl : (s.modHep f).ctl = s.ctl := rfl
@[simp] theorem State.modHep_ulatch : (s.modHep f).ulatch = s.ulatch := rfl
@[simp] theorem State.modHep_live : (s.modHep f).live = s.live := rfl
@[simp] theorem State.modHep_store : (s.modHep f).store = s.store := rfl
@[simp] theorem State.modHep_cmps : (s.modHep f).cmps = s.cmps := rfl
@[simp] theorem State.modHep_generation : (s.modHep f).generation = s.generation := rfl
@[simp] theorem State.modHep_cht : (s.modHep f).cht = s.cht := rfl
@[simp] theorem State.modHep_evl : (s.modHep f).evl = s.evl := rfl
@[simp] theorem State.modHep_buckets : (s.modHep f).buckets = s.buckets := rfl
@[simp] theorem State.modHep_held : (s.modHep f).held = s.held := rfl
@[simp] theorem State.modHep_flight : (s.modHep f).flight = s.flight := rfl
@[simp] theorem State.modHep_usts : (s.modHep f).usts = s.usts := rfl
@[simp] theorem State.modHep_lags : (s.modHep f).lags = s.lags := rfl
@[simp] theorem State.modHep_lagCount : (s.modHep f).lagCount = s.lagCount := rfl
@[simp] theorem State.modHep_halts : (s.modHep f).halts = s.halts := rfl
@[simp] theorem State.modHep_mft : (s.modHep f).mft = s.mft := rfl
@[simp] theorem State.modHep_mftc : (s.modHep f).mftc = s.mftc := rfl
@[simp] theorem State.modHep_nettime : (s.modHep f).nettime = s.nettime := rfl
@[simp] theorem State.modHep_dram : (s.modHep f).dram = s.dram := rfl
@[simp] theorem State.modHep_qm : (s.modHep f).qm = s.qm := rfl
@[simp] theorem State.modHep_net : (s.modHep f).net = s.net := rfl
@[simp] theorem State.modHep_links : (s.modHep f).links = s.links := rfl
@[simp] theorem State.modHep_pwr : (s.modHep f).pwr = s.pwr := rfl
@[simp] theorem State.modHep_sec : (s.modHep f).sec = s.sec := rfl
@[simp] theorem State.modHep_sent : (s.modHep f).sent = s.sent := rfl
@[simp] theorem State.modHep_logOff : (s.modHep f).logOff = s.logOff := rfl
end

section
variable (s : State) (x : Sent)
@[simp] theorem State.emit_pending : (s.emit x).pending = s.pending := rfl
@[simp] theorem State.emit_time : (s.emit x).time = s.time := rfl
@[simp] theorem State.emit_draws : (s.emit x).draws = s.draws := rfl
@[simp] theorem State.emit_fuses : (s.emit x).fuses = s.fuses := rfl
@[simp] theorem State.emit_board : (s.emit x).board = s.board := rfl
@[simp] theorem State.emit_cores : (s.emit x).cores = s.cores := rfl
@[simp] theorem State.emit_mem : (s.emit x).mem = s.mem := rfl
@[simp] theorem State.emit_ctl : (s.emit x).ctl = s.ctl := rfl
@[simp] theorem State.emit_ulatch : (s.emit x).ulatch = s.ulatch := rfl
@[simp] theorem State.emit_live : (s.emit x).live = s.live := rfl
@[simp] theorem State.emit_store : (s.emit x).store = s.store := rfl
@[simp] theorem State.emit_cmps : (s.emit x).cmps = s.cmps := rfl
@[simp] theorem State.emit_generation : (s.emit x).generation = s.generation := rfl
@[simp] theorem State.emit_cht : (s.emit x).cht = s.cht := rfl
@[simp] theorem State.emit_evl : (s.emit x).evl = s.evl := rfl
@[simp] theorem State.emit_buckets : (s.emit x).buckets = s.buckets := rfl
@[simp] theorem State.emit_held : (s.emit x).held = s.held := rfl
@[simp] theorem State.emit_flight : (s.emit x).flight = s.flight := rfl
@[simp] theorem State.emit_usts : (s.emit x).usts = s.usts := rfl
@[simp] theorem State.emit_lags : (s.emit x).lags = s.lags := rfl
@[simp] theorem State.emit_lagCount : (s.emit x).lagCount = s.lagCount := rfl
@[simp] theorem State.emit_halts : (s.emit x).halts = s.halts := rfl
@[simp] theorem State.emit_mft : (s.emit x).mft = s.mft := rfl
@[simp] theorem State.emit_mftc : (s.emit x).mftc = s.mftc := rfl
@[simp] theorem State.emit_nettime : (s.emit x).nettime = s.nettime := rfl
@[simp] theorem State.emit_dram : (s.emit x).dram = s.dram := rfl
@[simp] theorem State.emit_qm : (s.emit x).qm = s.qm := rfl
@[simp] theorem State.emit_hep : (s.emit x).hep = s.hep := rfl
@[simp] theorem State.emit_net : (s.emit x).net = s.net := rfl
@[simp] theorem State.emit_links : (s.emit x).links = s.links := rfl
@[simp] theorem State.emit_pwr : (s.emit x).pwr = s.pwr := rfl
@[simp] theorem State.emit_sec : (s.emit x).sec = s.sec := rfl
@[simp] theorem State.emit_logOff : (s.emit x).logOff = s.logOff := rfl
end

section
variable (s : State) (f : Links → Links)
@[simp] theorem State.modLinks_pending : (s.modLinks f).pending = s.pending := rfl
@[simp] theorem State.modLinks_time : (s.modLinks f).time = s.time := rfl
@[simp] theorem State.modLinks_draws : (s.modLinks f).draws = s.draws := rfl
@[simp] theorem State.modLinks_fuses : (s.modLinks f).fuses = s.fuses := rfl
@[simp] theorem State.modLinks_board : (s.modLinks f).board = s.board := rfl
@[simp] theorem State.modLinks_cores : (s.modLinks f).cores = s.cores := rfl
@[simp] theorem State.modLinks_mem : (s.modLinks f).mem = s.mem := rfl
@[simp] theorem State.modLinks_ctl : (s.modLinks f).ctl = s.ctl := rfl
@[simp] theorem State.modLinks_ulatch : (s.modLinks f).ulatch = s.ulatch := rfl
@[simp] theorem State.modLinks_live : (s.modLinks f).live = s.live := rfl
@[simp] theorem State.modLinks_store : (s.modLinks f).store = s.store := rfl
@[simp] theorem State.modLinks_cmps : (s.modLinks f).cmps = s.cmps := rfl
@[simp] theorem State.modLinks_generation : (s.modLinks f).generation = s.generation := rfl
@[simp] theorem State.modLinks_cht : (s.modLinks f).cht = s.cht := rfl
@[simp] theorem State.modLinks_evl : (s.modLinks f).evl = s.evl := rfl
@[simp] theorem State.modLinks_buckets : (s.modLinks f).buckets = s.buckets := rfl
@[simp] theorem State.modLinks_held : (s.modLinks f).held = s.held := rfl
@[simp] theorem State.modLinks_flight : (s.modLinks f).flight = s.flight := rfl
@[simp] theorem State.modLinks_usts : (s.modLinks f).usts = s.usts := rfl
@[simp] theorem State.modLinks_lags : (s.modLinks f).lags = s.lags := rfl
@[simp] theorem State.modLinks_lagCount : (s.modLinks f).lagCount = s.lagCount := rfl
@[simp] theorem State.modLinks_halts : (s.modLinks f).halts = s.halts := rfl
@[simp] theorem State.modLinks_mft : (s.modLinks f).mft = s.mft := rfl
@[simp] theorem State.modLinks_mftc : (s.modLinks f).mftc = s.mftc := rfl
@[simp] theorem State.modLinks_nettime : (s.modLinks f).nettime = s.nettime := rfl
@[simp] theorem State.modLinks_dram : (s.modLinks f).dram = s.dram := rfl
@[simp] theorem State.modLinks_qm : (s.modLinks f).qm = s.qm := rfl
@[simp] theorem State.modLinks_hep : (s.modLinks f).hep = s.hep := rfl
@[simp] theorem State.modLinks_net : (s.modLinks f).net = s.net := rfl
@[simp] theorem State.modLinks_pwr : (s.modLinks f).pwr = s.pwr := rfl
@[simp] theorem State.modLinks_sec : (s.modLinks f).sec = s.sec := rfl
@[simp] theorem State.modLinks_sent : (s.modLinks f).sent = s.sent := rfl
@[simp] theorem State.modLinks_logOff : (s.modLinks f).logOff = s.logOff := rfl
end

section
variable (s : State) (n : Nat) (m : MftSess)
@[simp] theorem State.setSess_pending : (s.setSess n m).pending = s.pending := rfl
@[simp] theorem State.setSess_time : (s.setSess n m).time = s.time := rfl
@[simp] theorem State.setSess_draws : (s.setSess n m).draws = s.draws := rfl
@[simp] theorem State.setSess_fuses : (s.setSess n m).fuses = s.fuses := rfl
@[simp] theorem State.setSess_board : (s.setSess n m).board = s.board := rfl
@[simp] theorem State.setSess_cores : (s.setSess n m).cores = s.cores := rfl
@[simp] theorem State.setSess_mem : (s.setSess n m).mem = s.mem := rfl
@[simp] theorem State.setSess_ctl : (s.setSess n m).ctl = s.ctl := rfl
@[simp] theorem State.setSess_ulatch : (s.setSess n m).ulatch = s.ulatch := rfl
@[simp] theorem State.setSess_live : (s.setSess n m).live = s.live := rfl
@[simp] theorem State.setSess_store : (s.setSess n m).store = s.store := rfl
@[simp] theorem State.setSess_cmps : (s.setSess n m).cmps = s.cmps := rfl
@[simp] theorem State.setSess_generation : (s.setSess n m).generation = s.generation := rfl
@[simp] theorem State.setSess_cht : (s.setSess n m).cht = s.cht := rfl
@[simp] theorem State.setSess_evl : (s.setSess n m).evl = s.evl := rfl
@[simp] theorem State.setSess_buckets : (s.setSess n m).buckets = s.buckets := rfl
@[simp] theorem State.setSess_held : (s.setSess n m).held = s.held := rfl
@[simp] theorem State.setSess_flight : (s.setSess n m).flight = s.flight := rfl
@[simp] theorem State.setSess_usts : (s.setSess n m).usts = s.usts := rfl
@[simp] theorem State.setSess_lags : (s.setSess n m).lags = s.lags := rfl
@[simp] theorem State.setSess_lagCount : (s.setSess n m).lagCount = s.lagCount := rfl
@[simp] theorem State.setSess_halts : (s.setSess n m).halts = s.halts := rfl
@[simp] theorem State.setSess_mftc : (s.setSess n m).mftc = s.mftc := rfl
@[simp] theorem State.setSess_nettime : (s.setSess n m).nettime = s.nettime := rfl
@[simp] theorem State.setSess_dram : (s.setSess n m).dram = s.dram := rfl
@[simp] theorem State.setSess_qm : (s.setSess n m).qm = s.qm := rfl
@[simp] theorem State.setSess_hep : (s.setSess n m).hep = s.hep := rfl
@[simp] theorem State.setSess_net : (s.setSess n m).net = s.net := rfl
@[simp] theorem State.setSess_links : (s.setSess n m).links = s.links := rfl
@[simp] theorem State.setSess_pwr : (s.setSess n m).pwr = s.pwr := rfl
@[simp] theorem State.setSess_sec : (s.setSess n m).sec = s.sec := rfl
@[simp] theorem State.setSess_sent : (s.setSess n m).sent = s.sent := rfl
@[simp] theorem State.setSess_logOff : (s.setSess n m).logOff = s.logOff := rfl
end

section
variable (s : State) (k : Nat) (m : MftCore)
@[simp] theorem State.setMftc_pending : (s.setMftc k m).pending = s.pending := rfl
@[simp] theorem State.setMftc_time : (s.setMftc k m).time = s.time := rfl
@[simp] theorem State.setMftc_draws : (s.setMftc k m).draws = s.draws := rfl
@[simp] theorem State.setMftc_fuses : (s.setMftc k m).fuses = s.fuses := rfl
@[simp] theorem State.setMftc_board : (s.setMftc k m).board = s.board := rfl
@[simp] theorem State.setMftc_cores : (s.setMftc k m).cores = s.cores := rfl
@[simp] theorem State.setMftc_mem : (s.setMftc k m).mem = s.mem := rfl
@[simp] theorem State.setMftc_ctl : (s.setMftc k m).ctl = s.ctl := rfl
@[simp] theorem State.setMftc_ulatch : (s.setMftc k m).ulatch = s.ulatch := rfl
@[simp] theorem State.setMftc_live : (s.setMftc k m).live = s.live := rfl
@[simp] theorem State.setMftc_store : (s.setMftc k m).store = s.store := rfl
@[simp] theorem State.setMftc_cmps : (s.setMftc k m).cmps = s.cmps := rfl
@[simp] theorem State.setMftc_generation : (s.setMftc k m).generation = s.generation := rfl
@[simp] theorem State.setMftc_cht : (s.setMftc k m).cht = s.cht := rfl
@[simp] theorem State.setMftc_evl : (s.setMftc k m).evl = s.evl := rfl
@[simp] theorem State.setMftc_buckets : (s.setMftc k m).buckets = s.buckets := rfl
@[simp] theorem State.setMftc_held : (s.setMftc k m).held = s.held := rfl
@[simp] theorem State.setMftc_flight : (s.setMftc k m).flight = s.flight := rfl
@[simp] theorem State.setMftc_usts : (s.setMftc k m).usts = s.usts := rfl
@[simp] theorem State.setMftc_lags : (s.setMftc k m).lags = s.lags := rfl
@[simp] theorem State.setMftc_lagCount : (s.setMftc k m).lagCount = s.lagCount := rfl
@[simp] theorem State.setMftc_halts : (s.setMftc k m).halts = s.halts := rfl
@[simp] theorem State.setMftc_mft : (s.setMftc k m).mft = s.mft := rfl
@[simp] theorem State.setMftc_nettime : (s.setMftc k m).nettime = s.nettime := rfl
@[simp] theorem State.setMftc_dram : (s.setMftc k m).dram = s.dram := rfl
@[simp] theorem State.setMftc_qm : (s.setMftc k m).qm = s.qm := rfl
@[simp] theorem State.setMftc_hep : (s.setMftc k m).hep = s.hep := rfl
@[simp] theorem State.setMftc_net : (s.setMftc k m).net = s.net := rfl
@[simp] theorem State.setMftc_links : (s.setMftc k m).links = s.links := rfl
@[simp] theorem State.setMftc_pwr : (s.setMftc k m).pwr = s.pwr := rfl
@[simp] theorem State.setMftc_sec : (s.setMftc k m).sec = s.sec := rfl
@[simp] theorem State.setMftc_sent : (s.setMftc k m).sent = s.sent := rfl
@[simp] theorem State.setMftc_logOff : (s.setMftc k m).logOff = s.logOff := rfl
end

section
variable (s : State) (key bound : Nat) (old : Bool)
@[simp] theorem State.lag_pending : (s.lag key bound old).pending = s.pending := rfl
@[simp] theorem State.lag_time : (s.lag key bound old).time = s.time := rfl
@[simp] theorem State.lag_draws : (s.lag key bound old).draws = s.draws := rfl
@[simp] theorem State.lag_fuses : (s.lag key bound old).fuses = s.fuses := rfl
@[simp] theorem State.lag_board : (s.lag key bound old).board = s.board := rfl
@[simp] theorem State.lag_mem : (s.lag key bound old).mem = s.mem := rfl
@[simp] theorem State.lag_ctl : (s.lag key bound old).ctl = s.ctl := rfl
@[simp] theorem State.lag_ulatch : (s.lag key bound old).ulatch = s.ulatch := rfl
@[simp] theorem State.lag_live : (s.lag key bound old).live = s.live := rfl
@[simp] theorem State.lag_store : (s.lag key bound old).store = s.store := rfl
@[simp] theorem State.lag_cmps : (s.lag key bound old).cmps = s.cmps := rfl
@[simp] theorem State.lag_generation : (s.lag key bound old).generation = s.generation := rfl
@[simp] theorem State.lag_cht : (s.lag key bound old).cht = s.cht := rfl
@[simp] theorem State.lag_evl : (s.lag key bound old).evl = s.evl := rfl
@[simp] theorem State.lag_buckets : (s.lag key bound old).buckets = s.buckets := rfl
@[simp] theorem State.lag_held : (s.lag key bound old).held = s.held := rfl
@[simp] theorem State.lag_flight : (s.lag key bound old).flight = s.flight := rfl
@[simp] theorem State.lag_usts : (s.lag key bound old).usts = s.usts := rfl
@[simp] theorem State.lag_halts : (s.lag key bound old).halts = s.halts := rfl
@[simp] theorem State.lag_mft : (s.lag key bound old).mft = s.mft := rfl
@[simp] theorem State.lag_mftc : (s.lag key bound old).mftc = s.mftc := rfl
@[simp] theorem State.lag_nettime : (s.lag key bound old).nettime = s.nettime := rfl
@[simp] theorem State.lag_dram : (s.lag key bound old).dram = s.dram := rfl
@[simp] theorem State.lag_qm : (s.lag key bound old).qm = s.qm := rfl
@[simp] theorem State.lag_hep : (s.lag key bound old).hep = s.hep := rfl
@[simp] theorem State.lag_net : (s.lag key bound old).net = s.net := rfl
@[simp] theorem State.lag_links : (s.lag key bound old).links = s.links := rfl
@[simp] theorem State.lag_pwr : (s.lag key bound old).pwr = s.pwr := rfl
@[simp] theorem State.lag_sec : (s.lag key bound old).sec = s.sec := rfl
@[simp] theorem State.lag_sent : (s.lag key bound old).sent = s.sent := rfl
@[simp] theorem State.lag_logOff : (s.lag key bound old).logOff = s.logOff := rfl
@[simp] theorem State.lag_cores : (s.lag key bound old).cores = s.cores := rfl
end

/-! ## What an update leaves in its own field -/

@[simp] theorem State.setMem_mem (s : State) (m : Mem) : (s.setMem m).mem = m := rfl
@[simp] theorem State.setPending_pending (s : State) (l : List Instr) : (s.setPending l).pending = l := rfl
@[simp] theorem State.modDram_dram (s : State) (f : Dram → Dram) : (s.modDram f).dram = f s.dram := rfl
@[simp] theorem State.modSec_sec (s : State) (f : Sec → Sec) : (s.modSec f).sec = f s.sec := rfl
@[simp] theorem State.modPwr_pwr (s : State) (f : Pwr → Pwr) : (s.modPwr f).pwr = f s.pwr := rfl
@[simp] theorem State.modNet_net (s : State) (f : Net → Net) : (s.modNet f).net = f s.net := rfl
@[simp] theorem State.modHep_hep (s : State) (f : Hep → Hep) : (s.modHep f).hep = f s.hep := rfl
@[simp] theorem State.modLinks_links (s : State) (f : Links → Links) : (s.modLinks f).links = f s.links := rfl
@[simp] theorem State.lag_lagCount (s : State) (key bound : Nat) (old : Bool) : (s.lag key bound old).lagCount = s.lagCount + 1 := rfl
@[simp] theorem State.emit_sent (s : State) (x : Sent) : (s.emit x).sent = x :: s.sent := rfl

end Sys2Proof.Machine
end

