-- ==== Sys2Proof/Laws/Store.lean ====
section
/-!
SUPPORT. Sparse stores: reading after writing, and every write keeps the canonical form.
-/
namespace Sys2Proof.Machine

theorem smGet_smSet {α : Type} (d : α) (m : SMap α) (n k : Nat) (x : α) :
    smGet d (smSet m n x) k = if n = k then x else smGet d m k := by
  induction m with
  | nil => rfl
  | cons p r ih =>
    obtain ⟨q, v⟩ := p
    simp only [smSet]
    split
    · subst q; simp only [smGet]; split <;> rfl
    · split
      · simp only [smGet]
      · simp only [smGet, ih]; split <;> split <;> simp_all

theorem smFind?_smSet {α : Type} (m : SMap α) (n k : Nat) (x : α) :
    smFind? (smSet m n x) k = if n = k then some x else smFind? m k := by
  induction m with
  | nil => rfl
  | cons p r ih =>
    obtain ⟨q, v⟩ := p
    simp only [smSet]
    split
    · subst q; simp only [smFind?]; split <;> rfl
    · split
      · simp only [smFind?]
      · simp only [smFind?, ih]; split <;> split <;> simp_all

theorem smGet_smErase {α : Type} (d : α) (m : SMap α) (n k : Nat) :
    smGet d (smErase m n) k = if n = k then d else smGet d m k := by
  induction m with
  | nil => simp [smErase, smGet]
  | cons p r ih =>
    obtain ⟨q, v⟩ := p
    simp only [smErase]
    split
    · subst q; rw [ih]; simp only [smGet]; split <;> simp_all
    · simp only [smGet, ih]; split <;> split <;> simp_all

theorem smFind?_smErase {α : Type} (m : SMap α) (n k : Nat) :
    smFind? (smErase m n) k = if n = k then none else smFind? m k := by
  induction m with
  | nil => simp [smErase, smFind?]
  | cons p r ih =>
    obtain ⟨q, v⟩ := p
    simp only [smErase]
    split
    · subst q; rw [ih]; simp only [smFind?]; split <;> simp_all
    · simp only [smFind?, ih]; split <;> split <;> simp_all

theorem smGet_smPut {α : Type} [DecidableEq α] (d : α) (m : SMap α) (n k : Nat) (x : α) :
    smGet d (smPut d m n x) k = if n = k then x else smGet d m k := by
  unfold smPut
  split
  · subst x; exact smGet_smErase d m n k
  · exact smGet_smSet d m n k x

/-! ## The canonical form -/

theorem smRising_mono {α : Type} {lo hi : Nat} {m : SMap α} (h : smRising hi m = true) (le : lo ≤ hi) : smRising lo m = true := by
  cases m with
  | nil => rfl
  | cons p r =>
    obtain ⟨k, v⟩ := p
    simp only [smRising, Bool.and_eq_true, decide_eq_true_eq] at *
    exact ⟨by omega, h.2⟩

theorem smRising_smSet {α : Type} {lo n : Nat} {x : α} {m : SMap α} (h : smRising lo m = true) (le : lo ≤ n) :
    smRising lo (smSet m n x) = true := by
  induction m generalizing lo with
  | nil => simp [smSet, smRising, le]
  | cons p r ih =>
    obtain ⟨k, v⟩ := p
    simp only [smRising, Bool.and_eq_true, decide_eq_true_eq] at h
    simp only [smSet]
    split
    · subst k; simp [smRising, le, h.2]
    · split
      · simp only [smRising, Bool.and_eq_true, decide_eq_true_eq]; exact ⟨le, by omega, h.2⟩
      · simp only [smRising, Bool.and_eq_true, decide_eq_true_eq]; exact ⟨h.1, ih h.2 (by omega)⟩

theorem smRising_filter {α : Type} {lo : Nat} {m : SMap α} (p : Nat × α → Bool) (h : smRising lo m = true) :
    smRising lo (m.filter p) = true := by
  induction m generalizing lo with
  | nil => rfl
  | cons e r ih =>
    obtain ⟨k, v⟩ := e
    simp only [smRising, Bool.and_eq_true, decide_eq_true_eq] at h
    by_cases c : p (k, v) = true
    · simp only [List.filter_cons, c, if_true, smRising, Bool.and_eq_true, decide_eq_true_eq]; exact ⟨h.1, ih h.2⟩
    · simp only [List.filter_cons, c]; exact smRising_mono (ih h.2) (by omega)

theorem smErase_eq_filter {α : Type} (m : SMap α) (n : Nat) : smErase m n = m.filter (fun e => decide (e.1 ≠ n)) := by
  induction m with
  | nil => rfl
  | cons p r ih =>
    obtain ⟨k, v⟩ := p
    by_cases h : k = n <;> simp [smErase, h, ih]

theorem smRising_smErase {α : Type} {lo n : Nat} {m : SMap α} (h : smRising lo m = true) : smRising lo (smErase m n) = true := by
  rw [smErase_eq_filter]; exact smRising_filter _ h

theorem smWf_filter {α : Type} [DecidableEq α] {d : α} {m : SMap α} (p : Nat × α → Bool) (h : smWf d m = true) :
    smWf d (m.filter p) = true := by
  simp only [smWf, Bool.and_eq_true, List.all_eq_true] at *
  exact ⟨smRising_filter p h.1, fun e he => h.2 e (List.mem_of_mem_filter he)⟩

theorem mem_smSet {α : Type} {n : Nat} {x : α} {m : SMap α} {e : Nat × α} (h : e ∈ smSet m n x) : e = (n, x) ∨ e ∈ m := by
  induction m with
  | nil => simpa [smSet] using h
  | cons p r ih =>
    obtain ⟨k, v⟩ := p
    simp only [smSet] at h
    split at h
    · simp only [List.mem_cons] at *; tauto
    · split at h
      · simp only [List.mem_cons] at *; tauto
      · simp only [List.mem_cons] at *
        rcases h with h | h
        · tauto
        · rcases ih h with h | h <;> tauto

theorem smWf_smPut {α : Type} [DecidableEq α] {d x : α} {n : Nat} {m : SMap α} (h : smWf d m = true) :
    smWf d (smPut d m n x) = true := by
  unfold smPut
  split
  · rw [smErase_eq_filter]; exact smWf_filter _ h
  · rename_i ne
    simp only [smWf, Bool.and_eq_true, List.all_eq_true] at *
    refine ⟨smRising_smSet h.1 (by omega), fun e he => ?_⟩
    rcases mem_smSet he with rfl | he
    · simpa using ne
    · exact h.2 e he

/-- A store reads as its default below its first key. -/
theorem smGet_below {α : Type} {d : α} {lo k : Nat} {m : SMap α} (h : smRising lo m = true) (lt : k < lo) : smGet d m k = d := by
  induction m generalizing lo with
  | nil => rfl
  | cons p r ih =>
    obtain ⟨q, v⟩ := p
    simp only [smRising, Bool.and_eq_true, decide_eq_true_eq] at h
    simp only [smGet]
    rw [if_neg (by omega)]
    exact ih h.2 (by omega)

/-- Two stores in the canonical form that read the same are the same data. -/
theorem sm_ext {α : Type} [DecidableEq α] {d : α} {lo : Nat} {m n : SMap α}
    (hm : smRising lo m = true ∧ m.all (fun e => decide (e.2 ≠ d)) = true)
    (hn : smRising lo n = true ∧ n.all (fun e => decide (e.2 ≠ d)) = true) (h : ∀ k, smGet d m k = smGet d n k) : m = n := by
  induction m generalizing lo n with
  | nil =>
    cases n with
    | nil => rfl
    | cons p r =>
      obtain ⟨k, v⟩ := p
      have := h k
      simp_all [smGet]
  | cons p r ih =>
    obtain ⟨k, v⟩ := p
    cases n with
    | nil =>
      have := h k
      simp_all [smGet]
    | cons q t =>
      obtain ⟨j, u⟩ := q
      simp only [smRising, List.all_cons, Bool.and_eq_true, decide_eq_true_eq] at hm hn
      have kj : k = j := by
        rcases Nat.lt_trichotomy k j with lt | eq | lt
        · have e := h k
          rw [smGet_below (lo := j) (m := (j, u) :: t) (by simp [smRising, hn.1.2]) lt] at e
          simp [smGet] at e
          exact absurd e hm.2.1
        · exact eq
        · have e := h j
          rw [smGet_below (lo := k) (m := (k, v) :: r) (by simp [smRising, hm.1.2]) lt] at e
          simp [smGet] at e
          exact absurd e.symm hn.2.1
      subst kj
      have vu : v = u := by simpa [smGet] using h k
      subst vu
      congr 1
      refine ih ⟨hm.1.2, hm.2.2⟩ ⟨hn.1.2, hn.2.2⟩ fun i => ?_
      by_cases ki : k = i
      · subst ki; rw [smGet_below hm.1.2 (by omega), smGet_below hn.1.2 (by omega)]
      · have e := h i; simpa [smGet, ki] using e

end Sys2Proof.Machine
end

