-- ==== Sys2Proof/Laws/Access.lean ====
section
/-!
SUPPORT. Reading a core, a control register, a queue or an engine after writing one.
-/
namespace Sys2Proof.Machine

@[simp] theorem State.core_setCore (s : State) (k j : Nat) (c : Core) : (s.setCore k c).core j = if k = j then c else s.core j :=
  smGet_smSet _ _ _ _ _
@[simp] theorem State.core_modCore (s : State) (k j : Nat) (f : Core → Core) :
    (s.modCore k f).core j = if k = j then f (s.core k) else s.core j := smGet_smSet _ _ _ _ _
theorem State.core_modCore_self (s : State) (k : Nat) (f : Core → Core) : (s.modCore k f).core k = f (s.core k) := by simp
theorem State.core_modCore_other (s : State) {k j : Nat} (f : Core → Core) (h : k ≠ j) : (s.modCore k f).core j = s.core j := by simp [h]
@[simp] theorem State.ctlGet_ctlSet (s : State) (o p : Nat) (v : Reg32) : (s.ctlSet o v).ctlGet p = if o = p then v else s.ctlGet p := by
  simp only [State.ctlGet, State.ctlSet, smPut]
  by_cases h : o = p
  · subst h
    by_cases e : v = resetVal o
    · simp [e, smFind?_smErase]
    · simp [e, smFind?_smSet]
  · by_cases e : v = resetVal o
    · simp [e, h, smFind?_smErase]
    · simp [e, h, smFind?_smSet]
@[simp] theorem State.queue_setQueue (s : State) (q p : Nat) (x : Queue) : (s.setQueue q x).queue p = if q = p then x else s.queue p :=
  smGet_smPut _ _ _ _ _
@[simp] theorem State.engine_setEngine (s : State) (e p : Nat) (x : Engine) : (s.setEngine e x).engine p = if e = p then x else s.engine p :=
  smGet_smPut _ _ _ _ _
@[simp] theorem State.cmpState_setCmpState (s : State) (n p : Nat) (c : CmpState) :
    (s.setCmpState n c).cmpState p = if n = p then c else s.cmpState p := smGet_smPut _ _ _ _ _

end Sys2Proof.Machine
end

