-- ==== Sys2Proof/Laws/Issue.lean ====
section
/-!
SUPPORT. What a command of a core's instruction answers: once its word issues, what its body says. These are what the statements of
the compute instructions go through.
-/
namespace Sys2Proof.Machine

/-- A word that issues: the outcome is its body's. -/
theorem issueT_of_issues {s s1 : State} {x : At} {w target : Word} {spells : Bool} {body : State → Res}
    (h : Issues s x w target s1) (ok : spells = true) :
    s.issueT x w target spells body = .next (State.finish x.core x.slot w (body s1)) := by
  simp only [Issues] at h
  simp [State.issueT, ok, h]

theorem issue_of_issues {s s1 : State} {x : At} {w : Word} {spells : Bool} {body : State → Res}
    (h : Issues s x w 0 s1) (ok : spells = true) : s.issue x w spells body = .next (State.finish x.core x.slot w (body s1)) :=
  issueT_of_issues h ok

/-- The command of an instruction always answers a next state. -/
theorem issueT_next (s : State) (x : At) (w target : Word) (spells : Bool) (body : State → Res) :
    ∃ t, s.issueT x w target spells body = .next t := by
  unfold State.issueT
  split
  · exact ⟨_, rfl⟩
  · split <;> exact ⟨_, rfl⟩

theorem issue_next (s : State) (x : At) (w : Word) (spells : Bool) (body : State → Res) :
    ∃ t, s.issue x w spells body = .next t := issueT_next s x w 0 spells body

/-- A body that only reads and writes registers retires with its writes. -/
theorem issue_compute {s s1 : State} {x : At} {w : Word} {spells : Bool} {f : Core → Effs}
    (h : Issues s x w 0 s1) (ok : spells = true) :
    s.issue x w spells (compute x.core f) = .next (s1.retire x.core x.slot w (f (s1.core x.core)) .fall) :=
  issue_of_issues h ok

@[simp] theorem finish_done (k : Nat) (slot : Slot) (w : Word) (s : State) (es : Effs) (n : Next) :
    State.finish k slot w (.done s es n) = s.retire k slot w es n := rfl
@[simp] theorem finish_trap (k : Nat) (slot : Slot) (w : Word) (s : State) (e : Exc) :
    State.finish k slot w (.trap s e) = s.trap k slot e := rfl
@[simp] theorem finish_hold (k : Nat) (slot : Slot) (w : Word) (s : State) : State.finish k slot w (.hold s) = s := rfl

/-! ## A core that replays nothing -/

/-- No record is taken. -/
theorem mftNext_live {s : State} {k : Nat} (h : s.replaying k = false) : s.mftNext k = none := by simp [State.mftNext, h]
theorem landRecorded_live {s : State} {k : Nat} (h : s.replaying k = false) (n : Nat) : s.landRecorded k n = s := by
  cases n <;> simp [State.landRecorded, mftNext_live h]
/-- Long operations land in their cycle, and nowhere else. -/
theorem landRest_live {s : State} {k : Nat} (h : s.replaying k = false) : s.landRest k = s := by simp [State.landRest, h]
theorem landForRoom_live {s : State} {k : Nat} (h : s.replaying k = false) : s.landForRoom k = s := by simp [State.landForRoom, h]
theorem landLong_live {s : State} {k : Nat} (h : s.replaying k = false) : s.landLong k = (s.modCore k Core.landDivDue).landXDue k := by
  simp [State.landLong, h]

/-! ## The holds of a group (Table 7-3) -/

/-- A group is held for the merging buffer, or for the context of an X word; nothing but the core changes. -/
theorem groupHold_cases {s t : State} {k : Nat} {ws : List Word} (h : s.groupHold k ws = some t) :
    (t = s.modCore k (fun c => { c.drainAll with held := true }) ∧ (s.core k).mb ≠ [] ∧ ∃ w ∈ ws, s.ordersStores k w = true) ∨
    ∃ ctx, t = s.modCore k (fun c => { c with held := true, present := some ctx }) ∧ ∃ w ∈ ws, s.xWaits k w = some ctx := by
  unfold State.groupHold at h
  split at h
  · rename_i hd
    simp only [Bool.and_eq_true, List.any_eq_true, Bool.not_eq_true', List.isEmpty_eq_false_iff] at hd
    exact .inl ⟨by simpa using h.symm, hd.1, hd.2⟩
  · split at h
    · rename_i ctx e
      obtain ⟨w, hw, hx⟩ := List.exists_of_findSome?_eq_some e
      exact .inr ⟨ctx, by simpa using h.symm, w, hw, hx⟩
    · simp at h

/-- The buffer that is asked to drain holds the entries it held. -/
theorem mbAsk_lines (p : MbEntry → Bool) (mb : List MbEntry) : (mbAsk p mb).map (·.line) = mb.map (·.line) := by
  have start : ∀ (l : List MbEntry) (older : List Nat), (mbStart older l).map (·.line) = l.map (·.line) := by
    intro l
    induction l with
    | nil => intro older; rfl
    | cons e r ih => intro older; simp [mbStart, ih]
  rw [mbAsk, start, List.map_map]
  exact List.map_congr_left fun e _ => by simp only [Function.comp]; split <;> rfl

end Sys2Proof.Machine
end

