-- ==== Sys2Proof/Laws/Memory.lean ====
section
/-!
SUPPORT. Memory: what a byte reads as after a write, and every operation on memory keeps the canonical form.
-/
namespace Sys2Proof.Machine

theorem foldl_keeps {α β : Type} {p : β → Prop} {f : β → α → β} (h : ∀ b a, p b → p (f b a)) (l : List α) (b : β) (hb : p b) :
    p (l.foldl f b) := by
  induction l generalizing b with
  | nil => exact hb
  | cons a r ih => exact ih _ (h b a hb)

/-! ## Reading after writing (R88) -/

theorem Mem.byte_setByte (m : Mem) (pa q : Nat) (b : Byte) : (m.setByte pa b).byte q = if pa = q then b else m.byte q := by
  unfold Mem.setByte Mem.byte
  by_cases c : isClearing pa = true
  · simp only [c, if_true]
    by_cases d : isClearing q = true
    · simp only [d, if_true, smGet_smPut]
    · have : pa ≠ q := by rintro rfl; exact d c
      simp [d, this, Mem.dramByte]
  · simp only [c]
    by_cases d : isClearing q = true
    · have : pa ≠ q := by rintro rfl; exact c d
      simp [d, this]
    · by_cases e : pa = q <;> simp [d, e, smFind?_smSet, Mem.dramByte]

theorem Mem.byte_write (m : Mem) (pa q : Nat) (bs : List Byte) :
    (m.write pa bs).byte q = if pa ≤ q ∧ q < pa + bs.length then bs.getD (q - pa) 0 else m.byte q := by
  induction bs generalizing m pa with
  | nil => simp [Mem.write]
  | cons b r ih =>
    simp only [Mem.write, ih, Mem.byte_setByte, List.length_cons]
    by_cases h : pa = q
    · subst h; rw [if_neg (by omega), if_pos rfl, if_pos (by omega)]; simp
    · by_cases g : pa + 1 ≤ q ∧ q < pa + 1 + r.length
      · have e : q - pa = (q - (pa + 1)) + 1 := by omega
        rw [if_pos g, if_pos (by omega), e, List.getD_cons_succ]
      · rw [if_neg g, if_neg h, if_neg (by omega)]

/-! ## The canonical form -/

theorem Mem.canonical_setByte {m : Mem} (h : m.Canonical) (pa : Nat) (b : Byte) : (m.setByte pa b).Canonical := by
  unfold Mem.setByte
  split
  · exact ⟨h.1, h.2.1, smWf_smPut h.2.2⟩
  · exact ⟨h.1, smRising_smSet h.2.1 (by omega), h.2.2⟩

theorem Mem.canonical_setDram {m : Mem} (h : m.Canonical) (pa : Nat) (b : Byte) : (m.setDram pa b).Canonical := by
  unfold Mem.setDram
  split
  · exact ⟨h.1, h.2.1, smWf_smPut h.2.2⟩
  · refine ⟨?_, smRising_smErase h.2.1, h.2.2⟩
    dsimp only
    split
    · exact h.1
    · exact smRising_smSet h.1 (by omega)

theorem Mem.canonical_write {m : Mem} (h : m.Canonical) (pa : Nat) (bs : List Byte) : (m.write pa bs).Canonical := by
  induction bs generalizing m pa with
  | nil => exact h
  | cons b r ih => exact ih (canonical_setByte h pa b) (pa + 1)

theorem Mem.canonical_writeDram {m : Mem} (h : m.Canonical) (pa : Nat) (bs : List Byte) : (m.writeDram pa bs).Canonical := by
  induction bs generalizing m pa with
  | nil => exact h
  | cons b r ih => exact ih (canonical_setDram h pa b) (pa + 1)

theorem Mem.canonical_setPoison {m : Mem} (h : m.Canonical) (line : Nat) (p : Bool) : (m.setPoison line p).Canonical := h

theorem Mem.canonical_flushLine {m : Mem} (h : m.Canonical) (line : Nat) : (m.flushLine line).Canonical := by
  unfold Mem.flushLine
  simp only [List.partition_eq_filter_filter]
  refine ⟨?_, smRising_filter _ h.2.1, h.2.2⟩
  dsimp only
  split
  · exact h.1
  · exact foldl_keeps (p := fun d => smRising 0 d = true) (fun d e hd => smRising_smSet hd (by omega)) _ _ h.1

theorem Mem.canonical_flushAll {m : Mem} (h : m.Canonical) : m.flushAll.Canonical :=
  ⟨foldl_keeps (p := fun d => smRising 0 d = true) (fun d e hd => by split; exacts [hd, smRising_smSet hd (by omega)]) _ _ h.1,
   rfl, h.2.2⟩

theorem Mem.canonical_dropDirty {m : Mem} (h : m.Canonical) (line : Nat) : (m.dropDirty line).Canonical :=
  ⟨h.1, smRising_filter _ h.2.1, h.2.2⟩

theorem Mem.canonical_rekey {m : Mem} (h : m.Canonical) (granule : Nat) : (m.rekey granule).Canonical :=
  ⟨smRising_filter _ h.1, smRising_filter _ h.2.1, h.2.2⟩

theorem Mem.canonical_rekeyAll {m : Mem} (h : m.Canonical) (kept : Nat → Bool) (l : List Nat) : (m.rekeyAll kept l).Canonical :=
  ⟨smRising_filter _ h.1, rfl, h.2.2⟩

theorem Mem.canonical_blurWords {m : Mem} (h : m.Canonical) (line : Nat) (bad : List Nat) : (m.blurWords line bad).Canonical :=
  ⟨smRising_filter _ h.1, h.2.1, h.2.2⟩

/-- A Clearing loses the bytes of its reclaimed ways. -/
theorem Mem.canonical_dropWays {m : Mem} (h : m.Canonical) (keep : Nat × Byte → Bool) : ({ m with clr := m.clr.filter keep } : Mem).Canonical :=
  ⟨h.1, h.2.1, smWf_filter _ h.2.2⟩

end Sys2Proof.Machine
end

