-- ==== Sys2Proof/Laws/Registers.lean ====
section
/-!
SUPPORT. Registers: what they read as after a landing, and what a landing leaves alone (R94, R181).
-/
namespace Sys2Proof.Machine

theorem Core.reg_setReg (c : Core) (r q : Nat) (v : Word) (h : c.opW = none) :
    (c.setReg r v).reg q = if r = q ∧ r ≠ 0 then v else c.reg q := by
  by_cases z : r = 0
  · subst z; simp [Core.setReg]
  · simp only [Core.setReg, z, if_false, Core.reg, h]
    by_cases e : r = q
    · subst e; simp [z, smGet_smPut]
    · simp [e, smGet_smPut]

@[simp] theorem setFl_get (fl : BitVec 5) (i j : Nat) (b : Bool) (hi : i < 5) (hj : j < 5) :
    (setFl fl i b).getLsbD j = if i = j then b else fl.getLsbD j := by
  have h1 : i = 0 ∨ i = 1 ∨ i = 2 ∨ i = 3 ∨ i = 4 := by omega
  have h2 : j = 0 ∨ j = 1 ∨ j = 2 ∨ j = 3 ∨ j = 4 := by omega
  rcases h1 with rfl | rfl | rfl | rfl | rfl <;> rcases h2 with rfl | rfl | rfl | rfl | rfl <;> cases b <;> revert fl <;> decide

/-- What no landing changes: the CS registers but CS.FPCSR, the caches, and the bookkeeping of the pipeline. -/
theorem Core.land_frame (c : Core) (l : Land) :
    let d := c.land l
    d.run = c.run ∧ d.opW = c.opW ∧ d.acNew = c.acNew ∧ d.pc = c.pc ∧ d.status = c.status ∧ d.faultword = c.faultword ∧ d.epc = c.epc ∧
    d.estatus = c.estatus ∧ d.ecause = c.ecause ∧ d.eaddr = c.eaddr ∧ d.vbase = c.vbase ∧ d.scratch = c.scratch ∧ d.segtab = c.segtab ∧
    d.ptbase = c.ptbase ∧ d.asid = c.asid ∧ d.imask = c.imask ∧ d.savedrc = c.savedrc ∧ d.pcyc = c.pcyc ∧ d.ccyc = c.ccyc ∧
    d.t0 = c.t0 ∧ d.seq = c.seq ∧ d.pend = c.pend ∧ d.div = c.div ∧ d.divFree = c.divFree ∧ d.xops = c.xops ∧ d.faults = c.faults ∧
    d.mce = c.mce ∧ d.rep = c.rep ∧ d.pair = c.pair ∧ d.freeze = c.freeze ∧ d.reservation = c.reservation ∧ d.mb = c.mb ∧
    d.l1d = c.l1d ∧ d.l1i = c.l1i ∧ d.lbuf = c.lbuf ∧ d.itlb = c.itlb ∧ d.dtlb = c.dtlb ∧ d.l2tlb = c.l2tlb ∧ d.lim = c.lim ∧ d.ldm = c.ldm := by
  cases l <;> simp only [Core.land, Core.setReg, Core.orFp] <;> (try split) <;> simp

/-- The registers that a landing of another register leaves alone. -/
theorem Core.land_other_reg (c : Core) (l : Land) (q : Nat) (h : c.opW = none) (hl : ∀ v, l ≠ .w q v) : (c.land l).reg q = c.reg q := by
  cases l with
  | w r v =>
    have : r ≠ q := by rintro rfl; exact hl v rfl
    rw [Core.land, Core.reg_setReg c r q v h, if_neg (by tauto)]
  | _ => rfl

/-- W0 reads as zero. -/
@[simp] theorem Core.reg_zero (c : Core) : c.reg 0 = 0 := by simp [Core.reg]

end Sys2Proof.Machine
end

