-- ==== Sys2Proof/WellFormed.lean ====
section
/-!
DEFINITION. Well-formed commands: every operand that names a unit of the package names one that there can be (R13 to R18, Table 0-2).
A command that is not well formed changes nothing, or what its meaning says (log entry 1).
-/
namespace Sys2Proof

def At.ok (x : At) : Bool := decide (x.core < 240)
def Agent.ok : Agent → Bool
  | .core k => decide (k < 240)
  | .understorey g => decide (g < 12)
  | .engine e => decide (e < 64)
def Sender.ok : Sender → Bool
  | .core k => decide (k < 240)
  | .host => true
/-- Every entry is an octet. -/
def octetsOk (l : List Nat) : Bool := l.all (fun o => decide (o < 256))

/-- The operands are in range: cores below 240, Groves below 12, compartments below 32, engines below 64, doorbell numbers below 65,536,
network ports below 16, coherence ports below 14, Crossing ports below 2, functions below 33, lines below 2^36. -/
def Instr.wellFormed : Instr → Bool
  | .add x _ | .sub x _ | .addc x _ | .subc x _ | .and x _ | .or x _ | .xor x _ | .andn x _ | .shl x _ | .shr x _ | .sar x _
  | .rol x _ | .shli x _ | .shri x _ | .sari x _ | .roli x _ | .cmp x _ | .slt x _ | .sltu x _ | .min x _ | .max x _
  | .minu x _ | .maxu x _ | .abs x _ | .neg x _ | .adds x _ | .subs x _ | .clz x _ | .popc x _ | .rdrc x _ | .rdfl x _
  | .wrrc x _ | .wrfl x _ | .addi x _ | .andi x _ | .ori x _ | .xori x _ | .ldhi x _ | .cmpi x _ | .slti x _ | .sltiu x _
  | .addd x _ | .subd x _ | .addcd x _ | .subcd x _ | .shld x _ | .shrd x _ | .sard x _ | .cmpd x _ | .movd x _ | .negd x _
  | .packh x _ | .exth x _ | .exths x _ | .extb x _ | .extbs x _ | .insh x _ | .insb x _ | .mul x _ | .mulh x _ | .mulhu x _
  | .muld x _ | .muldu x _ | .mulq x _ | .div x _ | .divu x _ | .rem x _ | .remu x _ | .divd x _ | .divdu x _ | .remd x _
  | .remdu x _ | .ladd x _ | .lsub x _ | .ladds x _ | .lsubs x _ | .lmul x _ | .lmax x _ | .lmin x _ | .labs x _ | .lshl x _
  | .lsar x _ | .lcmpeq x _ | .lcmplt x _ | .macH4 x _ | .msuH4 x _ | .maczH4 x _ | .macW x _ | .msuW x _ | .maczW x _
  | .acclr x _ | .acwr x _ | .acadd x _ | .acsar x _ | .acrd x _ | .acrds x _ | .acrdd x _ | .acrdx x _ | .acwrx x _
  | .fadd x _ | .fsub x _ | .fmul x _ | .fdiv x _ | .fsqrt x _ | .fma x _ | .fms x _ | .fnma x _ | .fmin x _ | .fmax x _
  | .fabs x _ | .fneg x _ | .fcmp x _ | .fclass x _ | .fsgnj x _ | .cvt36W x _ | .cvt36Wu x _ | .cvtW36 x _ | .cvtWu36 x _
  | .cvtW36Z x _ | .cvt36B32 x _ | .cvtB3236 x _ | .cvt3672 x _ | .cvt72D x _ | .cvt72Du x _ | .cvtD72 x _ | .cvtDu72 x _
  | .cvtD72Z x _ | .cvt72B64 x _ | .cvtB6472 x _ | .cvt7236 x _ | .ldb x _ | .ldbs x _ | .ldh x _ | .ldhs x _ | .ldw x _
  | .ldd x _ | .stb x _ | .sth x _ | .stw x _ | .std x _ | .ldsg x _ | .stsg x _ | .pref x _ | .lr x _ | .sc x _ | .tas x _
  | .br x _ | .call x _ | .jrl x _ | .rpt x _ _ | .rptu x _ _ | .csrr x _ | .csrw x _ | .csrx x _ | .syscall x _ | .brk x _
  | .eret x _ | .lwait x _ | .fenceL x _ | .fenceS x _ | .fenceA x _ | .ifence x _ | .tlbiByAddress x _ | .tlbiByAsid x _
  | .tlbiAll x _ | .tsync x _ | .cmoClean x _ | .cmoInvalidate x _ | .cmoCleanAndInvalidate x _ | .wait x _ | .xOperation x _
  | .undefinedEncoding x _ _ => x.ok
  | .ifenceBroadcastArrival src core => decide (src < 240) && decide (core < 240)
  | .tlbiBroadcastArrival src dst => decide (src < 240) && dst.ok
  | .interruptEntry core | .long core | .longOperationLanding core | .loadMissFill core _ _ _ | .ftModeChange core
  | .ustLanding core _ | .ustDiscard core | .timer core | .ipiSet core | .machineCheckAsync core _
  | .reservationDeferralEnd core | .teventRead core | .chunkLimit core | .cdbgHalt _ core _ | .cdbgRun _ core
  | .cdbgStep _ core | .cdbgAgo _ core => decide (core < 240)
  | .fetchLineFill core la _ => decide (core < 240) && decide (la < 2 ^ 36)
  | .mbIdleTimeout core line | .drainAccept core line _ _ => decide (core < 240) && decide (line < 2 ^ 36)
  | .ustAccept grove ctx slot => decide (grove < 12) && decide (ctx < 32) && decide (slot < 20)
  | .rangeClean who _ grove _ _ | .rangeInvalidate who _ grove _ _ | .rangeCleanAndInvalidate who _ grove _ _
  | .rangeAbort who _ grove _ => who.ok && decide (grove < 12)
  | .rangeEngineLine _ grove _ | .groveReset grove _ | .avsTargetSet grove _ => decide (grove < 12)
  | .rds port line | .rdx port line | .upg port line | .rdcur port line | .wrinv port line _ | .wb port line _ _
  | .evc port line | .ackMsg port line | .cmpMessage port line => decide (port < 14) && decide (line < 2 ^ 36)
  | .fwds holder line _ | .fwdx holder line _ | .fwdc holder line _ | .invMsg holder line | .binv holder line _ => decide (holder < 14) && decide (line < 2 ^ 36)
  | .dataMsg port line st bytes => decide (port < 14) && decide (line < 2 ^ 36) && decide (st < 5) && (bytes.isEmpty || bytes.length == 64)
  | .mrd line _ _ | .mwr line => decide (line < 2 ^ 36)
  | .stateSetSwitch _ | .apply _ | .stop _ | .partnerCommitSignal | .partnerStageTimeout | .toffsetWrite _ | .vfEnableWrite _
  | .hotReset | .perstAssert | .perstDeassert | .hostLinkUp _ _ | .split | .witnessQuery | .witnessAnswer | .splitResultTimeout
  | .powerOn | .bootStep _ | .powerLoss | .resetN _ | .warmrst | .watchdogExpiry | .lockstepMismatch | .tamperRelease
  | .refclkFault _ _ _ | .pcieRefclkLoss | .park | .parkGraceExpiry | .parkAlarm | .railok _ | .raiseSvn | .lock _
  | .raiseFwsvn _ | .drbgReseed _ | .challengeRead _ | .submit _ | .close _ | .resetNRelease | .syncedChange _
  | .linkLayerRetry _ | .packageFatalError _ _ => true
  | .shaperAccept srcKind _ => decide (srcKind < 7)
  | .start who comp _ | .resume who comp | .mftStop who comp | .ridxWrite who comp _ => who.ok && decide (comp < 32)
  | .chtAbort who | .qmEnable who | .qmDisable who | .qmRearm who | .qmHalt who | .hepWcfgWrite who _ => who.ok
  | .refresh subch rank | .mr4Read subch rank _ | .zqCalibration subch rank | .dqsOscillatorRead subch rank _ => decide (subch < 16) && decide (rank < 2)
  | .writeBatch subch _ | .correctionWrite subch | .scrubRead subch _ _ | .subchannelRetrain subch _ => decide (subch < 16)
  | .initialiserLine channel _ _ => decide (channel < 8)
  | .dbRing who queue index | .dbarm who queue index => who.ok && decide (queue < 65536) && decide (index < 65536)
  | .copy engine _ | .fill engine _ | .nop engine | .descriptorReservedOp engine => decide (engine < 64)
  | .engResume who engine | .engDiscard who engine => who.ok && decide (engine < 64)
  | .messageDelivery queue | .egressDequeue queue => decide (queue < 65536)
  | .frameReceive port octs _ _ _ => decide (port < 16) && octetsOk octs
  | .transmissionSelection port | .gateEntry port | .portLinkChange port _ _ | .phyWake port => decide (port < 16)
  | .macsecInstall who port _ => who.ok && decide (port < 16)
  | .hostMemWrite fn _ octs _ | .hostCompletion fn _ _ octs _ => decide (fn < 33) && octetsOk octs
  | .hostMemRead fn _ _ _ | .hostBar0Access fn _ _ _ _ _ | .completionTimeout fn _ | .functionLevelReset fn _
  | .busMasterEnableWrite fn _ | .hdbset fn _ => decide (fn < 33)
  | .hostConfigRequest fn _ _ be => decide (fn < 33) && decide (be < 16)
  | .hepWselWrite who fn win => who.ok && decide (fn < 33) && decide (win < 256)
  | .msisend who fn _ => who.ok && decide (fn < 33)
  | .flitReceive link dir _ _ _ | .retryRequest link dir | .idleControlFlit link dir => decide (link < 38) && decide (dir < 2)
  | .ferryTrainingStep module _ _ | .halfWidth module => decide (module < 36)
  | .eyeMonitorSample module dir _ | .remap module dir _ => decide (module < 36) && decide (dir < 2)
  | .fryRetrain grove loc | .fryEnable grove loc => decide (grove < 12) && decide (loc < 4)
  | .routeChange a b => decide (a < 12) && decide (b < 12)
  | .txnTimeout line port => decide (line < 2 ^ 36) && decide (port < 14)
  | .heartbeat port | .crossingTraining port _ _ => decide (port < 2)
  | .pairJoin index _ _ _ _ _ _ => decide (index < 2)
  | .mirrorWrite port line _ => decide (port < 2) && decide (line < 2 ^ 36)
  | .takeover comp | .manifestBlockWrite comp | .arm comp | .disarm comp | .replay comp _ | .replayChunk comp _ _
  | .mirrorCopy comp => decide (comp < 32)
  | .tamper sensor => decide (sensor < 6)
  | .coreReset who core _ | .holdRelease who core => who.ok && decide (core < 240)
  | .gpioWake pin _ _ => decide (pin < 32)
  | .provision slot _ | .revoke slot _ => decide (slot < 11)
  | .ucnthRead who frame k | .ucntlRead who frame k => who.ok && decide (frame < 12) && decide (k < 8)
  | .rcRead who off | .registerWrite who off _ => who.ok && decide (off < 2 ^ 24)
  | .laneLossOfLock module dir which => decide (module < 36) && decide (dir < 2) && decide (which < 3)

end Sys2Proof
end

