-- ==== Sys2Proof/Tests/Slice0.lean ====
section
/-!
SUPPORT. Tests. The expected results of `test_…` are the worked examples of the spec, named at each test, or follow from a rule by hand.
A theorem `witness_…` shows states and operands that meet the hypotheses of each clause of a statement.
-/
open Sys2Proof Sys2Proof.Machine
set_option maxRecDepth 8000
set_option Elab.async false
namespace Sys2Proof.Machine.Tests

/-- A compartment of the test Chart. -/
def wCmp (n : Nat) : CmpSec :=
  { id := n, pow2 := false, manifest := true, steward := false, pairMode := 0, ftStart := false, resume := false, authority := 0xFFFFFFFF,
    entry := 0x1000 * n, mftBase := 0x2000000 + 0x100000 * n, mftLen := 0x10000, name := [] }
/-- Two compartments: one Grove's cores and 256 Mibyte each. -/
def wChart : Chart := { Chart.empty with
  pkg := some { pairIndex := 0, paired := false, senior := true, homeGroves := 0xFFF, witness := 0 }
  cmps := [wCmp 0, wCmp 1]
  res := [⟨1, 0, 0, 0, 20⟩, ⟨1, 1, 0, 20, 20⟩, ⟨2, 0, 0, 0, 0x10000000⟩, ⟨2, 1, 0, 0x10000000, 0x10000000⟩] }
def wRun : Core := { Core.initial 0 false with run := .running, w := [(1, 5), (2, 7)], l1i := [0, 0x10] }
/-- Run, with compartment 0 running on its cores 0 and 1, and 1 stopped. -/
def w0 : State := { State.reset with
  time := 1000000000000
  cores := [(0, wRun), (1, wRun), (20, wRun)]
  live := wChart
  cmps := [(0, .running), (1, .stopped)]
  pwr := { State.reset.pwr with phase := .run } }
def wPwr (s : State) (f : Pwr → Pwr) : State := { s with pwr := f s.pwr }
def wSec (s : State) (f : Sec → Sec) : State := { s with sec := f s.sec }
def wCtl (s : State) (l : List (Nat × Reg32)) : State := l.foldl (fun s e => s.ctlSet e.1 e.2) s
def wCore (s : State) (k : Nat) (f : Core → Core) : State := { s with cores := smSet s.cores k (f (s.core k)) }
def wMem (s : State) (f : Mem → Mem) : State := { s with mem := f s.mem }
/-- Where a word that issues does. -/
def issued (s : State) (x : At) (w t : Word) : State := match s.prepare x.core x.slot w t with | .go s1 => s1 | _ => s
def issuesB (s : State) (x : At) (w t : Word) : Bool := match s.prepare x.core x.slot w t with | .go _ => true | _ => false
/-- What the tests say with `issuesB` is the statements' `Issues`. -/
theorem issues_issued (s : State) (x : At) (w t : Word) : issuesB s x w t = true → Issues s x w t (issued s x w t) := by
  unfold issuesB Issues issued
  split <;> simp_all
def isOk {ε α : Type} : Except ε α → Bool | .ok _ => true | _ => false
def okD {ε α : Type} (d : α) : Except ε α → α | .ok a => a | _ => d
def erD {ε α : Type} (d : ε) : Except ε α → ε | .error a => a | _ => d
def ansOk {α : Type} : Ans α → Bool | .ok _ => true | _ => false
def ansOf {α : Type} (d : α) : Ans α → α | .ok a => a | _ => d
/-- 1 a fault, 2 a walk. -/
def ansKind {α : Type} : Ans α → Nat | .ok _ => 0 | .fault _ => 1 | .walk _ => 2
def acc0 : MemAcc := ⟨none, 0, 0, 0, 0, none, false, [], 0⟩
def mkw (op dst a b low : Nat) : Word := BitVec.ofNat 36 (op * 2 ^ 29 + dst * 2 ^ 23 + a * 2 ^ 17 + b * 2 ^ 11 + low)
def wX : At := ⟨0, .single⟩
def wAr (f : Core → Core) : State := wCore w0 0 (fun c => f { c with w := [(1, 5), (2, 7), (4, 0x800000000), (5, 0xFFFFFFFFF), (6, 0xFFFFFFFFF), (7, 0xFFFFFFFFF), (8, 100), (10, 3), (11, 0), (12, 0x3F8000000), (13, 0x400000000), (14, 0xBF8000001), (15, 0x7F8000000), (16, 0x7F8000001), (18, 0), (19, 0x3FF000000), (20, 0), (21, 0xC00000000), (22, 1), (23, 0x7FF000000), (24, 3), (25, 4)] })
def wF : State := wCtl w0 [(o_secProvdata 0, 77), (o_secProvdata 23, 5)]
def wD : State := wCtl w0 [(o_dbgReq, 0x40000000), (o_dbgReqmask, 3)]
def wG : State := wCtl w0 [(o_dbgStatus, 0x80000000), (cdbgOff 0 0x10, 1), (cdbgOff 20 0x10, 2)]
def wB (n : Nat) : State := wPwr w0 (fun p => { p with phase := .boot, step := n })
def wP (f : Phase) : State := wPwr w0 (fun p => { p with phase := f })
def wNet : State := wCtl { w0 with nettime := [0, 5, 20], live := { wChart with res := wChart.res ++ [⟨5, 0, 0, 7, 2⟩] }, net := { Net.reset with ports := [(0, { NetPort.reset with list := [⟨1, 1, 100⟩, ⟨2, 2, 300⟩], gateEnd := 5 })] } } [(o_nswMskey 0 0, 5), (o_nswMskey 0 7, 9)]
def wHost : State := wCtl { w0 with live := { wChart with res := wChart.res ++ [⟨6, 0, 0, 0, 2⟩, ⟨6, 1, 0, 2, 1⟩] }, cores := w0.cores, hep := { Hep.reset with perst := false, ready := true, cfg := [(4096 + 4, 0x00100006), (4096 + 0x268, 0x9), (4096 + 0x270, 31)], wins := [(0, ⟨0x93000001, 16⟩), (1, ⟨0x91000001, 16⟩), (2, ⟨0xD1000000, 0⟩), (256, ⟨0xA3000000, 1⟩)] } } [(o_hepStatus, 0x40000000)]
def wUp : FryModule := { FryModule.reset with st := .full, version := 12 }
def wLinks (f : FryModule → FryModule) : State := { w0 with links := { Links.reset with modules := (List.range 36).map (fun m => (m, f wUp)), ports := [(0, { XngPort.reset with st := 2 })] } }
def wFlit (v : Nat) : BitVec 640 := BitVec.ofNat 640 (v + flitCrc v * 2 ^ 608)
def wPair : State := { wLinks id with
  live := { wChart with pkg := some { pairIndex := 1, paired := true, senior := true, homeGroves := 0xFFF, witness := 0 }, cmps := [{ wCmp 0 with pairMode := 1 }, wCmp 1], res := [⟨1, 0, 0, 0, 20⟩, ⟨2, 0, 0, 0, 128⟩] }
  links := { (wLinks id).links with pair := 2, ports := [(0, { XngPort.reset with st := 2 }), (1, { XngPort.reset with st := 2 })], heardAt := 5 } }
def wL (f : Links → Links) : State := { wPair with links := f wPair.links }
/-- An answer of the witness: the side, under epoch 3 and nonce 7. -/
def wFrame (side : Nat) : List Nat :=
  List.replicate 12 0 ++ [0x88, 0xB5] ++ [0x52, 0x47, 2, side, 0, 0, 0, 0] ++ valOct 0x1122 8 ++ valOct 3 4 ++ valOct 7 4 ++ List.replicate 16 0
def wQ : State := wCtl { wL (fun l => { l with pair := 3, peer := 0x1122, split := some { t0 := w0.time - 1000, nonces := [7], asked := 0 } }) with net := { Net.reset with keeper := [wFrame 0, [1, 2]] } } [(o_xngEpoch, 3)]
def wMft (mode : Nat) (x : MftSess) : State := wCtl { w0 with mft := [(0, x)], mftc := [(0, { chunk := 5, len := 65535, crc := 9, reads := [], writes := [], replay := [{ type := 2, agent := 0, offset := 65535, chunk := 5, data := 1, cont := [] }], ended := [] })] } [(o_mftCstate 0, r32 (mode * 2 ^ 29)), (o_mftWidx 0, 2), (o_mftRidx 0, 1)]
def wDir (d : List DirEnt) (g : List GTag) : State := wMem w0 (fun m => { m with dir := d, grove := g })
def wMsg (k : MsgKind) (held : Bool) : State :=
  wMem (wDir [⟨7, .sh, 6, false, 1⟩] (if held then [⟨1, 7, .o, 0, true, 2, 0⟩] else [])) (fun m => { m with
    msgs := [⟨k, 7, 1⟩, ⟨.inv, 9, 1⟩], l2 := if held then [⟨5, 7, .o⟩, ⟨0, 7, .s⟩] else [], dirty := if held then [(450, 3)] else [],
    txns := [⟨7, .rds, 1, true, none, [1, 2], false, true, .s, false, false, ⟨2, 0, 0, 1⟩⟩] })
/-- Every subchannel in service, refreshed at the time of `w0`. -/
def wSubs (s : State) : State :=
  ((List.range 16).foldl (fun s c => s.setSub c 1) s).modDram (fun d => { d with refAt := (List.range 32).map (fun i => (i, 1000000000000)) })
def wTxn (k : MsgKind) (t : Txn) : State := wMem (wDir [⟨7, .sh, 6, false, 1⟩] [⟨1, 7, .o, 0, true, 2, 0⟩]) (fun m => { m with msgs := [⟨k, 7, 1⟩, ⟨.inv, 9, 1⟩], txns := [t], dirty := [(450, 3)] })
def wT (k : ReqKind) (acks : List Nat) : Txn := ⟨7, k, 1, true, none, acks, false, true, .s, false, false, ⟨2, 0, 0, 1⟩⟩
/-- A line of the partner window, and a pair in span service that gives it to compartment 0; with a reservation on it that defers. -/
def wWin : Nat := 0x20000000000 / 64 + 7
def wSpan (res : Bool) : State :=
  let s := wMem w0 (fun m => { m with grove := [⟨1, wWin, .e, 0, true, 2, 0⟩] })
  let s := { s with links := { s.links with pair := 2, span := [(0, 0, 0x200000)] } }
  if res then wCore s 20 (fun c => { c with reservation := some ⟨wWin, 100⟩ }) else s
def wRange (r : RangeCmd) : State := wMem w0 (fun m => { m with ranges := [r], l2 := [⟨0, 7, .m⟩], dirty := [(450, 3)], grove := [⟨0, 7, .m, 0, true, 2, 0⟩], dir := [⟨7, .ex, 1, false, 0⟩] })
def wR (l3 : Bool) (lines done : Nat) : RangeCmd := ⟨0, 0, l3, 3, false, 448, lines, some 0, false, 0, 0, done, 0⟩
def wCon (rate burst spread : Nat) : Contract := { cmp := 0, srcKind := 2, hard := true, target := 0, tgtIndex := 0, srcFirst := 0, srcCount := 4, overflow := false, reroute := false, spread := spread, rrate := rate, wrate := rate, rburst := burst, wburst := burst, targetNs := 1000 }
def wReq (k item : Nat) (items : List Nat) : HeldReq := { srcKind := k, item := item, target := 0, tgtIndex := 0, write := true, items := items, line := 7 }
def wShape (c : Contract) (q : HeldReq) (b : List Bucket) : State := { w0 with live := { wChart with contracts := [c] }, held := [q], buckets := b, flight := [⟨2, 0, wReq 3 0 [], 5, 0⟩] }
def wStew : State := { w0 with live := { wChart with cmps := [{ wCmp 0 with steward := true, authority := 3 }, wCmp 1] } }
def wOp (kind : ChtKind) (step : Nat) (targets : List Nat) : ChtOp := { kind := kind, submitter := none, step := step, own := false, src := 0, len := 0, octets := [], full := false, update := { Chart.empty with cmps := [{ wCmp 1 with entry := 0x4000 }], index := [(2, 1, 0)] }, targets := targets, preHalted := [], undo := [], poisoned := [], cold := [], partner := none, go := 0 }
def wCht (op : ChtOp) (st : CmpState) : State := { w0 with cht := some op, cmps := [(0, .running), (1, st)], store := some wChart }
def wQu (kind : Nat) (st : Nat) (sw dev arg other base : Nat) : Queue :=
  { regs := [(0x20, r32 (kind * 2 ^ 29 + 2 * 2 ^ 25 + 2 ^ 23)), (0x24, r32 base), (0x2C, r32 (base + 0x1000)), (0x34, r32 (other * 65536 + arg)), (0x38, 0x80000100)], st := st, cause := if st = 2 then 2 else 0, armed := false, sw := sw, dev := dev, fn := 0 }
def wQs (l : List (Nat × Queue)) : State := { w0 with live := { wChart with res := wChart.res ++ [⟨4, 0, 0, 0, 10⟩, ⟨4, 1, 0, 10, 10⟩, ⟨7, 0, 0, 0, 4⟩] }, qm := { Qm.reset with queues := l, engines := [(0, { Engine.reset with st := 1, queue := 0 })] } }
def wMail (st other dev : Nat) (m : Mem → Mem) : State := wMem (wQs [(0, wQu 3 1 5 2 1 0 0x10000), (1, wQu 4 st 3 dev 0 other 0x20000)]) m
def wDesc (op : Nat) (src dst len pat : Nat) : List Nat := [op * 2 ^ 32, 77, src, 0, dst, 0, len, pat]
def wEng (st : Nat) (d : List Nat) (done : Nat) (q : Queue) : State := { wMem (wQs [(0, q)]) (fun m => { m with dram := (List.range 100).map (fun i => (0x10000 + i, BitVec.ofNat 9 (i + 1))) }) with qm := { (wQs [(0, q)]).qm with engines := [(0, { Engine.reset with st := st, queue := 0, desc := d, done := done })] } }
/-- A NETSCHED section: one ingress rule for the destination 1 to 6 in VLAN 5, and one egress rule of stream 7. -/
def wNsec (fl stream sdu ports cir : Nat) (efl : Nat) : List Nat :=
  valOct 1 2 ++ valOct 1 2 ++ valOct 0 2 ++ valOct 5 2 ++ List.replicate 88 0 ++
  [1, 2, 3, 4, 5, 6] ++ valOct 5 2 ++ [0, fl] ++ valOct stream 2 ++ valOct sdu 2 ++ valOct ports 2 ++ valOct cir 4 ++ valOct 0 4 ++
  valOct 7 2 ++ [3, efl] ++ valOct 5 2 ++ [0, 0]
def wNt (secs : List (Nat × List Nat)) : State := wCtl { wQs [] with live := { (wQs []).live with nets := secs, res := (wQs []).live.res ++ [⟨5, 0, 0, 7, 2⟩] } } [(o_nswPortstat 0, 0x40000000), (o_nswPortstat 1, 0x40000000)]
def wFr (d : Nat) : List Nat := [d, 2, 3, 4, 5, 6] ++ List.replicate 60 9
def wOut (efl len : Nat) : State :=
  { wMem (wNt [(0, wNsec 0 0xFFFF 0 2 0 efl)]) (fun m => { m with dram := [(0x10000, 0), (0x10001, 0x80), (0x10002, 1), (0x10003, 0), (0x10004, 0), (0x10005, 0), (0x10006, 0), (0x10007, 0), (0x10008, BitVec.ofNat 9 len), (0x10009, 0), (0x1000A, 0), (0x1000B, 0)] })
    with qm := { Qm.reset with queues := [(0, { wQu 6 1 5 4 0 7 0x10000 with regs := (0x20, 0xC8800000) :: (wQu 6 1 5 4 0 7 0x10000).regs.drop 1, sw := 1, dev := 0 })] } }
/-- The same queue with its entries packed or dense. -/
def wOutAs (dense : Bool) : State :=
  let s := wOut 0 100
  { s with qm := { s.qm with queues := s.qm.queues.map (fun e => (e.1, { e.2 with regs := e.2.regs.map (fun r =>
    if r.1 = 0x20 then (r.1, if dense then r.2 ^^^ 0x00800000 ^^^ 0x01000000 else r.2) else r) })) } }
def wTx (q : SMap (List NetFrame)) : State := { wNt [] with net := { Net.reset with ports := [(0, { NetPort.reset with queues := q })] } }

def wSg (mode : BitVec 2) (limit : Word) (u wr r v : Bool) : Core := { wRun with sg := [(3, ⟨0x10010, limit, mode, u, wr, r, v⟩)], w := [(1, 0x40), (2, 0xFFFFFFFFF), (3, 33)] }
def wM (f : Core → Core) : State :=
  let s : State := wCore { w0 with mem := { w0.mem with dram := (List.range 200).map (fun i => (0x1000 + i, BitVec.ofNat 9 (37 * i + 5))) } } 0 (fun c => f { c with
    w := [(1, 0x1000), (2, 0x1041), (3, 0x2000), (4, 0x100000042), (5, 0x103C), (6, 0xFFFFFFFFF), (10, 0x123456789), (11, 0xFEDCBA987), (12, 0x0F0F0F0F0), (13, 1)]
    sg := [(0, SegDesc.whole), (1, ⟨0x100, 0x2000, 0, false, false, true, true⟩), (2, ⟨0x1000, 63, 1, false, true, true, true⟩), (3, ⟨0x1000, 0xFFF, 0, true, true, true, true⟩), (4, ⟨0x1000, 0xFFF, 0, false, true, false, true⟩)]
    l1d := [0x40, 0x41], pc := 0x400 })
  (s.gainOwn 0 0x40).gainOwn 0 0x41
def wU (s : State) : State := wCore s 0 (fun c => { c with status := c.status ||| 1 })
def mM (op dst a seg upd : Nat) (disp : Int) : Word := BitVec.ofNat 36 (op * 2 ^ 29 + dst * 2 ^ 23 + a * 2 ^ 17 + seg * 2 ^ 14 + upd * 2 ^ 12 + (disp % 4096).toNat)
def mb1 : MbEntry := ⟨0x40, [(0, 0x55), (1, 0x66), (2, 0x77), (3, 0x88)], false, false, 0, 0⟩
def segBytes (d : SegDesc) : List (Nat × Byte) := (List.range 4).flatMap (fun i => (List.range 4).map (fun j => (0x1000 + 4 * i + j, ((d.image i) >>> (9 * j)).setWidth 9)))
def wSeg (d : SegDesc) (f : Core → Core) : State := wMem (wM f) (fun m => { m with dram := segBytes d })
def aL : MemAcc := { acc0 with pa := 0x2000, la := 0x2000 }
def wFz (w : Word) (f : Core → Core) : State := wSubs <| wM (fun c => f { c with freeze := some ⟨.miss 0x80, .single, w, some aL⟩ })
def xc (cmp : Option Nat) (user : Bool) : XCtx := { (w0.coreCtx 0) with cmp := cmp, user := user }
def leaf (p flags : Nat) : DWord := BitVec.ofNat 72 (p * 4096 + flags)
def wTab (es : List (Nat × BitVec 72)) : State := wMem w0 (fun m => { m with dram := es.flatMap (fun e => (List.range 8).map (fun j => (e.1 + j, BitVec.ofNat 9 (e.2.toNat / 2 ^ (9 * j))))) })
def brW (op cond disp : Nat) : Word := BitVec.ofNat 36 (op * 2 ^ 29 + cond * 2 ^ 25 + disp)
def rp : Rep := ⟨0x400, mkw 35 0 0 0 5, mkw 1 20 1 2 0, false⟩
def wCs (f : Core → Core) : State := wM (fun c => f { c with status := 0x80, fpcsr := 0x123, faultword := 0xABCDE, epc := 0x404, estatus := 3, ecause := 0x13, eaddr := 0x123456789ABC, vbase := 0x10400, scratch := [(0, 1), (1, 2), (3, 0xFFF)], segtab := 0x7000, ptbase := 9, asid := 5, imask := 0xFFF, savedrc := 44, ccyc := 500 })
def te (page size asid : Nat) (g : Bool) : TlbEntry := ⟨page, size, BitVec.ofNat 72 (0x1BF + if g then 64 else 0), 1, asid⟩
def wTl : State := wM (fun c => { c with w := [(10, 0x10), (11, 5)], dtlb := [te 0x10000 12 5 false, te 0x11000 12 5 true, te 0 21 6 false], itlb := [te 0x10000 12 5 false], l2tlb := [te 0x10000 12 5 false] })
def b1 : Bcast := ⟨1, .core 0, .ifence [(0x1000, 0x2000)]⟩
def b2 : Bcast := ⟨1, .core 0, .tlbi 0 0x10⟩
def b3 : Bcast := ⟨1, .understorey 0, .tlbi 0 0x10⟩
def b4 : Bcast := ⟨1, .engine 3, .tlbi 0 0x10⟩
def ue : UstEntry := ⟨60 * 2 ^ 29, 63 * 2 ^ 29, 3, 1, 1, false, false, 5, 1, 0⟩
def wUst (f : Core → Core) : State := { wM f with
  live := { wChart with res := wChart.res ++ [⟨9, 0, 0, 0, 1⟩], usts := [⟨0, 0, 8, 1, [ue], [], []⟩] }
  usts := [(0, { Ust.reset with loaded := true })] }
def xo1 (mem : Bool) (parked : Option Nat) : XOp := { addr := 0x400, word := mkw 60 20 1 0 0, ctx := 3, latency := 5, regions := 0, mem := mem, dst := 20, dstKind := 1, operands := [], tr := false, user := false, ptbase := 0, asid := 0, cells := CellState.zero, order := 1, lines := [], reg := 0, loaded := [], outcome := .done 77 [], due := 600, seq := 4, parked := parked, dropLo := false, dropHi := false }

/-! ## Well-formed commands -/

theorem test_ill_formed_refused :
    (Instr.timer 240).wellFormed = false ∧ (Instr.add ⟨240, .single⟩ 0).wellFormed = false ∧
    (Instr.ifenceBroadcastArrival 240 0).wellFormed = false ∧ (Instr.tlbiBroadcastArrival 0 (.understorey 12)).wellFormed = false ∧
    (Instr.tlbiBroadcastArrival 0 (.engine 64)).wellFormed = false ∧ (Instr.tlbiBroadcastArrival 0 (.core 240)).wellFormed = false ∧
    (Instr.fetchLineFill 0 (2 ^ 48) ⟨0, [], []⟩).wellFormed = false ∧ (Instr.ustAccept 12 0 0).wellFormed = false ∧
    (Instr.ustAccept 0 32 0).wellFormed = false ∧ (Instr.ustAccept 0 0 20).wellFormed = false ∧ (Instr.rangeAbort (.core 240) false 0 0).wellFormed = false ∧
    (Instr.rds 14 0).wellFormed = false ∧ (Instr.fwds 14 0 []).wellFormed = false ∧ (Instr.shaperAccept 7 0).wellFormed = false ∧
    (Instr.start .host 32 false).wellFormed = false ∧ (Instr.refresh 16 0).wellFormed = false ∧ (Instr.refresh 0 2).wellFormed = false ∧
    (Instr.initialiserLine 8 [] []).wellFormed = false ∧ (Instr.dbRing .host 65536 0).wellFormed = false ∧
    (Instr.nop 64).wellFormed = false := by decide +kernel

theorem test_ill_formed_refused' :
    (Instr.frameReceive 16 [] true false 0).wellFormed = false ∧ (Instr.frameReceive 0 [256] true false 0).wellFormed = false ∧
    (Instr.hostMemWrite 33 0 [] .none).wellFormed = false ∧ (Instr.hostConfigRequest 0 0 none 16).wellFormed = false ∧
    (Instr.hepWselWrite .host 0 256).wellFormed = false ∧ (Instr.flitReceive 38 0 0 0 ⟨false, []⟩).wellFormed = false ∧
    (Instr.flitReceive 0 2 0 0 ⟨false, []⟩).wellFormed = false ∧ (Instr.halfWidth 36).wellFormed = false ∧
    (Instr.fryEnable 0 4).wellFormed = false ∧ (Instr.routeChange 12 0).wellFormed = false ∧ (Instr.heartbeat 2).wellFormed = false ∧
    (Instr.pairJoin 2 0 0 ⟨[], [], []⟩ 0 false []).wellFormed = false ∧ (Instr.gpioWake 32 true 0).wellFormed = false ∧
    (Instr.provision 11 false).wellFormed = false ∧ (Instr.tamper 6).wellFormed = false ∧
    (Instr.laneLossOfLock 0 0 3).wellFormed = false ∧ (Instr.rcRead .host (2 ^ 24)).wellFormed = false ∧
    (Instr.ucnthRead .host 0 8).wellFormed = false ∧ (Instr.timer 239).wellFormed = true := by decide +kernel

/-! ## Encodings: Tables 4-15, 5-14 and 6-4 -/

/-- ADD W5, W6, W7; SUB.F W1, W2, W3; ADDI W10, W10, −1. -/
theorem test_words_integer :
    isFn 0o004243034000 1 0 ∧ (dstOf 0o004243034000, srcAOf 0o004243034000, srcBOf 0o004243034000) = (5, 6, 7) ∧
    isFn 0o004041016001 1 1 ∧ flagBit 0o004041016001 ∧
    opcodeOf 0o040505377777 = 8 ∧ dstOf 0o040505377777 = 10 ∧ immS 0o040505377777 = -1 := by decide +kernel

/-- LDW W8, SG2:[W9]+12; LDBS W3, SG1:[W4−2]. -/
theorem test_words_memory :
    opcodeOf 0o120404510003 = 20 ∧ (dstOf 0o120404510003, srcAOf 0o120404510003, segOf 0o120404510003) = (8, 9, 2) ∧
    updOf 0o120404510003 = 1 ∧ dispOf 0o120404510003 = 3 ∧
    opcodeOf 0o104142047776 = 17 ∧ segOf 0o104142047776 = 1 ∧ dispOf 0o104142047776 = -2 := by decide +kernel

/-- BR NE, −20; CALL LT, −64; JRL W63, W20, NE; FMS.72 W40, W42, W44; MAC.H4 AC1, W20, W22; RPTU #256; FENCE.A; TLBI by address. -/
theorem test_words_control :
    opcodeOf 0o200577777773 = 32 ∧ condOf 0o200577777773 = 2 ∧ disp25Of 0o200577777773 = -5 ∧
    condOf 0o207177777760 = 12 ∧ disp25Of 0o207177777760 = -16 ∧ opcodeOf 0o213752000002 = 34 ∧ dstOf 0o213752000002 = 63 ∧
    isFn 0o036425260006 7 6 ∧ (dstOf 0o036425260006, srcAOf 0o036425260006, srcBOf 0o036425260006) = (40, 42, 44) ∧
    isFn 0o024052130000 5 0 ∧ opcodeOf 0o220000000400 = 36 ∧ udRptWord 0o220000000400 = [] ∧
    isSys 0o240000034003 7 ∧ argOf 0o240000034003 = 3 ∧ isSys 0o240002044004 9 ∧ srcAOf 0o240002044004 = 4 := by decide +kernel

/-! ## Compute -/

/-- "Building a constant in two words": LDHI W4, 0o5_162_734, then ORI W4, W4, 0o1234. -/
theorem test_ldhi : (match execLdhi wX 0o060205162734 (wM id) with | .next t => (t.core 0).reg 4 | _ => 0) = 0o123456700000 := by
  decide +kernel
theorem test_ori :
    (match execOri wX 0o050202001234 (wM (fun c => { c with w := [(4, 0o123456700000)] })) with | .next t => (t.core 0).reg 4 | _ => 0) =
      0o123456701234 := by decide +kernel

/-- R125, R126 by hand: −2^35 + (2^36 − 1) wraps to 2^35 − 1 with C and V; a shift left by 36 leaves zero. -/
theorem test_add_wraps :
    (match execAdd wX (mkw 1 30 4 5 1024) (wAr id) with | .next t => ((t.core 0).reg 30, (t.core 0).fl) | _ => (0, 0)) =
      (0x7FFFFFFFF, 0b01100) := by decide +kernel
theorem test_shli_36 :
    (match execShli wX (mkw 1 30 5 36 12) (wAr id) with | .next t => (t.core 0).reg 30 | _ => 1) = 0 := by decide +kernel
/-- R131: a division by zero writes nothing, and leaves DIVZ with the address of the word. -/
theorem test_div_by_zero :
    (match execDiv wX (mkw 3 5 1 0 8) (wAr (fun c => { c with pc := 0x2000, l1i := [0x80] })) with
      | .next t => ((t.core 0).div.map (fun d => (d.lands, d.fault.map (fun f => (f.code, f.addr)))), (t.core 0).reg 5) | _ => ([], 0)) =
      ([([], some (8, 0x2000))], 0xFFFFFFFFF) := by decide +kernel

/-- "One addition under two rounding directions". -/
theorem test_fadd_rounding :
    f36.add 0 false false 0o177000000000 0o143000000000 = (0o177000000000, 1) ∧
    f36.add 3 false false 0o177000000000 0o143000000000 = (0o177000000001, 1) := by decide +kernel
/-- "binary32 into F36 and back". -/
theorem test_binary32 :
    b32.widenExact f36 0x3FC00000 = 0o177400000000 ∧ f36.narrow b32 0 false 0o177000000001 = (0x3F800000, 1) ∧
    f36.narrow b32 3 false 0o177000000001 = (0x3F800001, 1) := by decide +kernel

/-! ## Memory and addresses -/

/-- "Bytes and half-words of one word". -/
theorem test_byte_order : valBytes 0o123456701234 4 = [0o234, 0o701, 0o456, 0o123] := by decide +kernel
/-- "A circular buffer of ten words". -/
theorem test_modulo :
    let d : SegDesc := ⟨0x80000, 39, 1, false, true, true, true⟩
    segAdd d 4 36 4 = some 0 ∧ segAdd d 4 8 (-12) = some 36 ∧ segAdd d 4 40 (-12) = none := by decide +kernel
/-- "Bit-reversed order over eight words". -/
theorem test_bit_reversed :
    let d : SegDesc := ⟨0, 31, 2, false, true, true, true⟩
    [0, 16, 8, 24, 4, 20, 12, 28].map (fun x => segAdd d 4 x 16) = [16, 8, 24, 4, 20, 12, 28, 0].map some ∧
    [0, 16, 8, 24].map (fun x => segAdd d 8 x 16) = [16, 8, 24, 0].map some := by decide +kernel
/-- "One register, two addresses", "A Clearing address", and the core index of R16. -/
theorem test_addresses :
    ctlLoc 0xA0040 = some ⟨.dmc, 0x40, false, 0xA0040⟩ ∧ w0.region 0x3FF000A0040 = .control 0xA0040 ∧
    w0.region 0x3F500412345 = .clearing 5 6 ∧ (groveOf 151, standOf 151, slotOf 151) = (7, 7 * 5 + 2, 2 * 4 + 3) := by decide +kernel
/-- "The home of one line". -/
theorem test_home : homeOf 0xFFF (0x12345640 / 64) = 4 ∧ homeOf 0xFF7 (0x12345640 / 64) = 5 := by decide +kernel
/-- "Placing one line". -/
theorem test_dram_place :
    Board.largest.place (0x123456780 / 64) = { sc := 2, rank := 0, bg := 7, ba := 0, row := 0x91A, column := 400 } := by decide +kernel
/-- "Syndromes". -/
theorem test_syndromes :
    hsiao 0 = 0x07 ∧ hsiao 56 = 0x1F ∧ classify 0x07 = .dataBit 0 ∧ classify 0x18 = .uncorrectable := by decide +kernel

/-! ## Control -/

/-- The pair at 0x1000 and 0x1004 with CALL AL, +0x400 in the odd word. -/
theorem test_call_in_pair :
    (match execCall ⟨0, .second⟩ 0o204000000400 (wM (fun c => { c with pc := 0x1000, pair := some ⟨0o204000000400, 0, false⟩ })) with
      | .next t => ((t.core 0).pc, (t.core 0).reg 63) | _ => (0, 0)) = (0x1404, 0x1008) := by decide +kernel
/-- "One divide by zero, delivered two ways": by LWAIT, and as LONG. -/
theorem test_lwait_delivers :
    (match execLwait wX 0o240000030000 (wM (fun c => { c with pc := 0x2010, l1i := [0x80], div := [⟨[], some ⟨8, 0, 0x2000, 0⟩, c.ccyc + 16, 0⟩] })) with
      | .next t => ((t.core 0).ecause, (t.core 0).epc, (t.core 0).eaddr) | _ => (0, 0, 0)) =
      (0x200000008, 0x2010, 0x2000) := by decide +kernel
theorem test_long_delivers :
    (match execLong 0 (wM (fun c => { c with pc := 0x2050, status := 2, faults := [⟨8, 0, 0x2000, 0⟩] })) with
      | .next t => ((t.core 0).ecause, (t.core 0).epc, (t.core 0).eaddr) | _ => (0, 0, 0)) =
      (0o000002000012, 0x2050, 0x2000) := by decide +kernel
/-- R175: SYSCALL 5 saves the address of the next word. -/
theorem test_syscall :
    (match execSyscall wX 0o240000014005 (wM (fun c => { c with vbase := 0x8000 })) with
      | .next t => ((t.core 0).ecause.toNat % 2 ^ 16, (t.core 0).epc, (t.core 0).pc) | _ => (0, 0, 0)) =
      (5 * 16 + 13, 0x404, 0x8000 + 13 * 64) := by decide +kernel

/-! ## Admission -/

def exC1 : Contract :=
  { cmp := 2, srcKind := 1, hard := true, target := 0, tgtIndex := 0, srcFirst := 40, srcCount := 8, overflow := false, reroute := false
    spread := 0, rrate := 160, wrate := 80, rburst := 1, wburst := 1, targetNs := 1100 }
def exC2 : Contract := { exC1 with srcKind := 2, srcFirst := 5, srcCount := 1, rrate := 16000, wrate := 16000 }
def exC3 (rate : Nat) : Contract := { exC2 with cmp := 9, srcFirst := 6, rrate := rate, wrate := rate }
def exChart (l : List Contract) : Chart := { Chart.empty with
  pkg := some { pairIndex := 0, paired := false, senior := true, homeGroves := 0xFFF, witness := 0 }
  cmps := [wCmp 2, wCmp 9]
  res := [⟨1, 2, 0, 40, 8⟩, ⟨7, 2, 0, 5, 1⟩, ⟨7, 9, 0, 6, 1⟩, ⟨2, 2, 0, 0, 0x10000000⟩, ⟨2, 9, 0, 0x10000000, 0x10000000⟩]
  contractCmps := [2, 9]
  contracts := l }
/-- "Admitting two compartments and refusing a third": C3 at 400 and 400 lines/µs fails at DRAM subchannel 0, and at 200 and 200 passes. -/
theorem test_admission :
    w0.admission (exChart [exC1, exC2]) [] = none ∧ w0.admission (exChart [exC1, exC2, exC3 6400]) [] = some ⟨9, some (3 * 4096), none⟩ ∧
    w0.admission (exChart [exC1, exC2, exC3 3200]) [] = none := by decide +kernel
/-- The same example: TT.LOAD of the spoke of Grove 2, up, reads H = 439 per mille. -/
theorem test_load : ({ w0 with live := exChart [exC1, exC2, exC3 3200] } : State).ttLoad (4096 + 4) % 65536 = 439 := by decide +kernel

/-! ## The queue -/

/-- The table gives its rows no bits. -/
theorem test_table_word : decodeTableWord 36 0 = none ∧ State.reset.withFetchWord 36 0 = State.reset := ⟨rfl, rfl⟩
/-- Reset, then power-on: the boot begins. -/
theorem test_power_on :
    (match step { State.reset with pending := [.powerOn] } with | .next t => (t.pwr.phase, t.pending) | _ => (.off, [.powerOn])) =
      (.boot, []) := by decide +kernel

/-! ## Witnesses -/

/-- States and operands that meet the hypotheses of each clause about IntGroup of IntegerInstructions. -/
theorem witness_IntegerInstructions_IntGroup :
  (∀ p ∈ [
    (mkw 1 30 4 2 0, 0), (mkw 1 30 4 2 1, 1), (mkw 1 30 4 2 2, 2), (mkw 1 30 4 2 3, 3), (mkw 1 30 4 2 4, 4), (mkw 1 30 4 2 5, 5),
    (mkw 1 30 4 2 6, 6), (mkw 1 30 4 2 7, 7), (mkw 1 30 4 2 8, 8), (mkw 1 30 4 2 9, 9), (mkw 1 30 4 2 10, 10),
    (mkw 1 30 4 2 11, 11), (mkw 1 30 4 35 12, 12), (mkw 1 30 4 35 13, 13), (mkw 1 30 4 35 14, 14), (mkw 1 30 4 35 15, 15),
    (mkw 1 0 4 2 16, 16), (mkw 1 30 4 2 17, 17), (mkw 1 30 4 2 18, 18), (mkw 1 30 4 2 19, 19), (mkw 1 30 4 2 20, 20),
    (mkw 1 30 4 2 21, 21), (mkw 1 30 4 2 22, 22), (mkw 1 30 4 0 23, 23), (mkw 1 30 4 0 24, 24), (mkw 1 30 4 2 25, 25),
    (mkw 1 30 4 2 26, 26), (mkw 1 30 4 0 27, 27), (mkw 1 30 4 0 28, 28)], isFn p.1 1 p.2 = true ∧ issuesB (wAr id) wX p.1 0 = true) := by
  decide +kernel

/-- States and operands that meet the hypotheses of each clause about CounterAndFlagRegisters of IntegerInstructions. -/
theorem witness_IntegerInstructions_CounterAndFlagRegisters :
  (let s : State := wAr id
   let x : At := wX
   let w : Word := mkw 1 30 0 0 29
   (isFn w 1 29 ∧ srcAOf w = 0) ∧
   (issuesB s x w 0 = true)) ∧
  (let s : State := wAr id
   let x : At := wX
   let w : Word := mkw 1 30 1 0 29
   (isFn w 1 29 ∧ srcAOf w = 1) ∧
   (issuesB s x w 0 = true)) ∧
  (let s : State := wAr id
   let x : At := wX
   let w : Word := mkw 1 0 4 0 30
   (isFn w 1 30 ∧ dstOf w = 0) ∧
   (issuesB s x w 0 = true)) ∧
  (let s : State := wAr id
   let x : At := wX
   let w : Word := mkw 1 1 4 0 30
   (isFn w 1 30 ∧ dstOf w = 1) ∧
   (issuesB s x w 0 = true)) ∧
  (let w : Word := mkw 1 30 2 0 29
   (isFn w 1 29 ∧ 2 ≤ srcAOf w ∨ isFn w 1 30 ∧ 2 ≤ dstOf w)) := by
  decide +kernel

/-- States and operands that meet the hypotheses of each clause about IFormat of IntegerInstructions. -/
theorem witness_IntegerInstructions_IFormat :
  (let s : State := wAr id
   let x : At := wX
   let w : Word := mkw 8 30 4 0 5
   (opcodeOf w = 8) ∧
   (issuesB s x w 0 = true)) ∧
  (let s : State := wAr id
   let x : At := wX
   let w : Word := mkw 9 30 4 0 5
   (opcodeOf w = 9) ∧
   (issuesB s x w 0 = true)) ∧
  (let s : State := wAr id
   let x : At := wX
   let w : Word := mkw 10 30 4 0 5
   (opcodeOf w = 10) ∧
   (issuesB s x w 0 = true)) ∧
  (let s : State := wAr id
   let x : At := wX
   let w : Word := mkw 11 30 4 0 5
   (opcodeOf w = 11) ∧
   (issuesB s x w 0 = true)) ∧
  (let s : State := wAr id
   let x : At := wX
   let w : Word := mkw 12 30 4 0 5
   (opcodeOf w = 12) ∧
   (issuesB s x w 0 = true)) ∧
  (let s : State := wAr id
   let x : At := wX
   let w : Word := mkw 13 0 4 0 5
   (opcodeOf w = 13) ∧
   (issuesB s x w 0 = true)) ∧
  (let s : State := wAr id
   let x : At := wX
   let w : Word := mkw 14 30 4 0 5
   (opcodeOf w = 14) ∧
   (issuesB s x w 0 = true)) ∧
  (let s : State := wAr id
   let x : At := wX
   let w : Word := mkw 15 30 4 0 5
   (opcodeOf w = 15) ∧
   (issuesB s x w 0 = true)) := by
  decide +kernel

/-- States and operands that meet the hypotheses of each clause of WideGroup. -/
theorem witness_WideGroup :
  (∀ p ∈ [
    (mkw 2 30 4 2 0, 0), (mkw 2 30 4 2 1, 1), (mkw 2 30 4 2 2, 2), (mkw 2 30 4 2 3, 3), (mkw 2 30 4 2 4, 4), (mkw 2 30 4 2 5, 5),
    (mkw 2 30 4 2 6, 6), (mkw 2 0 4 2 7, 7), (mkw 2 30 4 0 8, 8), (mkw 2 30 4 0 9, 9), (mkw 2 30 4 2 10, 10),
    (mkw 2 30 4 0 11, 11), (mkw 2 30 4 0 12, 12), (mkw 2 30 4 2 13, 13), (mkw 2 30 4 2 14, 14)], isFn p.1 2 p.2 = true ∧ issuesB (wAr id) wX p.1 0 = true) ∧
  (let s : State := wAr id
   let x : At := wX
   let w : Word := mkw 2 30 4 0 15
   let i := srcBOf w
   (isFn w 2 15 ∧ i ≤ 1) ∧
   (issuesB s x w 0 = true)) ∧
  (let s : State := wAr id
   let x : At := wX
   let w : Word := mkw 2 30 4 2 16
   let i := srcBOf w
   (isFn w 2 16 ∧ i ≤ 3) ∧
   (issuesB s x w 0 = true)) := by
  decide +kernel

/-- States and operands that meet the hypotheses of each clause about MultiplyGroup of MultiplyAndDivide. -/
theorem witness_MultiplyAndDivide_MultiplyGroup :
  (∀ p ∈ [
    (mkw 3 30 4 2 0, 0), (mkw 3 30 4 2 1, 1), (mkw 3 30 4 2 2, 2), (mkw 3 30 4 2 3, 3), (mkw 3 30 4 2 4, 4), (mkw 3 30 4 2 5, 5)], isFn p.1 3 p.2 = true ∧ issuesB (wAr id) wX p.1 0 = true) := by
  decide +kernel

/-- States and operands that meet the hypotheses of each clause about DivideGroup of MultiplyAndDivide. -/
theorem witness_MultiplyAndDivide_DivideGroup :
  (∀ code ∈ [8, 9, 10, 11], issuesB (wAr id) wX (mkw 3 30 1 2 code) 0 = true ∧ isFn (mkw 3 30 1 2 code) 3 code) ∧
  (∀ code ∈ [12, 13, 14, 15], issuesB (wAr id) wX (mkw 3 30 4 4 code) 0 = true ∧ isFn (mkw 3 30 4 4 code) 3 code) := by
  decide +kernel

/-- States and operands that meet the hypotheses of each clause about the wait for the divide unit of MultiplyAndDivide. -/
theorem witness_MultiplyAndDivide_DivideWait :
  (wX.slot ≠ .second) ∧
  (((wAr (fun c => { c with ccyc := 20, divFree := 20 })).core 0).divFree ≤
    ((wAr (fun c => { c with ccyc := 20, divFree := 20 })).core 0).startOf .second) ∧
  (let c := (wAr (fun c => { c with ccyc := 20, divFree := 38, pair := some ⟨0, 20, false⟩ })).core 0
   c.pair = some ⟨0, 20, false⟩ ∧ c.startOf .second < c.divFree ∧ c.xops = []) := by
  decide +kernel

/-- States and operands that meet the hypotheses of each clause of LaneGroup. -/
theorem witness_LaneGroup :
  (∀ p ∈ [
    (mkw 4 30 4 2 0, 0), (mkw 4 30 4 2 1, 1), (mkw 4 30 4 2 2, 2), (mkw 4 30 4 2 3, 3), (mkw 4 30 4 2 4, 4), (mkw 4 30 4 2 5, 5),
    (mkw 4 30 4 2 6, 6), (mkw 4 30 4 0 7, 7), (mkw 4 30 4 2 8, 8), (mkw 4 30 4 2 9, 9), (mkw 4 30 4 2 10, 10),
    (mkw 4 30 4 2 11, 11)], isLane p.1 p.2 = true ∧ issuesB (wAr id) wX p.1 0 = true) := by
  decide +kernel

/-- States and operands that meet the hypotheses of each clause of MacGroup. -/
theorem witness_MacGroup :
  (∀ p ∈ [
    (mkw 5 1 4 2 0, 0), (mkw 5 1 4 2 1, 1), (mkw 5 1 4 2 2, 2), (mkw 5 1 4 2 3, 3), (mkw 5 1 4 2 4, 4), (mkw 5 1 4 2 5, 5),
    (mkw 5 2 0 0 8, 8), (mkw 5 2 0 0 9, 9), (mkw 5 2 0 0 10, 10), (mkw 5 2 0 0 11, 11), (mkw 5 2 0 0 12, 12),
    (mkw 5 2 0 0 13, 13), (mkw 5 2 0 0 14, 14), (mkw 5 2 0 0 15, 15), (mkw 5 1 4 2 16, 16)], isFn p.1 5 p.2 = true ∧ issuesB (wAr id) wX p.1 0 = true) := by
  decide +kernel

/-- States and operands that meet the hypotheses of each clause about FloatArithmetic of FloatArithmetic. -/
theorem witness_FloatArithmetic_FloatArithmetic :
  (∀ p ∈ [
    (mkw 6 30 12 13 0, 0), (mkw 6 30 12 13 1, 1), (mkw 6 30 12 13 2, 2), (mkw 6 30 12 13 5, 5), (mkw 6 30 12 13 6, 6),
    (mkw 6 30 12 13 7, 7)], isFp p.1 p.2 = true ∧ issuesB (wAr id) wX p.1 0 = true) := by
  decide +kernel

/-- States and operands that meet the hypotheses of each clause about FloatDivideAndRoot of FloatArithmetic. -/
theorem witness_FloatArithmetic_FloatDivideAndRoot :
  (let s : State := wAr id
   let x : At := wX
   let w : Word := mkw 6 30 12 13 3
   (issuesB s x w 0 = true) ∧
   (isFp w 3)) ∧
  (let s : State := wAr id
   let x : At := wX
   let w : Word := mkw 6 30 12 0 4
   (issuesB s x w 0 = true) ∧
   (isFp w 4)) := by
  decide +kernel

/-- States and operands that meet the hypotheses of each clause about FloatMinMax of FloatComparisons. -/
theorem witness_FloatComparisons_FloatMinMax :
  (let s : State := wAr id
   let x : At := wX
   let w : Word := mkw 6 30 12 18 8
   (isFp w 8) ∧ issuesB s x w 0 = true) ∧
  (let s : State := wAr id
   let x : At := wX
   let w : Word := mkw 6 30 12 18 9
   (isFp w 9) ∧ issuesB s x w 0 = true) := by
  decide +kernel

/-- States and operands that meet the hypotheses of each clause about FloatCompare of FloatComparisons. -/
theorem witness_FloatComparisons_FloatCompare :
  (let s : State := wAr id
   let x : At := wX
   let w : Word := mkw 6 0 12 13 12
   (isFp w 12) ∧ issuesB s x w 0 = true) := by
  decide +kernel

/-- States and operands that meet the hypotheses of each clause about FloatSignAndClass of FloatComparisons. -/
theorem witness_FloatComparisons_FloatSignAndClass :
  (∀ p ∈ [
    (mkw 6 30 12 0 10, 10), (mkw 6 30 12 0 11, 11), (mkw 6 30 12 18 14, 14), (mkw 6 30 12 0 13, 13)], isFp p.1 p.2 = true ∧ issuesB (wAr id) wX p.1 0 = true) := by
  decide +kernel

/-- States and operands that meet the hypotheses of each clause about FloatConversions of FloatConversions. -/
theorem witness_FloatConversions_FloatConversions :
  (∀ p ∈ [
    (mkw 6 30 12 0 16, 16), (mkw 6 30 12 0 17, 17), (mkw 6 30 12 0 18, 18), (mkw 6 30 12 0 19, 19), (mkw 6 30 12 0 20, 20),
    (mkw 6 30 12 0 21, 21), (mkw 6 30 12 0 22, 22), (mkw 6 30 12 0 23, 23)], isFn p.1 6 p.2 = true ∧ issuesB (wAr id) wX p.1 0 = true) ∧
  (∀ p ∈ [
    (mkw 7 30 12 0 16, 16), (mkw 7 30 12 0 17, 17), (mkw 7 30 12 0 18, 18), (mkw 7 30 12 0 19, 19), (mkw 7 30 12 0 20, 20),
    (mkw 7 30 12 0 21, 21), (mkw 7 30 12 0 22, 22), (mkw 7 30 12 0 23, 23)], isFn p.1 7 p.2 = true ∧ issuesB (wAr id) wX p.1 0 = true) := by
  decide +kernel

/-- States and operands that meet the hypotheses of each clause about FloatToInteger of FloatConversions. -/
theorem witness_FloatConversions_FloatToInteger :
  (let f : Fmt := f36
   let n : Nat := 36
   let a : Nat := 0x7FC000000
   ((f = f36 ∧ n = 36 ∨ f = f72 ∧ n = 72)) ∧
   (f.isNan a)) ∧
  (let f : Fmt := f36
   let n : Nat := 36
   let a : Nat := 0x7F8000000
   ((f = f36 ∧ n = 36 ∨ f = f72 ∧ n = 72)) ∧
   (f.isInf a ∧ f.sign a = false)) ∧
  (let f : Fmt := f36
   let n : Nat := 36
   let a : Nat := 0xFF8000000
   ((f = f36 ∧ n = 36 ∨ f = f72 ∧ n = 72)) ∧
   (f.isInf a ∧ f.sign a = true)) ∧
  (let f : Fmt := f36
   let n : Nat := 36
   let a : Nat := 0x3F8000000
   ((f = f36 ∧ n = 36 ∨ f = f72 ∧ n = 72)) ∧
   let v : Int := 1
   (f.isNan a = false ∧ f.isInf a = false ∧ f.IsVal a v 0)) := by
  decide +kernel

/-- States and operands that meet the hypotheses of each clause about FloatExact of FloatValues. -/
theorem witness_FloatValues_FloatExact :
  (let f : Fmt := f36
   let x : Nat := 0x3F8000000
   let y : Nat := 0x3F8000000
   let z : Nat := 0x400000000
   (f = f36 ∨ f = f72) ∧
   (f.Finite x ∧ f.Finite y ∧ f.Finite z ∧ z < 2 ^ (1 + f.eb + f.fb) ∧ f.isZero z = false) ∧
   (f.val z = f.val x + f.val y)) ∧
  (let f : Fmt := f36
   let x : Nat := 0x3F8000000
   let y : Nat := 0x400000000
   let z : Nat := 0xBF8000000
   (f = f36 ∨ f = f72) ∧
   (f.Finite x ∧ f.Finite y ∧ f.Finite z ∧ z < 2 ^ (1 + f.eb + f.fb) ∧ f.isZero z = false) ∧
   (f.val z = f.val x - f.val y)) ∧
  (let f : Fmt := f36
   let x : Nat := 0x3F8000000
   let y : Nat := 0x400000000
   let z : Nat := 0x400000000
   (f = f36 ∨ f = f72) ∧
   (f.Finite x ∧ f.Finite y ∧ f.Finite z ∧ z < 2 ^ (1 + f.eb + f.fb) ∧ f.isZero z = false) ∧
   (f.val z = f.val x * f.val y)) := by
  decide +kernel

/-- States and operands that meet the hypotheses of each clause about FloatSpecialValues of FloatValues. -/
theorem witness_FloatValues_FloatSpecialValues :
  (let f : Fmt := f36
   let x : Nat := 0x7FC000000
   let y : Nat := 0x7F8000000
   (f = f36 ∨ f = f72) ∧
   let nan := f.isNan x || f.isNan y
   (nan)) ∧
  (let f : Fmt := f36
   let x : Nat := 0x7F8000000
   let y : Nat := 0x7F8000000
   let sub : Bool := true
   (f = f36 ∨ f = f72) ∧
   let nan := f.isNan x || f.isNan y
   (¬nan ∧ f.isInf x ∧ f.isInf y ∧ (f.sign x = f.sign y ↔ sub = true))) ∧
  (let f : Fmt := f36
   let x : Nat := 0
   let y : Nat := 0x7F8000000
   (f = f36 ∨ f = f72) ∧
   let nan := f.isNan x || f.isNan y
   (¬nan ∧ (f.isInf x ∧ f.isZero y ∨ f.isZero x ∧ f.isInf y))) ∧
  (let f : Fmt := f36
   let x : Nat := 0
   let y : Nat := 0
   (f = f36 ∨ f = f72) ∧
   let nan := f.isNan x || f.isNan y
   (¬nan ∧ (f.isInf x ∧ f.isInf y ∨ f.isZero x ∧ f.isZero y))) ∧
  (let f : Fmt := f36
   let x : Nat := 0x3F8000000
   let y : Nat := 0
   (f = f36 ∨ f = f72) ∧
   (f.Finite x ∧ f.isZero x = false ∧ f.isZero y)) ∧
  (let f : Fmt := f36
   let x : Nat := 0
   let y : Nat := 0x7F8000000
   (f = f36 ∨ f = f72) ∧
   let nan := f.isNan x || f.isNan y
   (¬nan ∧ f.isZero x)) ∧
  (let f : Fmt := f36
   let x : Nat := 0xBF8000000
   let y : Nat := 0x7F8000000
   (f = f36 ∨ f = f72) ∧
   let nan := f.isNan x || f.isNan y
   (¬nan ∧ f.isZero x = false ∧ f.sign x = true)) := by
  decide +kernel

/-- States and operands that meet the hypotheses of each clause about AddressChecks of AddressChecks. -/
theorem witness_AddressChecks_AddressChecks :
  (let c : Core := wSg 0 0x100 true true true false
   let w : Word := mkw 16 4 1 0 49152
   (16 ≤ opcodeOf w ∧ opcodeOf w ≤ 28) ∧
   let d := c.seg (segOf w)
   (d.mode = 0) ∧
   (d.v = false)) ∧
  (let c : Core := wSg 0 0x100 false false true true
   let w : Word := mkw 24 4 1 0 49152
   (16 ≤ opcodeOf w ∧ opcodeOf w ≤ 28) ∧
   let kind := if 24 ≤ opcodeOf w then XKind.store else XKind.load
   let d := c.seg (segOf w)
   let refused := (kind = .load ∧ d.r = false) ∨ (kind = .store ∧ d.w = false) ∨ (c.user ∧ d.user = false)
   (d.mode = 0) ∧
   (d.v ∧ refused)) ∧
  (let c : Core := wSg 0 0x100 false true true true
   let w : Word := mkw 16 4 2 0 49152
   (16 ≤ opcodeOf w ∧ opcodeOf w ≤ 28) ∧
   let kind := if 24 ≤ opcodeOf w then XKind.store else XKind.load
   let n := if opcodeOf w = 23 then 1 else scaleOf (opcodeOf w)
   let d := c.seg (segOf w)
   let X := (c.srcA w).toNat
   let sum := (((X : Int) + dispOf w * scaleOf (opcodeOf w)) % 2 ^ 36).toNat
   let off := if updOf w = 1 then X else sum
   let refused := (kind = .load ∧ d.r = false) ∨ (kind = .store ∧ d.w = false) ∨ (c.user ∧ d.user = false)
   (d.mode = 0) ∧
   (d.v ∧ ¬refused ∧ d.limit.toNat < off + n - 1)) ∧
  (let c : Core := wSg 0 0x100 false true true true
   let w : Word := mkw 18 4 2 0 49153
   (16 ≤ opcodeOf w ∧ opcodeOf w ≤ 28) ∧
   let kind := if 24 ≤ opcodeOf w then XKind.store else XKind.load
   let n := if opcodeOf w = 23 then 1 else scaleOf (opcodeOf w)
   let d := c.seg (segOf w)
   let X := (c.srcA w).toNat
   let sum := (((X : Int) + dispOf w * scaleOf (opcodeOf w)) % 2 ^ 36).toNat
   let off := if updOf w = 1 then X else sum
   let refused := (kind = .load ∧ d.r = false) ∨ (kind = .store ∧ d.w = false) ∨ (c.user ∧ d.user = false)
   (d.mode = 0) ∧
   (d.v ∧ ¬refused ∧ off + n - 1 ≤ d.limit.toNat ∧ off % (if n = 8 then 4 else n) ≠ 0)) ∧
  (let c : Core := wSg 0 0x100 false true true true
   let w : Word := mkw 16 4 1 0 49152
   (16 ≤ opcodeOf w ∧ opcodeOf w ≤ 28) ∧
   let kind := if 24 ≤ opcodeOf w then XKind.store else XKind.load
   let n := if opcodeOf w = 23 then 1 else scaleOf (opcodeOf w)
   let d := c.seg (segOf w)
   let X := (c.srcA w).toNat
   let sum := (((X : Int) + dispOf w * scaleOf (opcodeOf w)) % 2 ^ 36).toNat
   let off := if updOf w = 1 then X else sum
   let refused := (kind = .load ∧ d.r = false) ∨ (kind = .store ∧ d.w = false) ∨ (c.user ∧ d.user = false)
   (d.mode = 0) ∧
   (d.v ∧ ¬refused ∧ off + n - 1 ≤ d.limit.toNat ∧ off % (if n = 8 then 4 else n) = 0)) := by
  decide +kernel

/-- States and operands that meet the hypotheses of each clause about ModuloOffsets of AddressChecks. -/
theorem witness_AddressChecks_ModuloOffsets :
  (let d : SegDesc := ⟨0, 7, 1, false, true, true, true⟩
   let X : Nat := 100
   (d.mode = 1) ∧
   (d.limit.toNat < X)) ∧
  (let d : SegDesc := ⟨0, 7, 1, false, true, true, true⟩
   let X : Nat := 0
   (d.mode = 1) ∧
   (X ≤ d.limit.toNat)) := by
  decide +kernel

/-- States and operands that meet the hypotheses of each clause about AccessFaults of Loads. -/
theorem witness_Loads_AccessFaults :
  (∀ op ∈ [16, 17, 18, 19, 20, 21, 22, 24, 25, 26, 27, 28, 29, 30, 31], ∀ seg ∈ [7, 0],
   let s : State := wM (fun c => if seg = 7 then c else
     { c with status := 4, itlb := [⟨0, 21, BitVec.ofNat 72 0x9F, 2, 0⟩] })
   let x : At := ⟨0, .single⟩
   let w : Word := mM op 2 3 seg 0 0
   let s1 := issued s x w 0
   (issuesB s x w 0 = true) ∧
   (ansKind (s1.resolve x.core w).2 = if seg = 7 then 1 else 2) ∧
   (opcodeOf w = op)) := by
  decide +kernel

/-- States and operands that meet the hypotheses of each clause about Loads of Loads. -/
theorem witness_Loads_Loads :
  (let s : State := wM id
   let x : At := ⟨0, .single⟩
   let w : Word := mM 16 20 1 0 0 (3)
   let s1 := issued s x w 0
   let s2 := (s1.resolve x.core w).1
   let a := ansOf acc0 (s1.resolve x.core w).2
   let n := scaleOf (opcodeOf w)
   (issuesB s x w 0 = true) ∧
   (ansOk (s1.resolve x.core w).2 = true) ∧
   (16 ≤ opcodeOf w ∧ opcodeOf w ≤ 21) ∧
   (a.device = false) ∧
   (s2.isControl a.pa = false) ∧
   (s2.need x.core .load a (a.parts n) = .ready) ∧
   (s2.poisonAt x.core a n = none) ∧
   (opcodeOf w = 16)) ∧
  (let s : State := wM id
   let x : At := ⟨0, .single⟩
   let w : Word := mM 17 20 1 0 0 (3)
   let s1 := issued s x w 0
   let s2 := (s1.resolve x.core w).1
   let a := ansOf acc0 (s1.resolve x.core w).2
   let n := scaleOf (opcodeOf w)
   (issuesB s x w 0 = true) ∧
   (ansOk (s1.resolve x.core w).2 = true) ∧
   (16 ≤ opcodeOf w ∧ opcodeOf w ≤ 21) ∧
   (a.device = false) ∧
   (s2.isControl a.pa = false) ∧
   (s2.need x.core .load a (a.parts n) = .ready) ∧
   (s2.poisonAt x.core a n = none) ∧
   (opcodeOf w = 17)) ∧
  (let s : State := wM id
   let x : At := ⟨0, .single⟩
   let w : Word := mM 18 20 1 0 0 (3)
   let s1 := issued s x w 0
   let s2 := (s1.resolve x.core w).1
   let a := ansOf acc0 (s1.resolve x.core w).2
   let n := scaleOf (opcodeOf w)
   (issuesB s x w 0 = true) ∧
   (ansOk (s1.resolve x.core w).2 = true) ∧
   (16 ≤ opcodeOf w ∧ opcodeOf w ≤ 21) ∧
   (a.device = false) ∧
   (s2.isControl a.pa = false) ∧
   (s2.need x.core .load a (a.parts n) = .ready) ∧
   (s2.poisonAt x.core a n = none) ∧
   (opcodeOf w = 18)) ∧
  (let s : State := wM id
   let x : At := ⟨0, .single⟩
   let w : Word := mM 19 20 1 0 0 (3)
   let s1 := issued s x w 0
   let s2 := (s1.resolve x.core w).1
   let a := ansOf acc0 (s1.resolve x.core w).2
   let n := scaleOf (opcodeOf w)
   (issuesB s x w 0 = true) ∧
   (ansOk (s1.resolve x.core w).2 = true) ∧
   (16 ≤ opcodeOf w ∧ opcodeOf w ≤ 21) ∧
   (a.device = false) ∧
   (s2.isControl a.pa = false) ∧
   (s2.need x.core .load a (a.parts n) = .ready) ∧
   (s2.poisonAt x.core a n = none) ∧
   (opcodeOf w = 19)) ∧
  (let s : State := wM id
   let x : At := ⟨0, .single⟩
   let w : Word := mM 20 20 1 0 0 (3)
   let s1 := issued s x w 0
   let s2 := (s1.resolve x.core w).1
   let a := ansOf acc0 (s1.resolve x.core w).2
   let n := scaleOf (opcodeOf w)
   (issuesB s x w 0 = true) ∧
   (ansOk (s1.resolve x.core w).2 = true) ∧
   (16 ≤ opcodeOf w ∧ opcodeOf w ≤ 21) ∧
   (a.device = false) ∧
   (s2.isControl a.pa = false) ∧
   (s2.need x.core .load a (a.parts n) = .ready) ∧
   (s2.poisonAt x.core a n = none) ∧
   (opcodeOf w = 20)) ∧
  (let s : State := wM id
   let x : At := ⟨0, .single⟩
   let w : Word := mM 21 20 1 0 0 (3)
   let s1 := issued s x w 0
   let s2 := (s1.resolve x.core w).1
   let a := ansOf acc0 (s1.resolve x.core w).2
   let n := scaleOf (opcodeOf w)
   (issuesB s x w 0 = true) ∧
   (ansOk (s1.resolve x.core w).2 = true) ∧
   (16 ≤ opcodeOf w ∧ opcodeOf w ≤ 21) ∧
   (a.device = false) ∧
   (s2.isControl a.pa = false) ∧
   (s2.need x.core .load a (a.parts n) = .ready) ∧
   (s2.poisonAt x.core a n = none) ∧
   (opcodeOf w = 21)) := by
  decide +kernel

/-- States and operands that meet the hypotheses of each clause about Stores of Stores. -/
theorem witness_Stores_Stores :
  (let s : State := wM id
   let x : At := ⟨0, .single⟩
   let w : Word := mM 24 10 1 0 0 (3)
   let s1 := issued s x w 0
   let s2 := (s1.resolve x.core w).1
   let a := ansOf acc0 (s1.resolve x.core w).2
   let n := scaleOf (opcodeOf w)
   let v := a.data.toNat % 2 ^ (9 * n)
   let parts := match a.hi with | none => [(a.pa, valBytes v n)] | some h => [(a.pa, valBytes (v % 2 ^ 36) 4), (h, valBytes (v / 2 ^ 36) 4)]
   let mb := (mbPutAll (s2.chunkOf x.core) (s2.core x.core).ccyc (s2.core x.core).mb parts).getD []
   (issuesB s x w 0 = true) ∧
   (ansOk (s1.resolve x.core w).2 = true) ∧
   (24 ≤ opcodeOf w ∧ opcodeOf w ≤ 27) ∧
   (a.device = false) ∧
   ((s2.core x.core).ft = false) ∧
   ((∀ p ∈ parts, s2.isCached p.1)) ∧
   (mbPutAll (s2.chunkOf x.core) (s2.core x.core).ccyc (s2.core x.core).mb parts = some mb) ∧
   (opcodeOf w = 24)) ∧
  (let s : State := wM id
   let x : At := ⟨0, .single⟩
   let w : Word := mM 25 10 1 0 0 (3)
   let s1 := issued s x w 0
   let s2 := (s1.resolve x.core w).1
   let a := ansOf acc0 (s1.resolve x.core w).2
   let n := scaleOf (opcodeOf w)
   let v := a.data.toNat % 2 ^ (9 * n)
   let parts := match a.hi with | none => [(a.pa, valBytes v n)] | some h => [(a.pa, valBytes (v % 2 ^ 36) 4), (h, valBytes (v / 2 ^ 36) 4)]
   let mb := (mbPutAll (s2.chunkOf x.core) (s2.core x.core).ccyc (s2.core x.core).mb parts).getD []
   (issuesB s x w 0 = true) ∧
   (ansOk (s1.resolve x.core w).2 = true) ∧
   (24 ≤ opcodeOf w ∧ opcodeOf w ≤ 27) ∧
   (a.device = false) ∧
   ((s2.core x.core).ft = false) ∧
   ((∀ p ∈ parts, s2.isCached p.1)) ∧
   (mbPutAll (s2.chunkOf x.core) (s2.core x.core).ccyc (s2.core x.core).mb parts = some mb) ∧
   (opcodeOf w = 25)) ∧
  (let s : State := wM id
   let x : At := ⟨0, .single⟩
   let w : Word := mM 26 10 1 0 0 (3)
   let s1 := issued s x w 0
   let s2 := (s1.resolve x.core w).1
   let a := ansOf acc0 (s1.resolve x.core w).2
   let n := scaleOf (opcodeOf w)
   let v := a.data.toNat % 2 ^ (9 * n)
   let parts := match a.hi with | none => [(a.pa, valBytes v n)] | some h => [(a.pa, valBytes (v % 2 ^ 36) 4), (h, valBytes (v / 2 ^ 36) 4)]
   let mb := (mbPutAll (s2.chunkOf x.core) (s2.core x.core).ccyc (s2.core x.core).mb parts).getD []
   (issuesB s x w 0 = true) ∧
   (ansOk (s1.resolve x.core w).2 = true) ∧
   (24 ≤ opcodeOf w ∧ opcodeOf w ≤ 27) ∧
   (a.device = false) ∧
   ((s2.core x.core).ft = false) ∧
   ((∀ p ∈ parts, s2.isCached p.1)) ∧
   (mbPutAll (s2.chunkOf x.core) (s2.core x.core).ccyc (s2.core x.core).mb parts = some mb) ∧
   (opcodeOf w = 26)) ∧
  (let s : State := wM id
   let x : At := ⟨0, .single⟩
   let w : Word := mM 27 10 1 0 0 (3)
   let s1 := issued s x w 0
   let s2 := (s1.resolve x.core w).1
   let a := ansOf acc0 (s1.resolve x.core w).2
   let n := scaleOf (opcodeOf w)
   let v := a.data.toNat % 2 ^ (9 * n)
   let parts := match a.hi with | none => [(a.pa, valBytes v n)] | some h => [(a.pa, valBytes (v % 2 ^ 36) 4), (h, valBytes (v / 2 ^ 36) 4)]
   let mb := (mbPutAll (s2.chunkOf x.core) (s2.core x.core).ccyc (s2.core x.core).mb parts).getD []
   (issuesB s x w 0 = true) ∧
   (ansOk (s1.resolve x.core w).2 = true) ∧
   (24 ≤ opcodeOf w ∧ opcodeOf w ≤ 27) ∧
   (a.device = false) ∧
   ((s2.core x.core).ft = false) ∧
   ((∀ p ∈ parts, s2.isCached p.1)) ∧
   (mbPutAll (s2.chunkOf x.core) (s2.core x.core).ccyc (s2.core x.core).mb parts = some mb) ∧
   (opcodeOf w = 27)) := by
  decide +kernel

/-- States and operands that meet the hypotheses of each clause about ReadsOwnStoresFirst of Stores. -/
theorem witness_Stores_ReadsOwnStoresFirst :
  (let s : State := wM id
   let n : Nat := 1
   let i : Nat := 0
   let a : MemAcc := { acc0 with pa := 0x1000 }
   (a.hi = none) ∧
   (s.isLocal a.pa = false) ∧
   (a.device = false) ∧
   (i < n)) := by
  decide +kernel

/-- States and operands that meet the hypotheses of each clause about StoreIsReadBack of Stores. -/
theorem witness_Stores_StoreIsReadBack :
  (let c : Core := { wRun with mb := [] }
   let pa : Nat := 0x1000
   let chunk : Nat := 0
   let now : Nat := 0
   let bs : List Byte := [1]
   (pa % 64 + bs.length ≤ 64) ∧
   (((c.mb.filter (·.line == lineOf pa)).dropLast.all (·.draining))) ∧
   let mb := (mbPut c.mb pa bs chunk now).getD []
   (mbPut c.mb pa bs chunk now = some mb)) := by
  decide +kernel

/-- States and operands that meet the hypotheses of each clause about SegmentTransfers of SegmentTransfers. -/
theorem witness_SegmentTransfers_SegmentTransfers :
  (let s : State := wM id
   let x : At := ⟨0, .single⟩
   let w : Word := mM 22 3 1 0 0 0
   let s1 := issued s x w 0
   let s2 := (s1.resolve x.core w).1
   let a := ansOf acc0 (s1.resolve x.core w).2
   (issuesB s x w 0 = true) ∧
   (ansOk (s1.resolve x.core w).2 = true) ∧
   (a.device = false) ∧
   (s2.isControl a.pa = false) ∧
   let words := fun i => BitVec.ofNat 36 (s2.readAcc x.core a 16 / 2 ^ (36 * i))
   (opcodeOf w = 22) ∧
   (s2.need x.core .load a (a.parts 16) = .ready) ∧
   (s2.poisonAt x.core a 16 = none) ∧
   (segOfImage words = none)) ∧
  (let s : State := wSeg ⟨0x100, 0x2000, 0, false, false, true, true⟩ id
   let x : At := ⟨0, .single⟩
   let w : Word := mM 22 3 1 0 0 0
   let s1 := issued s x w 0
   let s2 := (s1.resolve x.core w).1
   let a := ansOf acc0 (s1.resolve x.core w).2
   (issuesB s x w 0 = true) ∧
   (ansOk (s1.resolve x.core w).2 = true) ∧
   (a.device = false) ∧
   (s2.isControl a.pa = false) ∧
   let words := fun i => BitVec.ofNat 36 (s2.readAcc x.core a 16 / 2 ^ (36 * i))
   (opcodeOf w = 22) ∧
   (s2.need x.core .load a (a.parts 16) = .ready) ∧
   (s2.poisonAt x.core a 16 = none) ∧
   let d := (segOfImage words).getD SegDesc.null
   ((segOfImage words).isSome = true) ∧
   (((s2.core x.core).user = false ∨ d.v = false ∨ d.user = true))) ∧
  (let s : State := wM id
   let x : At := ⟨0, .single⟩
   let w : Word := mM 28 2 1 0 0 1
   let s1 := issued s x w 0
   let s2 := (s1.resolve x.core w).1
   let a := ansOf acc0 (s1.resolve x.core w).2
   (issuesB s x w 0 = true) ∧
   (ansOk (s1.resolve x.core w).2 = true) ∧
   (a.device = false) ∧
   (s2.isControl a.pa = false) ∧
   (opcodeOf w = 28) ∧
   ((s2.core x.core).ft = false) ∧
   (a.hi = none) ∧
   (s2.isCached a.pa) ∧
   let mb := (mbPut (s2.core x.core).mb a.pa (valBytes ((((s2.core x.core).seg (dstOf w)).image 0).toNat + 2 ^ 36 * (((s2.core x.core).seg (dstOf w)).image 1).toNat + 2 ^ 72 * (((s2.core x.core).seg (dstOf w)).image 2).toNat + 2 ^ 108 * (((s2.core x.core).seg (dstOf w)).image 3).toNat) 16) (s2.chunkOf x.core) (s2.core x.core).ccyc).getD []
   let d := (s2.core x.core).seg (dstOf w)
   let v := (d.image 0).toNat + 2 ^ 36 * (d.image 1).toNat + 2 ^ 72 * (d.image 2).toNat + 2 ^ 108 * (d.image 3).toNat
   (mbPut (s2.core x.core).mb a.pa (valBytes v 16) (s2.chunkOf x.core) (s2.core x.core).ccyc = some mb)) := by
  decide +kernel

/-- States and operands that meet the hypotheses of each clause about DescriptorImages of SegmentTransfers. -/
theorem witness_SegmentTransfers_DescriptorImages :
  (let d : SegDesc := SegDesc.null
   (d.v = false)) ∧
  (let d : SegDesc := SegDesc.whole
   (d.v = true) ∧
   (d.base.toNat % 16 = 0) ∧
   (limitOk d.mode.toNat d.limit.toNat)) := by
  decide +kernel

/-- States and operands that meet the hypotheses of each clause about Atomics of AtomicsAndLines. -/
theorem witness_AtomicsAndLines_Atomics :
  (let s : State := wM id
   let x : At := ⟨0, .single⟩
   let w : Word := mM 29 20 1 0 0 0
   let s1 := issued s x w 0
   let s2 := (s1.resolve x.core w).1
   let a := ansOf acc0 (s1.resolve x.core w).2
   (issuesB s x w 0 = true) ∧
   (ansOk (s1.resolve x.core w).2 = true) ∧
   (a.device = false) ∧
   (s2.isControl a.pa = false) ∧
   ((s2.core x.core).mb = []) ∧
   let k := x.core
   let s3 := s2.modCore k Core.drainAll
   (s3.replaying k = false) ∧
   (opcodeOf w = 29) ∧
   (s3.need k .lr a [(a.pa, 4)] = .ready) ∧
   (a.hi = none) ∧
   (s3.poisonAt k a 4 = none)) ∧
  (let s : State := wM (fun c => { c with reservation := some ⟨0x40, 0⟩ })
   let x : At := ⟨0, .single⟩
   let w : Word := mM 30 20 1 0 0 0
   let s1 := issued s x w 0
   let s2 := (s1.resolve x.core w).1
   let a := ansOf acc0 (s1.resolve x.core w).2
   (issuesB s x w 0 = true) ∧
   (ansOk (s1.resolve x.core w).2 = true) ∧
   (a.device = false) ∧
   (s2.isControl a.pa = false) ∧
   ((s2.core x.core).mb = []) ∧
   let k := x.core
   let s3 := s2.modCore k Core.drainAll
   (s3.replaying k = false) ∧
   let held := match (s3.core k).reservation with | some r => r.line == a.pa / 64 | none => false
   (opcodeOf w = 30) ∧
   (s3.need k .sc a [(a.pa, 4)] = .ready) ∧
   (a.hi = none) ∧
   (held = true)) ∧
  (let s : State := wM id
   let x : At := ⟨0, .single⟩
   let w : Word := mM 30 20 1 0 0 0
   let s1 := issued s x w 0
   let s2 := (s1.resolve x.core w).1
   let a := ansOf acc0 (s1.resolve x.core w).2
   (issuesB s x w 0 = true) ∧
   (ansOk (s1.resolve x.core w).2 = true) ∧
   (a.device = false) ∧
   (s2.isControl a.pa = false) ∧
   ((s2.core x.core).mb = []) ∧
   let k := x.core
   let s3 := s2.modCore k Core.drainAll
   (s3.replaying k = false) ∧
   let held := match (s3.core k).reservation with | some r => r.line == a.pa / 64 | none => false
   (opcodeOf w = 30) ∧
   (a.hi = none) ∧
   (held = false) ∧
   ((s3.core k).ft = false) ∧
   ((s3.count k 0x2D 1).replaying k = false) ∧
   (smFind? s2.mftc k = none)) ∧
  (let s : State := wM id
   let x : At := ⟨0, .single⟩
   let w : Word := mM 31 20 1 0 0 0
   let s1 := issued s x w 0
   let s2 := (s1.resolve x.core w).1
   let a := ansOf acc0 (s1.resolve x.core w).2
   (issuesB s x w 0 = true) ∧
   (ansOk (s1.resolve x.core w).2 = true) ∧
   (a.device = false) ∧
   (s2.isControl a.pa = false) ∧
   ((s2.core x.core).mb = []) ∧
   let k := x.core
   let s3 := s2.modCore k Core.drainAll
   (s3.replaying k = false) ∧
   (opcodeOf w = 31) ∧
   (s3.need k .tas a [(a.pa, 4)] = .ready) ∧
   (a.hi = none) ∧
   (s3.poisonAt k a 4 = none)) := by
  decide +kernel

/-- States and operands that meet the hypotheses of each clause about PrefetchAndLineMaintenance of AtomicsAndLines. -/
theorem witness_AtomicsAndLines_PrefetchAndLineMaintenance :
  (∀ ft ∈ [false, true],
   let s : State := wM (fun c => { c with status := if ft then 8 else 0, lbuf := [⟨0x10, 0x10, false, false⟩] })
   let w : Word := mM 23 0 1 0 0 3
   (issuesB s wX w 0 = true) ∧
   (opcodeOf w = 23) ∧
   (((issued s wX w 0).core 0).ft = ft)) ∧
  (∀ op ∈ [1, 2, 3],
   let w : Word := mkw 40 0 2 11 op
   isSys w 11 ∧ argOf w % 4 = op ∧ issuesB (wU (wM id)) wX w 0 = true ∧ ((issued (wU (wM id)) wX w 0).core 0).user = true ∧
   issuesB (wM id) wX w 0 = true ∧ ((issued (wM id) wX w 0).core 0).user = false) ∧
  (∀ p ∈ [(1, XKind.cmoClean, 0x12340), (2, .cmoInv, 0x12340), (3, .cmoInv, 0x12340), (2, .cmoInv, 0x3F500000000)],
   let w : Word := mkw 40 0 2 11 p.1
   let s1 := issued (wM (fun c => { c with w := [(2, BitVec.ofNat 36 p.2.2), (3, BitVec.ofNat 36 (p.2.2 / 2 ^ 36))] })) wX w 0
   let r := s1.access 0 p.2.1 1 (((s1.core 0).pairA w).toNat % 2 ^ 48)
   let y := ansOf ⟨0, false, 0⟩ r.2.1
   let s3 := (r.1.freezeFor 0 r.2.2).modCore 0 Core.drainAll
   ansOk r.2.1 = true ∧ y.pa = p.2.2 ∧ s3.isDevice y = false ∧ s3.isCached y.pa = decide (p.2.2 = 0x12340) ∧ (s3.core 0).mb = [] ∧
     s3.homeFree (lineOf y.pa) = true) := by
  decide +kernel

/-- States and operands that meet the hypotheses of each clause about MissAndFill of MissesAndDrains. -/
theorem witness_MissesAndDrains_MissAndFill :
  ((wM id).need 0 .load aL (aL.parts 4) = .fetch 0x2000) ∧
  (∀ p ∈ [(20, XKind.load, false), (30, .sc, false), (30, .sc, true)],
   let w : Word := mM p.1 20 3 0 0 0
   let s : State := wFz w (fun c => { c with reservation := if p.2.2 then some ⟨0x80, 0⟩ else none })
   let s1 := s.offerFor 0 p.2.1 0x2000
   (kindOf (opcodeOf w) = p.2.1) ∧
   (aL.hi = none) ∧
   ((s.core 0).freeze = some ⟨.miss (aL.pa / 64), .single, w, some aL⟩) ∧
   ((s.core 0).run = .running) ∧
   (s.scHolds 0 aL.pa = p.2.2) ∧
   (s1.blocked 0 p.2.1 aL.pa = false) ∧
   (s1.outranked 0 p.2.1 aL.pa = false)) := by
  decide +kernel

/-- States and operands that meet the hypotheses of each clause about MergingBufferDrains of MissesAndDrains. -/
theorem witness_MissesAndDrains_MergingBufferDrains :
  (let s : State := wM (fun c => { c with ccyc := 5, mb := [mb1] })
   ((s.core 0).mb.find? (fun e => e.line == 0x40 && !e.asked) = some mb1) ∧
   (mb1.last + 32 ≤ ((s.passTo 0 (mb1.last + 32)).core 0).ccyc)) ∧
  (let e : MbEntry := { mb1 with asked := true, draining := true }
   let s : State := wM (fun c => { c with mb := [e, { mb1 with bytes := [(2, 0x11)], asked := true }] })
   let s1 := s.offerFor 0 .store (0x40 * 64)
   ((s.core 0).mb.find? (fun e => e.line == 0x40 && e.draining) = some e) ∧
   (s1.blocked 0 .store (0x40 * 64) = false)) ∧
  ([mb1, { mb1 with last := 3 }][1]? = some { mb1 with last := 3 }) := by
  decide +kernel

/-- States and operands that meet the hypotheses of each clause about DeferralEnds of MissesAndDrains. -/
theorem witness_MissesAndDrains_DeferralEnds :
  (let s : State := wM (fun c => { c with reservation := some ⟨0x40, 64⟩ })
   let k : Nat := 0
   let r : Reservation := ⟨0x40, 64⟩
   ((s.core k).reservation = some r) ∧
   ((s.core k).xops = [])) := by
  decide +kernel

/-- States and operands that meet the hypotheses of each clause about AcceptedEntryIsVisible of CoherentValues. -/
theorem witness_CoherentValues_AcceptedEntryIsVisible :
  (let s : State := wM id
   let e : MbEntry := mb1
   (s.mem.failed = []) ∧
   (s.mem.Canonical) ∧
   (smRising 0 e.bytes = true) ∧
   ((∀ b ∈ e.bytes, b.1 < 64))) := by
  decide +kernel

/-- States and operands that meet the hypotheses of each clause about CoherenceKeepsValues of CoherentValues. -/
theorem witness_CoherentValues_CoherenceKeepsValues :
  (let s : State := wM id
   (s.mem.failed = []) ∧
   (s.mem.Canonical)) := by
  decide +kernel

/-- States and operands that meet the hypotheses of each clause about OwnershipIsExclusive of CoherentValues. -/
theorem witness_CoherentValues_OwnershipIsExclusive :
  (let stand : Nat := 0
   (stand < 60)) ∧
  (let s : State := wM id
   let stand : Nat := 7
   let line : Nat := 0x40
   (stand < 60) ∧
   ((s.mem.dirEnt line).isSome) ∧
   ((∀ g ∈ s.mem.gtag (stand / 5) line, g.st ≠ .e ∧ g.st ≠ .m))) := by
  decide +kernel

/-- The hypotheses of the clauses about a leaf: which permission fails, whether ownership passes, and the marks A and D. -/
def leafTests (s : State) (x : XCtx) (kind : XKind) (la size : Nat) (e : DWord) : List Bool :=
  let pa := efld e 41 12 * 4096 / 2 ^ size * 2 ^ size + la % 2 ^ size
  [decide ((x.user = true ∧ ebit e 5 = false) ∨ (kind.isFetch = true ∧ x.user = false ∧ ebit e 5 = true)),
   decide (kind.needsR = true ∧ ebit e 2 = false), decide (kind.needsW = true ∧ ebit e 3 = false),
   decide (kind.isFetch = true ∧ (ebit e 4 = false ∨ (efld e 11 9 = 1 ∧ s.isLocal pa = false) ∨ s.isControl pa = true)),
   decide (s.physFor x kind pa = none), ebit e 7, ebit e 8]
/-- States and operands that meet the hypotheses of each clause about TranslationChecks of Translation. -/
theorem witness_Translation_TranslationChecks :
  (w0.physFor (xc (some 0) false) .load 0x1234 = none) ∧
  ((xc (some 0) false).cmp = some 0 ∧ w0.region 0x10001234 = .dram ∧ w0.owns 0 0x10001234 = false) ∧
  (XKind.cmoInv.isCmo = true ∧ w0.isControl 0x3FF000A0040 = true ∧ isClearing 0x3F500412345 = true ∧ XKind.load.isCmo = false) ∧
  (∀ p ∈ [(XKind.fetch, leaf 0 0x1FF, [true, false, false, false, true, true, true]),
          (.load, leaf 0 0x1DB, [false, true, false, false, true, true, true]),
          (.store, leaf 0 0x1D7, [false, false, true, false, true, true, true]),
          (.fetch, leaf 0 0x21F, [false, false, false, true, true, false, false]),
          (.load, leaf 0x10000 0x1FF, [false, false, false, false, false, true, true]),
          (.cmoClean, leaf 0 0x17F, [false, false, false, false, true, false, true]),
          (.prefOwn, leaf 0 0x07F, [false, false, false, false, true, false, false]),
          (.load, leaf 0 0x17F, [false, false, false, false, true, false, true]),
          (.store, leaf 0 0x0FF, [false, false, false, false, true, true, false]),
          (.load, leaf 0 0x0FF, [false, false, false, false, true, true, false]),
          (.store, leaf 0 0x1FF, [false, false, false, false, true, true, true])],
    leafTests w0 (xc (some 0) false) p.1 0x1234 12 p.2.1 = p.2.2) ∧
  (w0.physFor (xc (some 0) false) .load (0x10000 * 4096 + 0x234) = some 6) := by
  decide +kernel

/-- States and operands that meet the hypotheses of each clause about TableWalk of Translation. -/
theorem witness_Translation_TableWalk :
  (let s : State := wTab [(0x5000, 0), (0x5008, leaf 7 0x1FF), (0x5010, leaf 6 1), (0x6000, leaf 9 0x1FF), (0x6008, leaf 0x20001 0x1FF)]
   let x : XCtx := xc (some 0) false
   let la : Nat := 0
   let t : Nat := 0x5000
   let L : Nat := 1
   let ea := t + 8 * (la / 2 ^ (12 + 9 * (L - 1)) % 512)
   let e := BitVec.ofNat 72 (s.mem.read ea 8)
   (s.tableCheck x.cmp ea = 0) ∧
   (s.mem.poisoned (ea / 64) = false) ∧
   (ebit e 0 = false)) ∧
  (let s : State := wTab [(0x5000, 0), (0x5008, leaf 7 0x1FF), (0x5010, leaf 6 1), (0x6000, leaf 9 0x1FF), (0x6008, leaf 0x20001 0x1FF)]
   let x : XCtx := xc (some 0) false
   let la : Nat := 0
   let t : Nat := 0x6000
   let L : Nat := 2
   let ea := t + 8 * (la / 2 ^ (12 + 9 * (L - 1)) % 512)
   let e := BitVec.ofNat 72 (s.mem.read ea 8)
   (s.tableCheck x.cmp ea = 0) ∧
   (s.mem.poisoned (ea / 64) = false) ∧
   (ebit e 0 = true ∧ malformed x.pow2 L e = true)) ∧
  (let s : State := wTab [(0x5000, 0), (0x5008, leaf 7 0x1FF), (0x5010, leaf 6 1), (0x6000, leaf 9 0x1FF), (0x6008, leaf 0x20001 0x1FF)]
   let x : XCtx := xc (some 0) false
   let la : Nat := 0
   let t : Nat := 0x6000
   let L : Nat := 1
   let ea := t + 8 * (la / 2 ^ (12 + 9 * (L - 1)) % 512)
   let e := BitVec.ofNat 72 (s.mem.read ea 8)
   (s.tableCheck x.cmp ea = 0) ∧
   (s.mem.poisoned (ea / 64) = false) ∧
   (ebit e 0 = true ∧ malformed x.pow2 L e = false ∧ ebit e 1 = true)) ∧
  (let s : State := wTab [(0x5000, 0), (0x5008, leaf 7 0x1FF), (0x5010, leaf 6 1), (0x6000, leaf 9 0x1FF), (0x6008, leaf 0x20001 0x1FF)]
   let x : XCtx := xc (some 0) false
   let la : Nat := 0x400000
   let t : Nat := 0x5000
   let L : Nat := 2
   let ea := t + 8 * (la / 2 ^ (12 + 9 * (L - 1)) % 512)
   let e := BitVec.ofNat 72 (s.mem.read ea 8)
   (s.tableCheck x.cmp ea = 0) ∧
   (s.mem.poisoned (ea / 64) = false) ∧
   (ebit e 0 = true ∧ malformed x.pow2 L e = false ∧ ebit e 1 = false)) := by
  decide +kernel

/-- States and operands that meet the hypotheses of each clause about Branches of Branches. -/
theorem witness_Branches_Branches :
  (let s : State := wM id
   let x : At := ⟨0, .single⟩
   let w : Word := brW 32 0 3
   (issuesB s x w 0 = true) ∧
   (opcodeOf w = 32)) ∧
  (let s : State := wM id
   let x : At := ⟨0, .single⟩
   let w : Word := brW 33 0 3
   (issuesB s x w 0 = true) ∧
   (opcodeOf w = 33)) ∧
  (let s : State := wM id
   let x : At := ⟨0, .single⟩
   let w : Word := mkw 34 20 1 0 0
   let s1 := issued s x w 0
   (issuesB s x w 0 = true) ∧
   let c := s1.core x.core
   let u := condHolds (fld w 3 0) c.fl
   let a := (c.srcA w).toNat
   (opcodeOf w = 34 ∧ ¬(u = true ∧ a % 4 ≠ 0))) ∧
  (let s : State := wM id
   let x : At := ⟨0, .single⟩
   let w : Word := mkw 34 20 2 0 0
   let s1 := issued s x w 0
   (issuesB s x w 0 = true) ∧
   let c := s1.core x.core
   let u := condHolds (fld w 3 0) c.fl
   let a := (c.srcA w).toNat
   (opcodeOf w = 34 ∧ u = true ∧ a % 4 ≠ 0)) := by
  decide +kernel

/-- States and operands that meet the hypotheses of each clause about Repeats of Repeats. -/
theorem witness_Repeats_Repeats :
  (let s : State := wM id
   let x : At := ⟨0, .single⟩
   let w : Word := mkw 35 0 0 0 0
   let target : Word := mkw 1 20 1 2 0
   (issuesB s x w target = true) ∧
   (opcodeOf w = 35)) ∧
  (let s : State := wM id
   let x : At := ⟨0, .single⟩
   let w : Word := mkw 36 0 0 0 1
   let target : Word := mkw 1 20 1 2 0
   (issuesB s x w target = true) ∧
   (opcodeOf w = 36)) := by
  decide +kernel

/-- States and operands that meet the hypotheses of each clause about RepeatCountsDown of Repeats. -/
theorem witness_Repeats_RepeatCountsDown :
  (let s : State := wM (fun c => { c with rep := some rp, rc := 1 })
   let k : Nat := 0
   let r : Rep := rp
   let c := s.core k
   (c.rep = some r) ∧
   (c.pend = []) ∧
   (c.div = []) ∧
   (c.xops = []) ∧
   (smFind? s.mftc k = none) ∧
   (c.rc = 1)) ∧
  (let s : State := wM (fun c => { c with rep := some rp, rc := 5 })
   let k : Nat := 0
   let r : Rep := rp
   let c := s.core k
   (c.rep = some r) ∧
   (c.pend = []) ∧
   (c.div = []) ∧
   (c.xops = []) ∧
   (smFind? s.mftc k = none) ∧
   (c.rc ≠ 1)) := by
  decide +kernel

/-- States and operands that meet the hypotheses of each clause of UndefinedWords. -/
theorem witness_UndefinedWords :
  (let s : State := wM id
   let w : Word := mkw 1 20 1 2 31
   (classOf w ≠ .pfx) ∧
   ((s.udOf 0 .single w 0).isSome) ∧
   ((s.wake 0).slotFits 0 .single w 0 = true) ∧
   ((match (s.wake 0).fetch 0 ((s.wake 0).core 0).pc with
     | .ok s1 => s1.noneFirst 0 && s1.udOf 0 .single w 0 == some (3, w)
     | _ => false) = true)) := by
  decide +kernel

/-- States and operands that meet the hypotheses of each clause of CsReads. -/
theorem witness_CsReads :
  (let s : State := wU (wCs id)
   let x : At := ⟨0, .single⟩
   let w : Word := mkw 40 20 0 0 3
   let s1 := issued s x w 0
   (issuesB s x w 0 = true) ∧
   (isSys w 0) ∧
   let k := x.core
   let c := s1.core k
   let n := argOf w
   (c.user = true ∧ n ∉ [0, 1, 2, 16, 17])) ∧
  (let s : State := wCs id
   let x : At := ⟨0, .single⟩
   let w : Word := mkw 40 20 0 0 0
   let s1 := issued s x w 0
   (issuesB s x w 0 = true) ∧
   (isSys w 0) ∧
   let k := x.core
   let c := s1.core k
   let n := argOf w
   let plain := [c.status, c.fpcsr, s1.coreid k, c.faultword, c.epc, c.estatus, c.ecause, 0, c.vbase, smGet 0 c.scratch 0, smGet 0 c.scratch 1, smGet 0 c.scratch 2, smGet 0 c.scratch 3, c.segtab, c.ptbase, c.asid, 0, 0, c.imask &&& 0xFFFFFFFF, 0, c.savedrc]
   ((c.user = false ∨ n ∈ [0, 1, 2])) ∧
   (n ∉ [7, 16, 17, 19]) ∧
   (plain[n]?.isSome = true)) ∧
  (let s : State := wCs id
   let x : At := ⟨0, .single⟩
   let w : Word := mkw 40 20 0 0 7
   let s1 := issued s x w 0
   (issuesB s x w 0 = true) ∧
   (isSys w 0) ∧
   let k := x.core
   let c := s1.core k
   let n := argOf w
   (c.user = false ∧ n = 7)) ∧
  (let s : State := wCs id
   let x : At := ⟨0, .single⟩
   let w : Word := mkw 40 20 0 0 16
   let s1 := issued s x w 0
   (issuesB s x w 0 = true) ∧
   (isSys w 0) ∧
   let k := x.core
   let n := argOf w
   (smFind? s1.mftc k = none ∧ s1.replaying k = false) ∧
   (n = 16)) ∧
  (let s : State := wCs id
   let x : At := ⟨0, .single⟩
   let w : Word := mkw 40 20 0 0 17
   let s1 := issued s x w 0
   (issuesB s x w 0 = true) ∧
   (isSys w 0) ∧
   let k := x.core
   let n := argOf w
   (smFind? s1.mftc k = none ∧ s1.replaying k = false) ∧
   (n = 17)) ∧
  (let s : State := wCs id
   let x : At := ⟨0, .single⟩
   let w : Word := mkw 40 20 0 0 19
   let s1 := issued s x w 0
   (issuesB s x w 0 = true) ∧
   (isSys w 0) ∧
   let k := x.core
   let c := s1.core k
   let n := argOf w
   (smFind? s1.mftc k = none ∧ s1.replaying k = false) ∧
   (n = 19 ∧ c.user = false)) := by
  decide +kernel

/-- States and operands that meet the hypotheses of each clause about CsWrites of CsWrites. -/
theorem witness_CsWrites_CsWrites :
  (let s : State := wU (wCs id)
   let x : At := ⟨0, .single⟩
   let w : Word := mkw 40 0 10 1 0
   let s1 := issued s x w 0
   (issuesB s x w 0 = true) ∧
   let k := x.core
   let n := argOf w
   (isSys w 1 ∧ (s1.core k).user = true ∧ n ∉ [1, 2, 16, 17])) ∧
  (let s : State := wCs id
   let x : At := ⟨0, .single⟩
   let w : Word := mkw 40 0 10 1 0
   let s1 := issued s x w 0
   (issuesB s x w 0 = true) ∧
   let k := x.core
   let n := argOf w
   (isSys w 1 ∧ ((s1.core k).user = false ∨ n ∈ [1, 2, 16, 17]))) ∧
  (let s : State := wU (wCs id)
   let x : At := ⟨0, .single⟩
   let w : Word := mkw 40 20 10 2 0
   let s1 := issued s x w 0
   (issuesB s x w 0 = true) ∧
   let k := x.core
   let n := argOf w
   (isSys w 2 ∧ (s1.core k).user = true ∧ n ∉ [1, 2, 16, 17])) ∧
  (let s : State := wCs id
   let x : At := ⟨0, .single⟩
   let w : Word := mkw 40 20 10 2 0
   let s1 := issued s x w 0
   (issuesB s x w 0 = true) ∧
   let k := x.core
   let n := argOf w
   (isSys w 2 ∧ ((s1.core k).user = false ∨ n ∈ [1, 2, 16, 17]))) := by
  decide +kernel

/-- States and operands that meet the hypotheses of each clause about CsWriteMasks of CsWrites. -/
theorem witness_CsWrites_CsWriteMasks :
  (let covered : Bool := false
   let v : DWord := 8
   let x : Word := v.extractLsb' 0 36
   (x.getLsbD 3 = true ∧ covered = false)) ∧
  (let covered : Bool := true
   let v : DWord := 0
   let x : Word := v.extractLsb' 0 36
   (x.getLsbD 3 = false ∨ covered = true)) ∧
  (let v : DWord := 0x8F
   let x : Word := v.extractLsb' 0 36
   (5 ≤ x.toNat % 8)) ∧
  (let v : DWord := 0
   let x : Word := v.extractLsb' 0 36
   (x.toNat % 8 < 5)) ∧
  (let v : DWord := 0x8F
   let x : Word := v.extractLsb' 0 36
   (x.toNat % 16 = 15)) ∧
  (let v : DWord := 0
   let x : Word := v.extractLsb' 0 36
   (x.toNat % 16 ≠ 15 ∧ x.toNat / 65536 % 16 ∈ [0, 8, 9, 11])) ∧
  (let v : DWord := 0xFFFFFFFFFFFFFFFFFF
   let x : Word := v.extractLsb' 0 36
   (x.toNat / 65536 % 16 ∉ [0, 8, 9, 11])) := by
  decide +kernel

/-- States and operands that meet the hypotheses of each clause about SystemCalls of ExceptionEntry. -/
theorem witness_ExceptionEntry_SystemCalls :
  (let s : State := wCs id
   let x : At := ⟨0, .single⟩
   let w : Word := mkw 40 0 0 3 0
   (isSys w 3) ∧
   (issuesB s x w 0 = true)) ∧
  (let s : State := wCs id
   let x : At := ⟨0, .single⟩
   let w : Word := mkw 40 0 0 4 0
   (isSys w 4) ∧
   (issuesB s x w 0 = true)) := by
  decide +kernel

/-- States and operands that meet the hypotheses of each clause about ExceptionEntry of ExceptionEntry. -/
theorem witness_ExceptionEntry_ExceptionEntry :
  (let s : State := wCs id
   let k : Nat := 0
   let e : Entry := ⟨3, 4, 0, 0x408, 0xFFFFFFFFFFFF⟩
   let c := s.core k
   (¬(e.code = 12 ∧ c.fatalMce e.sub = true)) ∧
   (c.xops = []) ∧
   (c.pend = [] ∧ c.div = [])) := by
  decide +kernel

/-- States and operands that meet the hypotheses of each clause about TrapSavesItsWord of ExceptionEntry. -/
theorem witness_ExceptionEntry_TrapSavesItsWord :
  (let s : State := wCs id
   let k : Nat := 0
   let e : Exc := ⟨1, 3, 0, some 0x123⟩
   let c := s.core k
   (e.code ≠ 12) ∧
   (c.xops = [])) := by
  decide +kernel

/-- States and operands that meet the hypotheses of each clause of ExceptionReturn. -/
theorem witness_ExceptionReturn :
  (let w : Word := mkw 40 0 0 5 0
   isSys w 5 ∧
   issuesB (wU (wCs id)) wX w 0 = true ∧ ((issued (wU (wCs id)) wX w 0).core 0).user = true ∧
   issuesB (wCs id) wX w 0 = true ∧ ((issued (wCs id) wX w 0).core 0).user = false ∧ ((issued (wCs id) wX w 0).core 0).xops = []) := by
  decide +kernel

/-- States and operands that meet the hypotheses of each clause about Waiting of WaitingAndFences. -/
theorem witness_WaitingAndFences_Waiting :
  (let s : State := wCs id
   let x : At := ⟨0, .single⟩
   let w : Word := mkw 40 0 0 6 0
   let s1 := issued s x w 0
   let k := x.core
   let n := (s1.core k).longTime
   let landed := ((s1.cycles k 0x05 n).advance k n).landRest k
   (issuesB s x w 0 = true) ∧
   (isSys w 6) ∧
   ((landed.core k).faults = [])) ∧
  (let s : State := wCs (fun c => { c with div := [⟨[], some ⟨8, 1, 5, 3⟩, 600, 1⟩] })
   let x : At := ⟨0, .single⟩
   let w : Word := mkw 40 0 0 6 0
   let s1 := issued s x w 0
   let k := x.core
   let n := (s1.core k).longTime
   let landed := ((s1.cycles k 0x05 n).advance k n).landRest k
   (issuesB s x w 0 = true) ∧
   (isSys w 6) ∧
   let f := (landed.core k).faults.headD ⟨0, 0, 0, 0⟩
   let rest := (landed.core k).faults.tail
   ((landed.core k).faults = f :: rest)) ∧
  (let s : State := wCs id
   let x : At := ⟨0, .single⟩
   let w : Word := mkw 40 0 0 12 0
   let s1 := issued s x w 0
   let k := x.core
   (issuesB s x w 0 = true) ∧
   (isSys w 12) ∧
   ((s1.core k).user = false)) ∧
  (let s : State := wU (wCs id)
   let x : At := ⟨0, .single⟩
   let w : Word := mkw 40 0 0 12 0
   let s1 := issued s x w 0
   let k := x.core
   (issuesB s x w 0 = true) ∧
   (isSys w 12) ∧
   ((s1.core k).user = true)) ∧
  (let s : State := (wCs (fun c => { c with run := .waiting, status := 0, imask := 0 })).ctlSet (o_grvIpi 0 0) 1
   let x : At := ⟨0, .single⟩
   let k := x.core
   ((s.core k).run = .waiting) ∧
   ((s.core k).dbg = false) ∧
   (s.replaying k = false) ∧
   (smFind? s.mftc k = none) ∧
   (s.pendingSources k ≠ 0)) ∧
  (let s : State := wCs (fun c => { c with run := .waiting })
   let x : At := ⟨0, .single⟩
   let k := x.core
   ((s.core k).run = .waiting) ∧
   ((s.core k).dbg = false) ∧
   (s.replaying k = false) ∧
   (smFind? s.mftc k = none) ∧
   (s.pendingSources k = 0) ∧
   ((s.core k).faults = [])) := by
  decide +kernel

/-- States and operands that meet the hypotheses of each clause about Fences of WaitingAndFences. -/
theorem witness_WaitingAndFences_Fences :
  (let s : State := wCs id
   let x : At := ⟨0, .single⟩
   let w : Word := mkw 40 0 0 7 1
   (issuesB s x w 0 = true) ∧
   (isSys w 7) ∧
   (argOf w % 4 = 1)) ∧
  (let s : State := wCs id
   let x : At := ⟨0, .single⟩
   let w : Word := mkw 40 0 0 7 2
   (issuesB s x w 0 = true) ∧
   (isSys w 7) ∧
   (argOf w % 4 = 2)) ∧
  (let s : State := wCs id
   let x : At := ⟨0, .single⟩
   let w : Word := mkw 40 0 0 7 3
   (issuesB s x w 0 = true) ∧
   (isSys w 7) ∧
   (argOf w % 4 = 3)) := by
  decide +kernel

/-- States and operands that meet the hypotheses of each clause about TranslationInvalidate of Broadcasts. -/
theorem witness_Broadcasts_TranslationInvalidate :
  (let s : State := wU wTl
   let x : At := ⟨0, .single⟩
   let w : Word := mkw 40 0 10 9 0
   let s1 := issued s x w 0
   (issuesB s x w 0 = true) ∧
   (isSys w 9) ∧
   let k := x.core
   let c := s1.core k
   (argOf w % 4 = 0) ∧
   (c.user = true)) ∧
  (let s : State := wTl
   let x : At := ⟨0, .single⟩
   let w : Word := mkw 40 0 10 9 0
   let s1 := issued s x w 0
   (issuesB s x w 0 = true) ∧
   (isSys w 9) ∧
   let k := x.core
   let c := s1.core k
   (argOf w % 4 = 0) ∧
   (c.user = false ∧ c.mb = [])) ∧
  (let s : State := wU wTl
   let x : At := ⟨0, .single⟩
   let w : Word := mkw 40 0 11 9 1
   let s1 := issued s x w 0
   (issuesB s x w 0 = true) ∧
   (isSys w 9) ∧
   let k := x.core
   let c := s1.core k
   (argOf w % 4 = 1) ∧
   (c.user = true)) ∧
  (let s : State := wTl
   let x : At := ⟨0, .single⟩
   let w : Word := mkw 40 0 11 9 1
   let s1 := issued s x w 0
   (issuesB s x w 0 = true) ∧
   (isSys w 9) ∧
   let k := x.core
   let c := s1.core k
   (argOf w % 4 = 1) ∧
   (c.user = false ∧ c.mb = [])) ∧
  (let s : State := wU wTl
   let x : At := ⟨0, .single⟩
   let w : Word := mkw 40 0 0 9 2
   let s1 := issued s x w 0
   (issuesB s x w 0 = true) ∧
   (isSys w 9) ∧
   let k := x.core
   let c := s1.core k
   (argOf w % 4 = 2) ∧
   (c.user = true)) ∧
  (let s : State := wTl
   let x : At := ⟨0, .single⟩
   let w : Word := mkw 40 0 0 9 2
   let s1 := issued s x w 0
   (issuesB s x w 0 = true) ∧
   (isSys w 9) ∧
   let k := x.core
   let c := s1.core k
   (argOf w % 4 = 2) ∧
   (c.user = false ∧ c.mb = [])) ∧
  (let s : State := wTl
   let x : At := ⟨0, .single⟩
   let w : Word := mkw 40 0 10 9 0
   (issuesB s x w 0 = true) ∧
   (isSys w 9)) := by
  decide +kernel

/-- States and operands that meet the hypotheses of each clause about SynchroniseFetch of Broadcasts. -/
theorem witness_Broadcasts_SynchroniseFetch :
  (let s : State := wU (wCs (fun c => { c with l1i := [0x10, 0x40, 0x50], lbuf := [⟨0x40, 0x40, false, false⟩], w := [(10, 0x1000), (12, 8200)] }))
   let x : At := ⟨0, .single⟩
   let w : Word := mkw 40 0 0 10 0
   let s1 := issued s x w 0
   (issuesB s x w 0 = true) ∧
   let k := x.core
   let c := s1.core k
   (isSys w 10 ∧ c.user = true)) ∧
  (let s : State := wCs (fun c => { c with l1i := [0x10, 0x40, 0x50], lbuf := [⟨0x40, 0x40, false, false⟩], w := [(10, 0x1000), (12, 8200)] })
   let x : At := ⟨0, .single⟩
   let w : Word := mkw 40 0 0 10 0
   let s1 := issued s x w 0
   (issuesB s x w 0 = true) ∧
   let k := x.core
   let c := s1.core k
   (isSys w 10 ∧ c.user = false ∧ s1.tlbiOpen k = false)) ∧
  (let s : State := wCs (fun c => { c with l1i := [0x10, 0x40, 0x50], lbuf := [⟨0x40, 0x40, false, false⟩], w := [(10, 0x1000), (12, 8200)] })
   let x : At := ⟨0, .single⟩
   let w : Word := mkw 40 10 12 8 0
   let s1 := issued s x w 0
   (issuesB s x w 0 = true) ∧
   let k := x.core
   let c := s1.core k
   (isSys w 8 ∧ c.mb = [])) := by
  decide +kernel

/-- States and operands that meet the hypotheses of each clause about BroadcastsArrive of Broadcasts. -/
theorem witness_Broadcasts_BroadcastsArrive :
  (let s : State := wMem wTl (fun m => { m with bcasts := [b1], utlb := [(0, [te 0x10000 12 5 false])], dtc := [(3, [te 0x10000 12 5 false])] })
   let src : Nat := 1
   let b : Bcast := b1
   (b ∈ s.mem.bcasts) ∧
   (b.src = src) ∧
   ((∀ d ∈ s.mem.bcasts, d.src = src → d.dst = b.dst → d = b)) ∧
   let r := [(0x1000, 0x2000)]
   let k := 0
   (b.kind = .ifence r) ∧
   (b.dst = .core k) ∧
   ((s.core k).pair = none)) ∧
  (let s : State := wMem wTl (fun m => { m with bcasts := [b2], utlb := [(0, [te 0x10000 12 5 false])], dtc := [(3, [te 0x10000 12 5 false])] })
   let src : Nat := 1
   let b : Bcast := b2
   (b ∈ s.mem.bcasts) ∧
   (b.src = src) ∧
   ((∀ d ∈ s.mem.bcasts, d.src = src → d.dst = b.dst → d = b)) ∧
   let form := 0
   let arg := 0x10
   (b.kind = .tlbi form arg) ∧
   let k := 0
   (b.dst = .core k) ∧
   ((s.core k).translated = false) ∧
   (((wCore s k (fun c => { c with freeze := some ⟨.miss 0x80, .single, 0, some aL⟩ })).core k).translated = true)) ∧
  (let s : State := wMem wTl (fun m => { m with bcasts := [b3], utlb := [(0, [te 0x10000 12 5 false])], dtc := [(3, [te 0x10000 12 5 false])] })
   let src : Nat := 1
   let b : Bcast := b3
   (b ∈ s.mem.bcasts) ∧
   (b.src = src) ∧
   ((∀ d ∈ s.mem.bcasts, d.src = src → d.dst = b.dst → d = b)) ∧
   let form := 0
   let arg := 0x10
   (b.kind = .tlbi form arg) ∧
   let g := 0
   (b.dst = .understorey g)) ∧
  (let s : State := wMem wTl (fun m => { m with bcasts := [b4], utlb := [(0, [te 0x10000 12 5 false])], dtc := [(3, [te 0x10000 12 5 false])] })
   let src : Nat := 1
   let b : Bcast := b4
   (b ∈ s.mem.bcasts) ∧
   (b.src = src) ∧
   ((∀ d ∈ s.mem.bcasts, d.src = src → d.dst = b.dst → d = b)) ∧
   let form := 0
   let arg := 0x10
   (b.kind = .tlbi form arg) ∧
   let e := 3
   (b.dst = .engine e)) := by
  decide +kernel

/-- A core of which nothing is in flight. -/
theorem quiet_wM : Quiet (wM id) 0 := by constructor <;> decide +kernel

/-- A quiet core and a word that meet the hypotheses of QuietWordIssues. -/
theorem witness_QuietWordIssues :
  (let s : State := wM id
   let k : Nat := 0
   let w : Word := mkw 1 20 1 2 0
   let c := s.core k
   Quiet s k ∧
   (classOf w ≠ .pfx) ∧
   (¬(pairBit w = true ∧ c.pc % 8 = 0)) ∧
   (c.pc < 2 ^ 36) ∧
   (s.region c.pc = .dram) ∧
   (s.physFault (s.cmpOf k) false c.pc = none) ∧
   (s.mem.poisoned (c.pc / 64) = false) ∧
   (udSingle (s.xCauses k) (c.pc % 8 == 4) w = none) ∧
   (c.pc / 64 ∈ c.l1i) ∧
   (s.xWaits k w = none) ∧
   (c.mb = [])) :=
  ⟨quiet_wM, by decide +kernel⟩

/-- A quiet core and writes that meet the hypotheses of each clause of RetireFrame: every latency is at least 1, register 20 is written
and register 19 is not, and neither a flag, an accumulator, RC, CS.FPCSR nor a segment register is. -/
theorem witness_RetireFrame :
  (let es : Effs := [(.w 20 5, 1), (.w 21 7, 3)]
   Quiet (wM id) 0 ∧ (∀ e ∈ es, 1 ≤ e.2) ∧ lastWrite es 20 = some 5 ∧ lastWrite es 19 = none ∧
   (∀ e ∈ es, e.2 = 1 → e.1.writesFlag 0 = false) ∧ (∀ e ∈ es, ∀ v, e.2 = 1 → e.1 ≠ .ac 0 v) ∧
   (∀ e ∈ es, ∀ v, e.2 = 1 → e.1 ≠ .rc v) ∧ (∀ e ∈ es, ∀ v, e.2 = 1 → e.1 ≠ .fp v) ∧
   (∀ e ∈ es, ∀ r v, e.2 = 1 → e.1 ≠ .sg r v)) := by
  refine ⟨quiet_wM, ?_⟩
  simp [lastWrite, Land.writesFlag]

/-- States and operands that meet the hypotheses of each clause about WritesLandInOrder of Landings. -/
theorem witness_Landings_WritesLandInOrder :
  (let c : Core := { wRun with pcyc := 9, pend := [⟨.w 3 5, 9, 1⟩, ⟨.w 3 6, 9, 2⟩] }
   let r : Nat := 3
   let due : Nat := 9
   let seq : Nat := 1
   let seq' : Nat := 2
   let u : Word := 5
   let v : Word := 6
   (c.opW = none) ∧
   (c.pend = [⟨.w r u, due, seq⟩, ⟨.w r v, due, seq'⟩]) ∧
   (due ≤ c.pcyc) ∧
   (seq < seq') ∧
   (r ≠ 0)) ∧
  (let c : Core := { wRun with pcyc := 9, pend := [⟨.w 0 5, 9, 1⟩, ⟨.w 0 6, 9, 2⟩] }
   let r : Nat := 0
   let due : Nat := 9
   let seq : Nat := 1
   let seq' : Nat := 2
   let u : Word := 5
   let v : Word := 6
   (c.opW = none) ∧
   (c.pend = [⟨.w r u, due, seq⟩, ⟨.w r v, due, seq'⟩]) ∧
   (due ≤ c.pcyc) ∧
   (seq < seq') ∧
   (r = 0)) := by
  decide +kernel

/-- States and operands that meet the hypotheses of each clause about DivideLands of Landings. -/
theorem witness_Landings_DivideLands :
  (let s : State := wCs (fun c => { c with div := [⟨[.w 40 9], none, 600, 1⟩] })
   let k : Nat := 0
   let r : Nat := 40
   let seq : Nat := 1
   let due : Nat := 600
   let v : Word := 9
   let fault : Option LongFault := (none : Option LongFault)
   let c := s.core k
   (c.div = [⟨if fault = none then [.w r v] else [], fault, due, seq⟩]) ∧
   (c.pend = []) ∧
   (c.xops = []) ∧
   (c.freeze = none) ∧
   (c.opW = none) ∧
   (c.ccyc ≤ due) ∧
   (smFind? s.ctl (o_pmuCctl (groveOf k) (slotOf k)) = none)) := by
  decide +kernel

/-- States and operands that meet the hypotheses of each clause about BoundaryEntries of BoundaryEntries. -/
theorem witness_BoundaryEntries_BoundaryEntries :
  (let s : State := (wCs (fun c => { c with status := 2, imask := 0 })).ctlSet (o_grvIpi 0 0) 1
   let k : Nat := 0
   let c := s.core k
   (c.run = .running) ∧
   (c.dbgStep = false) ∧
   (s.interruptible k = true) ∧
   (smFind? s.mftc k = none) ∧
   (s.replaying k = false) ∧
   (s.mceDue k = false) ∧
   (s.longDue k = false) ∧
   (s.intDue k = true)) ∧
  (let s : State := wCs (fun c => { c with status := 2, faults := [⟨8, 1, 5, 3⟩] })
   let k : Nat := 0
   let c := s.core k
   (c.run = .running) ∧
   (c.dbgStep = false) ∧
   (s.interruptible k = true) ∧
   (smFind? s.mftc k = none) ∧
   (s.replaying k = false) ∧
   let f : LongFault := (⟨8, 1, 5, 3⟩ : LongFault)
   let rest : List LongFault := []
   (s.mceDue k = false) ∧
   (s.longDue k = true) ∧
   (c.faults = f :: rest)) ∧
  (let s : State := (wCs (fun c => { c with status := 2, imask := 0 })).ctlSet (o_grvIpi 0 0) 1
   let k : Nat := 0
   let c := s.core k
   (c.run = .running) ∧
   (c.dbgStep = false) ∧
   (s.interruptible k = true) ∧
   (smFind? s.mftc k = none) ∧
   (s.replaying k = false) ∧
   let sub := 4
   ((sub ∈ c.mce ∨ (sub = 4 ∧ c.xops = []) ∨ sub = 5)) ∧
   (3 ≤ sub) ∧
   (sub ≤ 5)) := by
  decide +kernel

/-- States and operands that meet the hypotheses of each clause about TimerAndIpi of BoundaryEntries. -/
theorem witness_BoundaryEntries_TimerAndIpi :
  (let s : State := wCs id
   let cmp := (s.ctlD (o_grvTcmpl 0 0) 0xFFFFFFFF).toNat + 2 ^ 32 * (s.ctlD (o_grvTcmph 0 0) 0xFFFFFFFF).toNat
   s.present 0 = true ∧ s.time < cmp + Config.timerLag 0 cmp % 11 ∧ smFind? s.lags 0 = none ∧ smFind? s.lags 1 = none) ∧
  (let s : State := wCs id
   let t : State := (s.ctlSet (o_grvTcmpl 0 0) 5).ctlSet (o_grvTcmph 0 0) 7
   ∀ lag, (t.ctlD (o_grvTcmpl 0 0) 0xFFFFFFFF).toNat + 2 ^ 32 * (t.ctlD (o_grvTcmph 0 0) 0xFFFFFFFF).toNat + lag % 11 < 2 ^ 64) ∧
  (let s : State := wCore (wCs id) 0 (fun c => { c with mce := [3] })
   s.cmpOf 0 = some 0 ∧ s.cmpState 0 ≠ .absent ∧ (s.core 0).fatalMce 5 = true) := by
  refine ⟨⟨by decide +kernel, Nat.lt_add_right _ (by decide +kernel), by decide +kernel⟩, fun lag => ?_, by decide +kernel⟩
  have h : ((((wCs id).ctlSet (o_grvTcmpl 0 0) 5).ctlSet (o_grvTcmph 0 0) 7).ctlD (o_grvTcmpl 0 0) 0xFFFFFFFF).toNat = 5 ∧
    ((((wCs id).ctlSet (o_grvTcmpl 0 0) 5).ctlSet (o_grvTcmph 0 0) 7).ctlD (o_grvTcmph 0 0) 0xFFFFFFFF).toNat = 7 := by decide +kernel
  simp only [h.1, h.2]
  omega

/-- States and operands that meet the hypotheses of each clause of UnderstoreyOperations. -/
theorem witness_UnderstoreyOperations :
  (let w : Word := mkw 60 20 1 0 0
   let s : State := wUst (fun c => { c with grant := some 3 })
   (issuesB s wX w 0 = true) ∧ (56 ≤ opcodeOf w) ∧ ((issued s wX w 0).xEntry 0 w = some ue) ∧
   ((wUst id).xEntry 0 w = some ue ∧ ((wUst id).core 0).mb = [] ∧ ((wUst id).core 0).grant ≠ some ue.ctx)) ∧
  (let s : State := wUst (fun c => { c with held := true, present := some 3 })
   (∀ e ∈ s.cores, groveOf e.1 = 0 → e.2.grant ≠ some 3) ∧ s.nextAccept 0 3 = some (0, s.acceptTime 0 ue)) ∧
  (let s : State := wUst id
   let e : UstEntry := { ue with mem := false }
   s.cmpOf 0 = some 0 ∧ s.recording 0 = false ∧ s.mftMode 0 ≠ 3 ∧ s.ustCfg 0 = some ⟨0, 0, 8, 1, [ue], [], []⟩ ∧ e.mem = false) ∧
  (let s : State := wUst (fun c => { c with xops := [xo1 true none] })
   let xo : XOp := xo1 true none
   s.clocked 0 = true ∧ (s.core 0).xops.find? (·.parked.isNone) = some xo ∧
   ((s.passTo 0 (xo.due - 1)).core 0).xops.find? (·.seq == xo.seq) = some xo ∧
   xo.due ≤ ((s.passTo 0 (xo.due - 1)).core 0).ccyc + 1 ∧
   xo.mem = true ∧ smFind? s.mftc 0 = none ∧ s.mem.waits = [] ∧ ((s.core 0).faults.filter (·.code == 11)).length < 4) ∧
  (let s : State := wUst id
   let xo : XOp := xo1 true none
   xo.outcome = .done (77 : DWord) [] ∧ xo.dstKind = 1 ∧ xo.dropLo = false ∧ xo.dst ≠ 0 ∧ (s.core 0).opW = none ∧ s.present 0 = true) := by
  decide +kernel

/-- States and operands that meet the hypotheses of each clause of FetchFillAndModeChange. -/
theorem witness_FetchFillAndModeChange :
  (let s : State := wSubs (wCs (fun c => { c with fwait := some (0x404, 3) }))
   let c := s.core 0
   let p : Xl := ⟨0x404, false, 0⟩
   (c.run = .running) ∧ (c.ftChange = none) ∧ (c.fwait = some (0x404, 3)) ∧ (0x404 / 64 = 0x400 / 64) ∧
   ((match (s.translateIn 0 (s.coreCtx 0) .fetch 0x404).2.1 with | .ok q => q == p | _ => false) = true) ∧
   ((s.offerFor 0 .fetch p.pa).blocked 0 .fetch p.pa = false)) ∧
  (let s : State := wCs (fun c => { c with ftChange := some true, lim := [(0, 5)], l1i := [5] })
   let c := s.core 0
   (c.ftChange = some true) ∧ (c.run = .running) ∧ (c.mb = []) ∧ (c.prefs = []) ∧ (c.pair = none) ∧ (c.freeze = none) ∧ (c.xops = [])) := by
  decide +kernel

/-- The hypotheses that the clauses of HomeRequests about a free line have in common. -/
def homeOk (s : State) (g line : Nat) : Bool :=
  decide (g < 12) && s.homed line && s.homeFree line && !s.mem.pending g line && !s.moving g (s.homeFor line) &&
    s.tableRoom (s.homeFor line) (s.rankOf g line).cls
/-- States and operands that meet the hypotheses of each clause of HomeRequests. -/
theorem witness_HomeRequests :
  ((wTxn .mrd (wT .rds [])).homed 7 = true ∧ (wTxn .mrd (wT .rds [])).homeFree 7 = false) ∧
  (homeOk w0 0 7 = true ∧ w0.mem.gtag 0 7 = none ∧ w0.mem.dirEnt 7 = none ∧ (w0.victimStart 7).2 = true) ∧
  (∀ e ∈ [(⟨7, .ow, 6, false, 1⟩ : DirEnt), ⟨7, .ex, 2, false, 1⟩, ⟨7, .sh, 6, false, 1⟩],
    let s := wDir [e] [⟨2, 7, .s, 0, true, 2, 0⟩]
    homeOk s 0 7 = true ∧ s.mem.gtag 0 7 = none ∧ s.mem.dirEnt 7 = some e ∧ e.resp ≠ 15 ∧ e.resp ≠ 0 ∧ e.holders ≠ []) ∧
  (let e : DirEnt := ⟨7, .ow, 6, false, 1⟩
   let s := wDir [e] [⟨2, 7, .s, 0, true, 2, 0⟩]
   homeOk s 2 7 = true ∧ s.mem.gtag 2 7 = some ⟨2, 7, .s, 0, true, 2, 0⟩ ∧ s.mem.dirEnt 7 = some e ∧ e.st ≠ .ex ∧ 2 ∈ e.holders) ∧
  (let e : DirEnt := ⟨7, .ex, 1, false, 0⟩
   let s := wDir [e] [⟨0, 7, .m, 0, true, 2, 0⟩]
   homeOk s 0 7 = true ∧ s.mem.gtag 0 7 = some ⟨0, 7, .m, 0, true, 2, 0⟩ ∧ s.mem.dirEnt 7 = some e ∧ e.resp = 0) ∧
  (let s := { wDir [⟨2, .sh, 7, false, 15⟩] [⟨1, 2, .s, 0, true, 2, 0⟩] with links := (wLinks (fun m => { m with version := 20 })).links }
   homeOk s 1 2 = true ∧ s.mem.gtag 1 2 = some ⟨1, 2, .s, 0, true, 2, 0⟩ ∧ s.evHint 1 2 = true) ∧
  ((maskedBytes ((List.range 64).map (fun i => (i, (9 : Byte))))).length = 64) := by
  decide +kernel

/-- States and operands that meet the hypotheses of each clause about HolderMessages of HolderMessages. -/
theorem witness_HolderMessages_HolderMessages :
  (∀ p ∈ [(MsgKind.fwdS 3, true), (.fwdX 3, true), (.fwdC 3, true), (.inv, true), (.binv, true),
          (.fwdS 3, false), (.fwdX 3, false), (.fwdC 3, false), (.inv, false)],
    let s := wMem (wCore (wMsg p.1 p.2) 20 (fun c => { c with l1d := [7, 8] })) (fun m => { m with gpend := [⟨1, 7, .sm, 0⟩] })
    s.groveDeferred 1 7 = false ∧ ⟨p.1, 7, 1⟩ ∈ s.mem.msgs ∧
    (∀ m ∈ s.mem.msgs, m.line = 7 → m.port = 1 → m = ⟨p.1, 7, 1⟩) ∧ (s.mem.gtag 1 7).isSome = p.2 ∧
    ⟨1, 7, .sm, 0⟩ ∈ s.mem.gpend) ∧
  (let s : State := wSpan false
   s.groveDeferred 1 wWin = false ∧ s.spanLine wWin = true ∧ (s.mem.gtag 1 wWin).isSome = true ∧ (∀ m ∈ s.mem.msgs, m.line ≠ wWin)) ∧
  ((wSpan true).groveDeferred 1 wWin = true) := by
  decide +kernel

/-- A set of the Grove cache of Grove 1 in which every way is locked by an open request. -/
def wFull : State := wMem (wTxn (.data .s true) (wT .rds [])) (fun m => { m with
  grove := (List.range 16).map (fun i => ⟨1, 7 + 34816 * (i + 1), .s, i, true, 2, 0⟩)
  gpend := (List.range 16).map (fun i => ⟨1, 7 + 34816 * (i + 1), .is, 0⟩) })
/-- States and operands that meet the hypotheses of each clause about RepliesAndFills of HolderMessages. -/
theorem witness_HolderMessages_RepliesAndFills :
  (∀ p ∈ [(MsgKind.data .s true, ReqKind.rds, []), (.ack false false, .rds, [1, 2]), (.cmp, .rds, []), (.mrd, .rds, []), (.mwr, .evc, [])],
    let txn : Txn := wT p.2.1 p.2.2
    let s : State := wSubs (wTxn p.1 txn)
    s.txnOf 7 = some txn ∧ txn.port = 1 ∧ ⟨p.1, 7, 1⟩ ∈ s.mem.msgs ∧ (∀ m ∈ s.mem.msgs, m.line = 7 → m = ⟨p.1, 7, 1⟩) ∧
    txn.mr = true ∧ s.fullTags 1 7 = false ∧ (s.mem.gtag 1 7).isSome = true ∧ (∀ q ∈ s.mem.gpend, q.grove = 1 → q.line = 7 → q.mark = 0) ∧
    s.mem.waits = [] ∧ s.subAnswers 7 = true ∧ s.mem.poisoned 7 = false ∧ s.mayIssue 7 txn.rank = true ∧ s.queueRoom 7 = true ∧
    (∀ u ∈ s.mem.txns, u.line = 7 → u = txn)) ∧
  (wFull.txnOf 7 = some (wT .rds []) ∧ (wFull.mem.gtag 1 7).isSome = false ∧ wFull.fullTags 1 7 = true) ∧
  (State.reset.mem.waits = [] ∧ State.reset.fabricQuiet = true ∧ State.reset.moesi = true) ∧
  ((wTxn .cmp (wT .rds [])).moesi = true ∧ (wTxn .cmp (wT .rds [])).fabricQuiet = false) := by
  decide +kernel

/-- States and operands that meet the hypotheses of each clause about the partner window of HolderMessages. -/
theorem witness_HolderMessages_PartnerWindow :
  (let s : State := wSpan false
   s.spanLine wWin = true ∧ s.mem.gtag 0 wWin = none ∧ s.moving 0 12 = false ∧ (∀ p ∈ s.mem.gpend, p.line ≠ wWin)) ∧
  (let s : State := wMem (wSpan false) (fun m => { m with gpend := [⟨0, wWin, .im, 0⟩] })
   s.spanLine wWin = true ∧ s.txnOf wWin = none ∧ s.mem.gpend = [⟨0, wWin, .im, 0⟩] ∧ (List.replicate 64 (5 : Byte)).length = 64 ∧
   s.mem.failed = [] ∧ s.mem.Canonical ∧ s.mem.isDirty wWin = false) := by
  decide +kernel

/-- States and operands that meet the hypotheses of each clause about RangeCommands of RangeCommands. -/
theorem witness_RangeCommands_RangeCommands :
  (∀ p ∈ [(wCtl w0 [(oMstartLo false 0 0, 448), (oMlength false 0 0, 3)], true),
          (wCtl w0 [(oMstartHi false 0 0, 0xFFFF), (oMlength false 0 0, 0)], false)],
    let s : State := p.1
    let start := ((s.ctlGet (oMstartLo false 0 0)).toNat + 2 ^ 32 * fget (s.ctlGet (oMstartHi false 0 0)) 15 0) / 64 * 64
    let n := (s.ctlGet (oMlength false 0 0)).toNat
    s.setOk .host false 0 0 = true ∧ s.rangeOf false 0 0 = none ∧
    decide (start + 64 * (if n = 0 then 2 ^ 32 else n) ≤ 2 ^ 42) = p.2) ∧
  (∀ p ∈ [(wR false 5 0, true), (wR true 1 0, false)],
    let s : State := wRange p.1
    s.setOk .host p.1.l3 0 0 = true ∧ s.rangeOf p.1.l3 0 0 = some p.1 ∧ s.rangeTurn p.1.l3 0 0 = some 0 ∧ p.1.walks = false ∧
    decide (p.1.done + 1 < p.1.lines) = p.2) ∧
  (let s : State := wMem w0 (fun m => { m with ranges := [wR false 5 0, { wR false 5 0 with slot := 1 }], engLast := [(engineOf false 0 0, 0)] })
   s.setOk .host false 0 0 = true ∧ s.rangeOf false 0 0 = some (wR false 5 0) ∧ s.rangeTurn false 0 0 ≠ some 0) := by
  decide +kernel

/-- States and operands that meet the hypotheses of each clause about LineActions of RangeCommands. -/
theorem witness_RangeCommands_LineActions :
  (let s : State := wRange (wR false 5 0)
   s.mem.failed = [] ∧ s.mem.Canonical ∧ s.mem.gtag 0 7 = some ⟨0, 7, .m, 0, true, 2, 0⟩) := by
  decide +kernel

/-- States and operands that meet the hypotheses of each clause of DramMaintenance. -/
theorem witness_DramMaintenance :
  (let s : State := { wSubs w0 with dram := Dram.reset }
   s.subState 0 = 1 ∧ s.rankOk 0 0 = true ∧ smGet 0 s.dram.refAt 0 + s.refreshInterval 0 ≤ s.time ∧
   smGet 0 s.dram.mr4At 0 + 16000000 ≤ s.time ∧ s.refreshDue 0 = true) ∧
  (let s : State := wSubs w0
   s.inWindow 0 = true ∧ smGet 0 s.dram.zqAt 0 + 128000000 ≤ s.time ∧ smGet 0 s.dram.oscAt 0 + 16000000 ≤ s.time ∧
   s.batchDue 0 = true ∧ s.batchFits 0 3 = true ∧ s.refreshDue 0 = false ∧ s.mayIssueB 0 = true ∧
   smGet 0 s.dram.scrubAt 0 + s.scrubPeriod 0 / 2 ^ s.board.log2Lines ≤ s.time ∧
   s.mem.poisoned (subLine 0 (smGet 0 s.dram.scrubY 0)) = false) ∧
  (let s : State := wSubs w0
   s.initGranule 0 = some 0 ∧
   ((List.range 32).map (max (smGet 0 s.dram.initAt 0) (0 * 32768) + ·)).find? (fun y => subchannelOf y / 2 == 0) = some 0 ∧
   s.subState (subchannelOf 0) = 1 ∧ s.mayIssueB (subchannelOf 0) = true ∧ s.mem.poisoned 0 = false) := by
  decide +kernel

/-- States and operands that meet the hypotheses of each clause about DramErrors of DramErrors. -/
theorem witness_DramErrors_DramErrors :
  (let s : State := { wSubs w0 with dram := { Dram.reset with fresh := [], wq := [(subchannelOf 7, [(7, ⟨2, 0, 0, 0⟩)])] } }
   s.mem.poisoned 7 = false ∧ s.freshLine 7 = false ∧ (∃ e ∈ smGet [] s.dram.wq (subchannelOf 7), e.1 = 7)) ∧
  (let s : State := { wSubs w0 with dram := { Dram.reset with fresh := [] } }
   s.mem.poisoned 7 = false ∧ s.freshLine 7 = false ∧ ¬(∃ e ∈ smGet [] s.dram.wq (subchannelOf 7), e.1 = 7)) ∧
  (lineClass [] = .clean ∧ lineClass [hsiao 3] = .corrected 1 (hsiao 3) ∧ lineClass [3, 0, 0] = .uncorrectable 1 3 [0] ∧
   lineClass (List.replicate 8 255) = .poison) ∧
  (let s : State := { wSubs w0 with dram := { Dram.reset with fresh := [], drift := [0], ue := [(15, List.replicate 4 w0.time)] } }
   s.fabricQuiet = true ∧ s.subState 0 = 1 ∧ s.retrainDue 0 = true) ∧
  (let s : State := { (wSubs w0).setSub 0 2 with dram := { Dram.reset with fresh := [], fails := [(0, 2)] } }
   s.fabricQuiet = true ∧ s.subState 0 = 2 ∧ smGet 0 s.dram.fails 0 = 2) := by
  decide +kernel

/-- States and operands that meet the hypotheses of each clause about DramPlacesDiffer of DramErrors. -/
theorem witness_DramErrors_DramPlacesDiffer :
  (let b : Board := w0.board
   9 + b.ranks2.toNat + 8 ≤ b.log2Lines ∧ 0 < 2 ^ (b.log2Lines + 4) ∧ b.place 0 = b.place 0) := by
  decide +kernel

/-- States and operands that meet the hypotheses of each clause of ShaperAcceptance. -/
theorem witness_ShaperAcceptance :
  (let s : State := wShape (wCon 1600 4 2) (wReq 3 0 [3]) []
   let k : Nat := 3
   let i : Nat := 0
   let q : HeldReq := wReq 3 0 [3]
   (k ≠ 6) ∧
   (s.heldOf k i = some q) ∧
   (s.covering q true = none) ∧
   (s.covering q false = none)) ∧
  (let s : State := wShape (wCon 1600 4 2) (wReq 2 0 []) []
   let k : Nat := 2
   let i : Nat := 0
   let q : HeldReq := wReq 2 0 []
   (k ≠ 6) ∧
   (s.heldOf k i = some q) ∧
   let ci := 0
   let c : Contract := wCon 1600 4 2
   let n := 0
   (k ≠ 1) ∧
   (s.covering q true = some (ci, c)) ∧
   (s.covering q false = none) ∧
   (s.waitFor ci c q = some n) ∧
   (q.items.Nodup) ∧
   ((∀ b ∈ s.buckets, b.at_ ≤ s.time)) ∧
   (1 ≤ c.burst q.write)) := by
  decide +kernel

/-- States and operands that meet the hypotheses of each clause about ChartOperations of ChartOperations. -/
theorem witness_ChartOperations_ChartOperations :
  (let s : State := wStew
   let who : Sender := Sender.host
   let n : Nat := 2
   (s.chtReach who = true) ∧
   (s.cht = none) ∧
   (n < 32) ∧
   (s.cmpSec n = none)) ∧
  (let s : State := wStew
   let who : Sender := Sender.host
   let n : Nat := 0
   (s.chtReach who = true) ∧
   (s.cht = none) ∧
   (n < 32) ∧
   let known := (s.cmpSec n).isSome = true ∧ s.mayName (s.submitter who) n = true
   (known) ∧
   (s.cmpState n = .running)) ∧
  (let s : State := wStew
   let who : Sender := Sender.host
   let n : Nat := 1
   (s.chtReach who = true) ∧
   (s.cht = none) ∧
   (n < 32) ∧
   let known := (s.cmpSec n).isSome = true ∧ s.mayName (s.submitter who) n = true
   (known) ∧
   ((s.cmpState n = .stopped ∨ s.cmpState n = .halted)) ∧
   (s.mayRaise n = true)) ∧
  (let s : State := wStew
   let who : Sender := Sender.host
   let n : Nat := 1
   (s.chtReach who = true) ∧
   (s.cht = none) ∧
   (n < 32) ∧
   let known := (s.cmpSec n).isSome = true ∧ s.mayName (s.submitter who) n = true
   (known) ∧
   (s.cmpState n = .stopped) ∧
   (s.mayRaise n = true)) := by
  decide +kernel

/-- States and operands that meet the hypotheses of each clause about ChartProgress of ChartOperations. -/
theorem witness_ChartOperations_ChartProgress :
  (let s : State := wCht (wOp .stop 0 [1]) .stopping
   let op : ChtOp := wOp .stop 0 [1]
   (s.cht = some op) ∧
   (op.full = false) ∧
   (op.step ≤ 7) ∧
   (op.kind = .stop) ∧
   (s.chtStoppable op = true)) ∧
  (let s : State := wCht (wOp .apply 6 [1]) .changing
   let op : ChtOp := wOp .apply 6 [1]
   (s.cht = some op) ∧
   (op.full = false) ∧
   (op.step ≤ 7) ∧
   (op.kind = .apply) ∧
   (op.step = 6) ∧
   (s.paired op = false)) ∧
  (let s : State := wCht (wOp .apply 7 [1]) .changing
   let op : ChtOp := wOp .apply 7 [1]
   (s.cht = some op) ∧
   (op.full = false) ∧
   (op.step ≤ 7) ∧
   (op.kind = .apply) ∧
   (op.step = 7)) ∧
  (let s : State := { wPair with cht := some (wOp .apply 6 [0]), cmps := [(0, .changing)] }
   let op : ChtOp := wOp .apply 6 [0]
   (s.cht = some op) ∧
   (op.full = false) ∧
   (op.step ≤ 7) ∧
   (op.step = 6) ∧
   (s.paired op = true) ∧
   (s.live.pairIndex = 1)) ∧
  (let s : State := { wPair with cht := some (wOp .apply 4 [0]), cmps := [(0, .changing)] }
   let op : ChtOp := wOp .apply 4 [0]
   (s.cht = some op) ∧
   (op.full = false) ∧
   (op.step ≤ 7) ∧
   (op.step < 6) ∧
   (s.paired op = true) ∧
   (op.partner ≠ some op.update.digest) ∧
   (op.go + 5000000 ≤ s.time)) ∧
  (let s : State := wCht (wOp .stop 0 [1]) .stopping
   let op : ChtOp := wOp .stop 0 [1]
   (s.cht = some op) ∧
   (op.full = false) ∧
   (op.step ≤ 7) ∧
   let who := Sender.host
   (op.step < 6) ∧
   (s.chtReach who = true) ∧
   (fget (s.ctlGet o_chtCtrl) 27 24 ≤ 4)) := by
  decide +kernel

/-- States and operands that meet the hypotheses of each clause about QueueCommands of Queues. -/
theorem witness_Queues_QueueCommands :
  (let s : State := wQs [(0, { Queue.reset with regs := [(0x20, 0x88000000), (0x24, 0x10000), (0x2C, 0x20000)] })]
   let who : Sender := Sender.host
   let q : Nat := 0
   (s.selected who = some q) ∧
   let x := s.queue q
   (x.st = 0) ∧
   (s.contextOk q = true)) ∧
  (let s : State := wQs [(0, wQu 3 0 5 2 1 0 0x10000), (1, wQu 4 1 3 3 0 0 0x20000)]
   let who : Sender := Sender.host
   let q : Nat := 0
   (s.selected who = some q) ∧
   let x := s.queue q
   (x.st = 0) ∧
   (s.contextOk q = false)) ∧
  (let s : State := wQs [(0, wQu 3 2 5 2 1 0 0x10000)]
   let who : Sender := Sender.host
   let q : Nat := 0
   (s.selected who = some q) ∧
   let x := s.queue q
   (x.st = 2) ∧
   (s.causePersists q = false)) ∧
  (let s : State := wQs [(0, wQu 3 1 5 2 1 0 0x10000)]
   let who : Sender := Sender.host
   let q : Nat := 0
   (s.selected who = some q) ∧
   let x := s.queue q
   (x.st = 1)) := by
  decide +kernel

/-- States and operands that meet the hypotheses of each clause about Doorbells of Queues. -/
theorem witness_Queues_Doorbells :
  (let s : State := wQs []
   let who : Sender := Sender.host
   let q : Nat := 0
   let index : Nat := 0
   (s.reach who o_qmDb = true) ∧
   (s.reach who o_qmDbarm = true) ∧
   (q < 65536) ∧
   (index < 65536) ∧
   let x := s.queue q
   let mine := who = .host ∨ s.qOwner q = s.senderCmp who
   (¬mine ∨ x.st = 0)) ∧
  (let s : State := wQs [(0, wQu 3 1 5 2 1 0 0x10000), (1, wQu 4 1 3 4 0 0 0x20000), (2, wQu 2 1 3 4 0 0 0x20000)]
   let who : Sender := Sender.host
   let q : Nat := 0
   let index : Nat := 0
   (s.reach who o_qmDb = true) ∧
   (s.reach who o_qmDbarm = true) ∧
   (q < 65536) ∧
   (index < 65536) ∧
   let x := s.queue q
   let mine := who = .host ∨ s.qOwner q = s.senderCmp who
   let inside := x.heldAt index ≤ x.size ∧ (index + 65536 - x.sw) % 65536 ≤ x.size
   (mine ∧ x.st ≠ 0 ∧ ¬inside)) ∧
  (let s : State := wQs [(0, wQu 3 1 5 2 1 0 0x10000), (1, wQu 4 1 3 4 0 0 0x20000), (2, wQu 2 1 3 4 0 0 0x20000)]
   let who : Sender := Sender.host
   let q : Nat := 0
   let index : Nat := 5
   (s.reach who o_qmDb = true) ∧
   (s.reach who o_qmDbarm = true) ∧
   (q < 65536) ∧
   (index < 65536) ∧
   let x := s.queue q
   let mine := who = .host ∨ s.qOwner q = s.senderCmp who
   let inside := x.heldAt index ≤ x.size ∧ (index + 65536 - x.sw) % 65536 ≤ x.size
   (mine ∧ x.st ≠ 0 ∧ inside ∧ x.kind ≠ 2) ∧
   (x.produced = true ∨ x.heldAt index = 0)) ∧
  (let s : State := wQs [(0, wQu 3 1 5 2 1 0 0x10000), (1, wQu 4 1 3 4 0 0 0x20000), (2, wQu 2 1 3 4 0 0 0x20000)]
   let who : Sender := Sender.host
   let q : Nat := 1
   let index : Nat := 3
   (s.reach who o_qmDb = true) ∧
   (s.reach who o_qmDbarm = true) ∧
   (q < 65536) ∧
   (index < 65536) ∧
   let x := s.queue q
   let mine := who = .host ∨ s.qOwner q = s.senderCmp who
   let inside := x.heldAt index ≤ x.size ∧ (index + 65536 - x.sw) % 65536 ≤ x.size
   (mine ∧ x.st ≠ 0 ∧ inside ∧ x.kind ≠ 2) ∧
   (x.produced = false ∧ x.heldAt index ≠ 0 ∧ x.nEn = true)) := by
  decide +kernel

/-- States and operands that meet the hypotheses of each clause about MessageDeliveries of MessagesAndEngines. -/
theorem witness_MessagesAndEngines_MessageDeliveries :
  (let s : State := wMail 0 0 3 id
   let q : Nat := 0
   let x := s.queue q
   let r := s.queue x.arg
   (q < 65536) ∧
   (x.st = 1) ∧
   (x.kind = 3) ∧
   (x.held ≠ 0) ∧
   (s.recHeld q = false) ∧
   (s.mem.poisoned (lineOf x.entryAt) = false) ∧
   (r.st ≠ 1)) ∧
  (let s : State := wMail 1 5 3 id
   let q : Nat := 0
   let x := s.queue q
   let r := s.queue x.arg
   (q < 65536) ∧
   (x.st = 1) ∧
   (x.kind = 3) ∧
   (x.held ≠ 0) ∧
   (s.recHeld q = false) ∧
   (s.mem.poisoned (lineOf x.entryAt) = false) ∧
   (r.st = 1) ∧
   (r.kind ≠ 4 ∨ r.other ≠ q)) ∧
  (let s : State := wMail 1 0 3 (fun m => { m with dram := (List.range 200).map (fun i => (0x10000 + i, BitVec.ofNat 9 (i + 1))) })
   let q : Nat := 0
   let x := s.queue q
   let r := s.queue x.arg
   (q < 65536) ∧
   (x.st = 1) ∧
   (x.kind = 3) ∧
   (x.held ≠ 0) ∧
   (s.recHeld q = false) ∧
   (s.mem.poisoned (lineOf x.entryAt) = false) ∧
   (r.st = 1) ∧
   (r.kind = 4) ∧
   (r.other = q) ∧
   (r.full = false) ∧
   (x.okRec = false) ∧
   (s.mem.failed = []) ∧
   (s.mem.Canonical) ∧
   ((∀ n < 64, s.recording n = false)) ∧
   (r.entryAt % 64 = 0) ∧
   (x.shadow / 64 ≠ r.entryAt / 64) ∧
   ((x.shadow + 3) / 64 ≠ r.entryAt / 64) ∧
   (r.shadow / 64 ≠ r.entryAt / 64) ∧
   ((r.shadow + 3) / 64 ≠ r.entryAt / 64)) ∧
  (let s : State := wMail 1 0 7 id
   let q : Nat := 0
   let x := s.queue q
   (q < 65536) ∧
   (x.st = 1) ∧
   (x.kind = 3) ∧
   (x.held ≠ 0) ∧
   (s.recHeld q = false) ∧
   (s.mem.poisoned (lineOf x.entryAt) = false) ∧
   let status := 17
   (s.messageFate q = some status) ∧
   (status ≠ 0)) ∧
  (let s : State := { wQs [(0, { wQu 3 1 5 2 1 0 0x10000 with regs := (0x20, 0x65A00000) :: (wQu 3 1 5 2 1 0 0x10000).regs.drop 1 }), (1, wQu 4 1 3 7 0 0 0x20000)] with time := 5 }
   let q : Nat := 0
   let x := s.queue q
   (q < 65536) ∧
   (x.st = 1) ∧
   (x.kind = 3) ∧
   (x.held ≠ 0) ∧
   (s.recHeld q = false) ∧
   (s.mem.poisoned (lineOf x.entryAt) = false) ∧
   (s.messageFate q = none)) := by
  decide +kernel

/-- States and operands that meet the hypotheses of each clause about EngineWork of MessagesAndEngines. -/
theorem witness_MessagesAndEngines_EngineWork :
  (let s : State := wEng 1 (wDesc 1 0 0x30030 100 0x123456789) 0 (wQu 1 1 5 2 0 0 0x10000)
   let e : Nat := 0
   let n : Nat := 0
   (e < 64) ∧
   (s.eOwner e = some n) ∧
   let x := s.engine e
   let d := x.d
   let da := d.dst + x.done
   let shaped := s.live.contracts ≠ [] ∨ s.held ≠ [] ∨ s.flight ≠ []
   (x.st = 1) ∧
   (d.op ≤ 1) ∧
   (d.srcSp = 0) ∧
   (d.dstSp = 0) ∧
   (x.done < d.length) ∧
   (s.dmaMay n da true = true) ∧
   (¬shaped) ∧
   (s.recording n = false) ∧
   (s.mem.failed = []) ∧
   (s.mem.Canonical) ∧
   (d.op = 1)) ∧
  (let s : State := wEng 1 (wDesc 0 0x10005 0x30030 100 0) 0 (wQu 1 1 5 2 0 0 0x10000)
   let e : Nat := 0
   let n : Nat := 0
   (e < 64) ∧
   (s.eOwner e = some n) ∧
   let x := s.engine e
   let d := x.d
   let da := d.dst + x.done
   let sa := d.src + x.done
   let shaped := s.live.contracts ≠ [] ∨ s.held ≠ [] ∨ s.flight ≠ []
   (x.st = 1) ∧
   (d.op ≤ 1) ∧
   (d.srcSp = 0) ∧
   (d.dstSp = 0) ∧
   (x.done < d.length) ∧
   (s.dmaMay n da true = true) ∧
   (¬shaped) ∧
   (s.recording n = false) ∧
   (s.mem.failed = []) ∧
   (s.mem.Canonical) ∧
   (d.op = 0) ∧
   (s.dmaMay n sa false = true) ∧
   (s.mem.poisoned (lineOf sa) = false)) ∧
  (let s : State := wEng 1 (wDesc 2 0 0 0 0) 0 (wQu 1 1 5 2 0 0 0x10000)
   let e : Nat := 0
   let n : Nat := 0
   (e < 64) ∧
   (s.eOwner e = some n) ∧
   let x := s.engine e
   let d := x.d
   (x.st = 1) ∧
   (d.op = 2)) ∧
  (let s : State := wMem (wEng 0 [] 0 (wQu 1 1 5 2 0 0 0x40000)) (fun m => { m with dram := (List.range 128).map (fun i => (0x40000 + i, 0x1FF)) })
   let e : Nat := 0
   let n : Nat := 0
   (e < 64) ∧
   (s.eOwner e = some n) ∧
   let x := s.engine e
   let q := 0
   (x.st = 0) ∧
   (s.nextQueue e = some q) ∧
   ((s.queue q).kind = 1) ∧
   (s.mem.poisoned (lineOf (s.queue q).entryAt) = false) ∧
   (3 ≤ (descOf (s.descAt q)).op)) ∧
  (let s : State := wEng 2 (wDesc 1 0 0x30030 100 0) 16 (wQu 1 1 5 2 0 0 0x10000)
   let e : Nat := 0
   let n : Nat := 0
   (e < 64) ∧
   (s.eOwner e = some n) ∧
   let x := s.engine e
   let who := Sender.host
   (s.reach who (o_engCtrl e) = true) ∧
   (x.st = 2)) := by
  decide +kernel

/-- States and operands that meet the hypotheses of each clause about CompletionRecords of MessagesAndEngines. -/
theorem witness_MessagesAndEngines_CompletionRecords :
  (let s : State := wQs [(0, wQu 1 1 5 2 0 3 0x10000), (3, wQu 2 1 3 4 0 0 0x20000)]
   let r : HeldRec := { src := 10, cq := 3, engine := none, words := [] }
   let x := s.queue r.cq
   let fits := x.st ≠ 0 ∧ x.kind = 2 ∧ s.qOwner r.cq = s.qOwner r.src ∧ (s.qOwner r.cq).isSome = true
   (¬fits)) ∧
  (let s : State := wQs [(0, wQu 1 1 5 2 0 3 0x10000), (3, wQu 2 1 0 4 0 0 0x20000)]
   let r : HeldRec := ({ src := 0, cq := 3, engine := some 0, words := [1, 2, 3, 4, 5, 6, 7, 8] } : HeldRec)
   let x := s.queue r.cq
   let fits := x.st ≠ 0 ∧ x.kind = 2 ∧ s.qOwner r.cq = s.qOwner r.src ∧ (s.qOwner r.cq).isSome = true
   (fits) ∧
   (x.full = true)) ∧
  (let s : State := wQs [(0, wQu 1 1 5 2 0 3 0x10000), (3, wQu 2 1 3 4 0 0 0x20000)]
   let r : HeldRec := ({ src := 0, cq := 3, engine := some 0, words := [1, 2, 3, 4, 5, 6, 7, 8] } : HeldRec)
   let x := s.queue r.cq
   let fits := x.st ≠ 0 ∧ x.kind = 2 ∧ s.qOwner r.cq = s.qOwner r.src ∧ (s.qOwner r.cq).isSome = true
   (fits) ∧
   (x.full = false) ∧
   ((∀ h ∈ s.qm.recs, h.cq ≠ r.cq))) := by
  decide +kernel

/-- States and operands that meet the hypotheses of each clause about FramesReceived of NetworkFrames. -/
theorem witness_NetworkFrames_FramesReceived :
  (let s : State := wNt []
   let port : Nat := 0
   let busy : Nat := 9217
   (port < 16) ∧
   (s.portUp port = true) ∧
   (9216 < busy)) ∧
  (let s : State := wNt []
   let port : Nat := 0
   let fcs : Bool := false
   let busy : Nat := 0
   (port < 16) ∧
   (s.portUp port = true) ∧
   (busy ≤ 9216 ∧ fcs = false)) ∧
  (let s : State := wNt []
   let port : Nat := 0
   let octs : List Nat := [1, 2, 3]
   let fcs : Bool := true
   let busy : Nat := 0
   (port < 16) ∧
   (s.portUp port = true) ∧
   let len := octs.length + 4
   (busy ≤ 9216 ∧ fcs = true ∧ len < 64)) ∧
  (let s : State := wNt []
   let port : Nat := 0
   let octs : List Nat := List.replicate 9300 0
   let fcs : Bool := true
   let busy : Nat := 0
   (port < 16) ∧
   (s.portUp port = true) ∧
   let len := octs.length + 4
   (busy ≤ 9216 ∧ fcs = true ∧ 9216 < len)) ∧
  (let s : State := wNt []
   let port : Nat := 0
   let octs : List Nat := wFr 1
   let fcs : Bool := true
   let frag : Bool := false
   let busy : Nat := 0
   (port < 16) ∧
   (s.portUp port = true) ∧
   let len := octs.length + 4
   (busy ≤ 9216 ∧ fcs = true ∧ 64 ≤ len ∧ len ≤ 9216 ∧ frag = false)) ∧
  (let s : State := wNt []
   let port : Nat := 0
   let octs : List Nat := wFr 1
   let fcs : Bool := true
   let frag : Bool := true
   let busy : Nat := 0
   (port < 16) ∧
   (s.portUp port = true) ∧
   let len := octs.length + 4
   let good := busy ≤ 9216 ∧ fcs = true ∧ 64 ≤ len ∧ len ≤ 9216 ∧ frag = true
   (good) ∧
   (s.netSec port = none)) ∧
  (let s : State := wNt [(0, wNsec 0 0xFFFF 0 2 0 0)]
   let port : Nat := 0
   let octs : List Nat := wFr 2
   let fcs : Bool := true
   let frag : Bool := true
   let busy : Nat := 0
   (port < 16) ∧
   (s.portUp port = true) ∧
   let o := octs.map (· % 256)
   let len := octs.length + 4
   let good := busy ≤ 9216 ∧ fcs = true ∧ 64 ≤ len ∧ len ≤ 9216 ∧ frag = true
   let sec : List Nat := wNsec 0 0xFFFF 0 2 0 0
   (good) ∧
   (s.netSec port = some sec) ∧
   (netMacsec sec = false) ∧
   let f := parseTags (netPvid sec) (netDefPcp sec) o
   (findRule sec o f.vid = none)) ∧
  (let s : State := wNt [(0, wNsec 0 0xFFFF 0 2 0 0)]
   let port : Nat := 0
   let octs : List Nat := wFr 1
   let fcs : Bool := true
   let frag : Bool := true
   let busy : Nat := 0
   (port < 16) ∧
   (s.portUp port = true) ∧
   let o := octs.map (· % 256)
   let len := octs.length + 4
   let good := busy ≤ 9216 ∧ fcs = true ∧ 64 ≤ len ∧ len ≤ 9216 ∧ frag = true
   let sec : List Nat := wNsec 0 0xFFFF 0 2 0 0
   (good) ∧
   (s.netSec port = some sec) ∧
   (netMacsec sec = false) ∧
   let f := parseTags (netPvid sec) (netDefPcp sec) o
   let j := 0
   let r : InRule := netIn (wNsec 0 0xFFFF 0 2 0 0) 0
   let q := 1
   (findRule sec o f.vid = some (j, r)) ∧
   (r.stream = 0xFFFF) ∧
   (q < 16) ∧
   (q ≠ port) ∧
   (r.ports = 2 ^ q) ∧
   (s.portUp q = true) ∧
   (s.egressRoom q f.pcp (s.wireOn q o) = true)) := by
  decide +kernel

/-- States and operands that meet the hypotheses of each clause about FramesSent of NetworkFrames. -/
theorem witness_NetworkFrames_FramesSent :
  (let s : State := wCtl (wOut 1 511) [(o_nswPortstat 0, 0x20000000)]
   let q : Nat := 0
   let p : Nat := 0
   let sec : List Nat := wNsec 0 0xFFFF 0 2 0 1
   let r : EgRule := netEg (wNsec 0 0xFFFF 0 2 0 1) 0
   let x := s.queue q
   let pa := x.entryAt
   let buf := s.mem.read pa 4 + 2 ^ 36 * (s.mem.read (pa + 4) 4 % 64)
   let len := s.mem.read (pa + 8) 4
   let mac := macExtra (some sec) (buildFrame r 0 0 (s.mem.octets (x.pack == 2) buf 0 14))
   let w := max 64 (len + (if r.untagged then 0 else 4) + (if r.rtag then 6 else 0) + 4 + mac)
   (q < 65536) ∧
   (x.st = 1) ∧
   (x.kind = 6) ∧
   (s.outWaiting q = 0) ∧
   (x.held ≠ 0) ∧
   (s.mem.poisoned (lineOf pa) = false) ∧
   (s.egressOf x.other = some (p, sec, r)) ∧
   (w ≤ 9216) ∧
   (len ≤ 9200) ∧
   (s.portUp p = false)) ∧
  (let s : State := wOut 0 100
   let q : Nat := 0
   let p : Nat := 0
   let sec : List Nat := wNsec 0 0xFFFF 0 2 0 0
   let r : EgRule := netEg (wNsec 0 0xFFFF 0 2 0 0) 0
   let x := s.queue q
   let pa := x.entryAt
   let buf := s.mem.read pa 4 + 2 ^ 36 * (s.mem.read (pa + 4) 4 % 64)
   let len := s.mem.read (pa + 8) 4
   let mac := macExtra (some sec) (buildFrame r 0 0 (s.mem.octets (x.pack == 2) buf 0 14))
   let w := max 64 (len + (if r.untagged then 0 else 4) + (if r.rtag then 6 else 0) + 4 + mac)
   (q < 65536) ∧
   (x.st = 1) ∧
   (x.kind = 6) ∧
   (s.outWaiting q = 0) ∧
   (x.held ≠ 0) ∧
   (s.mem.poisoned (lineOf pa) = false) ∧
   (s.egressOf x.other = some (p, sec, r)) ∧
   (w ≤ 9216) ∧
   (len ≤ 9200) ∧
   (s.portUp p = true) ∧
   (x.pack ≠ 2) ∧
   (12 ≤ len) ∧
   ((∃ n < 40, s.qOwner q = some n ∧ s.ownsRange n buf len = true)) ∧
   (s.mem.poison = []) ∧
   (s.mem.lost = []) ∧
   (s.mem.failed = []) ∧
   (s.egressRoom p r.tc w = true) ∧
   (s.live.contracts = [])) ∧
  (let s : State := wTx [(3, [⟨[1, 2, 3], 64, none, none⟩, ⟨[4], 64, none, none⟩])]
   let p : Nat := 0
   let c : Nat := 3
   let f : NetFrame := (⟨[1, 2, 3], 64, none, none⟩ : NetFrame)
   let rest : List NetFrame := [⟨[4], 64, none, none⟩]
   let x := s.port p
   (p < 16) ∧
   (s.portUp p = true) ∧
   (s.netSec p = none) ∧
   (x.list = []) ∧
   (x.part = none) ∧
   (x.curEnd ≤ s.time) ∧
   (c < 8) ∧
   (smGet [] x.queues c = f :: rest) ∧
   ((∀ d < 8, c < d → smGet [] x.queues d = [])) ∧
   (f.ent = none)) := by
  decide +kernel

/-- States and operands that meet the hypotheses of each clause of NetworkControl. -/
theorem witness_NetworkControl :
  (let s : State := wNet
   let port : Nat := 0
   (port < 16) ∧
   let x := s.port port
   let g : Gate := ⟨2, 2, 300⟩
   (x.next = none) ∧
   (x.list ≠ []) ∧
   (x.gateEnd ≤ s.gptp) ∧
   (x.list[x.succ]? = some g)) ∧
  (let port : Nat := 0
   (port < 16)) ∧
  (let s : State := wNet
   let port : Nat := 0
   (port < 16) ∧
   let b := true
   (fbit (s.ctlGet o_nswStatus) 30 ≠ b)) ∧
  (let s : State := wNet
   let port : Nat := 0
   (port < 16) ∧
   let k := 0
   (s.reach (.core k) o_nswTevent = true)) ∧
  (let s : State := wNet
   let port : Nat := 0
   (port < 16) ∧
   let who := Sender.host
   (s.reach who (o_nswMscmd port) = true)) ∧
  (let s : State := wCtl wNet [(o_nswPortstat 0, 0x20000000), (o_nswPortstat 15, 0x20000000)]
   let port : Nat := 0
   (port < 16) ∧
   (s.portRate port ≠ 0) ∧
   (s.portState port = 1)) ∧
  (let s : State := wNet
   let port : Nat := 0
   (port < 16) ∧
   (s.pwr.phase = .run)) := by
  decide +kernel

/-- States and operands that meet the hypotheses of each clause of HostMemory. -/
theorem witness_HostMemory :
  (let s : State := wHost
   let v : Nat := 0
   let off : Nat := 8191
   let octs : List Nat := [1, 2, 3, 4]
   (v < 32) ∧
   (octs ≠ []) ∧
   (fbit (s.ctlGet o_hepStatus) 30 = true) ∧
   (s.credited = true) ∧
   let w := off / 2 ^ 28 % 256
   let o := off % 2 ^ 28
   let x := s.win v w
   let n := octs.length
   let writeOpen := s.winOpen v w o n = true ∧ x.wr = true
   (¬writeOpen)) ∧
  (let s : State := wHost
   let v : Nat := 0
   let off : Nat := 0
   let octs : List Nat := [1]
   (v < 32) ∧
   (octs ≠ []) ∧
   (fbit (s.ctlGet o_hepStatus) 30 = true) ∧
   (s.credited = true) ∧
   let w := off / 2 ^ 28 % 256
   let o := off % 2 ^ 28
   let x := s.win v w
   let n := octs.length
   let writeOpen := s.winOpen v w o n = true ∧ x.wr = true
   let clean := s.mem.failed = [] ∧ s.mem.poison = [] ∧ s.mem.lost = [] ∧ s.mem.Canonical
   let plain := x.bell = false ∧ x.pack = 1 ∧ s.live.contracts = []
   (writeOpen ∧ plain ∧ clean) ∧
   (s.winMft v x o n = false) ∧
   (smGet [] s.hep.hold v = []) ∧
   ((∀ c < 64, s.recording c = false))) ∧
  (let s : State := wHost
   let v : Nat := 0
   let off : Nat := 2 * 2 ^ 28
   let octs : List Nat := [1, 2, 3, 4]
   (v < 32) ∧
   (octs ≠ []) ∧
   (fbit (s.ctlGet o_hepStatus) 30 = true) ∧
   (s.credited = true) ∧
   let w := off / 2 ^ 28 % 256
   let o := off % 2 ^ 28
   let x := s.win v w
   let n := octs.length
   let writeOpen := s.winOpen v w o n = true ∧ x.wr = true
   (writeOpen) ∧
   (x.bell = true) ∧
   (n = 4) ∧
   (o = 0) ∧
   (smGet [] s.hep.hold v = [])) ∧
  (let s : State := wHost
   let v : Nat := 0
   let off : Nat := 2 ^ 28
   let octs : List Nat := [1]
   (v < 32) ∧
   (octs ≠ []) ∧
   (fbit (s.ctlGet o_hepStatus) 30 = true) ∧
   (s.credited = true) ∧
   let w := off / 2 ^ 28 % 256
   let o := off % 2 ^ 28
   let x := s.win v w
   let n := octs.length
   let readOpen := s.winOpen v w o n = true ∧ x.rd = true
   ((∀ e ∈ s.hep.hold, e.2 = [])) ∧
   (¬readOpen)) ∧
  (let s : State := wHost
   let v : Nat := 0
   let off : Nat := 0
   let octs : List Nat := [1]
   (v < 32) ∧
   (octs ≠ []) ∧
   (fbit (s.ctlGet o_hepStatus) 30 = true) ∧
   (s.credited = true) ∧
   let w := off / 2 ^ 28 % 256
   let o := off % 2 ^ 28
   let x := s.win v w
   let n := octs.length
   let readOpen := s.winOpen v w o n = true ∧ x.rd = true
   let clean := s.mem.failed = [] ∧ s.mem.poison = [] ∧ s.mem.lost = [] ∧ s.mem.Canonical
   let plain := x.bell = false ∧ x.pack = 1 ∧ s.live.contracts = []
   ((∀ e ∈ s.hep.hold, e.2 = [])) ∧
   (readOpen ∧ plain ∧ clean) ∧
   (n ≤ 128 - off % 128)) := by
  decide +kernel

/-- States and operands that meet the hypotheses of each clause about HostRegisters of HostRegisters. -/
theorem witness_HostRegisters_HostRegisters :
  (let s : State := { wHost with hep := { wHost.hep with ready := false } }
   let fn : Nat := 0
   let off : Nat := 0
   (fn < 33) ∧
   (off < 4096) ∧
   (off % 4 = 0) ∧
   (fbit (s.ctlGet o_hepStatus) 30 = true) ∧
   (s.hep.ready = false ∨ s.inFlr fn = true)) ∧
  (let s : State := wPwr { wHost with hep := { wHost.hep with cfg := [(4, 0x00100006), (4096 + 0x270, 3), (4096 + 0x268, 9)] } } (fun p => { p with phase := .stopped })
   let fn : Nat := 10
   let off : Nat := 0
   (fn < 33) ∧
   (off < 4096) ∧
   (off % 4 = 0) ∧
   (fbit (s.ctlGet o_hepStatus) 30 = true) ∧
   let there := fn < 2 ∨ s.vfOn fn = true
   (s.hep.ready = true ∧ s.inFlr fn = false) ∧
   (¬there)) ∧
  (let s : State := wHost
   let fn : Nat := 0
   let off : Nat := 0
   (fn < 33) ∧
   (off < 4096) ∧
   (off % 4 = 0) ∧
   (fbit (s.ctlGet o_hepStatus) 30 = true) ∧
   let there := fn < 2 ∨ s.vfOn fn = true
   (s.hep.ready = true ∧ s.inFlr fn = false) ∧
   (there) ∧
   (off ≠ 0x270) ∧
   let v := 0
   (v < 2 ^ 32)) ∧
  (let s : State := wHost
   let fn : Nat := 0
   let off : Nat := 0
   (fn < 33) ∧
   (off < 4096) ∧
   (off % 4 = 0) ∧
   (fbit (s.ctlGet o_hepStatus) 30 = true) ∧
   let a := 0
   (a < 0x1000000) ∧
   (a % 4 = 0) ∧
   (∀ e ∈ s.hep.hold, e.2 = []) ∧
   (s.bar0Open 0 a = false)) ∧
  (let s : State := { wHost with hep := { wHost.hep with flr := [1], cfg := (4, 0x00100006) :: wHost.hep.cfg } }
   let fn : Nat := 0
   let off : Nat := 0
   (fn < 33) ∧
   (off < 4096) ∧
   (off % 4 = 0) ∧
   (fbit (s.ctlGet o_hepStatus) 30 = true) ∧
   let a := 0
   let dws := 1
   let be := 0
   (a < 0x1000000) ∧
   (a % 4 = 0) ∧
   (∀ e ∈ s.hep.hold, e.2 = []) ∧
   (s.bar0Open 0 a = true) ∧
   (¬(dws = 1 ∧ be = 15))) ∧
  (let s : State := { wHost with hep := { wHost.hep with flr := [1], cfg := (4, 0x00100006) :: wHost.hep.cfg } }
   let fn : Nat := 0
   let off : Nat := 0
   (fn < 33) ∧
   (off < 4096) ∧
   (off % 4 = 0) ∧
   (fbit (s.ctlGet o_hepStatus) 30 = true) ∧
   let a := 0
   (a < 0x1000000) ∧
   (a % 4 = 0) ∧
   (a / 0x10000 ≠ 0x1E) ∧
   (a / 0x10000 ≠ 0x1F) ∧
   (∀ e ∈ s.hep.hold, e.2 = []) ∧
   (s.bar0Open 0 a = true)) := by
  decide +kernel

/-- States and operands that meet the hypotheses of each clause about HostWindows of HostRegisters. -/
theorem witness_HostRegisters_HostWindows :
  (let s : State := wHost
   let who : Sender := Sender.host
   let v : Nat := 0
   let win : Nat := 0
   (v < 32) ∧
   (win < 256) ∧
   let w := s.writerId who
   (s.reach who o_hepWsel = true) ∧
   ((w = 32 ∨ s.fOwner v = some w))) ∧
  (let s : State := wHost
   let who : Sender := .core 0
   let v : Nat := 2
   let win : Nat := 0
   (v < 32) ∧
   (win < 256) ∧
   let w := s.writerId who
   (s.reach who o_hepWsel = true) ∧
   (¬(w = 32 ∨ s.fOwner v = some w))) ∧
  (let s : State := wHost
   let who : Sender := Sender.host
   let v : Nat := 0
   let win : Nat := 0
   (v < 32) ∧
   (win < 256) ∧
   let w := s.writerId who
   let key := smGet 0 s.hep.wsel w
   let tgt := smGet 0 s.hep.wtgt w
   let cfg := (0x91000001 : Reg32)
   (s.reach who o_hepWcfg = true) ∧
   let ok := (w = 32 ∨ s.fOwner (key / 256) = some w) ∧ s.winOk (key / 256) tgt (cfg &&& 0xFF00FFFF) = true
   (ok)) ∧
  (let s : State := wHost
   let who : Sender := Sender.host
   let v : Nat := 0
   let win : Nat := 0
   (v < 32) ∧
   (win < 256) ∧
   let w := s.writerId who
   let key := smGet 0 s.hep.wsel w
   let tgt := smGet 0 s.hep.wtgt w
   let cfg := 0xDD000000
   (s.reach who o_hepWcfg = true) ∧
   let ok := (w = 32 ∨ s.fOwner (key / 256) = some w) ∧ s.winOk (key / 256) tgt (cfg &&& 0xFF00FFFF) = true
   (¬ok)) ∧
  (let s : State := { wHost with hep := { wHost.hep with wsel := [(32, 1)], cfg := wHost.hep.cfg ++ [(4096 + 0xB0, 0x87FF0011), (8192 + 0x50, 0x018B7005), (8192 + 4, 0x00100006)], msix := [(8192, 5), (8195, 0)] } }
   let who : Sender := Sender.host
   let v : Nat := 0
   let win : Nat := 0
   (v < 32) ∧
   (win < 256) ∧
   let vec := 0
   (vec < 2048) ∧
   (s.reach who (o_hepMsisend v) = true) ∧
   (s.intMode (1 + v) ≠ 0) ∧
   let m := Sent.msi 1 5 0
   (s.msgOf (1 + v) vec = some m)) ∧
  (let s : State := { wHost with hep := { wHost.hep with wsel := [(32, 1)], cfg := wHost.hep.cfg ++ [(4096 + 0xB0, 0x87FF0011), (8192 + 0x50, 0x018B7005), (8192 + 4, 0x00100006)], msix := [(8192, 5), (8195, 0)] } }
   let who : Sender := Sender.host
   let v : Nat := 0
   let win : Nat := 0
   (v < 32) ∧
   (win < 256) ∧
   let vec := 1
   (vec < 2048) ∧
   (s.reach who (o_hepMsisend v) = true) ∧
   (s.intMode (1 + v) ≠ 0) ∧
   (s.msgOf (1 + v) vec = none)) ∧
  (let s : State := wHost
   let v : Nat := 0
   let win : Nat := 0
   (v < 32) ∧
   (win < 256) ∧
   (fbit (s.ctlGet o_hepStatus) 30 = true) ∧
   (s.credited = true) ∧
   (s.fnOpen v = true) ∧
   (smGet [] s.hep.hold v = [])) ∧
  (let s : State := { wHost with hep := { wHost.hep with hold := [(0, [⟨0, 0, [1]⟩])] } }
   (fbit (s.ctlGet o_hepStatus) 30 = true) ∧
   (s.credited = true) ∧
   (s.fnOpen 0 = true) ∧
   (smGet [] s.hep.hold 0 ≠ [])) := by
  decide +kernel

/-- States and operands that meet the hypotheses of each clause about HostCompletions of HostResets. -/
theorem witness_HostResets_HostCompletions :
  (let s : State := { wHost with hep := { wHost.hep with reads := [⟨1, 3, 2, 0, 8, [], false⟩, ⟨2, 3, 2, 0, 8, [], true⟩], cnt := [(6 * 64 + 2, 2 ^ 32 - 1)] }, qm := { Qm.reset with engines := [(2, { Engine.reset with st := 1, desc := List.replicate 16 0 })] } }
   let fn : Nat := 0
   let tag : Nat := 3
   let octs : List Nat := ([] : List Nat)
   (fn < 32) ∧
   let found := s.hep.reads.find? (fun r => r.fn == 1 + fn && r.tag == tag)
   let r : HostRead := (⟨1, 3, 2, 0, 8, [], false⟩ : HostRead)
   (found = some r) ∧
   (r.dead = false) ∧
   (octs.length + r.got.length ≤ r.len) ∧
   (r.len ≠ 0)) ∧
  (let s : State := { wHost with hep := { wHost.hep with reads := [⟨1, 3, 2, 0, 8, [], false⟩, ⟨2, 3, 2, 0, 8, [], true⟩], cnt := [(6 * 64 + 2, 2 ^ 32 - 1)] }, qm := { Qm.reset with engines := [(2, { Engine.reset with st := 1, desc := List.replicate 16 0 })] } }
   let fn : Nat := 0
   let tag : Nat := 3
   (fn < 32) ∧
   let found := s.hep.reads.find? (fun r => r.fn == 1 + fn && r.tag == tag)
   let r : HostRead := (⟨1, 3, 2, 0, 8, [], false⟩ : HostRead)
   (found = some r) ∧
   (r.dead = false) ∧
   let status := 1
   (status ≠ 0)) ∧
  (let s : State := wHost
   let fn : Nat := 0
   let tag : Nat := 3
   (fn < 32) ∧
   let found := s.hep.reads.find? (fun r => r.fn == 1 + fn && r.tag == tag)
   (found = none)) ∧
  (let fn : Nat := 0
   (fn < 32) ∧
   let k := 0
   let b := 0
   ([0, 6, 7, 8, 12][k]? = some b)) := by
  decide +kernel

/-- States and operands that meet the hypotheses of each clause about HostResets of HostResets. -/
theorem witness_HostResets_HostResets :
  (let s : State := wHost
   let fn := 0
   (fn < 33) ∧
   (fn ≠ 1) ∧
   (s.inFlr fn = false)) ∧
  (let s : State := { wHost with hep := { wHost.hep with flr := [0, 2, 32], pend := [(1, [3]), (3, [4])] } }
   let fn := 0
   (fn < 33) ∧
   (fn ≠ 1) ∧
   (s.inFlr fn = true)) ∧
  (let s : State := wHost
   let fn := 0
   (fn < 33) ∧
   (s.inFlr fn = false)) ∧
  (let s : State := wHost
   (s.inFlr 1 = false)) ∧
  (let s : State := { wHost with hep := { wHost.hep with training := true, ready := false, flr := List.range 33 } }
   let rate := 1
   let width := 1
   (s.hep.training = true) ∧
   (s.hep.perst = false) ∧
   (60000000 ≤ s.time) ∧
   (1 ≤ rate) ∧
   (rate ≤ 5) ∧
   (width ∈ [1, 4, 8, 16]) ∧
   (width ≤ s.board.pexLanes)) := by
  decide +kernel

/-- States and operands that meet the hypotheses of each clause of FlitRetry. -/
theorem witness_FlitRetry :
  (∀ p ∈ [(0, (0 : BitVec 640), []), (0, 1, []), (24, 0, [(7, 0, 1)]), (24, 1, [(7, 0, 1)])],
    let s : State := wLinks id
    let f : BitVec 640 := wFlit (2 * 2 ^ 596)
    let got := (f ^^^ p.2.1).toNat
    s.linkUp p.1 = true ∧ (s.linkDir p.1 0).sendable p.1 f.toNat = true ∧ s.maySend p.1 0 f.toNat = true ∧ p.2.2.length ≤ flitHolds f.toNat ∧ s.takesLink p.1 p.2.2 = true ∧
    decide (flitCrc (got % 2 ^ 608) = got / 2 ^ 608) = (p.2.1 == 0) ∧ flitKind f.toNat = 2 ∧ flitSeq f.toNat = (s.linkDir p.1 0).expect) ∧
  (let f := (wFlit (2 * 2 ^ 596)).toNat
   let s := wLinks (fun m => { m with d0 := { m.d0 with buf := [f], replaying := true } })
   (s.linkDir 0 0).sendable 0 f = true ∧ s.maySend 0 0 f = true ∧ f ∈ (s.linkDir 0 0).buf) ∧
  (let x := (wLinks (fun m => { m with d0 := { m.d0 with asked := true }, retryAt := List.replicate 100 w0.time })).linkDir 0 0
   x.asked = true ∧ x.replaying = false) ∧
  (((wLinks id).linkDir 0 0).headerAt + (wLinks id).idleTime 0 ≤ (wLinks id).time) ∧
  (flitCrc ((wFlit 77).toNat % 2 ^ 608) = (wFlit 77).toNat / 2 ^ 608) := by
  decide +kernel

/-- States and operands that meet the hypotheses of each clause about FerryLanes of FerryLanes. -/
theorem witness_FerryLanes_FerryLanes :
  (let s : State := wLinks (fun m => { m with st := .off })
   let m : Nat := 0
   (m < 36) ∧
   let x := s.ferry m
   (s.trains = true) ∧
   (x.st = .off)) ∧
  (let s : State := wLinks (fun m => { m with st := .bist })
   let m : Nat := 0
   (m < 36) ∧
   let x := s.ferry m
   (s.trains = true) ∧
   (x.st = .bist)) ∧
  (let s : State := wLinks (fun m => { m with st := .map })
   let m : Nat := 0
   (m < 36) ∧
   let x := s.ferry m
   (s.trains = true) ∧
   (x.st = .map) ∧
   (x.d0.failed = x.d1.failed) ∧
   (x.d0.spfail = x.d1.spfail) ∧
   (x.d1.bare = []) ∧
   (x.half = false)) ∧
  (let s : State := wLinks (fun m => { m with st := .deskew })
   let m : Nat := 0
   (m < 36) ∧
   let x := s.ferry m
   (s.trains = true) ∧
   (x.st = .deskew)) ∧
  (let s : State := wLinks (fun m => { m with st := .version })
   let m : Nat := 0
   (m < 36) ∧
   let x := s.ferry m
   (s.trains = true) ∧
   (x.st = .version)) ∧
  (let s : State := wLinks (fun m => { m with st := .full })
   let m : Nat := 0
   (m < 36) ∧
   let x := s.ferry m
   let d := 0
   let lanes := [0, 64]
   (d < 2) ∧
   (x.st = .full) ∧
   ((∀ l ∈ lanes, l < 65))) ∧
  (let s : State := wLinks (fun m => { m with st := .full })
   let m : Nat := 0
   (m < 36) ∧
   let x := s.ferry m
   let d := 0
   (d < 2) ∧
   (x.st = .full)) ∧
  (let s : State := wPwr (wLinks (fun m => { m with d0 := { m.d0 with failed := 5, assign := [(0, 0)] } })) (fun p => { p with phase := .boot, step := 6 })
   let m : Nat := 0
   (m < 36) ∧
   let x := s.ferry m
   let d := 0
   let lane := 2
   let rest := ([] : List Nat)
   let sp := 1
   (d < 2) ∧
   (x.st = .full) ∧
   (x.bistWindow = false) ∧
   ((x.dir d).bare = lane :: rest) ∧
   ((x.dir d).freeSpare = some sp)) ∧
  (let s : State := wPwr (wLinks (fun m => { m with d0 := { m.d0 with failed := 2 ^ 40 - 2 ^ 34, assign := [(0, 34), (1, 35), (2, 36), (3, 37)] } })) (fun p => { p with phase := .boot, step := 6 })
   let m : Nat := 0
   (m < 36) ∧
   let x := s.ferry m
   (x.st = .full) ∧
   ((∃ d < 2, (x.dir d).bare ≠ [] ∧ (x.dir d).freeSpare = none)) ∧
   (x.d0.halfOk false = true) ∧
   (x.d1.halfOk false = true) ∧
   (s.pwr.phase = .boot)) ∧
  (let s : State := wPwr (wLinks (fun m => { m with d0 := { m.d0 with failed := 5, assign := [(0, 0)] } })) (fun p => { p with phase := .boot, step := 6 })
   let m : Nat := 0
   (m < 36) ∧
   let g := 0
   let loc := 0
   (g < 12) ∧
   (loc < 4) ∧
   (localModule g loc = m) ∧
   (s.reach .host (o_fryCtrl g loc) = true) ∧
   (s.ferryUp m = true) ∧
   (s.pwr.phase = .boot)) ∧
  (let s : State := wLinks (fun m => { m with st := .disabled })
   let m : Nat := 0
   (m < 36) ∧
   let x := s.ferry m
   let g := 0
   let loc := 0
   (g < 12) ∧
   (loc < 4) ∧
   (localModule g loc = m) ∧
   (s.reach .host (o_fryCtrl g loc) = true) ∧
   (x.st = .disabled)) := by
  decide +kernel

/-- States and operands that meet the hypotheses of each clause about Routes of FerryLanes. -/
theorem witness_FerryLanes_Routes :
  (let s : State := { wLinks id with links := { (wLinks id).links with modules := ((wLinks id).links.modules.filter (fun e => decide (2 ≤ e.1 ∧ e.1 ≠ 25))) } }
   s.routeFor 0 6 = some [24, 2, 3, 12, 13] ∧ [24, 2, 3, 12, 13] ≠ s.routeInForce 0 6 ∧ (∀ m ∈ s.routeInForce 0 6, s.flushed m = true) ∧
   s.spokeUp 0 = false ∧ s.ferryUp 24 = true ∧ s.spokeUp 1 = true ∧
   s.homed 2048 = true ∧ s.homeFor 2048 = 6 ∧ s.moving 0 (s.homeFor 2048) = true) ∧
  (let s : State := wLinks id
   s.ferryUp 24 = true ∧ (2 ≠ (0 + 1) % 12 ∧ 0 ≠ (2 + 1) % 12) ∧ s.spokeUp 0 = true ∧ s.spokeUp 2 = true) ∧
  (let txn : Txn := { wT .rds [] with line := 9, port := 0 }
   let s : State := wMem (wLinks (fun m => { m with st := .off })) (fun m => { m with txns := [txn] })
   s.mem.waits = [] ∧ s.mem.txns.find? (fun t => t.line == 9 && t.port == 0) = some txn) := by
  decide +kernel

/-- States and operands that meet the hypotheses of each clause about PairAndMirror of Crossing. -/
theorem witness_Crossing_PairAndMirror :
  (∀ st ∈ [0, 1],
    let s : State := wL (fun l => { l with pair := 0, ports := [(0, { XngPort.reset with st := st }), (1, { XngPort.reset with st := st })] })
    (bitOf s.board.xng 0 = true ∧ s.pairedChart = true ∧ s.trains = true) ∧ (s.xport 0).st = st) ∧
  ((wPair.xport 0).up = true ∧ wPair.keeperOn = true ∧ (wPair.xport 0).beatAt + 10000 ≤ wPair.time) ∧
  (wPair.anyPortUp = true ∧ wPair.pairedChart = true ∧ wPair.links.pair ≠ 3 ∧ wPair.live.cmps ≠ [] ∧ 1 ≠ 1 - wPair.live.pairIndex) ∧
  (let s : State := wL (fun l => { l with pair := 1 })
   (s.anyPortUp = true ∧ s.pairedChart = true ∧ s.links.pair ≠ 3 ∧ s.links.pair ≠ 2 ∧ s.live.cmps ≠ [] ∧ 0 = 1 - s.live.pairIndex)) ∧
  (∀ p ∈ [(wL (fun l => { l with active := some false }), true), (wPair, false)],
    let s : State := p.1
    (s.xport 0).up = true ∧ (s.xport 1).up = true ∧ s.xngFor 0 = some 0 ∧ s.xngFor 0 ≠ some 1 ∧ s.links.pair = 2 ∧
    (List.replicate 64 (3 : Byte)).length = 64 ∧ s.mem.failed = [] ∧ s.mem.Canonical ∧ s.standbyLine 0 = p.2 ∧ s.homeFree 0 = true ∧
    s.anyDeferred 0 = false ∧ s.partnerHolds 0 = false) ∧
  (let s : State := wL (fun l => { l with active := some true, copied := [(0, 1)] })
   s.links.pair = 2 ∧ s.mirrored 0 = true ∧ s.links.active = some true ∧ smGet 0 s.links.copied 0 < s.dramLines 0) := by
  decide +kernel

/-- A stepping, digest and HMAC that match, or of which only the HMAC does not, in PairAndMirror of Crossing. -/
theorem witness_Crossing_PairJoins (pub : List Nat) :
  let s : State := wL (fun l => { l with pair := 1 })
  let own := Config.hmac384 (octVal (smGet [] s.sec.slots 9)) pub
  (landingStepping = landingStepping ∧ s.pairDigest = s.pairDigest) ∧ own = own ∧ own ++ [0] ≠ own :=
  ⟨⟨rfl, rfl⟩, rfl, by simp⟩

/-- States and operands that meet the hypotheses of each clause about SplitAndTakeover of Crossing. -/
theorem witness_Crossing_SplitAndTakeover :
  (let s : State := wPair
   (s.links.pair = 2) ∧
   (s.links.heardAt + 200000 ≤ s.time) ∧
   (s.cht = none)) ∧
  (let s : State := wQ
   let x : Split := ({ t0 := w0.time - 1000, nonces := [7], asked := 0 } : Split)
   (s.links.split = some x) ∧
   (s.links.pair = 3) ∧
   (s.time ≤ x.t0 + 20000000) ∧
   (x.asked = 0)) ∧
  (let s : State := { wQ with net := { Net.reset with keeper := [[1, 2]] } }
   let x : Split := ({ t0 := w0.time - 1000, nonces := [7], asked := 0 } : Split)
   (s.links.split = some x) ∧
   (s.links.pair = 3) ∧
   let f := [1, 2]
   let rest := ([] : List (List Nat))
   (s.net.keeper = f :: rest) ∧
   (witnessPayload f = none)) ∧
  (let s : State := wQ
   let x : Split := ({ t0 := w0.time - 1000, nonces := [7], asked := 0 } : Split)
   (s.links.split = some x) ∧
   (s.links.pair = 3) ∧
   let f := wFrame 0
   let rest := [[1, 2]]
   (s.net.keeper = f :: rest) ∧
   let o := (wFrame 0).drop 14
   (witnessPayload f = some o) ∧
   (le o 0 2 = 0x4752) ∧
   (le o 2 1 = 2) ∧
   (le o 3 1 ≤ 1) ∧
   (le o 8 8 = s.pairId) ∧
   (le o 0x10 4 = (s.ctlGet o_xngEpoch).toNat) ∧
   (x.nonces.contains (le o 0x14 4) = true) ∧
   (s.time ≤ x.t0 + 20000000)) ∧
  (let s : State := { wQ with time := w0.time + 20000000 }
   let x : Split := ({ t0 := w0.time - 1000, nonces := [7], asked := 0 } : Split)
   (s.links.split = some x) ∧
   (s.links.pair = 3) ∧
   (x.t0 + 20000000 < s.time)) ∧
  (let s : State := { wL (fun l => { l with takeAt := some 5, pair := 4 }) with cmps := [(0, .stopped)] }
   let n := 0
   let t0 := 5
   (s.links.takeAt = some t0) ∧
   (t0 ≤ s.time) ∧
   (s.mirrored n = true) ∧
   (s.cmpState n = .stopped) ∧
   ((s.cmpSec n).isSome)) := by
  decide +kernel

/-- States and operands that meet the hypotheses of each clause of ManifestCommands. -/
theorem witness_ManifestCommands :
  (let s : State := wMft 2 { MftSess.none with session := 3, slots := [1] }
   let n : Nat := 0
   (n < 32) ∧
   let k := 0
   let c : MftCore := ({ chunk := 5, len := 65535, crc := 9, reads := [], writes := [], replay := [{ type := 2, agent := 0, offset := 65535, chunk := 5, data := 1, cont := [] }], ended := [] } : MftCore)
   (smFind? s.mftc k = some c) ∧
   (s.cmpOf k = some n) ∧
   (s.recording n = true) ∧
   (65535 ≤ c.len) ∧
   ((s.core k).pair = none)) ∧
  (let s : State := wMft 2 { MftSess.none with slots := List.replicate 40 7 }
   let n : Nat := 0
   (n < 32) ∧
   (s.recording n = true) ∧
   (34 ≤ (s.sess n).slots.length) ∧
   (s.mftFull n = false) ∧
   ((s.cmpSec n).isSome)) ∧
  (let s : State := wMft 2 { MftSess.none with session := 3, slots := [1] }
   let n : Nat := 0
   (n < 32) ∧
   let who := Sender.host
   (s.reach who (o_mftCtrl n) = true) ∧
   (s.recording n = true)) ∧
  (let s : State := w0
   let n : Nat := 1
   (n < 32) ∧
   (s.reach .host o_mftCmd = true) ∧
   (s.cmpState n = .stopped) ∧
   (s.mftMode n = 0)) ∧
  (let s : State := wMft 1 MftSess.none
   let n : Nat := 0
   (n < 32) ∧
   (s.reach .host o_mftCmd = true) ∧
   (s.mftMode n = 1)) ∧
  (let s : State := w0
   let n : Nat := 0
   (n < 32) ∧
   (s.reach .host o_mftCmd = true) ∧
   (s.mftMode n ≠ 1) ∧
   (s.recording n = false)) ∧
  (let s : State := { wMft 0 MftSess.none with cmps := [(0, .stopped)], live := { wChart with cmps := [{ wCmp 0 with manifest := false }] } }
   let n : Nat := 0
   (n < 32) ∧
   (s.reach .host o_mftCmd = true) ∧
   let cc : CmpSec := { wCmp 0 with manifest := false }
   (s.cmpSec n = some cc) ∧
   (cc.manifest = false) ∧
   (s.cmpState n = .stopped) ∧
   (fbit (s.ctlGet o_mftStatus) 30 = false)) ∧
  (let s : State := w0
   let n : Nat := 0
   (n < 32) ∧
   let who := Sender.host
   let v := 0
   (v < 2 ^ 32) ∧
   (s.reach who (o_mftRidx n) = true) ∧
   let released := (v + 2 ^ 32 - (s.ctlGet (o_mftRidx n)).toNat) % 2 ^ 32
   (released ≤ s.mftUsed n)) ∧
  (let s : State := w0
   let n : Nat := 0
   (n < 32) ∧
   let who := Sender.host
   let v := 1
   (v < 2 ^ 32) ∧
   (s.reach who (o_mftRidx n) = true) ∧
   let released := (v + 2 ^ 32 - (s.ctlGet (o_mftRidx n)).toNat) % 2 ^ 32
   (s.mftUsed n < released)) ∧
  (let s : State := wMft 3 MftSess.none
   let n : Nat := 0
   (n < 32) ∧
   let agent := 0
   let k := 0
   let c : MftCore := ({ chunk := 5, len := 65535, crc := 9, reads := [], writes := [], replay := [{ type := 2, agent := 0, offset := 65535, chunk := 5, data := 1, cont := [] }], ended := [] } : MftCore)
   let r : MftRec := ({ type := 2, agent := 0, offset := 65535, chunk := 5, data := 1, cont := [] } : MftRec)
   let rest := ([] : List MftRec)
   (s.mftMode n = 3) ∧
   (agent ≠ 255) ∧
   ((s.coresOf n).find? (fun k => s.rank k == agent) = some k) ∧
   (smFind? s.mftc k = some c) ∧
   ((s.core k).mftFrozen = false) ∧
   (c.replay = r :: rest) ∧
   (r.type = 2) ∧
   (r.offset = c.len % 65536) ∧
   (crcItem c.crc 0x300 (s.core k).pc % 2 ^ 64 ≠ r.data)) := by
  decide +kernel

/-- States and operands that meet the hypotheses of each clause about BootSteps of BootAndPark. -/
theorem witness_BootAndPark_BootSteps :
  (let s : State := State.reset
   (s.pwr.phase = .off)) ∧
  (let s : State := wB 1
   (s.pwr.phase = .boot) ∧
   (s.pwr.step = 1)) ∧
  (let s : State := wB 2
   (s.pwr.phase = .boot) ∧
   (s.pwr.step = 2)) ∧
  (let s : State := wB 3
   (s.pwr.phase = .boot) ∧
   let h := ([] : List Nat)
   (s.pwr.step = 3) ∧
   (s.pwr.fwOk = false) ∧
   (headerOk h = false)) ∧
  (let s : State := wB 4
   (s.pwr.phase = .boot) ∧
   (s.pwr.step = 4)) := by
  decide +kernel

/-- States and operands that meet the hypotheses of each clause about Park of BootAndPark. -/
theorem witness_BootAndPark_Park :
  (let s : State := w0
   (s.reach .host o_pwrCtrl = true) ∧
   (s.parkReady = true)) ∧
  (let s : State := { w0 with cht := some { kind := .apply, submitter := none, step := 1, own := false, src := 0, len := 0, octets := [], full := false, update := wChart, targets := [0], preHalted := [], undo := [], poisoned := [], cold := [], partner := none, go := 0 } }
   (s.reach .host o_pwrCtrl = true) ∧
   (s.pwr.phase = .run) ∧
   (s.parkReady = false)) ∧
  (let s : State := { wP .parking with cmps := [(0, .stopped)] }
   (s.pwr.phase = .parking) ∧
   (s.pwr.exit = none) ∧
   (s.pwr.graceEnd ≤ s.time) ∧
   ((∀ m ∈ s.live.cmps, s.cmpState m.id ≠ .running))) ∧
  (let s : State := wCtl (wP .park) [(o_pwrAlarmLo, 5), (o_pwrAlarmHi, 0)]
   let alarm := (s.ctlGet o_pwrAlarmLo).toNat + 2 ^ 32 * (s.ctlGet o_pwrAlarmHi).toNat
   (s.pwr.phase = .park) ∧
   (alarm ≠ 2 ^ 64 - 1) ∧
   (alarm ≤ s.time)) ∧
  (let s : State := { wP .park with board := { w0.board with wakeGpio := 5, wakePol := 1 } }
   let pin := 0
   let level := true
   let ns := 10000
   (s.pwr.phase = .park) ∧
   (pin < 32) ∧
   (bitOf s.board.wakeGpio pin = true) ∧
   (bitOf s.board.wakePol pin = level) ∧
   (10000 ≤ ns)) ∧
  (let s : State := wPwr w0 (fun p => { p with phase := .waking, fwOk := true })
   (s.pwr.phase = .waking) ∧
   (s.pwr.fwOk = true)) ∧
  (let s : State := w0
   (s.pwr.phase = .run)) := by
  decide +kernel

/-- States and operands that meet the hypotheses of each clause about WarmResets of PackageResets. -/
theorem witness_PackageResets_WarmResets :
  (w0.awake = true ∧ w0.pwr.phase ≠ .held ∧ w0.reach .host o_pwrCtrl = true ∧ w0.keeperOn = true ∧ w0.noSpokeStop = false) ∧
  (let s : State := wCtl (wPwr w0 (fun p => { p with phase := .stopped })) [(o_pwrBootstat, 5 * 2 ^ 24)]
   s.awake = true ∧ s.pwr.phase ≠ .held ∧ s.noSpokeStop = true) ∧
  ((wPwr w0 (fun p => { p with phase := .held })).pwr.phase = .held) := by
  decide +kernel

/-- States and operands that meet the hypotheses of each clause about TamperResets of PackageResets. -/
theorem witness_PackageResets_TamperResets :
  (let s : State := wSec { w0 with store := some wChart } (fun c => { c with keys := true, slots := [(0, [1])] })
   (s.pwr.phase ≠ .off) ∧
   let i := 0
   (i < 6)) ∧
  (let s : State := wSec { w0 with store := some wChart } (fun c => { c with keys := true, slots := [(0, [1])] })
   (s.pwr.phase ≠ .off) ∧
   let lost := true
   let ppm := 1000
   let ns := 1000
   ((if lost then 1000 ≤ ns else 1000 < ppm ∧ 10000 ≤ ns))) ∧
  (let s : State := wSec { w0 with store := some wChart } (fun c => { c with keys := true, slots := [(0, [1])] })
   (s.pwr.phase ≠ .off) ∧
   let lost := true
   let ppm := 1000
   let ns := 999
   (¬(if lost then 1000 ≤ ns else 1000 < ppm ∧ 10000 ≤ ns))) ∧
  (let s : State := wPwr w0 (fun p => { p with phase := .tamper, quietFrom := 5 })
   (s.pwr.phase ≠ .off) ∧
   (s.pwr.phase = .tamper) ∧
   (s.pwr.quietFrom + 100000000 ≤ s.time)) := by
  decide +kernel

/-- States and operands that meet the hypotheses of each clause of GroveAndCoreReset. -/
theorem witness_GroveAndCoreReset :
  (let s : State := w0
   let g : Nat := 0
   let k : Nat := 0
   (g < 12) ∧
   (k < 240) ∧
   (s.reach .host o_pwrGrvrst = true) ∧
   (s.cutOff g = true)) ∧
  (let s : State := { wPwr w0 (fun p => { p with grove := some 0 }) with links := { w0.links with modules := [(0, { FryModule.reset with st := .full }), (1, { FryModule.reset with st := .full }), (24, { FryModule.reset with st := .full }), (35, { FryModule.reset with st := .full })] } }
   let g : Nat := 0
   let k : Nat := 0
   (g < 12) ∧
   (k < 240) ∧
   (s.reach .host o_pwrGrvrst = true) ∧
   (s.cutOff g = false)) ∧
  (let s : State := { wPwr w0 (fun p => { p with grove := some 0 }) with links := { w0.links with modules := [(0, { FryModule.reset with st := .full }), (1, { FryModule.reset with st := .full }), (24, { FryModule.reset with st := .full }), (35, { FryModule.reset with st := .full })] } }
   let g : Nat := 0
   let k : Nat := 0
   (g < 12) ∧
   (k < 240) ∧
   (s.pwr.grove = some g) ∧
   ((∀ l < 4, (s.ferry (localModule g l)).up = true))) ∧
  (let s : State := w0
   let g : Nat := 0
   let k : Nat := 239
   (g < 12) ∧
   (k < 240) ∧
   let crst := o_grvCrst (groveOf k) (slotOf k)
   let who := Sender.host
   (s.reach who crst = true) ∧
   (s.crstRefused k = true)) ∧
  (let s : State := w0
   let g : Nat := 0
   let k : Nat := 0
   (g < 12) ∧
   (k < 240) ∧
   let crst := o_grvCrst (groveOf k) (slotOf k)
   let who := Sender.host
   (s.reach who crst = true) ∧
   (s.crstRefused k = false)) ∧
  (let s : State := wCore (wPwr w0 (fun p => { p with crst := [0] })) 0 (fun c => { c with run := .held })
   let g : Nat := 0
   let k : Nat := 0
   (g < 12) ∧
   (k < 240) ∧
   let crst := o_grvCrst (groveOf k) (slotOf k)
   let who := Sender.host
   (s.reach who crst = true) ∧
   ((s.core k).run = .held)) ∧
  (let s : State := wPwr w0 (fun p => { p with grove := some 0, crst := [0] })
   let g : Nat := 0
   let k : Nat := 0
   (g < 12) ∧
   (k < 240) ∧
   let n := 0
   let m := wCmp 0
   (s.cmpOf k = some n) ∧
   (s.cmpSec n = some m) ∧
   (k ∈ s.pwr.crst) ∧
   (s.resettable k = true) ∧
   ((s.core k).rep = none) ∧
   ((s.core k).run = .running)) ∧
  (let s : State := w0
   let g : Nat := 0
   let k : Nat := 0
   (g < 12) ∧
   (k < 240) ∧
   let target := 6800
   (6800 ≤ target) ∧
   (target ≤ 8200) ∧
   (target % 50 = 0) ∧
   (s.pwr.phase = .run)) := by
  decide +kernel

/-- States and operands that meet the hypotheses of each clause about FuseOperations of Security. -/
theorem witness_Security_FuseOperations :
  (let s : State := wSec wF (fun c => { c with field := true })
   let slot : Nat := 0
   (slot < 11) ∧
   (s.reach .host o_secCmd = true) ∧
   (fbit (s.ctlGet o_secStatus) 27 = false) ∧
   (s.sec.field = true)) ∧
  (let s : State := wSec wF (fun c => { c with slots := [(0, [1]), (1, [2]), (5, [3])] })
   let slot : Nat := 0
   (slot < 11) ∧
   (s.reach .host o_secCmd = true) ∧
   (fbit (s.ctlGet o_secStatus) 27 = false) ∧
   (s.sec.field = false) ∧
   (slotSet s.sec slot = true)) ∧
  (let s : State := wF
   let slot : Nat := 5
   (slot < 11) ∧
   (s.reach .host o_secCmd = true) ∧
   (fbit (s.ctlGet o_secStatus) 27 = false) ∧
   let key := s.provData (if publicSlot slot then 96 else 32)
   (s.sec.field = false) ∧
   (slotSet s.sec slot = false) ∧
   (publicSlot slot = false ∨ Config.validPublicKey key = true)) ∧
  (let s : State := wSec wF (fun c => { c with slots := [(0, [1]), (1, [2]), (5, [3])] })
   let slot : Nat := 0
   (slot < 11) ∧
   (s.reach .host o_secCmd = true) ∧
   (fbit (s.ctlGet o_secStatus) 27 = false) ∧
   ((∃ i < 4, i ≠ slot ∧ slotSet s.sec i = true ∧ i ∉ s.sec.revoked)) ∧
   (slot < 4)) ∧
  (let s : State := wF
   let slot : Nat := 5
   (slot < 11) ∧
   (s.reach .host o_secCmd = true) ∧
   (fbit (s.ctlGet o_secStatus) 27 = false) ∧
   (4 ≤ slot)) ∧
  (let s : State := wF
   let slot : Nat := 0
   (slot < 11) ∧
   (s.reach .host o_secCmd = true) ∧
   (fbit (s.ctlGet o_secStatus) 27 = false) ∧
   (s.cht = none)) ∧
  (let s : State := wF
   let slot : Nat := 0
   (slot < 11) ∧
   (s.reach .host o_secCmd = true) ∧
   (fbit (s.ctlGet o_secStatus) 27 = false) ∧
   (s.sec.field = false)) ∧
  (let s : State := wF
   let slot : Nat := 0
   (slot < 11) ∧
   (s.reach .host o_secCmd = true) ∧
   (fbit (s.ctlGet o_secStatus) 27 = false) ∧
   (s.keeperOn = true)) ∧
  (let s : State := wSec wF (fun c => { c with slots := [(0, [1]), (1, [2])], revoked := [0], failAt := [w0.time - 5, w0.time - 10], field := true })
   let slot : Nat := 0
   (slot < 11) ∧
   (s.reach .host o_secCmd = true) ∧
   (fbit (s.ctlGet o_secStatus) 27 = false) ∧
   (s.keeperOn = true) ∧
   (2 ≤ (s.sec.failAt.filter (fun t => decide (s.time < t + 1000000000))).length)) := by
  decide +kernel

/-- States and operands that meet the hypotheses of each clause about DebugAuthentication of Security. -/
theorem witness_Security_DebugAuthentication :
  (let s : State := w0
   let jtag : Bool := false
   (s.dbgReach jtag = true) ∧
   let level := fget (s.ctlGet o_dbgReq) 31 30
   let good := slotSet s.sec 8 = true ∧ Config.ecdsaVerify (smGet [] s.sec.slots 8) (s.tokenMessage level) s.token = true
   (s.sec.holdOff ≤ s.time) ∧
   (¬((level = 1 ∨ level = 2) ∧ good))) ∧
  (let s : State := wD
   let jtag : Bool := false
   (s.dbgReach jtag = true) ∧
   let level := fget (s.ctlGet o_dbgReq) 31 30
   (s.sec.holdOff ≤ s.time) ∧
   (level = 1)) ∧
  (let s : State := wSec wD (fun c => { c with holdOff := w0.time + 1 })
   let jtag : Bool := false
   (s.dbgReach jtag = true) ∧
   (s.time < s.sec.holdOff)) := by
  decide +kernel

/-- States and operands that meet the hypotheses of each clause about CoreDebug of DebugAndRegisters. -/
theorem witness_DebugAndRegisters_CoreDebug :
  (let s : State := w0
   let jtag : Bool := false
   let k : Nat := 0
   (k < 240) ∧
   ((if jtag then s.keeperOn = true else s.reach .host (cdbgOff k 0) = true)) ∧
   (s.granted k = false)) ∧
  (let s : State := wCore wG 0 (fun c => { c with run := .waiting })
   let jtag : Bool := false
   let k : Nat := 0
   (k < 240) ∧
   ((if jtag then s.keeperOn = true else s.reach .host (cdbgOff k 0) = true)) ∧
   let c := s.core k
   (s.granted k = true) ∧
   (s.canHalt k = true) ∧
   (s.stoppable k = true) ∧
   (c.run = .waiting)) ∧
  (let s : State := wG
   let jtag : Bool := false
   let k : Nat := 0
   (k < 240) ∧
   ((if jtag then s.keeperOn = true else s.reach .host (cdbgOff k 0) = true)) ∧
   let c := s.core k
   (s.granted k = true) ∧
   (s.canHalt k = true) ∧
   (s.stoppable k = true) ∧
   (c.run = .running)) ∧
  (let s : State := wCore wG 0 (fun c => { c with pair := some ⟨0, 0, false⟩ })
   let jtag : Bool := false
   let k : Nat := 0
   (k < 240) ∧
   ((if jtag then s.keeperOn = true else s.reach .host (cdbgOff k 0) = true)) ∧
   (s.granted k = true) ∧
   (s.canHalt k = true) ∧
   (s.stoppable k = false)) ∧
  (let s : State := wCore wG 0 (fun c => { c with dbg := true })
   let jtag : Bool := false
   let k : Nat := 0
   (k < 240) ∧
   ((if jtag then s.keeperOn = true else s.reach .host (cdbgOff k 0) = true)) ∧
   let c := s.core k
   (s.granted k = true) ∧
   (c.dbg = true)) ∧
  (let s : State := wG
   let jtag : Bool := false
   let k : Nat := 0
   (k < 240) ∧
   ((if jtag then s.keeperOn = true else s.reach .host (cdbgOff k 0) = true)) ∧
   let c := s.core k
   (s.granted k = true) ∧
   (c.dbg = false)) ∧
  (let s : State := wCore wG 0 (fun c => { c with dbg := true })
   let jtag : Bool := false
   let k : Nat := 0
   (k < 240) ∧
   ((if jtag then s.keeperOn = true else s.reach .host (cdbgOff k 0) = true)) ∧
   let c := s.core k
   (s.granted k = true) ∧
   let r := 1
   (r < 64) ∧
   (c.dbg = true) ∧
   (s.ctlGet (cdbgOff k 0x10) = r32 r)) := by
  decide +kernel

/-- The register at an offset has no effect of its own, PF0 reaches it, and a value is reserved in it, or not. -/
def fitsRegister (off : Nat) (v : Reg32) (bad : Bool) : Bool :=
  match ctlLoc off with
  | none => false
  | some l => match rowAt l with
    | none => false
    | some (r, ix) => decide (l.blk ∈ [.glb, .tt, .dmc, .nsw, .nsws, .tev, .dir, .xng, .qmn]) && r.fields.all (·.priv != .wo) &&
        w0.reach .host off && (r.fields.any (·.bad v) || w0.reserved l (ix.headD 0) v) == bad

/-- Registers and values that meet the hypotheses of each clause of ControlRegisters: writes of W1C bits in the frames of a DRAM controller
and of a Crossing port, a reserved value of TT.LOADSEL, and the counters of PMU frame 0. -/
theorem witness_DebugAndRegisters_ControlRegisters :
  fitsRegister 0x80000 0xFFFFFFFF false ∧ fitsRegister 0x30008 0xFFFFFFFF true ∧ fitsRegister 0xE00000 1 false ∧
   w0.reach .host (o_pmuUcnth 0 0) = true ∧ w0.reach .host (o_pmuUcntl 0 7) = true := by
  decide +kernel

/-- States and operands that meet the hypotheses of each clause about a core's entries of EventsAndEngines. -/
theorem witness_EventsAndEngines_Entries :
  (let ok := fun (s : State) => (s.core 0).run = .running ∧ (s.core 0).dbgStep = false ∧ s.interruptible 0 = true ∧ smFind? s.mftc 0 = none ∧
     s.replaying 0 = false ∧ (s.core 0).xops = [] ∧ (s.core 0).div = []
   (let s : State := (wCs (fun c => { c with status := 2, imask := 0 })).ctlSet (o_grvIpi 0 0) 1
    ok s ∧ s.mceDue 0 = false ∧ s.longDue 0 = false ∧ s.intDue 0 = true) ∧
   (let s : State := wCs (fun c => { c with status := 2, faults := [⟨8, 1, 5, 3⟩] })
    ok s ∧ s.mceDue 0 = false ∧ s.longDue 0 = true ∧ (s.core 0).faults = [⟨8, 1, 5, 3⟩]) ∧
   (let s : State := wCs (fun c => { c with mce := [3] })
    ok s ∧ 3 ∈ (s.core 0).mce ∧ (s.core 0).fatalMce 3 = false ∧ (s.core 0).fatalMce 4 = false ∧ (s.core 0).fatalMce 5 = true ∧
    s.cmpOf 0 = some 0 ∧ s.cmpState 0 ≠ .absent)) := by
  decide +kernel

/-- States and operands that meet the hypotheses of each clause about TIMER, IPI.SET and the range commands of EventsAndEngines. -/
theorem witness_EventsAndEngines_TimerAndRanges :
  (wM id).present 0 = true ∧ (wM id).time < (wM id).compare 0 + Config.timerLag 0 ((wM id).compare 0) % 11 ∧
  (∀ p ∈ [(wCtl w0 [(oMstartLo false 0 0, 448), (oMlength false 0 0, 3)], true),
          (wCtl w0 [(oMstartHi false 0 0, 0xFFFF), (oMlength false 0 0, 0)], false)],
    let s : State := p.1
    let start := ((s.ctlGet (oMstartLo false 0 0)).toNat + 2 ^ 32 * fget (s.ctlGet (oMstartHi false 0 0)) 15 0) / 64 * 64
    let n := (s.ctlGet (oMlength false 0 0)).toNat
    s.setOk .host false 0 0 = true ∧ s.setOk (.core 0) false 0 0 = true ∧ s.rangeOf false 0 0 = none ∧
    decide (start + 64 * (if n = 0 then 2 ^ 32 else n) ≤ 2 ^ 42) = p.2 ∧ decide (start + 64 * (if n = 0 then 2 ^ 32 else n) ≤ 2 ^ 48) = p.2) ∧
  (∀ p ∈ [(wR false 5 0, false), (wR true 1 0, true), (wR false 40000 2046, false), (wR false 40000 2047, true)],
    let s : State := wRange p.1
    s.setOk .host p.1.l3 0 0 = true ∧ s.rangeOf p.1.l3 0 0 = some p.1 ∧ s.rangeTurn p.1.l3 0 0 = some 0 ∧
    decide (if p.1.walks then 2048 ≤ p.1.done + 1 else p.1.lines ≤ p.1.done + 1) = p.2) :=
  ⟨by decide +kernel, Nat.lt_add_right _ (by decide +kernel), by decide +kernel, by decide +kernel⟩

/-- States and operands that meet the hypotheses of each clause about frames of EventsAndEngines. -/
theorem witness_EventsAndEngines_Frames :
  (let sec := wNsec 0 0xFFFF 0 2 0 0
   let s : State := wNt [(0, sec)]
   let o := (wFr 1).map (· % 256)
   let f := parseTags (netPvid sec) (netDefPcp sec) o
   s.portUp 0 = true ∧ 60 ≤ (wFr 1).length ∧ (wFr 1).length ≤ 9212 ∧ s.netSec 0 = some sec ∧ netMacsec sec = false ∧
   findRule sec o f.vid = some (0, netIn sec 0)) ∧
  (∀ dense ∈ [false, true],
   let s : State := wOutAs dense
   let sec := wNsec 0 0xFFFF 0 2 0 0
   let r : EgRule := netEg sec 0
   let x := s.queue 0
   let pa := x.entryAt
   let buf := s.mem.read pa 4 + 2 ^ 36 * (s.mem.read (pa + 4) 4 % 64)
   let len := s.mem.read (pa + 8) 4
   let mac := macExtra (some sec) (buildFrame r 0 0 (s.mem.octets dense buf 0 14))
   let w := max 64 (len + (if r.untagged then 0 else 4) + (if r.rtag then 6 else 0) + 4 + mac)
   (x.pack == 2) = dense ∧ x.st = 1 ∧ x.kind = 6 ∧ s.outWaiting 0 = 0 ∧ x.held ≠ 0 ∧ s.mem.poisoned (lineOf pa) = false ∧
   s.egressOf x.other = some (0, sec, r) ∧ w ≤ 9216 ∧ len ≤ 9200 ∧ s.portUp 0 = true ∧ 12 ≤ len ∧ buf % 8 = 0 ∧
   (∃ n < 40, s.qOwner 0 = some n ∧ s.ownsRange n buf (packedLen dense len) = true) ∧ s.mem.poison = [] ∧ s.mem.lost = [] ∧
   s.mem.failed = [] ∧ s.egressRoom 0 r.tc w = true ∧ s.live.contracts = []) ∧
  (let f : NetFrame := ⟨[1, 2, 3], 64, none, none⟩
   let s : State := wTx [(3, [f, ⟨[4], 64, none, none⟩])]
   let s1 := s.setPort 0 { s.port 0 with credit := s.credits 0 (s.netSec 0), creditAt := s.time }
   s.portUp 0 = true ∧ (s.port 0).curEnd ≤ s.time ∧ smGet [] (s.port 0).queues 3 = [f, ⟨[4], 64, none, none⟩] ∧
   s1.eligible 0 (s.netSec 0) = [3]) := by
  decide +kernel

/-- States whose stores are in their canonical form, and a step that answers a next state. -/
theorem witness_StepKeepsInvariant : (wM id).mem.Canonical ∧ State.reset.mem.Canonical ∧ step State.reset = .next State.reset.tick :=
  ⟨by decide +kernel, by decide +kernel, rfl⟩

end Sys2Proof.Machine.Tests
end

section
/-!
PROOF. What every step keeps (O59, R32 to R35, R66, R88, log entry 7), and the state after a power-on reset (O57).

`Keeps s₀ s` says that a state `s` reached within a step from `s₀` has the fuses and the queue of `s₀`, and a canonical
memory when `s₀` has one. The step is a composition of the model's functions, so the proof is one closure rule per
function: when the state it is given is kept, so is the state it answers. Every rule follows the definition it speaks
of, backwards: `.ite` for its conditionals, `.foldl` for its loops, the rule of each function that it calls, and
`.frame` where it updates fields that the invariant does not read.
-/
namespace Sys2Proof.Machine

/-- A memory reached from `m₀` is canonical when `m₀` is. -/
def KeepsMem (m₀ m : Mem) : Prop := m₀.Canonical → m.Canonical

/-- The same of the three stores of bytes that the canonical form speaks of. -/
def KeepsStores (m₀ : Mem) (dram dirty clr : SMap Byte) : Prop :=
  m₀.Canonical → smRising 0 dram = true ∧ smRising 0 dirty = true ∧ smWf (0 : Byte) clr = true

/-- What a step keeps of the state `s₀` in which it begins. -/
structure Keeps (s₀ s : State) : Prop where
  mem : KeepsMem s₀.mem s.mem
  fuses : s.fuses = s₀.fuses
  pending : s.pending = s₀.pending

/-! The functions of the model answer a state in one of seven shapes; each shape keeps what its state keeps. -/

inductive KeepsPair (s₀ : State) {α : Type} : State × α → Prop
  | mk {s a} (h : Keeps s₀ s) : KeepsPair s₀ (s, a)

inductive KeepsRes (s₀ : State) : Res → Prop
  | done {s es n} (h : Keeps s₀ s) : KeepsRes s₀ (.done s es n)
  | trap {s e} (h : Keeps s₀ s) : KeepsRes s₀ (.trap s e)
  | hold {s} (h : Keeps s₀ s) : KeepsRes s₀ (.hold s)
  | freeze {s f a} (h : Keeps s₀ s) : KeepsRes s₀ (.freeze s f a)

inductive KeepsFetch (s₀ : State) : Fetch → Prop
  | ok {s} (h : Keeps s₀ s) : KeepsFetch s₀ (.ok s)
  | fault {s e pa} (h : Keeps s₀ s) : KeepsFetch s₀ (.fault s e pa)
  | wait {s} (h : Keeps s₀ s) : KeepsFetch s₀ (.wait s)

inductive KeepsPrep (s₀ : State) : Prep → Prop
  | stay : KeepsPrep s₀ .stay
  | go {s} (h : Keeps s₀ s) : KeepsPrep s₀ (.go s)
  | out {s} (h : Keeps s₀ s) : KeepsPrep s₀ (.out s)

inductive KeepsDma (s₀ : State) : DmaStep → Prop
  | go {s} (h : Keeps s₀ s) : KeepsDma s₀ (.go s)
  | wait {s} (h : Keeps s₀ s) : KeepsDma s₀ (.wait s)
  | ended {s} (h : Keeps s₀ s) : KeepsDma s₀ (.ended s)

/-- An outcome that goes on, in a state that is kept. -/
inductive KeepsOut (s₀ : State) : Out → Prop
  | next {s} (h : Keeps s₀ s) : KeepsOut s₀ (.next s)

section
variable {s₀ s t : State} {m₀ m m' : Mem}

/-! ### Memories

`KeepsMem.ofStores` and `Keeps.withMem` spell the constructor out, so that unification reads the fields off any record
update of the model; the fields that the invariant does not read are arbitrary. -/

theorem KeepsStores.dropWays (h : KeepsMem m₀ m) {keep} : KeepsStores m₀ m.dram m.dirty (m.clr.filter keep) :=
  fun h₀ => Mem.canonical_dropWays (h h₀) keep

theorem KeepsStores.dropClr (h : KeepsMem m₀ m) : KeepsStores m₀ m.dram m.dirty [] := fun h₀ => ⟨(h h₀).1, (h h₀).2.1, rfl⟩

theorem KeepsStores.dramOnly (h : KeepsMem m₀ m) : KeepsStores m₀ m.dram [] [] := fun h₀ => ⟨(h h₀).1, rfl, rfl⟩

theorem KeepsStores.empty : KeepsStores m₀ [] [] [] := fun _ => ⟨rfl, rfl, rfl⟩

theorem KeepsMem.ofStores {dram dirty clr} (h : KeepsStores m₀ dram dirty clr) {keys era epoch poison lost healed failed l2 grove gpend
    dir txns waits msgs bcasts ranges engLast marks utlb dtc} :
    KeepsMem m₀ ⟨dram, keys, era, epoch, dirty, clr, poison, lost, healed, failed, l2, grove, gpend, dir, txns, waits, msgs, bcasts, ranges,
      engLast, marks, utlb, dtc⟩ := h

theorem KeepsMem.frame (h : KeepsMem m₀ m) {keys era epoch poison lost healed failed l2 grove gpend dir txns waits msgs bcasts ranges
    engLast marks utlb dtc} :
    KeepsMem m₀ ⟨m.dram, keys, era, epoch, m.dirty, m.clr, poison, lost, healed, failed, l2, grove, gpend, dir, txns, waits, msgs, bcasts,
      ranges, engLast, marks, utlb, dtc⟩ := .ofStores h

theorem KeepsMem.refl : KeepsMem m m := id

theorem KeepsMem.setByte (h : KeepsMem m₀ m) {pa b} : KeepsMem m₀ (m.setByte pa b) := fun h₀ => Mem.canonical_setByte (h h₀) pa b

theorem KeepsMem.setDram (h : KeepsMem m₀ m) {pa b} : KeepsMem m₀ (m.setDram pa b) := fun h₀ => Mem.canonical_setDram (h h₀) pa b

theorem KeepsMem.write (h : KeepsMem m₀ m) {pa bs} : KeepsMem m₀ (m.write pa bs) := fun h₀ => Mem.canonical_write (h h₀) pa bs

theorem KeepsMem.writeDram (h : KeepsMem m₀ m) {pa bs} : KeepsMem m₀ (m.writeDram pa bs) :=
  fun h₀ => Mem.canonical_writeDram (h h₀) pa bs

theorem KeepsMem.setPoison (h : KeepsMem m₀ m) {line p} : KeepsMem m₀ (m.setPoison line p) :=
  fun h₀ => Mem.canonical_setPoison (h h₀) line p

theorem KeepsMem.flushLine (h : KeepsMem m₀ m) {line} : KeepsMem m₀ (m.flushLine line) := fun h₀ => Mem.canonical_flushLine (h h₀) line

theorem KeepsMem.flushAll (h : KeepsMem m₀ m) : KeepsMem m₀ m.flushAll := fun h₀ => Mem.canonical_flushAll (h h₀)

theorem KeepsMem.dropDirty (h : KeepsMem m₀ m) {line} : KeepsMem m₀ (m.dropDirty line) := fun h₀ => Mem.canonical_dropDirty (h h₀) line

theorem KeepsMem.rekey (h : KeepsMem m₀ m) {granule} : KeepsMem m₀ (m.rekey granule) := fun h₀ => Mem.canonical_rekey (h h₀) granule

theorem KeepsMem.rekeyAll (h : KeepsMem m₀ m) {kept l} : KeepsMem m₀ (m.rekeyAll kept l) :=
  fun h₀ => Mem.canonical_rekeyAll (h h₀) kept l

theorem KeepsMem.blurWords (h : KeepsMem m₀ m) {line bad} : KeepsMem m₀ (m.blurWords line bad) :=
  fun h₀ => Mem.canonical_blurWords (h h₀) line bad

theorem KeepsMem.foldl {α : Type} {f : Mem → α → Mem} {l : List α} (hf : ∀ m a, KeepsMem m₀ m → KeepsMem m₀ (f m a))
    (h : KeepsMem m₀ m) : KeepsMem m₀ (l.foldl f m) := foldl_keeps hf l m h

/-! ### Fields and loops of the state -/

theorem Keeps.refl : Keeps s s := ⟨id, rfl, rfl⟩

theorem Keeps.withMem (h : Keeps s₀ s) (hm : KeepsMem s.mem m) {time draws board cores ctl ulatch live store cmps generation cht evl buckets
    held flight usts lags lagCount halts mft mftc nettime dram qm hep net links pwr sec sent logOff} :
    Keeps s₀ ⟨s.pending, time, draws, s.fuses, board, cores, m, ctl, ulatch, live, store, cmps, generation, cht, evl, buckets, held, flight,
      usts, lags, lagCount, halts, mft, mftc, nettime, dram, qm, hep, net, links, pwr, sec, sent, logOff⟩ :=
  ⟨fun h₀ => hm (h.mem h₀), h.fuses, h.pending⟩

theorem Keeps.frame (h : Keeps s₀ s) {time draws board cores ctl ulatch live store cmps generation cht evl buckets held flight usts lags
    lagCount halts mft mftc nettime dram qm hep net links pwr sec sent logOff} :
    Keeps s₀ ⟨s.pending, time, draws, s.fuses, board, cores, s.mem, ctl, ulatch, live, store, cmps, generation, cht, evl, buckets, held,
      flight, usts, lags, lagCount, halts, mft, mftc, nettime, dram, qm, hep, net, links, pwr, sec, sent, logOff⟩ := .withMem h .refl

theorem Keeps.setMem (h : Keeps s₀ s) (hm : KeepsMem s.mem m) : Keeps s₀ (s.setMem m) := .withMem h hm

/-- A memory computed from an earlier state of the same step. -/
theorem Keeps.setMem' (h : Keeps s₀ s) (hm : KeepsMem s₀.mem m) : Keeps s₀ (s.setMem m) := ⟨hm, h.fuses, h.pending⟩

theorem Keeps.foldl {α : Type} {f : State → α → State} {l : List α} (hf : ∀ s a, Keeps s₀ s → Keeps s₀ (f s a)) (h : Keeps s₀ s) :
    Keeps s₀ (l.foldl f s) := foldl_keeps hf l s h

theorem KeepsPair.foldl {α β : Type} {f : State × β → α → State × β} {l : List α} {p}
    (hf : ∀ p a, KeepsPair s₀ p → KeepsPair s₀ (f p a)) (h : KeepsPair s₀ p) : KeepsPair s₀ (l.foldl f p) := foldl_keeps hf l p h

/-! ### Conditionals -/

section
variable {c : Prop} [Decidable c]

theorem KeepsMem.ite (h : KeepsMem m₀ m) (h' : KeepsMem m₀ m') : KeepsMem m₀ (if c then m else m') := by
  split <;> assumption

theorem Keeps.ite (h : Keeps s₀ s) (h' : Keeps s₀ t) : Keeps s₀ (if c then s else t) := by
  split <;> assumption

theorem KeepsPair.ite {α : Type} {p q : State × α} (h : KeepsPair s₀ p) (h' : KeepsPair s₀ q) : KeepsPair s₀ (if c then p else q) := by
  split <;> assumption

theorem KeepsRes.ite {r r'} (h : KeepsRes s₀ r) (h' : KeepsRes s₀ r') : KeepsRes s₀ (if c then r else r') := by
  split <;> assumption

theorem KeepsFetch.ite {f f'} (h : KeepsFetch s₀ f) (h' : KeepsFetch s₀ f') : KeepsFetch s₀ (if c then f else f') := by
  split <;> assumption

theorem KeepsPrep.ite {p p'} (h : KeepsPrep s₀ p) (h' : KeepsPrep s₀ p') : KeepsPrep s₀ (if c then p else p') := by
  split <;> assumption

theorem KeepsDma.ite {d d'} (h : KeepsDma s₀ d) (h' : KeepsDma s₀ d') : KeepsDma s₀ (if c then d else d') := by
  split <;> assumption

theorem KeepsOut.ite {o o'} (h : KeepsOut s₀ o) (h' : KeepsOut s₀ o') : KeepsOut s₀ (if c then o else o') := by
  split <;> assumption

end

/-! ### The state that an answer carries -/

theorem Keeps.fst {α : Type} {p : State × α} (h : KeepsPair s₀ p) : Keeps s₀ p.1 := by
  cases h; assumption

theorem Keeps.ofPair {α : Type} {p : State × α} {a} (h : KeepsPair s₀ p) (e : p = (s, a)) : Keeps s₀ s := by
  subst e; cases h; assumption

theorem Keeps.ofOk {f} (h : KeepsFetch s₀ f) (e : f = .ok s) : Keeps s₀ s := by
  subst e; cases h; assumption

theorem Keeps.ofFault {f x pa} (h : KeepsFetch s₀ f) (e : f = .fault s x pa) : Keeps s₀ s := by
  subst e; cases h; assumption

theorem Keeps.ofWait {f} (h : KeepsFetch s₀ f) (e : f = .wait s) : Keeps s₀ s := by
  subst e; cases h; assumption

theorem Keeps.ofGo {p} (h : KeepsPrep s₀ p) (e : p = .go s) : Keeps s₀ s := by
  subst e; cases h; assumption

theorem Keeps.ofOut {p} (h : KeepsPrep s₀ p) (e : p = .out s) : Keeps s₀ s := by
  subst e; cases h; assumption

theorem Keeps.ofNext {o} (h : KeepsOut s₀ o) (e : o = .next s) : Keeps s₀ s := by
  subst e; cases h; assumption

end
end Sys2Proof.Machine
end

section
/-!
PROOF. Keeps: the control space, the host interface, the event log and the counters.
-/
namespace Sys2Proof.Machine

section
variable {s₀ s : State}

theorem Keeps.setCore {k c} (h : Keeps s₀ s) : Keeps s₀ (s.setCore k c) := .frame h

theorem Keeps.modCore {k f} (h : Keeps s₀ s) : Keeps s₀ (s.modCore k f) := .setCore h

theorem Keeps.modCores {f} (h : Keeps s₀ s) : Keeps s₀ (s.modCores f) := .frame h

theorem Keeps.setUst {g u} (h : Keeps s₀ s) : Keeps s₀ (s.setUst g u) := .frame h

theorem Keeps.setCmpState {n c} (h : Keeps s₀ s) : Keeps s₀ (s.setCmpState n c) := .frame h

theorem Keeps.ctlSet {off v} (h : Keeps s₀ s) : Keeps s₀ (s.ctlSet off v) := .frame h

theorem Keeps.ctlMod {off f} (h : Keeps s₀ s) : Keeps s₀ (s.ctlMod off f) := .ctlSet h

theorem Keeps.ctlInc {off} (h : Keeps s₀ s) : Keeps s₀ (s.ctlInc off) := .ctlMod h

theorem Keeps.modHep {f} (h : Keeps s₀ s) : Keeps s₀ (s.modHep f) := .frame h

theorem Keeps.emit {x} (h : Keeps s₀ s) : Keeps s₀ (s.emit x) := .frame h

theorem Keeps.setCfg {fn off v} (h : Keeps s₀ s) : Keeps s₀ (s.setCfg fn off v) := .modHep h

theorem Keeps.sendInts {fn} (h : Keeps s₀ s) : Keeps s₀ (s.sendInts fn) := by
  unfold State.sendInts
  refine .foldl (fun _ _ h1 => ?_) h
  split
  · exact .modHep (.emit h1)
  · exact h1

theorem Keeps.intaSync {before} (h : Keeps s₀ s) : Keeps s₀ (s.intaSync before) := .foldl (fun _ _ h1 => .ite h1 (.emit h1)) h

theorem Keeps.irq {fn vec} (h : Keeps s₀ s) : Keeps s₀ (s.irq fn vec) :=
  .ite (.intaSync (.ite (.ctlMod h) (.modHep h))) (.sendInts (.modHep h))

theorem Keeps.notice {cmp cls code} (h : Keeps s₀ s) : Keeps s₀ (s.notice cmp cls code) := by
  unfold State.notice
  split
  · exact h
  · exact .ctlSet (.ite (.ctlInc h) h)

theorem Keeps.recordOne {cls code die cmp addr info aux} (h : Keeps s₀ s) : Keeps s₀ (s.recordOne cls code die cmp addr info aux) := by
  unfold State.recordOne
  extract_lets s1
  have h1 : Keeps s₀ s1 := .notice h
  refine .ite h1 (.ite (.frame h1) ?_)
  split
  · exact .frame h1
  · exact .ite (.frame h1) (.frame h1)

theorem Keeps.record {cls code die cmp addr info aux} (h : Keeps s₀ s) : Keeps s₀ (s.record cls code die cmp addr info aux) :=
  .ite (.recordOne h) (.recordOne (.recordOne h))

theorem Keeps.event {cls code die cmp addr info aux} (h : Keeps s₀ s) : Keeps s₀ (s.event cls code die cmp addr info aux) :=
  .ite (.irq (.record h)) (.record h)

theorem Keeps.hepCount {cause fn} (h : Keeps s₀ s) : Keeps s₀ (s.hepCount cause fn) := .ite (.irq (.modHep h)) (.event (.irq (.modHep h)))

theorem Keeps.setCnt48 {lo hi v} (h : Keeps s₀ s) : Keeps s₀ (s.setCnt48 lo hi v) := .ctlSet (.ctlSet h)

theorem Keeps.bump48 {lo hi ovf j n} (h : Keeps s₀ s) : Keeps s₀ (s.bump48 lo hi ovf j n) := .ite (.ctlMod (.setCnt48 h)) (.setCnt48 h)

theorem Keeps.count {k ev n} (h : Keeps s₀ s) : Keeps s₀ (s.count k ev n) := by
  unfold State.count
  split
  · exact h
  · exact .ite (.foldl (fun _ _ h1 => .ite (.bump48 h1) h1) h) h

theorem Keeps.cycles {k cat n} (h : Keeps s₀ s) : Keeps s₀ (s.cycles k cat n) := .ite h (.count (.count h))

theorem Keeps.ucount {g ev unit n cmp cls} (h : Keeps s₀ s) : Keeps s₀ (s.ucount g ev unit n cmp cls) := by
  unfold State.ucount
  split
  · exact h
  · exact .foldl (fun _ _ h1 => .ite (.bump48 h1) h1) h

theorem Keeps.lag {key bound old} (h : Keeps s₀ s) : Keeps s₀ (s.lag key bound old) := .frame h

theorem Keeps.slotWritten {was k} (h : Keeps s₀ s) : Keeps s₀ (s.slotWritten was k) := .ite (.ite h (.lag h)) (.lag (.ite h (.lag h)))

end
end Sys2Proof.Machine
end

section
/-!
PROOF. Keeps: the caches, the directory and the homes.
-/
namespace Sys2Proof.Machine

section
variable {s₀ s t : State} {m₀ m : Mem}

theorem KeepsMem.setTag {t} (h : KeepsMem m₀ m) : KeepsMem m₀ (m.setTag t) := .frame h

theorem KeepsMem.setL2 {t} (h : KeepsMem m₀ m) : KeepsMem m₀ (m.setL2 t) := .frame h

theorem KeepsMem.setDir {e} (h : KeepsMem m₀ m) : KeepsMem m₀ (m.setDir e) := .frame h

theorem KeepsMem.freeDir {line} (h : KeepsMem m₀ m) : KeepsMem m₀ (m.freeDir line) := .frame h

theorem KeepsMem.touchL2 {stand line} (h : KeepsMem m₀ m) : KeepsMem m₀ (m.touchL2 stand line) := by
  unfold Mem.touchL2
  split
  · exact .setL2 h
  · exact h

theorem KeepsMem.touchTag {g line} (h : KeepsMem m₀ m) : KeepsMem m₀ (m.touchTag g line) := by
  unfold Mem.touchTag
  split
  · exact .setTag h
  · exact h

theorem Keeps.dropStand {stand line} (h : Keeps s₀ s) : Keeps s₀ (s.dropStand stand line) := .setMem (.modCores h) (.frame .refl)

theorem Keeps.dropGrove {g line} (h : Keeps s₀ s) : Keeps s₀ (s.dropGrove g line) := .setMem (.modCores h) (.frame .refl)

theorem Keeps.demote {p line} (h : Keeps s₀ s) : Keeps s₀ (s.demote p line) := .setMem (.modCores h) (.frame .refl)

theorem Keeps.shareGrove {g line} (h : Keeps s₀ s) : Keeps s₀ (s.shareGrove g line) := .demote h

theorem Keeps.putTag {g line st data} (h : Keeps s₀ s) : Keeps s₀ (s.putTag g line st data) := by
  unfold State.putTag
  split <;> exact .setMem h (.setTag .refl)

theorem Keeps.mirrorOut {line cls} (h : Keeps s₀ s) : Keeps s₀ (s.mirrorOut line cls) := by
  unfold State.mirrorOut
  split
  · exact .ite (.emit h) h
  · exact h

theorem Keeps.modDram {f} (h : Keeps s₀ s) : Keeps s₀ (s.modDram f) := .frame h

theorem Keeps.queueWrite {line r} (h : Keeps s₀ s) : Keeps s₀ (s.queueWrite line r) := by
  unfold State.queueWrite
  exact .modDram (.mirrorOut h)

theorem Keeps.acceptWrite {line r} (h : Keeps s₀ s) : Keeps s₀ (s.acceptWrite line r) := by
  unfold State.acceptWrite
  split
  · exact .queueWrite (.ite h (.modDram h))
  · exact h

theorem Keeps.setCls {g line cls slack} (h : Keeps s₀ s) : Keeps s₀ (s.setCls g line cls slack) := .setMem h (.frame .refl)

theorem Keeps.takeCls {g line r} (h : Keeps s₀ s) : Keeps s₀ (s.takeCls g line r) := .setCls h

theorem Keeps.asEngine {g line act} (hact : ∀ s, Keeps s₀ s → Keeps s₀ (act s)) (h : Keeps s₀ s) : Keeps s₀ (s.asEngine g line act) := by
  unfold State.asEngine
  split
  · exact .setCls (hact _ (.setCls h))
  · exact hact _ h

theorem Keeps.sendWb {g line keep} (h : Keeps s₀ s) : Keeps s₀ (s.sendWb g line keep) := by
  unfold State.sendWb
  exact .ite (.emit (.ucount h)) (.acceptWrite (.ucount h))

theorem KeepsPair.holderFwdS {h' line} (h : Keeps s₀ s) : KeepsPair s₀ (s.holderFwdS h' line) := by
  unfold State.holderFwdS
  split
  · exact .mk h
  · extract_lets s1
    have h1 : Keeps s₀ s1 := .shareGrove h
    split
    · exact .ite (.mk (.putTag h1)) (.mk (.setMem (.putTag (.sendWb h1)) (.flushLine .refl)))
    · exact .mk h1
    · exact .mk h1
    · exact .mk (.putTag h1)

theorem KeepsPair.holderDrop {h' line} (h : Keeps s₀ s) : KeepsPair s₀ (s.holderDrop h' line) := by
  unfold State.holderDrop
  split
  · exact .mk h
  · exact .mk (.dropGrove h)

theorem Keeps.dropAll {line gs} (h : Keeps s₀ s) : Keeps s₀ (s.dropAll line gs) := .foldl (fun _ _ h1 => .dropGrove h1) h

theorem KeepsMem.tellPartner {line} (h : KeepsMem m₀ m) : KeepsMem m₀ (m.tellPartner line) := by
  unfold Mem.tellPartner
  split
  · exact .ite (.frame h) h
  · exact h

theorem KeepsMem.releasePartner {line} (h : KeepsMem m₀ m) : KeepsMem m₀ (m.releasePartner line) := by
  unfold Mem.releasePartner
  split
  · exact h
  · exact .ite (.freeDir h) (.setDir h)

theorem Keeps.mergeHolders {line} (h : Keeps s₀ s) : Keeps s₀ (s.mergeHolders line) :=
  .setMem (.dropAll h) (.freeDir (.flushLine (.tellPartner .refl)))

theorem Keeps.backInvalidate {line} (h : Keeps s₀ s) : Keeps s₀ (s.backInvalidate line) := .mergeHolders (.ite (.acceptWrite h) h)

theorem Keeps.countBinv {h' n line} (h : Keeps s₀ s) : Keeps s₀ (s.countBinv h' n line) := by
  unfold State.countBinv
  exact .ucount (.ctlMod h)

theorem Keeps.roomDir {line} (h : Keeps s₀ s) : Keeps s₀ (s.roomDir line) := by
  unfold State.roomDir
  refine .ite h ?_
  split
  · exact .backInvalidate (.countBinv h)
  · exact h

theorem KeepsPair.homeRead {g line} (h : Keeps s₀ s) : KeepsPair s₀ (s.homeRead g line) := by
  unfold State.homeRead
  refine .ite (.mk h) ?_
  split
  · exact .mk (.setMem (.roomDir h) (.setDir .refl))
  · split
    · exact .mk (.setMem (.ite (.fst (.holderFwdS h)) h) (.setDir .refl))
    · refine .ite (.mk h) ?_
      split
      next e1 =>
        have h1 := Keeps.ofPair (.holderFwdS h) e1
        exact .ite (.ite (.mk (.setMem h1 (.setDir .refl))) (.mk (.setMem h1 (.setDir .refl)))) (.mk (.setMem h1 (.setDir .refl)))
    · split
      next e2 => exact .mk (.setMem (.ofPair (.holderFwdS h) e2) (.setDir .refl))

theorem Keeps.homeOwn {g line} (h : Keeps s₀ s) : Keeps s₀ (s.homeOwn g line) := by
  unfold State.homeOwn
  refine .ite (.dropAll h) ?_
  extract_lets s1
  have h1 : Keeps s₀ s1 := by
    unfold s1
    split
    · exact .roomDir h
    · exact .dropAll h
  exact .setMem h1 (.setDir .refl)

theorem KeepsMem.dirRelease {g line} (h : KeepsMem m₀ m) : KeepsMem m₀ (m.dirRelease g line) := by
  unfold Mem.dirRelease
  split
  · exact h
  · split
    · exact .ite (.freeDir h) h
    · exact .ite (.ite (.freeDir h) (.setDir h)) (.setDir h)
    · exact .ite (.freeDir h) (.setDir h)

theorem KeepsMem.cleanL2 {g line} (h : KeepsMem m₀ m) : KeepsMem m₀ (m.cleanL2 g line) := .frame h

theorem Keeps.cleanGrove {g line} (h : Keeps s₀ s) : Keeps s₀ (s.cleanGrove g line) := by
  unfold State.cleanGrove
  split
  · exact h
  · extract_lets
    split
    · exact .setMem (.ite (.sendWb h) h) (.setTag (.cleanL2 (.flushLine .refl)))
    · refine .setMem (.ite (.sendWb h) h) ?_
      split
      · exact .ite (.setDir (.setTag (.cleanL2 (.flushLine .refl)))) (.setTag (.cleanL2 (.flushLine .refl)))
      · exact .setTag (.cleanL2 (.flushLine .refl))
    · exact .ite (.sendWb h) h

theorem Keeps.groveEvict {g line} (h : Keeps s₀ s) : Keeps s₀ (s.groveEvict g line) := by
  unfold State.groveEvict
  split
  · exact h
  · exact .ite (.setMem (.dropGrove (.sendWb h)) (.dirRelease (.flushLine .refl)))
        (.ite (.dropGrove h) (.ite (.setMem (.dropGrove h) (.frame .refl)) (.setMem (.dropGrove h) (.dirRelease .refl))))

theorem Keeps.l2Evict {stand line} (h : Keeps s₀ s) : Keeps s₀ (s.l2Evict stand line) := by
  unfold State.l2Evict
  split
  · exact h
  · extract_lets _ s1
    have h1 : Keeps s₀ s1 := .dropStand h
    split
    · exact h1
    · exact .ite (.groveEvict h1) (.ite (.cleanGrove h1) h1)

theorem Keeps.roomL2 {stand line} (h : Keeps s₀ s) : Keeps s₀ (s.roomL2 stand line) := by
  unfold State.roomL2
  refine .ite h ?_
  split
  · exact .l2Evict h
  · exact h

theorem Keeps.roomGrove {g line} (h : Keeps s₀ s) : Keeps s₀ (s.roomGrove g line) := by
  unfold State.roomGrove
  refine .ite h ?_
  split
  · exact .groveEvict h
  · exact h

theorem Keeps.emptyWay {g w} (h : Keeps s₀ s) : Keeps s₀ (s.emptyWay g w) := .foldl (fun _ _ h1 => .groveEvict h1) h

theorem Keeps.dropWindow (h : Keeps s₀ s) : Keeps s₀ s.dropWindow := .foldl (fun _ _ h1 => .setMem (.dropAll h1) (.dropDirty .refl)) h

theorem KeepsPair.standRead {stand line} (h : Keeps s₀ s) : KeepsPair s₀ (s.standRead stand line) := .ite (.mk h) (.mk (.shareGrove h))

theorem Keeps.settleData {g line} (h : Keeps s₀ s) : Keeps s₀ (s.settleData g line) := by
  unfold State.settleData
  split
  · exact .ite (.cleanGrove h) h
  · exact h

theorem Keeps.gainShared {stand line} (h : Keeps s₀ s) : Keeps s₀ (s.gainShared stand line) := by
  unfold State.gainShared
  extract_lets
  split
  · exact .setMem h (.touchL2 .refl)
  · split
    · split
      next e1 => exact .setMem (.roomL2 (.settleData (.putTag (.ofPair (.standRead h) e1)))) (.setL2 .refl)
    · split
      next e2 => exact .setMem (.roomL2 (.putTag (.ofPair (.homeRead (.roomGrove h)) e2))) (.setL2 .refl)

theorem Keeps.gainOwn {stand line} (h : Keeps s₀ s) : Keeps s₀ (s.gainOwn stand line) := by
  unfold State.gainOwn
  extract_lets _ _ _ _ _ _ s1 s2
  have h1 : Keeps s₀ s1 := by
    unfold s1
    split
    · exact .ite (.setMem h (.touchTag .refl)) (.putTag (.homeOwn h))
    · exact .putTag (.homeOwn (.roomGrove h))
  have h2 : Keeps s₀ s2 := .foldl (fun _ _ h3 => .dropStand h3) h1
  exact .setMem (.ite h2 (.roomL2 h2)) (.setL2 .refl)

theorem Keeps.ownedWrite {stand pa bytes} (h : Keeps s₀ s) : Keeps s₀ (s.ownedWrite stand pa bytes) := by
  unfold State.ownedWrite
  refine .setMem h ?_
  split
  · exact .setTag (.setL2 (.write .refl))
  · exact .setL2 (.write .refl)

theorem Keeps.clearRes {except line} (h : Keeps s₀ s) : Keeps s₀ (s.clearRes except line) := .modCores h

theorem Keeps.countUpGrove {n g} (h : Keeps s₀ s) : Keeps s₀ (s.countUpGrove n g) :=
  .ite h (.foldl (fun _ _ h1 => .ite (.ucount h1) h1) (.foldl (fun _ _ h2 => .ucount h2) h))

theorem Keeps.countUp (h : Keeps s₀ s) : Keeps s₀ s.countUp := .frame (.ite h (.foldl (fun _ _ h1 => .countUpGrove h1) h))

theorem Keeps.setTxn {t} (h : Keeps s₀ s) : Keeps s₀ (s.setTxn t) := .setMem h (.frame .refl)

theorem Keeps.closeTxn {line} (h : Keeps s₀ s) : Keeps s₀ (s.closeTxn line) := .setMem (.countUp h) (.frame .refl)

theorem Keeps.send {l} (h : Keeps s₀ s) : Keeps s₀ (s.send l) := .setMem h (.frame .refl)

theorem Keeps.recv {line port p m} (h : Keeps s₀ s) (e : s.recv line port p = some (m, t)) : Keeps s₀ t := by
  unfold State.recv at e
  split at e <;> cases e
  exact .setMem h (.frame .refl)

theorem Keeps.openT {t l} (h : Keeps s₀ s) : Keeps s₀ (s.openT t l) := by
  unfold State.openT
  exact .ucount (.ctlMod (.send (.setMem (.countUp h) (.frame .refl))))

theorem KeepsPair.victimStart {line} (h : Keeps s₀ s) : KeepsPair s₀ (s.victimStart line) := by
  unfold State.victimStart
  refine .ite (.mk h) ?_
  split
  · exact .mk (.ucount (.ctlInc h))
  · exact .mk (.countBinv (.openT h))

theorem Keeps.pendGrove {g line tr} (h : Keeps s₀ s) : Keeps s₀ (s.pendGrove g line tr) := .ite (.setMem h (.frame .refl)) h

theorem Keeps.unpend {g line} (h : Keeps s₀ s) : Keeps s₀ (s.unpend g line) := .setMem h (.frame .refl)

theorem Keeps.serveRds {g line} (h : Keeps s₀ s) : Keeps s₀ (s.serveRds g line) := by
  unfold State.serveRds
  extract_lets
  split
  · exact .openT (.setMem h (.setDir .refl))
  · extract_lets
    split
    · exact .ite (.openT (.setMem h (.setDir .refl))) (.openT (.setMem h (.setDir .refl)))
    · exact .ite (.openT h) (.openT (.setMem h (.setDir .refl)))
    · exact .openT (.setMem h (.setDir .refl))

theorem Keeps.serveRdx {g line k} (h : Keeps s₀ s) : Keeps s₀ (s.serveRdx g line k) := by
  unfold State.serveRdx
  dsimp only
  split
  · exact .openT (.setMem h (.setDir .refl))
  · split <;> exact .openT (.setMem h (.setDir .refl))

theorem Keeps.serveUpg {g line} (h : Keeps s₀ s) : Keeps s₀ (s.serveUpg g line) := by
  unfold State.serveUpg
  split
  · exact .serveRdx h
  · exact .ite (.serveRdx h) (.openT (.setMem h (.setDir .refl)))

theorem Keeps.serveRdcur {port line} (h : Keeps s₀ s) : Keeps s₀ (s.serveRdcur port line) := by
  unfold State.serveRdcur
  extract_lets
  split
  · exact .ite (.openT h) (.openT h)
  · exact .openT h

theorem Keeps.progress {line} (h : Keeps s₀ s) : Keeps s₀ (s.progress line) := by
  unfold State.progress
  split
  · exact h
  · refine .ite h ?_
    split
    · exact .send (.setTxn h)
    · exact .ite (.setMem (.closeTxn h) (.freeDir .refl)) h

theorem Keeps.serveWrinv {port line bytes} (h : Keeps s₀ s) : Keeps s₀ (s.serveWrinv port line bytes) := by
  unfold State.serveWrinv
  extract_lets
  split
  · exact .progress (.openT h)
  · refine .ite (.progress (.openT h)) ?_
    split <;> exact .openT h

theorem Keeps.serveReq {w} (h : Keeps s₀ s) : Keeps s₀ (s.serveReq w) := by
  unfold State.serveReq
  split
  · exact .serveRds h
  · exact .serveRdx h
  · exact .serveUpg h
  · exact .serveRdcur h
  · exact .serveWrinv h
  · exact .setMem h (.dirRelease .refl)
  · exact h

theorem KeepsPair.startReq {w} (h : Keeps s₀ s) : KeepsPair s₀ (s.startReq w) := by
  unfold State.startReq
  refine .ite (.mk h) (.ite (.ite (.mk h) ?_) (.mk (.serveReq h)))
  split
  next e1 => exact .mk (.serveReq (.ofPair (.victimStart h) e1))
  next e1 => exact .mk (.ofPair (.victimStart h) e1)

theorem Keeps.request {port line k} (h : Keeps s₀ s) : Keeps s₀ (s.request port line k) := by
  unfold State.request
  refine .ite (.setMem h (.frame .refl)) ?_
  split
  next e1 => exact .ofPair (.startReq h) e1
  next e1 => exact .setMem (.ofPair (.startReq h) e1) (.frame .refl)

theorem Keeps.agePromoted {w} (h : Keeps s₀ s) : Keeps s₀ (s.agePromoted w) := .ite (.ucount h) h

theorem Keeps.serveWaits (h : Keeps s₀ s) : Keeps s₀ s.serveWaits := by
  unfold State.serveWaits
  refine .foldl (fun _ _ h1 => .ite ?_ h1) h
  split
  next e1 => exact .agePromoted (.setMem (.ofPair (.startReq h1) e1) (.frame .refl))
  next e1 => exact .ofPair (.startReq h1) e1

theorem Keeps.joinHome {g line needsW} (h : Keeps s₀ s) : Keeps s₀ (s.joinHome g line needsW) := .ite h (.request (.pendGrove h))

theorem Keeps.outRequest {g line kind} (h : Keeps s₀ s) : Keeps s₀ (s.outRequest g line kind) := .ite (.emit (.pendGrove h)) h

theorem Keeps.wrNow {port pa bytes} (h : Keeps s₀ s) : Keeps s₀ (s.wrNow port pa bytes) :=
  .setMem (.acceptWrite (.clearRes (.ite (.ite (.emit h) h) (.mergeHolders (.ite (.emit h) h)))))
      (.ite (.setPoison (.writeDram .refl)) (.writeDram .refl))

theorem Keeps.wrInvFrom {port pa bytes} (h : Keeps s₀ s) : Keeps s₀ (s.wrInvFrom port pa bytes) := by
  unfold State.wrInvFrom
  exact .ite (.request h) (.wrNow h)

theorem Keeps.wrInv {pa bytes} (h : Keeps s₀ s) : Keeps s₀ (s.wrInv pa bytes) := .wrInvFrom h

theorem KeepsPair.landingTake {line write} (h : Keeps s₀ s) : KeepsPair s₀ (s.landingTake line write) := by
  unfold State.landingTake
  dsimp only
  split
  next e =>
    split at e
    · cases e
    · exact .mk (.serveWaits (.ite (.closeTxn (.recv h e)) (.recv h e)))
  · refine .ite (.mk h) ?_
    split
    · exact .mk (.outRequest h)
    · exact .ite (.mk (.request h)) (.mk h)

theorem KeepsPair.takeAll {l} (h : Keeps s₀ s) : KeepsPair s₀ (s.takeAll l) :=
  .foldl (fun _ _ h1 => .ite (.landingTake (.fst h1)) h1) (.mk h)

end
end Sys2Proof.Machine
end

section
/-!
PROOF. Keeps: the manifest journal.
-/
namespace Sys2Proof.Machine

section
variable {s₀ s : State}

theorem Keeps.wrDev {pa bs} (h : Keeps s₀ s) : Keeps s₀ (s.wrDev pa bs) := .foldl (fun _ _ h1 => .wrInv h1) h

theorem Keeps.wrOctets {dense base o octs} (h : Keeps s₀ s) : Keeps s₀ (s.wrOctets dense base o octs) := .wrDev h

theorem Keeps.setSess {n m} (h : Keeps s₀ s) : Keeps s₀ (s.setSess n m) := .frame h

theorem Keeps.mftSpace {n} (h : Keeps s₀ s) : Keeps s₀ (s.mftSpace n) := by
  unfold State.mftSpace
  exact .ctlMod (.ctlMod h)

theorem Keeps.mftBlock {n} (h : Keeps s₀ s) : Keeps s₀ (s.mftBlock n) := by
  unfold State.mftBlock
  extract_lets
  split
  · exact h
  · exact .mftSpace (.ctlMod (.setSess (.wrOctets h)))

theorem Keeps.mftFlush {n f} (h : Keeps s₀ s) : Keeps s₀ (s.mftFlush n f) := by
  induction f generalizing s with
  | zero => exact h
  | succ f ih => exact .ite h (ih (.mftBlock h))

theorem Keeps.mftPut {n r} (h : Keeps s₀ s) : Keeps s₀ (s.mftPut n r) := .setSess h

theorem Keeps.setMftc {k m} (h : Keeps s₀ s) : Keeps s₀ (s.setMftc k m) := .frame h

theorem Keeps.mftRelease {k} (h : Keeps s₀ s) : Keeps s₀ (s.mftRelease k) := by
  unfold State.mftRelease
  split
  · exact .ite h (.foldl (fun _ _ h1 => .mftPut h1) (.setMftc h))
  · exact h

theorem Keeps.mftReleaseAll {k} (h : Keeps s₀ s) : Keeps s₀ (s.mftReleaseAll k) := by
  unfold State.mftReleaseAll
  split
  · exact .foldl (fun _ _ h1 => .mftPut h1) (.setMftc h)
  · exact h

theorem Keeps.mftEndChunk {k cause} (h : Keeps s₀ s) : Keeps s₀ (s.mftEndChunk k cause) := by
  unfold State.mftEndChunk
  split
  · exact .count (.setMftc (.ctlInc (.ite h (.mftPut h))))
  · exact h

theorem Keeps.mftEndInput {n} (h : Keeps s₀ s) : Keeps s₀ (s.mftEndInput n) := .setSess h

theorem Keeps.mftEnd {n cause} (h : Keeps s₀ s) : Keeps s₀ (s.mftEnd n cause) :=
  .ite (.event (.mftSpace (.ctlMod (.modCores (.frame (.mftFlush
      (.mftPut (.mftEndInput (.foldl (fun _ _ h1 => .mftReleaseAll (.mftEndChunk h1)) h))))))))) h

theorem Keeps.mftEvent {k type data cont} (h : Keeps s₀ s) : Keeps s₀ (s.mftEvent k type data cont) := by
  unfold State.mftEvent
  split
  · exact .ite h (.ite (.mftEnd h) (.ite (.count (.ctlInc (.modCore (.mftPut h)))) (.mftPut h)))
  · exact h

theorem Keeps.mftDiverge {n kind agent chunk off} (h : Keeps s₀ s) : Keeps s₀ (s.mftDiverge n kind agent chunk off) :=
  .ite (.modCores (.frame (.ctlMod (.ctlMod (.ctlSet (.ctlSet (.ctlSet h)))))))
      (.event (.setCmpState (.modCores (.frame (.ctlMod (.ctlMod (.ctlSet (.ctlSet (.ctlSet h)))))))))

theorem Keeps.mftTake {k} (h : Keeps s₀ s) : Keeps s₀ (s.mftTake k) := by
  unfold State.mftTake
  split
  · exact .setMftc h
  · exact h

theorem KeepsPair.nondet {k type v cont} (h : Keeps s₀ s) : KeepsPair s₀ (s.nondet k type v cont) := by
  unfold State.nondet
  refine .ite (.mk (.mftEvent h)) ?_
  split
  · refine .ite (.mk (.mftTake h)) ?_
    split
    · exact .mk (.mftDiverge h)
    · exact .mk h
  · split
    · exact .mk (.mftDiverge h)
    · exact .mk h

theorem Keeps.mftItem {k code v} (h : Keeps s₀ s) : Keeps s₀ (s.mftItem k code v) := by
  unfold State.mftItem
  split
  · exact .setMftc h
  · exact h

theorem Keeps.mftRetire {k n} (h : Keeps s₀ s) : Keeps s₀ (s.mftRetire k n) := by
  unfold State.mftRetire
  split
  · exact .setMftc h
  · exact h

theorem Keeps.mftOrder {n ea ec la lc} (h : Keeps s₀ s) : Keeps s₀ (s.mftOrder n ea ec la lc) := .mftPut h

theorem Keeps.mftMarkAt {k lc line isWrite} (h : Keeps s₀ s) : Keeps s₀ (s.mftMarkAt k lc line isWrite) := by
  unfold State.mftMarkAt
  split
  · refine .ite h ?_
    extract_lets s1 _ s2
    have h1 : Keeps s₀ s1 := .foldl (fun _ _ h2 => .ite (.mftOrder (.mftEndChunk h2)) h2) h
    have h3 : Keeps s₀ s2 := .ite (.mftOrder (.mftEndInput h1)) h1
    split
    · exact .ite (.ite h3 (.setMftc h3)) (.ite h3 (.setMftc h3))
    · exact h3
  · exact h

theorem Keeps.mftMark {k line isWrite} (h : Keeps s₀ s) : Keeps s₀ (s.mftMark k line isWrite) := .mftMarkAt h

theorem Keeps.mftInput {n line mask source hash} (h : Keeps s₀ s) : Keeps s₀ (s.mftInput n line mask source hash) := by
  unfold State.mftInput
  refine .ite h ?_
  extract_lets s1
  have h1 : Keeps s₀ s1 := .foldl (fun _ _ h2 => .ite (.mftOrder (.mftEndChunk h2)) h2) h
  exact .ite (.mftEndInput (.setSess (.mftPut h1))) (.setSess (.mftPut h1))

end
end Sys2Proof.Machine
end

section
/-!
PROOF. Keeps: the accesses of a core, the shaper and the Understorey.
-/
namespace Sys2Proof.Machine

section
variable {s₀ s : State}

theorem Keeps.gainTable {stand line} (h : Keeps s₀ s) : Keeps s₀ (s.gainTable stand line) := .ite h (.gainShared h)

theorem KeepsPair.translateIn {k x kind la} (h : Keeps s₀ s) : KeepsPair s₀ (s.translateIn k x kind la) := by
  unfold State.translateIn
  refine .ite (.mk h) ?_
  split
  · exact .mk (.modCore h)
  · extract_lets
    split
    · exact .mk (.modCore (.count h))
    · exact .mk (.count (.count h))

theorem KeepsPair.translate {k kind la} (h : Keeps s₀ s) : KeepsPair s₀ (s.translate k kind la) := .translateIn h

theorem KeepsPair.walkFill {k x kind la} (h : Keeps s₀ s) : KeepsPair s₀ (s.walkFill k x kind la) := by
  unfold State.walkFill
  split
  · extract_lets _ s1
    have h1 : Keeps s₀ s1 := .count (.foldl (fun _ _ h2 => .mftMark h2) h)
    split
    · exact .mk (.ite (.event h1) h1)
    · extract_lets
      split
      · exact .mk h1
      · exact .mk (.modCore h1)

theorem Keeps.purge {k la} (h : Keeps s₀ s) : Keeps s₀ (s.purge k la) := .modCore h

theorem KeepsPair.access {k kind size la} (h : Keeps s₀ s) : KeepsPair s₀ (s.access k kind size la) := by
  unfold State.access
  split
  next e1 => exact .mk (.ofPair (.translate h) e1)
  next e1 =>
    have h1 := Keeps.ofPair (.translate h) e1
    exact .mk (.ite (.purge h1) h1)
  next e1 => split <;> exact .mk (.ofPair (.translate h) e1)

theorem Keeps.take {ci c q} (h : Keeps s₀ s) : Keeps s₀ (s.take ci c q) := .foldl (fun _ _ h1 => .frame h1) h

theorem KeepsPair.shape {q} (h : Keeps s₀ s) : KeepsPair s₀ (s.shape q) := by
  unfold State.shape
  extract_lets
  split
  · exact .mk (.take h)
  · split
    · exact .mk (.take h)
    · exact .mk h

theorem Keeps.accepted {q cmp cls now} (h : Keeps s₀ s) : Keeps s₀ (s.accepted q cmp cls now) := .frame h

theorem Keeps.asDevice {q} (h : Keeps s₀ s) : Keeps s₀ (s.asDevice q) := .frame h

theorem Keeps.offer {q cmp now} (h : Keeps s₀ s) : Keeps s₀ (s.offer q cmp now) := by
  unfold State.offer
  refine .ite h ?_
  split
  next e1 => exact .accepted (.ofPair (.shape h) e1)
  next e1 => exact .frame (.ofPair (.shape h) e1)

theorem KeepsPair.complete {q now} (h : Keeps s₀ s) : KeepsPair s₀ (s.complete q now) := by
  unfold State.complete
  split
  · exact .mk h
  · refine .ite (.mk (.frame h)) (.ite ?_ (.mk (.ctlInc (.frame h))))
    extract_lets s1 _ s2
    have h1 : Keeps s₀ s1 := .ctlInc (.frame h)
    have h2 : Keeps s₀ s2 := by
      unfold s2
      split
      · exact .ucount (.ite (.count h1) h1)
      · exact .ite (.count h1) h1
    exact .mk (.event h2)

theorem Keeps.withdraw {srcKind item} (h : Keeps s₀ s) : Keeps s₀ (s.withdraw srcKind item) := .frame h

theorem Keeps.releaseOther {q} (h : Keeps s₀ s) : Keeps s₀ (s.releaseOther q) := by
  unfold State.releaseOther
  split
  · exact h
  · exact .accepted (.frame h)
  · exact .accepted (.frame (.take (.frame h)))

theorem KeepsPair.passWait {q cmp} (h : Keeps s₀ s) : KeepsPair s₀ (s.passWait q cmp) :=
  .complete (.frame (.ite (.releaseOther (.offer h)) (.offer h)))

theorem Keeps.xCells {g u x} (h : Keeps s₀ s) : Keeps s₀ (s.xCells g u x) := .setUst h

theorem KeepsPair.xAccess {k unit x kind la size} (h : Keeps s₀ s) : KeepsPair s₀ (s.xAccess k unit x kind la size) := by
  unfold State.xAccess
  refine .ite (.mk h) (.ite (.mk h) ?_)
  dsimp only
  split
  · exact .mk (.setMem h (.frame .refl))
  · split
    · exact .mk (.ite (.event h) h)
    · refine .mk ?_
      split
      · exact .setMem h (.frame .refl)
      · exact h

theorem KeepsPair.xRequest {k pa write} (h : Keeps s₀ s) : KeepsPair s₀ (s.xRequest k pa write) := .mk (.fst (.passWait h))

theorem KeepsPair.holdLine {g line} (h : Keeps s₀ s) : KeepsPair s₀ (s.holdLine g line) := .ite (.mk h) (.mk (.openT (.backInvalidate h)))

theorem Keeps.freeLines {lines} (h : Keeps s₀ s) : Keeps s₀ (s.freeLines lines) := .ite h (.setMem' (.countUp h) (.frame h.mem))

theorem KeepsPair.xStores {k n x l} (h : Keeps s₀ s) : KeepsPair s₀ (s.xStores k x n l) := by
  induction l generalizing s x n with
  | nil => exact .mk h
  | cons a l ih =>
    unfold State.xStores
    extract_lets la unit
    split
    next e => exact .mk (.freeLines (.ofPair (.xAccess h) e))
    next e =>
      have h1 := Keeps.ofPair (.xAccess h) e
      split
      next e1 =>
        have h2 := Keeps.ofPair (.xRequest h1) e1
        refine .ite (.mk (.freeLines h2)) ?_
        split
        next e2 => exact .mk (.fst (ih (.ofPair (.ite (.mk h2) (.holdLine h2)) e2)))

theorem KeepsPair.xRun {u n k x} (h : Keeps s₀ s) : KeepsPair s₀ (State.xRun u n s k x) := by
  induction n generalizing s x with
  | zero => exact .mk h
  | succ n ih =>
    unfold State.xRun
    split
    · extract_lets la
      split
      next e => exact .mk (.ofPair (.xAccess h) e)
      next e =>
        have h1 := Keeps.ofPair (.xAccess h) e
        split
        next e1 =>
          have h2 := Keeps.ofPair (.xRequest h1) e1
          exact .ite (.mk h2) (.ite (.mk (.event h2)) (ih (.mftMark h2)))
    · split
      next e =>
        have h1 := Keeps.ofPair (.xStores h) e
        split
        · exact .mk h1
        · exact .mk h1
        · exact .mk (.xCells h1)

theorem KeepsPair.xPerform {k x} (h : Keeps s₀ s) : KeepsPair s₀ (s.xPerform k x) := by
  unfold State.xPerform
  split
  · exact .mk h
  · refine .ite (.mk (.xCells h)) ?_
    extract_lets
    split
    next e1 =>
      have h1 := Keeps.ofPair (.xRun h) e1
      exact .ite (.mk (.freeLines h1)) (.mk h1)

theorem Keeps.leaveX {k seq} (h : Keeps s₀ s) : Keeps s₀ (s.leaveX k seq) := by
  unfold State.leaveX
  exact .modCore (.freeLines h)

theorem Keeps.dropX {k seq} (h : Keeps s₀ s) : Keeps s₀ (s.dropX k seq) := .serveWaits (.leaveX h)

theorem Keeps.xFault {k x sub addr} (h : Keeps s₀ s) : Keeps s₀ (s.xFault k x sub addr) :=
  .ite (.modCore (.modCore h)) (.dropX (.modCore h))

theorem Keeps.xOverrun {k x} (h : Keeps s₀ s) : Keeps s₀ (s.xOverrun k x) := by
  unfold State.xOverrun
  exact .xFault (.mftEvent (.ucount (.ctlInc h)))

theorem Keeps.xWrite {g x st} (h : Keeps s₀ s) : Keeps s₀ (s.xWrite g x st) := .ite (.wrNow h) (.wrInvFrom h)

theorem Keeps.landX {k x late} (h : Keeps s₀ s) : Keeps s₀ (s.landX k x late) := by
  unfold State.landX
  refine .ite (.xOverrun h) ?_
  split
  · exact .xOverrun h
  · exact .xFault h
  · exact .modCore (.dropX h)
  · extract_lets _ s1 _ _ _ s2
    have h1 : Keeps s₀ s1 := .serveWaits (.foldl (fun _ _ h2 => .mftMark (.xWrite h2)) (.leaveX h))
    have h3 : Keeps s₀ s2 := .modCore (.ite h1 (.mftEvent h1))
    exact .ite (.mftItem (.ite h3 (.mftItem h3))) (.ite h3 (.mftItem h3))

theorem Keeps.landXDue {k} (h : Keeps s₀ s) : Keeps s₀ (s.landXDue k) := by
  unfold State.landXDue
  refine .foldl (fun _ _ h1 => ?_) h
  split
  · exact .landX h1
  · exact h1

theorem Keeps.landOp {k seq} (h : Keeps s₀ s) : Keeps s₀ (s.landOp k seq) := by
  unfold State.landOp
  split
  · exact .modCore h
  · split
    · exact .landX h
    · exact h

theorem Keeps.landOps {k seqs} (h : Keeps s₀ s) : Keeps s₀ (s.landOps k seqs) := .foldl (fun _ _ h1 => .landOp h1) h

theorem Keeps.landRest {k} (h : Keeps s₀ s) : Keeps s₀ (s.landRest k) := .ite (.landOps h) h

theorem Keeps.landRecorded {k f} (h : Keeps s₀ s) : Keeps s₀ (s.landRecorded k f) := by
  induction f generalizing s with
  | zero => exact h
  | succ f ih =>
    unfold State.landRecorded
    split
    · exact h
    · refine .ite h ?_
      dsimp only
      split
      · exact ih (.landX (.mftTake h))
      · split
        · exact .mftDiverge h
        · exact h

theorem Keeps.landFault {k} (h : Keeps s₀ s) : Keeps s₀ (s.landFault k) := .ite (.landOps h) h

theorem Keeps.landForRoom {k} (h : Keeps s₀ s) : Keeps s₀ (s.landForRoom k) := .ite (.landOps h) h

theorem Keeps.sync {k} (h : Keeps s₀ s) : Keeps s₀ (s.sync k) := .frame h

theorem Keeps.landLong {k} (h : Keeps s₀ s) : Keeps s₀ (s.landLong k) := .ite h (.landXDue (.modCore h))

theorem Keeps.advance {k n} (h : Keeps s₀ s) : Keeps s₀ (s.advance k n) := .sync (.landLong (.modCore h))

theorem Keeps.freezeFor {k n} (h : Keeps s₀ s) : Keeps s₀ (s.freezeFor k n) := .ite h (.sync (.landLong (.modCore (.cycles h))))

theorem Keeps.resumeParked {k} (h : Keeps s₀ s) : Keeps s₀ (s.resumeParked k) := by
  unfold State.resumeParked
  refine .foldl (fun _ _ h1 => ?_) (.modCore h)
  split
  next e1 => exact .modCore (.ofPair (.xPerform h1) e1)

theorem Keeps.setDropped {k} (h : Keeps s₀ s) : Keeps s₀ (s.setDropped k) := .setUst h

theorem Keeps.discardParked {k} (h : Keeps s₀ s) : Keeps s₀ (s.discardParked k) :=
  .ite (.modCore (.setDropped (.serveWaits (.freeLines h)))) h

theorem Keeps.discardAll {k} (h : Keeps s₀ s) : Keeps s₀ (s.discardAll k) := by
  unfold State.discardAll
  exact .modCore (.serveWaits (.freeLines (.discardParked h)))

theorem Keeps.passCycles {k n} (h : Keeps s₀ s) : Keeps s₀ (s.passCycles k n) := .ite (.freezeFor h) (.ite h (.advance (.cycles h)))

theorem Keeps.passTo {k c} (h : Keeps s₀ s) : Keeps s₀ (s.passTo k c) := .passCycles h

theorem Keeps.releaseHeld {q} (h : Keeps s₀ s) : Keeps s₀ (s.releaseHeld q) := by
  unfold State.releaseHeld
  refine .ite (.releaseOther h) ?_
  split
  · exact h
  · exact .accepted (.frame h)
  · exact .accepted (.frame (.take (.ite (.count (.freezeFor (.frame h))) (.ite (.advance (.cycles (.frame h))) (.frame h)))))

theorem Keeps.acceptEntry {k e} (h : Keeps s₀ s) : Keeps s₀ (s.acceptEntry k e) := by
  unfold State.acceptEntry
  extract_lets _ _ _ s1
  have h1 : Keeps s₀ s1 := .ite (.ucount (.foldl (fun _ _ h2 => .setMem h2 (.setByte .refl)) (.clearRes h)))
      (.foldl (fun _ _ h3 => .ownedWrite h3) (.gainOwn (.clearRes h)))
  exact .mftMarkAt (.ite (.setMem h1 (.setPoison .refl)) h1)

theorem Keeps.drainNow {k} (h : Keeps s₀ s) : Keeps s₀ (s.drainNow k) := .mftRelease (.modCore (.foldl (fun _ _ h1 => .acceptEntry h1) h))

end
end Sys2Proof.Machine
end

section
/-!
PROOF. Keeps: issue, retirement, control and system instructions, and the events of a core.
-/
namespace Sys2Proof.Machine

section
variable {s₀ s t : State}

theorem Keeps.stopAt {k} (h : Keeps s₀ s) : Keeps s₀ (s.stopAt k) := by
  unfold State.stopAt
  exact .modCore (.landRest (.advance (.withdraw (.drainNow (.modCore h)))))

theorem Keeps.haltCmp {n} (h : Keeps s₀ s) : Keeps s₀ (s.haltCmp n) :=
  .ite h (.event (.setCmpState (.modCores (.mftEnd (.foldl (fun _ _ h1 => .ite (.stopAt h1) h1) h)))))

theorem Keeps.enter {k e} (h : Keeps s₀ s) : Keeps s₀ (s.enter k e) := by
  unfold State.enter
  refine .ite ?_ (.modCore (.modCore (.advance (.ite (.count (.count (.cycles h))) (.count (.cycles h))))))
  split
  · exact .haltCmp (.event h)
  · exact h

theorem Keeps.wake {k} (h : Keeps s₀ s) : Keeps s₀ (s.wake k) :=
  .ite (.count (.mftRetire (.ite (.modCore (.landRecorded h)) (.fst (.nondet (.modCore (.landRecorded h))))))) (.landRecorded h)

theorem Keeps.awaitFetch {k la} (h : Keeps s₀ s) : Keeps s₀ (s.awaitFetch k la) := .modCore h

theorem KeepsFetch.fetch {k la} (h : Keeps s₀ s) : KeepsFetch s₀ (s.fetch k la) := by
  unfold State.fetch
  refine .ite (.ok h) (.ite (.wait h) ?_)
  split
  next e1 => exact .wait (.awaitFetch (.advance (.cycles (.ofPair (.translate h) e1))))
  next e1 =>
    have h1 := Keeps.ofPair (.translate h) e1
    exact .fault (.ite (.purge (.advance (.cycles h1))) (.advance (.cycles h1)))
  next e1 =>
    extract_lets s1
    have h2 : Keeps s₀ s1 := .advance (.cycles (.ofPair (.translate h) e1))
    split
    · exact .fault h2
    · exact .ite (.fault h2) (.ite (.ok h2) (.ite (.ok (.modCore h2)) (.wait (.awaitFetch h2))))

theorem Keeps.trap {k slot e} (h : Keeps s₀ s) : Keeps s₀ (s.trap k slot e) := by
  unfold State.trap
  extract_lets _ s1
  have h1 : Keeps s₀ s1 := by
    unfold s1
    split
    · exact .modCore h
    · exact h
  exact .enter (.ite h1 (.ite (.mftTake h1) (.mftEvent h1)))

theorem Keeps.vectorFault {k e} (h : Keeps s₀ s) : Keeps s₀ (s.vectorFault k e) := by
  unfold State.vectorFault
  split
  · exact .haltCmp (.event h)
  · exact h

theorem Keeps.unitHolds {k slot w t0} (h : Keeps s₀ s) : Keeps s₀ (s.unitHolds k slot w t0) := by
  unfold State.unitHolds
  extract_lets _ _ s1
  have h1 : Keeps s₀ s1 := by
    unfold s1
    split
    · exact .ite (.advance (.cycles (.advance h))) (.advance h)
    · exact .advance h
  exact .advance (.cycles h1)

theorem Keeps.groupHold {k ws} (h : Keeps s₀ s) (e : s.groupHold k ws = some t) : Keeps s₀ t := by
  obtain ⟨rfl, -⟩ | ⟨_, rfl, -⟩ := groupHold_cases e <;> exact .modCore h

theorem Keeps.begin {k slot} (h : Keeps s₀ s) : Keeps s₀ (s.begin k slot) := by
  unfold State.begin
  exact .modCore (.ite (.resumeParked h) h)

theorem Keeps.mftEffs {k es} (h : Keeps s₀ s) : Keeps s₀ (s.mftEffs k es) := by
  unfold State.mftEffs
  split
  · exact h
  · extract_lets _ s1
    have h1 : Keeps s₀ s1 := by
      unfold s1
      refine .foldl (fun _ _ h2 => ?_) h
      split
      · exact .ite h2 (.mftItem h2)
      · exact .mftItem h2
      · exact .mftItem (.mftItem h2)
      · exact .mftItem h2
      · exact .mftItem h2
      · exact h2
    exact .ite (.mftItem h1) h1

theorem Keeps.takeEarly {k f} (h : Keeps s₀ s) : Keeps s₀ (s.takeEarly k f) := by
  induction f generalizing s with
  | zero => exact h
  | succ f ih =>
    unfold State.takeEarly
    split
    · exact .ite (ih (.mftTake h)) h
    · exact h

theorem Keeps.mftEarly {k w} (h : Keeps s₀ s) : Keeps s₀ (s.mftEarly k w) := by
  unfold State.mftEarly
  split
  · exact h
  · exact .ite (.takeEarly h) (.foldl (fun _ _ h1 => .mftEvent h1) h)

theorem Keeps.landReaders {k slot w} (h : Keeps s₀ s) : Keeps s₀ (s.landReaders k slot w) := by
  unfold State.landReaders
  split
  · exact h
  · exact .ite h (.landOps h)

theorem Keeps.retire {k slot w es n} (h : Keeps s₀ s) : Keeps s₀ (s.retire k slot w es n) := by
  unfold State.retire
  extract_lets c late iterPc own fallPc _ _ s1
  have h1 : Keeps s₀ s1 := .modCore (.count (.count (.mftRetire (.mftEffs (.mftEarly h)))))
  clear_value s1 late iterPc fallPc
  cases slot with
  | first w2 => exact .modCore (.count h1)
  | iter => exact .modCore (.advance (.modCore (.mftItem (.count (.count (.count h1))))))
  | single | second =>
    cases n with
    | branch taken target =>
      have hb {c' : Core} {mis : Prop} [Decidable mis] :
          Keeps s₀ (if mis then ((s1.setCore k c').count k 0x11 1).count k 0x12 1 else (s1.setCore k c').count k 0x11 1) :=
        .ite (.count (.count (.setCore h1))) (.count (.setCore h1))
      exact .modCore (.advance (.modCore (.cycles (.cycles (.ite (.count (.count hb)) (.count hb))))))
    | fall | set => exact .modCore (.advance (.modCore (.cycles (.cycles (.ite (.count (.count (.setCore h1))) (.count (.setCore h1)))))))

theorem Keeps.finish {k slot w r} (h : KeepsRes s₀ r) : Keeps s₀ (State.finish k slot w r) := by
  unfold State.finish
  cases h with
  | done h => exact .retire h
  | trap h => exact .trap h
  | hold h => exact h
  | freeze h => exact .modCore h

theorem Keeps.preFault {k slot e pa} (h : Keeps s₀ s) : Keeps s₀ (s.preFault k slot e pa) :=
  .ite h (.ite (.vectorFault (.ite (.event h) h)) (.trap (.ite (.event h) h)))

theorem KeepsPrep.ready {k slot w t0} (h : Keeps s₀ s) : KeepsPrep s₀ (s.ready k slot w t0) := by
  unfold State.ready
  refine .ite (.out (.unitHolds h)) ?_
  split
  next e1 => exact .out (.groupHold (.unitHolds h) e1)
  · exact .go (.begin (.landReaders (.unitHolds h)))

theorem KeepsPrep.prepare {k slot w target} (h : Keeps s₀ s) : KeepsPrep s₀ (s.prepare k slot w target) := by
  unfold State.prepare
  refine .ite .stay ?_
  dsimp only
  split
  · exact .go (.wake h)
  · exact .ready (.wake h)
  · split
    next e => exact .out (.ofWait (.fetch (.wake h)) e)
    next e => exact .out (.preFault (.ofFault (.fetch (.wake h)) e))
    next s1 e =>
      have h1 : Keeps s₀ s1 := .ofOk (.fetch (.wake h)) e
      split
      · exact .out (.preFault h1)
      · generalize hm : (if classOf w = PairClass.pfx then _ else _ : Fetch) = more
        have hmore : KeepsFetch s₀ more := by
          subst hm
          refine .ite ?_ (.ok h1)
          split
          · exact .fetch h1
          · exact .ok h1
        cases hmore with
        | wait h => exact .out h
        | fault h => exact .out (.preFault h)
        | ok h =>
          dsimp only
          split
          · exact .out (.preFault h)
          · exact .ready h

theorem KeepsOut.issueT {x w target spells body} (hbody : ∀ s, Keeps s₀ s → KeepsRes s₀ (body s)) (h : Keeps s₀ s) :
    KeepsOut s₀ (s.issueT x w target spells body) := by
  unfold State.issueT
  refine .ite (.next h) ?_
  split
  · exact .next h
  next e => exact .next (.ofOut (.prepare h) e)
  next e => exact .next (.finish (hbody _ (.ofGo (.prepare h) e)))

theorem KeepsOut.issue {x w spells body} (hbody : ∀ s, Keeps s₀ s → KeepsRes s₀ (body s)) (h : Keeps s₀ s) :
    KeepsOut s₀ (s.issue x w spells body) :=
  .issueT (fun _ h1 => hbody _ h1) h

theorem KeepsRes.compute {k f} (h : Keeps s₀ s) : KeepsRes s₀ (Machine.compute k f s) := .done h

theorem Keeps.divWait {x} (h : Keeps s₀ s) : Keeps s₀ (s.divWait x) := .ite (.modCore (.advance (.cycles h))) h

theorem KeepsRes.longOp {x lat f} (h : Keeps s₀ s) : KeepsRes s₀ (Machine.longOp x lat f s) := .done (.count (.modCore (.divWait h)))

theorem KeepsRes.fpOp {k lat f} (h : Keeps s₀ s) : KeepsRes s₀ (Machine.fpOp k lat f s) := .ite (.trap (.modCore h)) (.done h)

theorem KeepsRes.fpLong {x lat f} (h : Keeps s₀ s) : KeepsRes s₀ (Machine.fpLong x lat f s) := .longOp h

theorem KeepsRes.startRepeat {k w target unint count} (h : Keeps s₀ s) : KeepsRes s₀ (Machine.startRepeat k w target unint count s) :=
  .done (.modCore h)

theorem KeepsPair.csRead {k n} (h : Keeps s₀ s) : KeepsPair s₀ (s.csRead k n) := by
  unfold State.csRead
  extract_lets
  split
  iterate 16 exact .mk h
  · exact .mk (.fst (.nondet h))
  · exact .mk (.fst (.mk (.frame (.fst (.nondet h)))))
  · exact .mk h
  · exact .mk (.fst (.nondet h))
  all_goals exact .mk h

theorem Keeps.settle {k} (h : Keeps s₀ s) : Keeps s₀ (s.settle k) := .advance (.cycles h)

theorem Keeps.csPut {k n v} (h : Keeps s₀ s) : Keeps s₀ (s.csPut k n v) := .mftItem (.ite (.modCore (.modCore h)) (.modCore h))

theorem Keeps.eretDrain {k} (h : Keeps s₀ s) : Keeps s₀ (s.eretDrain k) := .advance (.cycles h)

theorem KeepsOut.lwait {x w} (h : Keeps s₀ s) : KeepsOut s₀ (execLwait x w s) := by
  unfold execLwait
  refine .issue (fun _ h1 => ?_) h
  extract_lets
  split
  · exact .trap (.modCore (.landRest (.advance (.cycles h1))))
  · exact .done (.landRest (.advance (.cycles h1)))

theorem KeepsRes.fenceBody {k} (h : Keeps s₀ s) : KeepsRes s₀ (Machine.fenceBody k s) := .done (.modCore h)

theorem KeepsRes.afterDrain {k body} (hbody : ∀ s, Keeps s₀ s → KeepsRes s₀ (body s)) (h : Keeps s₀ s) :
    KeepsRes s₀ (Machine.afterDrain k body s) :=
  .ite (hbody _ h) (.hold (.modCore h))

theorem Keeps.broadcast {k engines kind} (h : Keeps s₀ s) : Keeps s₀ (s.broadcast k engines kind) := .setMem h (.frame .refl)

theorem KeepsRes.tlbiBody {k form w} (h : Keeps s₀ s) : KeepsRes s₀ (Machine.tlbiBody k form w s) :=
  .ite (.trap h) (.afterDrain (fun _ h1 => .done (.ite (.broadcast (.modCore h1)) (.modCore h1))) h)

theorem Keeps.chunkFull {k} (h : Keeps s₀ s) : Keeps s₀ (s.chunkFull k) := by
  unfold State.chunkFull
  split
  · exact .ite (.mftEndChunk h) h
  · exact h

theorem KeepsOut.interruptEntry {core} (h : Keeps s₀ s) : KeepsOut s₀ (execInterruptEntry core s) := by
  unfold execInterruptEntry
  refine .ite ?_ (.next h)
  extract_lets
  split
  next e1 => exact .next (.enter (.ofPair (.nondet (.chunkFull (.wake h))) e1))

theorem KeepsOut.long {core} (h : Keeps s₀ s) : KeepsOut s₀ (execLong core s) := by
  unfold execLong
  refine .ite ?_ (.next h)
  extract_lets
  split
  · split
    next e1 => exact .next (.enter (.modCore (.ofPair (.nondet (.chunkFull (.landFault (.wake h)))) e1)))
  · exact .next h

theorem Keeps.cellError {k} (h : Keeps s₀ s) : Keeps s₀ (s.cellError k) := by
  unfold State.cellError
  split
  · exact h
  · exact .modCores (.setUst h)

theorem KeepsOut.machineCheckAsync {core sub} (h : Keeps s₀ s) : KeepsOut s₀ (execMachineCheckAsync core sub s) := by
  unfold execMachineCheckAsync
  refine .ite ?_ (.next (.landRecorded h))
  extract_lets
  split
  next e1 =>
    have h1 := Keeps.ofPair (.nondet (.chunkFull (.ite (.modCore (.landRecorded h)) (.landRecorded h)))) e1
    exact .next (.enter (.modCore (.ite (.cellError h1) h1)))

theorem KeepsOut.chunkLimit {core} (h : Keeps s₀ s) : KeepsOut s₀ (execChunkLimit core s) := by
  unfold execChunkLimit
  split
  · exact .ite (.next (.mftEndChunk h)) (.next h)
  · exact .next h

theorem KeepsOut.longOperationLanding {core} (h : Keeps s₀ s) : KeepsOut s₀ (execLongOperationLanding core s) := by
  unfold execLongOperationLanding
  split
  · exact .next (.passTo h)
  · exact .next h

theorem KeepsOut.ftModeChange {core} (h : Keeps s₀ s) : KeepsOut s₀ (execFtModeChange core s) := by
  unfold execFtModeChange
  extract_lets
  split
  · exact .ite (.next (.modCore (.landRest (.advance (.cycles h))))) (.next h)
  · exact .next h

theorem Keeps.ipiSet {k} (h : Keeps s₀ s) : Keeps s₀ (s.ipiSet k) := .ctlMod h

theorem Keeps.dropBcast {b} (h : Keeps s₀ s) : Keeps s₀ (s.dropBcast b) := .setMem h (.frame .refl)

theorem KeepsOut.ifenceBroadcastArrival {src core} (h : Keeps s₀ s) : KeepsOut s₀ (execIfenceBroadcastArrival src core s) := by
  unfold execIfenceBroadcastArrival
  split
  · refine .ite ?_ (.next h)
    split
    · exact .next (.dropBcast (.modCore h))
    · exact .next h
  · exact .next h

theorem KeepsOut.tlbiBroadcastArrival {src dst} (h : Keeps s₀ s) : KeepsOut s₀ (execTlbiBroadcastArrival src dst s) := by
  unfold execTlbiBroadcastArrival
  split
  · split
    · extract_lets
      split
      · exact .ite (.next h) (.next (.modCore (.dropBcast h)))
      · exact .next (.setMem (.dropBcast h) (.frame .refl))
      · exact .next (.setMem (.dropBcast h) (.frame .refl))
    · exact .next h
  · exact .next h

theorem KeepsOut.reservationDeferralEnd {core} (h : Keeps s₀ s) : KeepsOut s₀ (execReservationDeferralEnd core s) := by
  unfold execReservationDeferralEnd
  split
  · exact .next (.modCore (.ite h (.passTo h)))
  · exact .next h

end
end Sys2Proof.Machine
end

section
/-!
PROOF. Keeps: the range engine, the messages of the homes and the DRAM controllers.
-/
namespace Sys2Proof.Machine

section
variable {s₀ s : State}

theorem Keeps.discardGrove {g line} (h : Keeps s₀ s) : Keeps s₀ (s.discardGrove g line) :=
  .ite (.setMem (.dropGrove h) (.dirRelease (.dropDirty .refl))) (.groveEvict h)

theorem Keeps.groveAct {op g line} (h : Keeps s₀ s) : Keeps s₀ (s.groveAct op g line) := by
  unfold State.groveAct
  split
  · exact .cleanGrove h
  · exact .discardGrove h
  · exact .groveEvict (.cleanGrove h)
  · exact h

theorem Keeps.cleanStand {stand line} (h : Keeps s₀ s) : Keeps s₀ (s.cleanStand stand line) := by
  unfold State.cleanStand
  split
  · exact .ite (.cleanGrove h) h
  · exact h

theorem Keeps.standAct {op stand line} (h : Keeps s₀ s) : Keeps s₀ (s.standAct op stand line) := by
  unfold State.standAct
  split
  · exact .modCores h
  · split
    · exact .cleanStand h
    · exact .ite (.discardGrove h) (.l2Evict h)
    · exact .l2Evict h
    · exact h

theorem Keeps.cmoLine {op line} (h : Keeps s₀ s) : Keeps s₀ (s.cmoLine op line) := by
  unfold State.cmoLine
  extract_lets _ s1
  have h1 : Keeps s₀ s1 := .ite h (.setMem h (.tellPartner .refl))
  exact .foldl (fun _ _ h2 => .groveAct h2) (.ite (.emit h1) h1)

theorem Keeps.setRange {r} (h : Keeps s₀ s) : Keeps s₀ (s.setRange r) := .setMem h (.frame .refl)

theorem Keeps.rangeEnd {l3 g i result} (h : Keeps s₀ s) : Keeps s₀ (s.rangeEnd l3 g i result) := .ctlMod (.setMem h (.frame .refl))

theorem Keeps.rangeGo {who l3 g i op space} (h : Keeps s₀ s) : Keeps s₀ (s.rangeGo who l3 g i op space) := by
  unfold State.rangeGo
  split
  · exact .ctlMod h
  · extract_lets _ _ s1
    have h1 : Keeps s₀ s1 := .ctlMod (.ctlSet (.ctlSet (.ctlMod h)))
    exact .ite (.rangeEnd h1) (.setMem h1 (.frame .refl))

theorem Keeps.rangeAbort {l3 g i} (h : Keeps s₀ s) : Keeps s₀ (s.rangeAbort l3 g i) := by
  unfold State.rangeAbort
  split
  · exact .rangeEnd h
  · exact h

theorem Keeps.rangeQuiesce {n} (h : Keeps s₀ s) : Keeps s₀ (s.rangeQuiesce n) := .foldl (fun _ _ h1 => .rangeAbort h1) h

theorem Keeps.engineAct {r line} (h : Keeps s₀ s) : Keeps s₀ (s.engineAct r line) :=
  .asEngine (fun _ h1 => .ite (.groveAct h1) (.standAct h1)) h

theorem Keeps.markFills {r p} (h : Keeps s₀ s) : Keeps s₀ (s.markFills r p) := .ite (.setMem h (.frame .refl)) (.setMem h (.frame .refl))

theorem Keeps.unmark {stand line} (h : Keeps s₀ s) : Keeps s₀ (s.unmark stand line) := .setMem h (.frame .refl)

theorem Keeps.finishFill {k line} (h : Keeps s₀ s) : Keeps s₀ (s.finishFill k line) := by
  unfold State.finishFill
  split
  · exact h
  · exact .asEngine (fun _ h1 => .standAct h1) (.unmark h)

theorem Keeps.finishDrain {k line} (h : Keeps s₀ s) : Keeps s₀ (s.finishDrain k line) := by
  unfold State.finishDrain
  extract_lets s1
  have h1 : Keeps s₀ s1 := by
    unfold s1
    split
    · exact h
    · exact .asEngine (fun _ h2 => .standAct h2) (.unmark h)
    · exact .unmark h
  exact .mftRelease h1

theorem Keeps.rangeStep {r} (h : Keeps s₀ s) : Keeps s₀ (s.rangeStep r) := by
  unfold State.rangeStep
  refine .ite ?_ ?_
  · extract_lets _ s1
    have h1 : Keeps s₀ s1 := by
      refine .foldl (fun _ _ h2 => ?_) (.markFills h)
      split
      · exact .engineAct h2
      · exact h2
    exact .ite (.rangeEnd (.ctlSet (.ctlSet (.setRange h1)))) (.setRange h1)
  · extract_lets acted s1
    have h1 : Keeps s₀ s1 := by
      unfold s1 acted
      split
      · exact .engineAct (.markFills h)
      · exact h
    exact .ite (.rangeEnd (.ctlSet (.ctlSet (.setRange h1)))) (.ctlSet (.ctlSet (.setRange h1)))

theorem KeepsOut.rangeStart {who l3 grove slot op space} (h : Keeps s₀ s) :
    KeepsOut s₀ (Machine.rangeStart who l3 grove slot op space s) :=
  .ite (.next (.rangeGo h)) (.next h)

theorem KeepsOut.rangeEngineLine {l3 grove slot} (h : Keeps s₀ s) : KeepsOut s₀ (execRangeEngineLine l3 grove slot s) := by
  unfold execRangeEngineLine
  split
  · exact .ite (.next (.rangeStep (.setMem h (.frame .refl)))) (.next h)
  · exact .next h

theorem Keeps.xngViolation {port addr} (h : Keeps s₀ s) : Keeps s₀ (s.xngViolation port addr) := .event (.ctlInc h)

theorem KeepsOut.ask {port line k} (h : Keeps s₀ s) : KeepsOut s₀ (s.ask port line k) :=
  .ite (.next (.xngViolation h)) (.ite (.next (.request h)) (.next h))

theorem KeepsOut.askGrove {port line k kind} (h : Keeps s₀ s) : KeepsOut s₀ (s.askGrove port line k kind) :=
  .ite (.ask h) (.ite (.next h) (.ite (.next (.outRequest h)) (.ite (.ask (.pendGrove h)) (.next h))))

theorem Keeps.windowValue {line bytes dirty} (h : Keeps s₀ s) : Keeps s₀ (s.windowValue line bytes dirty) :=
  .ite (.setMem h (.setPoison (.ite (.write .refl) (.ite .refl (.writeDram .refl))))) (.setMem h (.setPoison .refl))

theorem Keeps.install {g line st mark} (h : Keeps s₀ s) : Keeps s₀ (s.install g line st mark) := by
  unfold State.install
  extract_lets s1
  have h1 : Keeps s₀ s1 := .settleData (.takeCls (.putTag (.ite (.roomGrove h) h)))
  split
  · exact .cleanGrove h1
  · exact .ite (.setMem (.dropGrove h1) (.dirRelease (.dropDirty .refl))) (.groveEvict h1)
  · exact .groveEvict h1
  · exact h1

theorem Keeps.windowData {port line st bytes} (h : Keeps s₀ s) : Keeps s₀ (s.windowData port line st bytes) := by
  unfold State.windowData
  refine .ite h ?_
  split
  · exact .windowValue h
  · extract_lets s1
    have h1 : Keeps s₀ s1 := .unpend h
    exact .ite (.send (.ite h1 (.windowValue h1))) (.send (.install (.ite h1 (.windowValue h1))))

theorem KeepsOut.windowForward {holder line f} (hf : ∀ s, Keeps s₀ s → KeepsPair s₀ (f s)) (h : Keeps s₀ s) :
    KeepsOut s₀ (s.windowForward holder line f) := by
  unfold State.windowForward
  refine .ite ?_ (.next h)
  split
  next e1 => exact .next (.send (.ofPair (hf _ h) e1))

theorem KeepsPair.windowDrop {g line reply} (h : Keeps s₀ s) : KeepsPair s₀ (s.windowDrop g line reply) := by
  unfold State.windowDrop
  split
  next e1 => exact .mk (.ofPair (.holderDrop h) e1)
  next e1 => exact .mk (.setMem (.ofPair (.holderDrop h) e1) (.flushLine .refl))

theorem Keeps.remoteLine {line bytes} (h : Keeps s₀ s) : Keeps s₀ (s.remoteLine line bytes) := .ite (.setMem h (.write .refl)) h

theorem KeepsOut.wb {port line keep bytes} (h : Keeps s₀ s) : KeepsOut s₀ (execWb port line keep bytes s) := by
  unfold execWb
  extract_lets _ s1 _ s2 s3 m m' _ s4 s5
  have h1 : Keeps s₀ s1 := .ite (.remoteLine h) h
  have h3 : Keeps s₀ s3 := by
    have h2 : Keeps s₀ s2 := .setMem h1 (.cleanL2 .refl)
    refine .ite (.ite ?_ (.pendGrove (.dropGrove h1))) h1
    split
    · exact .setMem h2 (.setTag .refl)
    · exact h2
  have hm : KeepsMem s₀.mem m := h3.mem
  have hm' : KeepsMem s₀.mem m' := by
    unfold m'
    split
    · exact .ite hm (.ite (.ite (.setDir hm) hm) (.ite (.setDir hm) (.freeDir hm)))
    · exact hm
  have h5 : Keeps s₀ s5 := .send (.setMem' (.countUp h3) (.frame hm'))
  exact .ite (.next (.ite (.ucount h5) h5)) (.ite (.next (.ite (.cleanGrove h) (.groveEvict h))) (.next h))

theorem Keeps.fill {line dirty} (h : Keeps s₀ s) : Keeps s₀ (s.fill line dirty) := by
  unfold State.fill
  split
  · extract_lets
    split
    · exact .progress (.setTxn h)
    · exact .send (.setTxn h)
  · exact h

theorem KeepsOut.fwds {holder line bytes} (h : Keeps s₀ s) : KeepsOut s₀ (execFwds holder line bytes s) := by
  unfold execFwds
  dsimp only
  refine .ite (.next h) ?_
  split
  · refine .windowForward (fun _ h1 => ?_) h
    split <;> next e1 => exact .mk (.ofPair (.holderFwdS h1) e1)
  next e2 =>
    have h2 := Keeps.recv h e2
    split
    next e3 => exact .next (.send (.ofPair (.ite (.mk (.remoteLine h2)) (.holderFwdS h2)) e3))
    next e3 =>
      have h3 := Keeps.ofPair (.ite (.mk (.remoteLine h2)) (.holderFwdS h2)) e3
      refine .next (.fill (.ite ?_ h3))
      split
      · exact .setMem h3 (.setDir .refl)
      · exact h3

theorem KeepsOut.fwdx {holder line bytes} (h : Keeps s₀ s) : KeepsOut s₀ (execFwdx holder line bytes s) := by
  unfold execFwdx
  refine .ite (.next h) ?_
  split
  · exact .windowForward (fun _ h1 => .windowDrop h1) h
  next e1 =>
    have h2 := Keeps.recv h e1
    refine .ite (.next (.fill (.remoteLine h2))) ?_
    extract_lets
    split
    next e2 => exact .next (.send (.ofPair (.holderDrop h2) e2))
    next e2 => exact .next (.fill (.ofPair (.holderDrop h2) e2))

theorem KeepsOut.fwdc {holder line bytes} (h : Keeps s₀ s) : KeepsOut s₀ (execFwdc holder line bytes s) := by
  unfold execFwdc
  refine .ite (.next h) ?_
  split
  · exact .windowForward (fun _ h1 => .mk h1) h
  next e1 =>
    have h2 := Keeps.recv h e1
    refine .ite (.next (.fill (.remoteLine h2))) ?_
    split
    · exact .next (.fill h2)
    · exact .next (.send h2)

theorem KeepsOut.invMsg {holder line} (h : Keeps s₀ s) : KeepsOut s₀ (execInvMsg holder line s) := by
  unfold execInvMsg
  refine .ite (.next h) ?_
  split
  · exact .windowForward (fun _ h1 => .windowDrop h1) h
  next e1 =>
    split
    next e2 => exact .next (.send (.ofPair (.holderDrop (.recv h e1)) e2))

theorem KeepsOut.binv {holder line bytes} (h : Keeps s₀ s) : KeepsOut s₀ (execBinv holder line bytes s) := by
  unfold execBinv
  refine .ite (.next h) ?_
  split
  · exact .windowForward (fun _ h1 => .windowDrop h1) h
  next e1 =>
    have h2 := Keeps.recv h e1
    extract_lets
    split
    next e2 => exact .next (.send (.ofPair (.holderDrop
        (.ite (.setMem (.ite (.remoteLine h2) h2) (.releasePartner (.flushLine .refl))) (.ite (.remoteLine h2) h2))) e2))

theorem KeepsOut.dataMsg {port line st bytes} (h : Keeps s₀ s) : KeepsOut s₀ (execDataMsg port line st bytes s) := by
  unfold execDataMsg
  split
  · refine .ite (.next ?_) (.next (.windowData h))
    generalize hr : s.recv line 13 _ = r
    cases r with
    | none => exact h
    | some r => exact .recv h hr
  · refine .ite (.next h) ?_
    split
    · exact .next h
    next e =>
      split
      · exact .next (.serveWaits (.closeTxn (.recv h e)))
      · exact .next (.send (.setTxn (.ite (.install (.unpend (.recv h e))) (.recv h e))))

theorem KeepsOut.ackMsg {port line} (h : Keeps s₀ s) : KeepsOut s₀ (execAckMsg port line s) := by
  unfold execAckMsg
  split
  · exact .next h
  next e1 =>
    have h1 := Keeps.recv h e1
    split
    · exact .ite (.next (.send (.setTxn (.ite (.ctlInc h1) h1))))
          (.next (.serveWaits (.progress (.ite (.send (.setTxn (.ite (.ctlInc h1) h1))) (.setTxn (.ite (.ctlInc h1) h1))))))
    · exact .next h1

theorem KeepsOut.cmpMessage {port line} (h : Keeps s₀ s) : KeepsOut s₀ (execCmpMessage port line s) := by
  unfold execCmpMessage
  split
  · exact .next h
  next e1 => exact .next (.serveWaits (.closeTxn (.recv h e1)))

theorem Keeps.renameSet {moesi} (h : Keeps s₀ s) : Keeps s₀ (s.renameSet moesi) :=
  .ite (.setMem h (.frame .refl)) (.foldl (fun _ _ h1 => .settleData h1)
      (.setMem (.foldl (fun _ _ h2 => .sendWb h2) h) (.frame (.foldl (fun _ _ h3 => .flushLine h3) .refl))))

theorem Keeps.setStatus {moesi switching} (h : Keeps s₀ s) : Keeps s₀ (s.setStatus moesi switching) := .foldl (fun _ _ h1 => .ctlMod h1) h

theorem Keeps.switchSet {moesi} (h : Keeps s₀ s) : Keeps s₀ (s.switchSet moesi) :=
  .ite (.ite (.serveWaits (.setStatus h)) h) (.ite (.serveWaits (.setStatus (.renameSet h))) (.setStatus h))

theorem Keeps.loseHome {g} (h : Keeps s₀ s) : Keeps s₀ (s.loseHome g) := by
  unfold State.loseHome
  extract_lets _ s1
  have h1 : Keeps s₀ s1 := .foldl (fun _ _ h2 => .setMem (.setMem (.dropAll h2) (.dropDirty .refl)) (.freeDir (.setPoison .refl))) h
  exact .serveWaits (.setMem' (.countUp h1) (.frame h1.mem))

theorem Keeps.setSub {c st} (h : Keeps s₀ s) : Keeps s₀ (s.setSub c st) := .ctlMod h

theorem Keeps.dramError {line kind mask syn scrub} (h : Keeps s₀ s) : Keeps s₀ (s.dramError line kind mask syn scrub) := by
  unfold State.dramError
  exact .event (.ctlSet (.ctlSet (.ctlSet h)))

theorem Keeps.dramCorrected {line} (h : Keeps s₀ s) : Keeps s₀ (s.dramCorrected line) := by
  unfold State.dramCorrected
  exact .modDram (.ctlInc h)

theorem Keeps.dramRead {line syn retry scrub} (h : Keeps s₀ s) : Keeps s₀ (s.dramRead line syn retry scrub) := by
  unfold State.dramRead
  refine .ite (.setMem h (.setPoison .refl)) (.ite h ?_)
  split
  · exact h
  · exact .setMem h (.setPoison .refl)
  · exact .dramCorrected (.dramError h)
  · refine .ite ?_ ?_
    · dsimp only
      split
      · exact .setMem h (.blurWords .refl)
      · exact .dramCorrected (.dramError (.setMem h (.blurWords .refl)))
    · split
      · exact .dramError h
      · exact .dramCorrected (.dramError h)
      · exact .setMem h (.setPoison .refl)
      · exact .dramError (.modDram (.ctlInc (.setMem h (.setPoison .refl))))

theorem Keeps.openRow {line} (h : Keeps s₀ s) : Keeps s₀ (s.openRow line) := .modDram h

theorem KeepsOut.mrd {line syn retry} (h : Keeps s₀ s) : KeepsOut s₀ (execMrd line syn retry s) := by
  unfold execMrd
  refine .ite (.next h) ?_
  split
  · exact .next h
  · split
    · exact .next h
    next e1 =>
      refine .ite (.next h) ?_
      extract_lets s1
      have h1 : Keeps s₀ s1 := .dramRead (.openRow (.setTxn (.recv h e1)))
      split
      · exact .next (.progress h1)
      · exact .next (.send h1)

theorem KeepsOut.mwr {line} (h : Keeps s₀ s) : KeepsOut s₀ (execMwr line s) := by
  unfold execMwr
  dsimp only
  split
  · exact .next h
  · refine .ite (.next h) ?_
    split
    · exact .next (.serveWaits (.setMem' (.countUp (.queueWrite (.setMem (.setMem h (.frame .refl)) (.flushLine .refl))))
          (.frame (Keeps.mem (.queueWrite (.setMem (.setMem h (.frame .refl)) (.flushLine .refl)))))))
    · split
      · exact .next (.queueWrite (.setMem (.setMem h (.frame .refl)) (.flushLine .refl)))
      · split
        · exact .next (.serveWaits (.closeTxn (.setMem (.queueWrite (.setMem (.setMem h (.frame .refl)) (.flushLine .refl)))
              (.freeDir (.ite (.setPoison (.foldl (fun _ _ h1 => .setDram h1) .refl)) (.foldl (fun _ _ h2 => .setDram h2) .refl))))))
        · exact .next (.serveWaits (.progress (.setTxn (.queueWrite (.setMem (.setMem h (.frame .refl)) (.flushLine .refl))))))

theorem Keeps.trimFresh (h : Keeps s₀ s) : Keeps s₀ s.trimFresh := by
  unfold State.trimFresh
  exact .modDram h

theorem KeepsOut.initialiserLine {channel syn retry} (h : Keeps s₀ s) : KeepsOut s₀ (execInitialiserLine channel syn retry s) := by
  unfold execInitialiserLine
  refine .ite ?_ (.next h)
  split
  · exact .next h
  · extract_lets
    split
    · exact .next h
    · exact .ite (.next h) (.next (.trimFresh (.modDram (.modDram (.dramRead h)))))

theorem Keeps.retrainBegin {sub} (h : Keeps s₀ s) : Keeps s₀ (s.retrainBegin sub) :=
  .ite (.switchSet h) (.event (.modDram (.setSub (.switchSet h))))

theorem Keeps.retrainEnd (h : Keeps s₀ s) : Keeps s₀ s.retrainEnd := .ite h (.switchSet h)

theorem Keeps.retrainAttempt {sub ok} (h : Keeps s₀ s) : Keeps s₀ (s.retrainAttempt sub ok) := by
  unfold State.retrainAttempt
  extract_lets s1
  have h1 : Keeps s₀ s1 := .ctlMod h
  exact .ite (.retrainEnd (.setSub h1)) (.ite (.modDram h1)
      (.retrainEnd (.event (.setMem' (.setSub (.modDram h1)) (.frame (Keeps.mem (.modDram h1)))))))

theorem KeepsOut.subchannelRetrain {sub ev} (h : Keeps s₀ s) : KeepsOut s₀ (execSubchannelRetrain sub ev s) := by
  unfold execSubchannelRetrain
  refine .ite ?_ (.next h)
  split
  · exact .ite (.next (.retrainBegin h)) (.next h)
  · exact .ite (.next (.retrainAttempt h)) (.next h)

end
end Sys2Proof.Machine
end

section
/-!
PROOF. Keeps: the queues and the DMA engines.
-/
namespace Sys2Proof.Machine

section
variable {s₀ s : State}

theorem Keeps.setQueue {q x} (h : Keeps s₀ s) : Keeps s₀ (s.setQueue q x) := .frame h

theorem Keeps.modQueue {q f} (h : Keeps s₀ s) : Keeps s₀ (s.modQueue q f) := .setQueue h

theorem Keeps.inWrite {cmp pa bs source hash} (h : Keeps s₀ s) : Keeps s₀ (s.inWrite cmp pa bs source hash) := by
  unfold State.inWrite
  refine .foldl (fun _ _ h1 => ?_) h
  extract_lets
  split
  · exact .mftInput (.wrInv h1)
  · exact .wrInv h1

theorem Keeps.qmWord {cmp pa v} (h : Keeps s₀ s) : Keeps s₀ (s.qmWord cmp pa v) := .inWrite h

theorem Keeps.notify {q} (h : Keeps s₀ s) : Keeps s₀ (s.notify q) := .ctlMod h

theorem Keeps.moveDev {q v} (h : Keeps s₀ s) : Keeps s₀ (s.moveDev q v) :=
  .ite (.notify (.modQueue (.qmWord (.setQueue h)))) (.qmWord (.setQueue h))

theorem Keeps.haltQueue {q cause} (h : Keeps s₀ s) : Keeps s₀ (s.haltQueue q cause) := .modQueue h

theorem Keeps.ringPass {engine pa write} (h : Keeps s₀ s) : Keeps s₀ (s.ringPass engine pa write) := by
  unfold State.ringPass
  split
  · split
    · exact .fst (.passWait h)
    · exact h
  · exact h

theorem Keeps.putRecord {r} (h : Keeps s₀ s) : Keeps s₀ (s.putRecord r) := .moveDev (.inWrite (.ringPass (.ringPass h)))

theorem Keeps.dropRecords (h : Keeps s₀ s) : Keeps s₀ s.dropRecords := .foldl (fun _ _ h1 => .ctlInc h1) (.frame h)

theorem Keeps.record1 {r} (h : Keeps s₀ s) : Keeps s₀ (s.record1 r) := .ite (.ctlInc h) (.ite (.frame h) (.putRecord h))

theorem Keeps.flushRecords {cq f} (h : Keeps s₀ s) : Keeps s₀ (s.flushRecords cq f) := by
  induction f generalizing s with
  | zero => exact h
  | succ f ih =>
    unfold State.flushRecords
    split
    · exact h
    · exact .ite h (ih (.putRecord (.frame h)))

theorem Keeps.qEnable {q} (h : Keeps s₀ s) : Keeps s₀ (s.qEnable q) := .ite h (.ite (.modQueue h) (.modQueue h))

theorem Keeps.qRearm {q} (h : Keeps s₀ s) : Keeps s₀ (s.qRearm q) := .ite (.modQueue h) h

theorem Keeps.qHalt {q} (h : Keeps s₀ s) : Keeps s₀ (s.qHalt q) := .ite (.haltQueue h) h

theorem KeepsOut.qmEnable {who} (h : Keeps s₀ s) : KeepsOut s₀ (execQmEnable who s) := by
  unfold execQmEnable
  split
  · exact .next (.qEnable h)
  · exact .next h

theorem KeepsOut.qmRearm {who} (h : Keeps s₀ s) : KeepsOut s₀ (execQmRearm who s) := by
  unfold execQmRearm
  split
  · exact .next (.qRearm h)
  · exact .next h

theorem KeepsOut.qmHalt {who} (h : Keeps s₀ s) : KeepsOut s₀ (execQmHalt who s) := by
  unfold execQmHalt
  split
  · exact .next (.qHalt h)
  · exact .next h

theorem Keeps.bellRefused {cmp off} (h : Keeps s₀ s) : Keeps s₀ (s.bellRefused cmp off) := .event (.ctlInc h)

theorem Keeps.passMessages {q n first f} (h : Keeps s₀ s) : Keeps s₀ (s.passMessages q n first f) := by
  induction f generalizing s with
  | zero => exact h
  | succ f ih => exact ih (.ite (.releaseHeld (.offer h)) (.offer h))

theorem Keeps.doorbell {cmp off q idx arm} (h : Keeps s₀ s) : Keeps s₀ (s.doorbell cmp off q idx arm) := by
  unfold State.doorbell
  refine .ite (.bellRefused h) (.ite (.haltQueue h) ?_)
  extract_lets _ s1
  have h1 : Keeps s₀ s1 := .modQueue (.ite (.passMessages h) h)
  exact .ite (.ite (.flushRecords h1) h1) (.ite (.notify (.modQueue (.ite (.flushRecords h1) h1))) (.modQueue (.ite (.flushRecords h1) h1)))

theorem Keeps.ringPoison {q engine reader withRecord} (h : Keeps s₀ s) : Keeps s₀ (s.ringPoison q engine reader withRecord) := by
  unfold State.ringPoison
  extract_lets _ s1
  have h1 : Keeps s₀ s1 := by
    unfold s1
    split
    · exact .event h
    · exact h
  exact .haltQueue (.ite (.record1 h1) h1)

theorem KeepsOut.messageDelivery {queue} (h : Keeps s₀ s) : KeepsOut s₀ (execMessageDelivery queue s) := by
  unfold execMessageDelivery
  refine .ite (.next h) (.ite (.next h) (.ite (.next (.ringPoison h)) ?_))
  split
  · exact .next h
  · extract_lets
    split
    next e1 => exact .next (.ofPair (.takeAll h) e1)
    next e1 =>
      have h1 := Keeps.ofPair (.takeAll h) e1
      extract_lets
      exact .next (.moveDev (.ite (.record1 (.fst (.complete (.ite (.moveDev (.inWrite h1)) h1))))
          (.fst (.complete (.ite (.moveDev (.inWrite h1)) h1)))))

theorem Keeps.setEngine {e x} (h : Keeps s₀ s) : Keeps s₀ (s.setEngine e x) := .frame h

theorem Keeps.modEngine {e f} (h : Keeps s₀ s) : Keeps s₀ (s.modEngine e f) := .setEngine h

theorem KeepsPair.dmaAddr {e sp a write} (h : Keeps s₀ s) : KeepsPair s₀ (s.dmaAddr e sp a write) := by
  unfold State.dmaAddr
  split
  · exact .mk h
  · refine .ite (.mk h) ?_
    extract_lets
    split
    · exact .mk (.setMem h (.frame .refl))
    · split
      · exact .mk (.ite (.event h) h)
      · extract_lets
        split
        · exact .mk (.setMem h (.frame .refl))
        · exact .mk h

theorem Keeps.killReads {e} (h : Keeps s₀ s) : Keeps s₀ (s.killReads e) := .modHep h

theorem Keeps.dmaRecord {e status sub faddr} (h : Keeps s₀ s) : Keeps s₀ (s.dmaRecord e status sub faddr) := .record1 h

theorem Keeps.dmaEnd {e status} (h : Keeps s₀ s) : Keeps s₀ (s.dmaEnd e status) := by
  unfold State.dmaEnd
  extract_lets _ s1
  have h1 : Keeps s₀ s1 := .killReads h
  exact .modEngine (.ite (.modQueue (.withdraw (.ite (.dmaRecord h1) h1))) (.withdraw (.ite (.dmaRecord h1) h1)))

theorem Keeps.dmaPark {e code sub la} (h : Keeps s₀ s) : Keeps s₀ (s.dmaPark e code sub la) :=
  .dmaRecord (.modEngine (.withdraw (.killReads h)))

theorem KeepsPair.dmaPass {e l} (h : Keeps s₀ s) : KeepsPair s₀ (s.dmaPass e l) := by
  unfold State.dmaPass
  extract_lets s1
  have h1 : Keeps s₀ s1 := .foldl (fun _ _ h2 => .offer h2) h
  exact .ite (.mk h1) (.ite (.mk (.foldl (fun _ _ h3 => .fst (.complete h3)) (.fst (.takeAll h1)))) (.takeAll h1))

theorem KeepsDma.dmaGet {e sp a write k} (hk : ∀ s a0, Keeps s₀ s → KeepsDma s₀ (k s a0)) (h : Keeps s₀ s) :
    KeepsDma s₀ (s.dmaGet e sp a write k) := by
  unfold State.dmaGet
  split
  next e1 => exact hk _ _ (.ofPair (.dmaAddr h) e1)
  next e1 => exact .ended (.dmaEnd (.ofPair (.dmaAddr h) e1))
  next e1 => exact .ended (.dmaPark (.ofPair (.dmaAddr h) e1))

theorem KeepsDma.dmaPoison {e pa} (h : Keeps s₀ s) : KeepsDma s₀ (s.dmaPoison e pa) := .ended (.dmaEnd (.event h))

theorem Keeps.dmaDone {e n} (h : Keeps s₀ s) : Keeps s₀ (s.dmaDone e n) := .modEngine h

theorem KeepsDma.dmaInner {e fill} (h : Keeps s₀ s) : KeepsDma s₀ (s.dmaInner e fill) := by
  unfold State.dmaInner
  refine .ite ?_ ?_
  · refine .dmaGet (fun _ _ h1 => ?_) h
    split
    next e1 => exact .wait (.ofPair (.dmaPass h1) e1)
    next e1 => exact .go (.dmaDone (.inWrite (.ofPair (.dmaPass h1) e1)))
  · refine .dmaGet (fun _ _ h2 => .ite (.dmaPoison h2) (.dmaGet (fun _ _ h3 => ?_) h2)) h
    split
    next e2 => exact .wait (.ofPair (.dmaPass h3) e2)
    next e2 => exact .go (.dmaDone (.inWrite (.ofPair (.dmaPass h3) e2)))

theorem KeepsDma.dmaToHost {e} (h : Keeps s₀ s) : KeepsDma s₀ (s.dmaToHost e) := by
  unfold State.dmaToHost
  refine .dmaGet (fun _ _ h1 => .ite (.dmaPoison h1) ?_) h
  split
  next e1 => exact .wait (.ofPair (.dmaPass h1) e1)
  next e1 => exact .go (.dmaDone (.emit (.ofPair (.dmaPass h1) e1)))

theorem KeepsDma.dmaFromHost {e} (h : Keeps s₀ s) : KeepsDma s₀ (s.dmaFromHost e) := by
  unfold State.dmaFromHost
  extract_lets
  split
  · refine .ite (.dmaGet (fun _ _ h1 => ?_) h) (.wait h)
    split
    next e1 => exact .wait (.ofPair (.dmaPass h1) e1)
    next e1 => exact .go (.dmaDone (.modHep (.inWrite (.ofPair (.dmaPass h1) e1))))
  · exact .wait h

theorem KeepsDma.dmaIssue {e} (h : Keeps s₀ s) : KeepsDma s₀ (s.dmaIssue e) := by
  unfold State.dmaIssue
  refine .ite (.wait h) (.ite (.wait h) ?_)
  split
  next e1 => exact .wait (.ofPair (.dmaPass h) e1)
  next e1 => exact .go (.modEngine (.modHep (.emit (.ofPair (.dmaPass h) e1))))

theorem KeepsDma.dmaStep {e} (h : Keeps s₀ s) : KeepsDma s₀ (s.dmaStep e) := by
  unfold State.dmaStep
  refine .ite (.ended (.dmaEnd h)) (.ite (.dmaInner h) (.ite ?_ (.ite (.dmaToHost h) (.dmaInner h))))
  have hr := KeepsDma.dmaFromHost (e := e) h
  generalize s.dmaFromHost e = r at hr
  cases hr with
  | go h => exact .go h
  | wait h => exact .dmaIssue h
  | ended h => exact .ended h

theorem Keeps.dmaRun {e n} (h : Keeps s₀ s) : Keeps s₀ (s.dmaRun e n) := by
  induction n generalizing s with
  | zero => exact h
  | succ n ih =>
    have hr : KeepsDma s₀ (s.dmaStep e) := .dmaStep h
    unfold State.dmaRun
    generalize s.dmaStep e = r at hr
    cases hr with
    | go h => exact ih h
    | wait h => exact h
    | ended h => exact h

theorem Keeps.dmaTake {e q} (h : Keeps s₀ s) : Keeps s₀ (s.dmaTake e q) := by
  unfold State.dmaTake
  extract_lets _ _ _ _ s1
  have h1 : Keeps s₀ s1 := .moveDev (.ringPass (.modEngine (.ringPass h)))
  refine .ite (.dmaEnd h1) (.ite (.dmaEnd h1) ?_)
  split
  · exact .dmaEnd h1
  · exact h1

theorem Keeps.dmaWork {e steps p} (h : Keeps s₀ s) : Keeps s₀ (s.dmaWork e steps p) := by
  unfold State.dmaWork
  refine .ite (.ite (.dmaRun h) h) (.ite ?_ h)
  split
  · exact h
  · exact .ite (.ringPoison h) (.ite (.ite (.dmaRun (.dmaTake h)) (.dmaTake h)) h)

theorem Keeps.engResume {e} (h : Keeps s₀ s) : Keeps s₀ (s.engResume e) := .ite (.modEngine (.setMem h (.frame .refl))) h

theorem Keeps.engDiscard {e} (h : Keeps s₀ s) : Keeps s₀ (s.engDiscard e) := .ite (.dmaEnd h) h

theorem Keeps.dmaAbort {v status} (h : Keeps s₀ s) : Keeps s₀ (s.dmaAbort v status) := .foldl (fun _ _ h1 => .ite (.dmaEnd h1) h1) h

theorem Keeps.qDisable {q} (h : Keeps s₀ s) : Keeps s₀ (s.qDisable q) :=
  .dropRecords (.modQueue (.foldl (fun _ _ h1 => .ite (.dmaEnd h1) h1) h))

theorem KeepsOut.qmDisable {who} (h : Keeps s₀ s) : KeepsOut s₀ (execQmDisable who s) := by
  unfold execQmDisable
  split
  · exact .next (.qDisable h)
  · exact .next h

theorem Keeps.dmaQuiesce {n} (h : Keeps s₀ s) : Keeps s₀ (s.dmaQuiesce n) :=
  .frame (.foldl (fun _ _ h1 => .ite (.modEngine (.withdraw (.killReads h1))) h1) h)

theorem Keeps.engineMoved {e stays} (h : Keeps s₀ s) : Keeps s₀ (s.engineMoved e stays) :=
  .ite (.setEngine (.setMem h (.frame .refl))) (.setEngine
      (.killReads (.ite (.dmaRecord (.setMem h (.frame .refl))) (.setMem h (.frame .refl)))))

theorem Keeps.queueMoved {q} (h : Keeps s₀ s) : Keeps s₀ (s.queueMoved q) := .setQueue h

theorem Keeps.notifyMoved {moved} (h : Keeps s₀ s) : Keeps s₀ (s.notifyMoved moved) := .frame h

end
end Sys2Proof.Machine
end

section
/-!
PROOF. Keeps: the network and the host port.
-/
namespace Sys2Proof.Machine

section
variable {s₀ s t : State}

theorem Keeps.modNet {f} (h : Keeps s₀ s) : Keeps s₀ (s.modNet f) := .frame h

theorem Keeps.setPort {p x} (h : Keeps s₀ s) : Keeps s₀ (s.setPort p x) := .modNet h

theorem Keeps.netDrop {p cause stream} (h : Keeps s₀ s) : Keeps s₀ (s.netDrop p cause stream) := by
  unfold State.netDrop
  extract_lets _ _ s1
  have h1 : Keeps s₀ s1 := by
    unfold s1
    split
    · exact .ite (.ctlInc (.modNet h)) (.modNet h)
    · exact .modNet h
  exact .ite (.event h1) h1

theorem Keeps.streamCount {t} (h : Keeps s₀ s) : Keeps s₀ (s.streamCount t) := .ite (.ctlInc h) h

theorem Keeps.netTime (h : Keeps s₀ s) : Keeps s₀ s.netTime := .frame h

theorem Keeps.enqueue {p c f} (h : Keeps s₀ s) : Keeps s₀ (s.enqueue p c f) := .setPort h

theorem KeepsPair.macReceive {p o} (h : Keeps s₀ s) : KeepsPair s₀ (s.macReceive p o) := by
  unfold State.macReceive
  refine .ite (.mk h) ?_
  dsimp only
  split
  · exact .mk h
  · exact .mk (.modNet h)

theorem KeepsPair.macProtect {p a o} (h : Keeps s₀ s) : KeepsPair s₀ (s.macProtect p a o) := .mk (.modNet h)

theorem Keeps.macInstall {p cmd} (h : Keeps s₀ s) : Keeps s₀ (s.macInstall p cmd) :=
  .ctlSet (.foldl (fun _ _ h1 => .ctlSet h1) (.foldl (fun _ _ h2 => .ctlSet h2) (.modNet h)))

theorem KeepsPair.meter {key cir cbs len} (h : Keeps s₀ s) : KeepsPair s₀ (s.meter key cir cbs len) :=
  .ite (.mk h) (.ite (.mk (.modNet h)) (.mk (.modNet h)))

theorem KeepsPair.recover {stream seq} (h : Keeps s₀ s) : KeepsPair s₀ (s.recover stream seq) := by
  unfold State.recover
  split
  · exact .mk h
  · extract_lets
    split
    · exact .mk (.modNet h)
    · exact .ite (.ite (.mk h) (.mk (.modNet h))) (.ite (.mk h) (.mk (.modNet h)))

theorem Keeps.entryDone {own pa status outlen ts w6 seq} (h : Keeps s₀ s) : Keeps s₀ (s.entryDone own pa status outlen ts w6 seq) :=
  .inWrite h

theorem KeepsPair.shapeAll {l} (h : Keeps s₀ s) : KeepsPair s₀ (s.shapeAll l) := by
  unfold State.shapeAll
  extract_lets s1
  have h1 : KeepsPair s₀ s1 := by
    unfold s1
    refine .foldl (fun _ _ h2 => ?_) (.mk h)
    split
    · exact h2
    · split <;> next e1 => exact .mk (.ofPair (.shape (.fst h2)) e1)
  split
  · exact .mk h
  · exact .mk (.fst h1)
  · exact .mk h

theorem Keeps.netDeliver {p stream q n f ts} (h : Keeps s₀ s) : Keeps s₀ (s.netDeliver p stream q f ts n) := by
  induction n generalizing s with
  | zero => exact .netDrop h
  | succ n ih =>
    unfold State.netDeliver
    extract_lets
    refine .ite (.netDrop h) (.ite (.netDrop h) (.ite (ih (.moveDev (.entryDone h))) (.ite (.netDrop h) ?_)))
    split
    next e => exact .netDrop (.ofPair (.shapeAll h) e)
    next e => exact .streamCount (.moveDev (.entryDone (.inWrite (.ofPair (.shapeAll h) e))))

theorem Keeps.toInternal {p stream f ts} (h : Keeps s₀ s) : Keeps s₀ (s.toInternal p stream f ts) := by
  unfold State.toInternal
  refine .ite (.modNet h) ?_
  extract_lets
  split
  · exact .ite (.netDeliver h) (.netDrop h)
  · exact .netDrop h

theorem Keeps.forward {q c o stream} (h : Keeps s₀ s) : Keeps s₀ (s.forward q c o stream) :=
  .ite (.netDrop h) (.ite (.enqueue h) (.netDrop h))

theorem Keeps.ruled {p i r o f ts} (h : Keeps s₀ s) : Keeps s₀ (s.ruled p i r o f ts) := by
  unfold State.ruled
  extract_lets st _ s1
  have h1 : KeepsPair s₀ s1 := by
    unfold s1 st
    split
    · exact .mk h
    · refine .ite (.mk h) ?_
      split
      next e => exact .mk (.ofPair (.meter h) e)
      next e =>
        have h2 := Keeps.ofPair (.meter h) e
        refine .ite ?_ (.mk h2)
        split
        next e => exact .mk (.ofPair (.recover h2) e)
        next e => exact .mk (.ofPair (.recover h2) e)
  clear_value s1
  obtain @⟨_, cause, h2⟩ := h1
  cases cause with
  | some cause => exact .netDrop h2
  | none =>
    refine .foldl (fun _ _ h3 => .forward h3) ?_
    unfold st
    split
    · exact .ite (.toInternal h2) h2
    · exact h2

theorem KeepsOut.frameReceive {port octs fcs frag busy} (h : Keeps s₀ s) : KeepsOut s₀ (execFrameReceive port octs fcs frag busy s) := by
  unfold execFrameReceive
  dsimp only
  refine .ite (.next h) (.ite (.next (.netDrop h)) (.ite (.next (.netDrop h))
      (.ite (.next (.netDrop h)) (.ite (.next (.netDrop h)) (.ite (.next (.netDrop h)) ?_)))))
  split
  · exact .next (.netDrop h)
  · split
    next e1 => exact .next (.netDrop (.ofPair (.ite (.macReceive h) (.mk h)) e1))
    next e1 =>
      have h1 := Keeps.ofPair (.ite (.macReceive h) (.mk h)) e1
      split
      · exact .next (.netDrop h1)
      · exact .next (.ruled h1)

theorem Keeps.outEnd {q pa status seq} (h : Keeps s₀ s) : Keeps s₀ (s.outEnd q pa status seq) := .moveDev (.entryDone h)

theorem KeepsOut.egressDequeue {queue} (h : Keeps s₀ s) : KeepsOut s₀ (execEgressDequeue queue s) := by
  unfold execEgressDequeue
  refine .ite (.next h) (.ite (.next (.ite (.ringPoison h) h)) ?_)
  split
  · exact .next h
  · refine .ite (.next (.ite (.outEnd h) h)) (.ite (.next (.ite (.outEnd h) h))
        (.ite (.next (.ite (.outEnd h) h)) (.ite (.ite (.next (.outEnd (.event h))) (.next h)) (.ite (.next h) ?_))))
    extract_lets
    split
    next e1 => exact .next (.ofPair (.shapeAll h) e1)
    next e1 =>
      have h1 := Keeps.ofPair (.shapeAll h) e1
      exact .next (.enqueue (.ite (.modNet h1) h1))

theorem Keeps.outSent {f} (h : Keeps s₀ s) : Keeps s₀ (s.outSent f) := by
  unfold State.outSent
  split
  · exact h
  · exact .ite h (.streamCount (.outEnd h))

theorem Keeps.macDrop {p f} (h : Keeps s₀ s) : Keeps s₀ (s.macDrop p f) := by
  unfold State.macDrop
  extract_lets
  split
  · exact .netDrop h
  · exact .ite (.netDrop h) (.outEnd (.netDrop h))

theorem Keeps.macStop {p} (h : Keeps s₀ s) : Keeps s₀ (s.macStop p) := .foldl (fun _ _ h1 => .macDrop h1) (.event (.ctlMod (.setPort h)))

theorem Keeps.putOnWire {p c f sec} (h : Keeps s₀ s) : Keeps s₀ (s.putOnWire p c f sec) := by
  unfold State.putOnWire
  refine .ite (.outSent (.emit (.setPort h))) ?_
  split
  · exact .macDrop h
  · refine .ite (.ite (.macDrop h) (.macStop (.macDrop h))) ?_
    split
    next e1 =>
      extract_lets _ s1
      have h1 : Keeps s₀ s1 := .outSent (.emit (.setPort (.ofPair (.macProtect h) e1)))
      exact .ite (.macStop h1) h1

theorem Keeps.preemptCur {p} (h : Keeps s₀ s) : Keeps s₀ (s.preemptCur p) := by
  unfold State.preemptCur
  extract_lets
  split
  · exact h
  · exact .ite h (.setPort h)

theorem Keeps.select {p} (h : Keeps s₀ s) : Keeps s₀ (s.select p) := by
  unfold State.select
  dsimp only
  refine .ite ?_ ?_
  · split
    · refine .ite (.setPort h) ?_
      split
      · refine .ite ?_ (.setPort h)
        split
        · exact .preemptCur (.setPort h)
        · exact .putOnWire (.setPort (.preemptCur (.setPort h)))
      · exact .ite (.preemptCur (.setPort h)) (.setPort h)
    · exact .setPort h
  · split
    · split
      · exact .setPort h
      · exact .putOnWire (.setPort (.setPort h))
    · split
      · exact .ite (.setPort h) (.setPort (.setPort h))
      · exact .setPort h

theorem Keeps.netLoad {p} (h : Keeps s₀ s) : Keeps s₀ (s.netLoad p) := by
  unfold State.netLoad
  extract_lets
  split
  · exact .setPort h
  · exact .ite (.setPort h) (.setPort h)

theorem KeepsOut.gateEntry {port} (h : Keeps s₀ s) : KeepsOut s₀ (execGateEntry port s) := by
  unfold execGateEntry
  refine .ite (.next h) ?_
  extract_lets
  split
  · exact .ite (.next (.setPort h)) (.ite (.next h) (.next (.setPort h)))
  · exact .ite (.next h) (.next (.setPort h))

theorem Keeps.teventRead {k} (h : Keeps s₀ s) : Keeps s₀ (s.teventRead k) := .frame h

theorem Keeps.linkDrop {p} (h : Keeps s₀ s) : Keeps s₀ (s.linkDrop p) := by
  unfold State.linkDrop
  extract_lets _ _ s1 s2
  have h1 : Keeps s₀ s1 := by
    unfold s1
    split
    · exact .ite (.netDrop h) h
    · exact h
  have h2 : Keeps s₀ s2 := by
    unfold s2
    split
    · exact .netDrop h1
    · exact h1
  exact .foldl (fun _ _ h3 => .ite h3 (.outEnd h3)) (.setPort h2)

theorem KeepsOut.portLinkChange {port up rate} (h : Keeps s₀ s) : KeepsOut s₀ (execPortLinkChange port up rate s) := by
  unfold execPortLinkChange
  refine .ite (.next h) ?_
  extract_lets _ _ _ s1
  have h1 : Keeps s₀ s1 := .ctlMod h
  exact .next (.ite (.ite (.linkDrop h1) h1) (.event (.ite (.linkDrop h1) h1)))

theorem Keeps.cfgOne {fn off bit} (h : Keeps s₀ s) : Keeps s₀ (s.cfgOne fn off bit) := .ite h (.setCfg h)

theorem Keeps.errMsg {fn sev ur} (h : Keeps s₀ s) : Keeps s₀ (s.errMsg fn sev ur) := .ite (.emit (.ite (.cfgOne h) h)) h

theorem Keeps.aerCor {fn bit} (h : Keeps s₀ s) : Keeps s₀ (s.aerCor fn bit) := .ite (.cfgOne (.cfgOne h)) (.errMsg (.cfgOne (.cfgOne h)))

theorem Keeps.aerFirst {fn bit} (h : Keeps s₀ s) : Keeps s₀ (s.aerFirst fn bit) :=
  .ite (.setCfg h) (.modHep (.foldl (fun _ _ h1 => .setCfg h1) (.setCfg h)))

theorem Keeps.aer {fn advisory bit} (h : Keeps s₀ s) : Keeps s₀ (s.aer fn advisory bit) := by
  unfold State.aer
  extract_lets _ _ _ s1 _ s2
  have h1 : Keeps s₀ s1 := .cfgOne h
  have h2 : Keeps s₀ s2 := .ite (.cfgOne (.ite h1 (.aerFirst h1))) (.ite h1 (.aerFirst h1))
  exact .ite (.ite (.cfgOne h2) (.errMsg (.cfgOne h2))) (.ite
      (.ite (.cfgOne (.cfgOne h2)) (.ite (.cfgOne (.cfgOne h2)) (.errMsg (.cfgOne (.cfgOne h2)))))
          (.ite (.cfgOne h2) (.errMsg (.cfgOne h2))))

theorem Keeps.tlpError {fn x1} (h : Keeps s₀ s) : Keeps s₀ (s.tlpError fn x1) := by
  unfold State.tlpError
  split
  · exact h
  · exact .hepCount (.aer (.cfgOne h))
  all_goals exact .hepCount (.aer h)

theorem Keeps.closedWrite {fn} (h : Keeps s₀ s) : Keeps s₀ (s.closedWrite fn) := .hepCount (.aer h)

theorem Keeps.hepWrej (h : Keeps s₀ s) : Keeps s₀ s.hepWrej := .ctlMod h

theorem Keeps.wselWrite {w v win} (h : Keeps s₀ s) : Keeps s₀ (s.wselWrite w v win) := .ite (.modHep h) (.hepWrej h)

theorem Keeps.wcfgWrite {w cfg} (h : Keeps s₀ s) : Keeps s₀ (s.wcfgWrite w cfg) := .ite (.modHep h) (.hepWrej h)

theorem KeepsPair.shapeIn {cls q} (h : Keeps s₀ s) : KeepsPair s₀ (s.shapeIn cls q) := by
  unfold State.shapeIn
  split
  · exact .mk h
  · exact .ite (.mk (.take h)) (.mk h)

theorem KeepsPair.shapeWin {cls l} (h : Keeps s₀ s) : KeepsPair s₀ (s.shapeWin cls l) := by
  unfold State.shapeWin
  extract_lets s1
  have h1 : KeepsPair s₀ s1 := by
    unfold s1
    refine .foldl (fun _ _ h2 => .ite h2 ?_) (.mk h)
    split <;> next e1 => exact .mk (.ofPair (.shapeIn (.fst h2)) e1)
  exact .ite h1 (.mk h)

theorem KeepsPair.shapeWait {cls l} (h : Keeps s₀ s) : KeepsPair s₀ (s.shapeWait cls l) := by
  unfold State.shapeWait
  refine .foldl (fun _ _ h1 => .ite h1 ?_) (.mk h)
  split
  next e1 => exact .mk (.ofPair (.shapeIn (.fst h1)) e1)
  next e1 =>
    have h2 := Keeps.ofPair (.shapeIn (.fst h1)) e1
    split
    · exact .mk h2
    · split
      · exact .mk h2
      · exact .mk (.take (.frame (.fst h1)))

theorem Keeps.winWrite {v x off octs} (h : Keeps s₀ s) : Keeps s₀ (s.winWrite v x off octs) := by
  unfold State.winWrite
  split
  · exact h
  · exact .inWrite h

theorem Keeps.hdbSet {v bits} (h : Keeps s₀ s) : Keeps s₀ (s.hdbSet v bits) := .ite (.ite (.lag (.ctlMod h)) (.ctlMod h)) (.closedWrite h)

theorem Keeps.msixWrite {fn i v} (h : Keeps s₀ s) : Keeps s₀ (s.msixWrite fn i v) := .sendInts (.modHep h)

theorem Keeps.fWrite {v off val} (h : Keeps s₀ s) : Keeps s₀ (s.fWrite v off val) :=
  .ite (.msixWrite h) (.ite (.hdbSet h) (.ite (.intaSync (.modHep h)) h))

theorem Keeps.bellWrite {v o octs} (h : Keeps s₀ s) : Keeps s₀ (s.bellWrite v o octs) := .ite (.doorbell h) (.hepCount h)

theorem Keeps.holdWrite {v r} (h : Keeps s₀ s) : Keeps s₀ (s.holdWrite v r) := .ite (.modHep h) h

theorem Keeps.hostWrite {v off octs} (h : Keeps s₀ s) : Keeps s₀ (s.hostWrite v off octs) := by
  unfold State.hostWrite
  refine .ite (.closedWrite h) (.ite (.ite (.bellWrite h) (.holdWrite h)) (.ite (.closedWrite h) (.ite (.holdWrite h) ?_)))
  split
  next e1 => exact .winWrite (.ofPair (.shapeWin h) e1)
  next e1 => exact .holdWrite (.ofPair (.shapeWin h) e1)

theorem Keeps.fnWrite {v off val} (h : Keeps s₀ s) : Keeps s₀ (s.fnWrite v off val) := .ite (.fWrite h) (.holdWrite h)

theorem Keeps.releaseWrite {v} (h : Keeps s₀ s) : Keeps s₀ (s.releaseWrite v) := by
  unfold State.releaseWrite
  split
  · exact h
  · refine .ite (.fWrite (.modHep h)) (.ite (.ite (.bellWrite (.modHep h)) (.closedWrite (.modHep h))) (.ite (.closedWrite (.modHep h)) ?_))
    split
    next e1 => exact .ofPair (.takeAll h) e1
    next e1 =>
      have h1 := Keeps.ofPair (.takeAll h) e1
      split
      next e2 => exact .winWrite (.modHep (.ofPair (.shapeWait h1) e2))
      next e2 => exact .ofPair (.shapeWait h1) e2

theorem Keeps.drainWrites (h : Keeps s₀ s) : Keeps s₀ s.drainWrites := .foldl (fun _ _ h1 => .foldl (fun _ _ h2 => .releaseWrite h2) h1) h

theorem KeepsPair.readTurn (h : Keeps s₀ s) : KeepsPair s₀ s.readTurn := .mk (.ite (.drainWrites h) h)

theorem KeepsOut.shaperAccept {srcKind item} (h : Keeps s₀ s) : KeepsOut s₀ (execShaperAccept srcKind item s) := by
  unfold execShaperAccept
  refine .ite (.next (.releaseWrite h)) ?_
  split
  · exact .next h
  · exact .next (.releaseHeld h)

theorem Keeps.hostRead {v off n} (h : Keeps s₀ s) : Keeps s₀ (s.hostRead v off n) := by
  unfold State.hostRead
  dsimp only
  refine .ite (.emit (.aer h)) (.ite (.emit h) ?_)
  split
  next e1 => exact .ofPair (.takeAll h) e1
  next e1 =>
    have h1 := Keeps.ofPair (.takeAll h) e1
    split
    next e2 => exact .ofPair (.shapeWait h1) e2
    next e2 =>
      have h2 := Keeps.ofPair (.shapeWait h1) e2
      refine .fst (.foldl (fun _ _ h3 => .mk (.emit (.ite (.hepCount (.fst h3)) (.fst h3)))) (.mk ?_))
      split
      · exact h2
      · exact .event h2

theorem KeepsOut.hostMemRead {fn off len err} (h : Keeps s₀ s) : KeepsOut s₀ (execHostMemRead fn off len err s) := by
  unfold execHostMemRead
  refine .ite (.next h) (.ite (.next (.tlpError h)) ?_)
  split
  next e1 =>
    have h1 := Keeps.ofPair (.readTurn h) e1
    exact .next (.ite (.hostRead h1) h1)

theorem Keeps.readFails {r} (h : Keeps s₀ s) : Keeps s₀ (s.readFails r) := .ite (.modHep h) (.dmaEnd (.modHep h))

theorem KeepsOut.hostCompletion {fn tag status octs err} (h : Keeps s₀ s) : KeepsOut s₀ (execHostCompletion fn tag status octs err s) := by
  unfold execHostCompletion
  refine .ite (.next (.tlpError h)) ?_
  split
  · exact .next (.hepCount (.aer h))
  · exact .ite (.next (.readFails (.cfgOne h))) (.next (.modHep h))

theorem KeepsOut.completionTimeout {fn tag} (h : Keeps s₀ s) : KeepsOut s₀ (execCompletionTimeout fn tag s) := by
  unfold execCompletionTimeout
  split
  · exact .next h
  · exact .next (.readFails (.hepCount (.aer h)))

theorem Keeps.flrBegin {fn} (h : Keeps s₀ s) : Keeps s₀ (s.flrBegin fn) := by
  unfold State.flrBegin
  refine .ite h ?_
  extract_lets _ s1
  have h1 : Keeps s₀ s1 := .ite (.ctlSet (.modHep h)) (.ite (.modHep (.modHep h)) (.modHep h))
  exact .ite h1 (.event (.ctlMod (.dmaAbort h1)))

theorem Keeps.flrEnd {fn} (h : Keeps s₀ s) : Keeps s₀ (s.flrEnd fn) := .ite h (.modHep h)

theorem Keeps.flrStart {fn} (h : Keeps s₀ s) : Keeps s₀ (s.flrStart fn) := .foldl (fun _ _ h1 => .flrBegin h1) h

theorem Keeps.bmeWrite {fn on} (h : Keeps s₀ s) : Keeps s₀ (s.bmeWrite fn on) :=
  .ite (.sendInts (.setCfg h)) (.ite (.setCfg h) (.dmaAbort (.setCfg h)))

theorem Keeps.vfWrite {on} (h : Keeps s₀ s) : Keeps s₀ (s.vfWrite on) :=
  .ite (.foldl (fun _ _ h1 => .flrBegin h1) (.ite h (.setCfg h))) (.ite h (.setCfg h))

theorem Keeps.linkLost (h : Keeps s₀ s) : Keeps s₀ s.linkLost := by
  unfold State.linkLost
  extract_lets _ s1
  have h1 : Keeps s₀ s1 := .intaSync (.foldl (fun _ _ h2 => .flrBegin h2) h)
  exact .ite (.event (.modHep (.ctlMod h1))) (.modHep (.ctlMod h1))

theorem KeepsOut.linkLayerRetry {kind} (h : Keeps s₀ s) : KeepsOut s₀ (execLinkLayerRetry kind s) := by
  unfold execLinkLayerRetry
  split
  · exact .next (.hepCount (.aerCor h))
  · exact .next h

theorem Keeps.cfgWrite {fn off v} (h : Keeps s₀ s) : Keeps s₀ (s.cfgWrite fn off v) := by
  unfold State.cfgWrite
  extract_lets _ _ _ _ _ _ _ s1
  have h1 : Keeps s₀ s1 := .ite (.flrStart (.setCfg h)) (.setCfg h)
  exact .intaSync (.sendInts (.ite (.foldl (fun _ _ h2 => .flrBegin h2) (.ite (.dmaAbort h1) h1)) (.ite (.dmaAbort h1) h1)))

theorem KeepsOut.hostConfigRequest {fn off write be} (h : Keeps s₀ s) : KeepsOut s₀ (execHostConfigRequest fn off write be s) := by
  unfold execHostConfigRequest
  refine .ite (.next h) (.ite (.next (.emit h)) (.ite (.next (.emit (.aer h))) ?_))
  split
  · exact .next (.emit h)
  · exact .next (.emit (.cfgWrite h))

theorem Keeps.functionMoved {v} (h : Keeps s₀ s) : Keeps s₀ (s.functionMoved v) := .ctlSet (.modHep h)

theorem Keeps.hdbMoved {taken} (h : Keeps s₀ s) : Keeps s₀ (s.hdbMoved taken) := .foldl (fun _ _ h1 => .ite (.ctlSet h1) h1) h

theorem Keeps.hostQuiesce {n} (h : Keeps s₀ s) : Keeps s₀ (s.hostQuiesce n) :=
  .foldl (fun _ _ h1 => .ite (.foldl (fun _ _ h2 => .closedWrite h2) (.modHep h1)) h1) h

end
end Sys2Proof.Machine
end

section
/-!
PROOF. Keeps: quiesce and the recording sessions.
-/
namespace Sys2Proof.Machine

section
variable {s₀ s : State}

theorem Keeps.stopCore {k} (h : Keeps s₀ s) : Keeps s₀ (s.stopCore k) := .ite (.modCore (.stopAt h)) h

theorem Keeps.resumeCore {k} (h : Keeps s₀ s) : Keeps s₀ (s.resumeCore k) := .ite (.modCore h) h

theorem Keeps.slotReset {k} (h : Keeps s₀ s) : Keeps s₀ (s.slotReset k) := .frame h

theorem Keeps.coldCore {k entry ft} (h : Keeps s₀ s) : Keeps s₀ (s.coldCore k entry ft) :=
  .frame (.setCore (.discardAll (.withdraw (.slotReset h))))

theorem Keeps.releaseSlot {k} (h : Keeps s₀ s) : Keeps s₀ (s.releaseSlot k) := .setCore (.discardAll (.withdraw (.slotReset h)))

theorem Keeps.cellsAfresh {n} (h : Keeps s₀ s) : Keeps s₀ (s.cellsAfresh n) := .foldl (fun _ _ h1 => .setUst h1) h

theorem Keeps.mftQuiesce {n} (h : Keeps s₀ s) : Keeps s₀ (s.mftQuiesce n) := .ite (.mftFlush (.foldl (fun _ _ h1 => .mftEndChunk h1) h)) h

theorem Keeps.quiesceDevices {n} (h : Keeps s₀ s) : Keeps s₀ (s.quiesceDevices n) := .hostQuiesce (.dmaQuiesce (.rangeQuiesce h))

theorem Keeps.quiesce {n ends} (h : Keeps s₀ s) : Keeps s₀ (s.quiesce n ends) := by
  unfold State.quiesce
  extract_lets s1 s2
  have h1 : Keeps s₀ s1 := .foldl (fun _ _ h2 => .stopCore h2) h
  have h3 : Keeps s₀ s2 := by
    unfold s2
    split
    · exact .mftEnd h1
    · exact .mftQuiesce h1
  exact .quiesceDevices h3

theorem Keeps.enterCmp {n c} (h : Keeps s₀ s) : Keeps s₀ (s.enterCmp n c) := .ite h (.event (.setCmpState h))

theorem Keeps.resumeCmp {n} (h : Keeps s₀ s) : Keeps s₀ (s.resumeCmp n) := .enterCmp (.foldl (fun _ _ h1 => .resumeCore h1) h)

theorem Keeps.mftStart {n} (h : Keeps s₀ s) : Keeps s₀ (s.mftStart n) :=
  .mftSpace (.foldl (fun _ _ h1 => .setSess (.mftPut h1))
      (.mftPut (.foldl (fun _ _ h2 => .setMftc h2) (.ctlSet (.ctlSet (.ctlSet (.frame (.setSess (.frame h)))))))))

theorem Keeps.raise {n byStart} (h : Keeps s₀ s) : Keeps s₀ (s.raise n byStart) := by
  unfold State.raise
  split
  · exact h
  · exact .enterCmp (.cellsAfresh (.foldl (fun _ _ h1 => .coldCore h1) (.ite (.mftStart (.ite (.mftEnd h) h)) (.ite (.mftEnd h) h))))

theorem Keeps.mftWrej (h : Keeps s₀ s) : Keeps s₀ s.mftWrej := .ctlMod h

theorem Keeps.ridxWrite {n v} (h : Keeps s₀ s) : Keeps s₀ (s.ridxWrite n v) :=
  .ite (.mftWrej h) (.ite (.mftSpace (.ctlSet h)) (.modCores (.mftSpace (.ctlSet h))))

theorem Keeps.mftArm {n} (h : Keeps s₀ s) : Keeps s₀ (s.mftArm n) := .ite (.ctlMod h) (.mftWrej h)

theorem Keeps.mftDisarm {n} (h : Keeps s₀ s) : Keeps s₀ (s.mftDisarm n) := .ite (.ctlMod h) (.ite (.mftEnd h) (.mftWrej h))

theorem Keeps.mftReplay {n blocks} (h : Keeps s₀ s) : Keeps s₀ (s.mftReplay n blocks) := by
  unfold State.mftReplay
  split
  · exact .mftWrej h
  · refine .ite (.mftWrej h) ?_
    extract_lets
    split
    · exact .mftDiverge h
    · split
      · split
        · extract_lets
          split
          · exact .mftDiverge h
          · refine .ite (.mftDiverge h) (.ite (.mftDiverge h) ?_)
            split
            · exact .mftDiverge h
            · exact .enterCmp (.ctlMod (.ctlMod (.setSess
                  (.cellsAfresh (.foldl (fun _ _ h1 => .modCore (.setMftc h1)) (.foldl (fun _ _ h2 => .coldCore h2) h))))))

theorem Keeps.mftReplayEnd {n} (h : Keeps s₀ s) : Keeps s₀ (s.mftReplayEnd n) :=
  .ite h (.ite (.mftDiverge h) (.enterCmp (.ctlMod (.ctlMod (.frame (.foldl (fun _ _ h1 => .stopCore h1) h))))))

theorem Keeps.mftLine {n r again} (h : Keeps s₀ s) : Keeps s₀ (s.mftLine n r again) :=
  .ite (.mftDiverge h) (.foldl (fun _ _ h1 => .ite (.wrInv h1) h1) h)

theorem Keeps.mftLines {n again rs} (h : Keeps s₀ s) : Keeps s₀ (s.mftLines n again rs) := by
  induction rs generalizing s again with
  | nil => exact h
  | cons r rs ih => exact .ite (ih (.mftLine h)) (.mftLine h)

theorem Keeps.mftChunk {n agent again} (h : Keeps s₀ s) : Keeps s₀ (s.mftChunk n agent again) := by
  unfold State.mftChunk
  refine .ite h (.ite (.ite h (.mftReplayEnd (.mftLines (.setSess h)))) ?_)
  split
  · exact h
  · split
    · exact h
    · extract_lets s1
      have h1 : Keeps s₀ s1 := .ite h (.landRecorded h)
      split
      · exact h1
      · refine .ite (.ite h1 (.ite (.modCore h1) h1)) ?_
        split
        · exact h1
        · exact .ite (.mftDiverge h1) (.ite (.ite (.mftDiverge h1) (.mftReplayEnd (.modCore (.setMftc h1)))) h1)

end
end Sys2Proof.Machine
end

section
/-!
PROOF. Keeps: the Chart, its admission and the resets.
-/
namespace Sys2Proof.Machine

section
variable {s₀ s : State}

theorem Keeps.writeImage {i} (h : Keeps s₀ s) : Keeps s₀ (s.writeImage i) := .wrOctets h

theorem Keeps.moveGranule {g} (h : Keeps s₀ s) : Keeps s₀ (s.moveGranule g) :=
  .setMem (.foldl (fun _ _ h1 => .backInvalidate h1) h) (.rekey .refl)

theorem Keeps.zeroWay {w} (h : Keeps s₀ s) : Keeps s₀ (s.zeroWay w) := by
  unfold State.zeroWay
  exact .setMem (.modCores (.emptyWay h)) (.ofStores (.dropWays .refl))

theorem Keeps.loadUst {g} (h : Keeps s₀ s) : Keeps s₀ (s.loadUst g) :=
  .setUst (.setUst (.setMem (.foldl (fun _ _ h1 => .discardAll h1) h) (.frame .refl)))

theorem Keeps.loadChart {c kept} (h : Keeps s₀ s) : Keeps s₀ (s.loadChart c kept) := by
  unfold State.loadChart
  exact .frame (.modHep (.frame (.foldl (fun _ _ h1 => .netLoad h1) (.foldl (fun _ _ h1 => .writeImage h1)
    (.setMem (.foldl (fun _ _ h1 => .loadUst h1) (.frame (.setMem (.frame h) (.ofStores (.dropClr .refl))))) (.rekeyAll .refl))))))

theorem Keeps.raiseAll (h : Keeps s₀ s) : Keeps s₀ s.raiseAll := .foldl (fun _ _ h1 => .ite (.raise h1) (.frame h1)) h

theorem Keeps.bootStep {n} (h : Keeps s₀ s) : Keeps s₀ (s.bootStep n) := .ctlMod h

theorem Keeps.bootDone (h : Keeps s₀ s) : Keeps s₀ s.bootDone := .event (.frame (.ctlMod h))

theorem Keeps.chtStep {op step} (h : Keeps s₀ s) : Keeps s₀ (s.chtStep op step) := .frame h

theorem Keeps.setTargets {l} (h : Keeps s₀ s) : Keeps s₀ (s.setTargets l) := .ctlSet h

theorem Keeps.raiseSvn (h : Keeps s₀ s) : Keeps s₀ s.raiseSvn := .foldl (fun _ _ h1 => .ctlSet h1) (.ctlMod (.ctlSet (.frame h)))

theorem Keeps.svnWaits (h : Keeps s₀ s) : Keeps s₀ s.svnWaits := .ite (.raiseSvn h) h

theorem Keeps.chtEnd {op code section_} (h : Keeps s₀ s) : Keeps s₀ (s.chtEnd op code section_) :=
  .svnWaits (.event (.frame (.ctlMod (.ctlSet h))))

theorem Keeps.releaseSaved {op n} (h : Keeps s₀ s) : Keeps s₀ (s.releaseSaved op n) := by
  unfold State.releaseSaved
  extract_lets
  split
  · exact .resumeCmp h
  · exact .ite (.resumeCmp h) (.enterCmp h)
  · exact .ite (.enterCmp h) (.ite (.resumeCmp h) (.enterCmp h))
  · exact h

theorem Keeps.undoMemory {op} (h : Keeps s₀ s) : Keeps s₀ (s.undoMemory op) :=
  .setMem (.foldl (fun _ _ h1 => .wrInv h1) (.foldl (fun _ _ h2 => .foldl (fun _ _ h3 => .ite (.setMem h3 (.setByte .refl)) h3) h2)
      (.foldl (fun _ _ h4 => .zeroWay h4) (.foldl (fun _ _ h5 => .moveGranule h5) h)))) (.foldl (fun _ _ h6 => .setPoison h6) .refl)

theorem Keeps.chtReverse {op code section_} (h : Keeps s₀ s) : Keeps s₀ (s.chtReverse op code section_) :=
  .chtEnd (.foldl (fun _ _ h1 => .releaseSaved h1) (.ite (.bootStep (.ite (.undoMemory h) h)) (.ite (.undoMemory h) h)))

theorem Keeps.chtCancel (h : Keeps s₀ s) : Keeps s₀ s.chtCancel := by
  unfold State.chtCancel
  split
  · exact .ite (.chtReverse h) h
  · exact h

theorem Keeps.beginQuiesce {targets} (h : Keeps s₀ s) : Keeps s₀ (s.beginQuiesce targets) := .foldl (fun _ _ h1 => .ite (.enterCmp h1) h1) h

theorem Keeps.startCmp {n byStart} (h : Keeps s₀ s) : Keeps s₀ (s.startCmp n byStart) := .ite (.raise h) h

theorem Keeps.chtGo {op0 sub v together} (h : Keeps s₀ s) : Keeps s₀ (s.chtGo op0 sub v together) := by
  unfold State.chtGo
  dsimp only
  refine .ite (.chtStep (.setTargets (.ctlMod h))) (.ite (.chtEnd (.ctlMod h)) (.ite (.chtEnd (.ctlMod h)) ?_))
  split
  · exact .ite (.beginQuiesce (.chtStep (.setTargets (.ctlMod h)))) (.chtEnd (.setTargets (.ctlMod h)))
  · exact .ite (.chtEnd (.startCmp (.ite (.frame (.ite (.dropWindow (.setTargets (.ctlMod h))) (.setTargets (.ctlMod h))))
        (.setTargets (.ctlMod h))))) (.chtEnd (.setTargets (.ctlMod h)))
  · exact .ite (.chtEnd (.resumeCmp (.setTargets (.ctlMod h)))) (.chtEnd (.setTargets (.ctlMod h)))

theorem Keeps.chtWrite {who v together} (h : Keeps s₀ s) : Keeps s₀ (s.chtWrite who v together) := by
  unfold State.chtWrite
  refine .ite (.ctlMod h) ?_
  extract_lets _ s1
  have h1 : Keeps s₀ s1 := .ite (.chtCancel h) h
  exact .ite (.ite h1 (.ctlMod h1)) (.ite h1 (.ite (.chtGo (.ctlSet h1)) (.ctlSet h1)))

theorem Keeps.chtFetched {op octs} (h : Keeps s₀ s) : Keeps s₀ (s.chtFetched op octs) := .chtStep h

theorem Keeps.chtFetchOwn {op} (h : Keeps s₀ s) : Keeps s₀ (s.chtFetchOwn op) := by
  unfold State.chtFetchOwn
  split
  · exact h
  · exact .ite (.chtEnd h) (.chtFetched h)

theorem Keeps.chtVerify {op} (h : Keeps s₀ s) : Keeps s₀ (s.chtVerify op) := by
  unfold State.chtVerify
  extract_lets
  split
  · exact .chtEnd h
  · exact .beginQuiesce (.ite (.frame (.chtStep (.setTargets h))) (.chtStep (.setTargets h)))

theorem Keeps.chtQuiesce {targets ends} (h : Keeps s₀ s) : Keeps s₀ (s.chtQuiesce targets ends) := by
  unfold State.chtQuiesce
  refine .foldl (fun _ _ h1 => ?_) h
  split
  · exact .enterCmp (.quiesce h1)
  · exact .quiesceDevices h1
  · exact h1

theorem Keeps.chtReassign {op} (h : Keeps s₀ s) : Keeps s₀ (s.chtReassign op) :=
  .ite (.chtStep h) (.chtStep (.foldl (fun _ _ h1 => .writeImage h1)
      (.foldl (fun _ _ h2 => .zeroWay h2) (.foldl (fun _ _ h3 => .moveGranule h3) h))))

theorem Keeps.chtAdmit {op} (h : Keeps s₀ s) : Keeps s₀ (s.chtAdmit op) := by
  unfold State.chtAdmit
  extract_lets
  split
  · exact .chtReverse (.ctlSet h)
  · refine .ite ?_ (.chtStep h)
    split
    · exact h
    · exact .ite (.chtStep h) (.chtReverse h)

theorem Keeps.pmuReset {k} (h : Keeps s₀ s) : Keeps s₀ (s.pmuReset k) := .frame h

theorem Keeps.emptyStand {stand} (h : Keeps s₀ s) : Keeps s₀ (s.emptyStand stand) := .foldl (fun _ _ h1 => .l2Evict h1) h

theorem Keeps.chtCommit {op} (h : Keeps s₀ s) : Keeps s₀ (s.chtCommit op) :=
  .ite (.frame (.switchSet (.loadChart h))) (.frame (.foldl (fun _ _ h1 => .ite (.setCmpState h1) h1)
      (.modHep (.foldl (fun _ _ h2 => .netLoad h2) (.foldl (fun _ _ h3 => .loadUst h3)
          (.dropRecords (.frame (.foldl (fun _ _ h4 => .pmuReset (.releaseSlot (.emptyStand h4)))
              (.foldl (fun _ _ h5 => .functionMoved h5) (.foldl (fun _ _ h6 => .queueMoved h6)
                  (.foldl (fun _ _ h7 => .engineMoved h7) (.hdbMoved (.notifyMoved h)))))))))))))

theorem Keeps.chtRelease {op cold} (h : Keeps s₀ s) : Keeps s₀ (s.chtRelease op cold) :=
  .foldl (fun _ _ h1 => .ite h1 (.ite (.enterCmp h1) (.ite (.raise h1) (.resumeCmp h1)))) h

theorem Keeps.chtCommitStep {op} (h : Keeps s₀ s) : Keeps s₀ (s.chtCommitStep op) := .chtStep (.chtCommit h)

theorem Keeps.enterChanging {op} (h : Keeps s₀ s) : Keeps s₀ (s.enterChanging op) := .foldl (fun _ _ h1 => .ite (.enterCmp h1) h1) h

theorem Keeps.chtReleaseStep {op} (h : Keeps s₀ s) : Keeps s₀ (s.chtReleaseStep op) :=
  .ite (.bootDone (.chtEnd (.raiseAll (.bootStep h)))) (.chtEnd (.chtRelease h))

theorem Keeps.applyNext {op} (h : Keeps s₀ s) : Keeps s₀ (s.applyNext op) := by
  unfold State.applyNext
  split
  · exact .ite (.chtFetchOwn h) h
  · exact .chtVerify h
  · exact .ite (.chtStep (.ite (.bootStep (.enterChanging (.chtQuiesce h))) (.enterChanging (.chtQuiesce h)))) h
  · exact .chtReassign h
  · exact .chtAdmit h
  · exact .ite (.ite (.frame (.chtCommitStep h)) h) (.chtCommitStep h)
  · exact .chtReleaseStep h

theorem Keeps.applyEv {ev} (h : Keeps s₀ s) : Keeps s₀ (s.applyEv ev) := by
  unfold State.applyEv
  split
  · exact .ite (.chtWrite h) h
  · refine .ite ?_ h
    split
    · exact .chtEnd h
    · exact .ite (.chtFetched h) h
  · exact .ite (.frame h) h
  · exact .ite (.applyNext h) h
  · exact h

theorem KeepsOut.stop {ev} (h : Keeps s₀ s) : KeepsOut s₀ (execStop ev s) := by
  unfold execStop
  split
  · exact .next (.ite (.chtWrite h) h)
  · exact .next (.ite (.chtEnd (.chtQuiesce h)) h)
  · exact .next h

theorem KeepsOut.partnerCommitSignal (h : Keeps s₀ s) : KeepsOut s₀ (execPartnerCommitSignal s) := by
  unfold execPartnerCommitSignal
  split
  · exact .next (.ite (.chtCommitStep h) h)
  · exact .next h

theorem KeepsOut.partnerStageTimeout (h : Keeps s₀ s) : KeepsOut s₀ (execPartnerStageTimeout s) := by
  unfold execPartnerStageTimeout
  split
  · exact .next (.ite (.chtReverse h) h)
  · exact .next h

theorem Keeps.selfRefresh (h : Keeps s₀ s) : Keeps s₀ s.selfRefresh := .foldl (fun _ _ h1 => .setSub h1) h

theorem Keeps.warmReset {cause held} (h : Keeps s₀ s) : Keeps s₀ (s.warmReset cause held) := by
  unfold State.warmReset
  exact .event (.ctlSet (.withMem (.selfRefresh (.linkLost (.frame h))) (.ofStores (.dramOnly .refl))))

theorem Keeps.tamperReset {src} (h : Keeps s₀ s) : Keeps s₀ (s.tamperReset src) := by
  unfold State.tamperReset
  exact .ctlSet (.ctlSet (.withMem h (.ofStores .empty)))

theorem Keeps.powerOff (h : Keeps s₀ s) : Keeps s₀ s.powerOff := by
  unfold State.powerOff
  exact .withMem h (.ofStores .empty)

theorem Keeps.warmrst (h : Keeps s₀ s) : Keeps s₀ s.warmrst := .ite (.warmReset h) h

theorem KeepsOut.packageFatalError {row chart} (h : Keeps s₀ s) : KeepsOut s₀ (execPackageFatalError row chart s) := by
  unfold execPackageFatalError
  refine .ite (.next h) ?_
  extract_lets _ s1
  have h1 : Keeps s₀ s1 := .event h
  exact .next (.ite (.ite (.frame h1) h1) (.warmReset (.ite (.frame h1) h1)))

end
end Sys2Proof.Machine
end

section
/-!
PROOF. Keeps: the Ferry and the Crossing.
-/
namespace Sys2Proof.Machine

section
variable {s₀ s : State}

theorem Keeps.modLinks {f} (h : Keeps s₀ s) : Keeps s₀ (s.modLinks f) := .frame h

theorem Keeps.setFerry {m x} (h : Keeps s₀ s) : Keeps s₀ (s.setFerry m x) := by
  unfold State.setFerry
  exact .modLinks (.ite h (.countUp h))

theorem Keeps.modFerry {m f} (h : Keeps s₀ s) : Keeps s₀ (s.modFerry m f) := .setFerry h

theorem Keeps.setXport {p x} (h : Keeps s₀ s) : Keeps s₀ (s.setXport p x) := .modLinks h

theorem Keeps.modXport {p f} (h : Keeps s₀ s) : Keeps s₀ (s.modXport p f) := .setXport h

theorem Keeps.setLinkDir {l d x} (h : Keeps s₀ s) : Keeps s₀ (s.setLinkDir l d x) := .ite (.modFerry h) (.modXport h)

theorem Keeps.fryCount {e ev} (h : Keeps s₀ s) : Keeps s₀ (s.fryCount e ev) := by
  unfold State.fryCount
  split
  · exact .ucount h
  · exact h

theorem KeepsOut.routeChange {a b} (h : Keeps s₀ s) : KeepsOut s₀ (execRouteChange a b s) := by
  unfold execRouteChange
  refine .ite (.next h) ?_
  split
  · exact .next h
  · exact .ite (.next h) (.next (.event (.modLinks h)))

theorem Keeps.isolate {g} (h : Keeps s₀ s) : Keeps s₀ (s.isolate g) :=
  .loseHome (.foldl (fun _ _ h1 => .haltCmp h1) (.foldl (fun _ _ h2 => .discardAll h2) (.chtCancel (.event (.modLinks h)))))

theorem Keeps.afterDown (h : Keeps s₀ s) : Keeps s₀ s.afterDown := .ite h (.ite (.warmReset h) (.foldl (fun _ _ h1 => .isolate h1) h))

theorem Keeps.fryDown {m fromBist half} (h : Keeps s₀ s) : Keeps s₀ (s.fryDown m fromBist half) := .afterDown (.event (.modFerry h))

theorem Keeps.xngState {p st} (h : Keeps s₀ s) : Keeps s₀ (s.xngState p st) := .event (.ite (.modLinks (.modXport h)) (.modXport h))

theorem Keeps.linkRetrain {l} (h : Keeps s₀ s) : Keeps s₀ (s.linkRetrain l) := .ite (.fryDown h) (.xngState h)

theorem Keeps.retryLimit {l d} (h : Keeps s₀ s) : Keeps s₀ (s.retryLimit l d) :=
  .ite (.ite (.modFerry (.modFerry h)) (.modFerry h)) (.ite (.linkRetrain (.modXport h)) (.modXport h))

theorem Keeps.discard {l d} (h : Keeps s₀ s) : Keeps s₀ (s.discard l d) := by
  unfold State.discard
  refine .ite h ?_
  extract_lets s1 s2
  have h1 : Keeps s₀ s1 := .setLinkDir h
  have h2 : Keeps s₀ s2 := by
    unfold s2
    refine .ite ?_ (.ite (.ctlInc h1) h1)
    split
    · exact .ctlInc h1
    · exact h1
  exact .retryLimit h2

theorem Keeps.protErr {l d addr} (h : Keeps s₀ s) : Keeps s₀ (s.protErr l d addr) :=
  .ite (.ite (.linkRetrain (.modFerry (.event (.ctlInc h)))) (.modFerry (.event (.ctlInc h))))
      (.ite (.linkRetrain (.modXport (.xngViolation h))) (.modXport (.xngViolation h)))

theorem Keeps.countFlit {l d} (h : Keeps s₀ s) : Keeps s₀ (s.countFlit l d) := .ite h (.modXport h)

theorem Keeps.flitIn {l d v bad} (h : Keeps s₀ s) : Keeps s₀ (s.flitIn l d v bad) :=
  .ite (.protErr h) (.ite h (.ite (.modLinks (.setLinkDir h)) (.setLinkDir h)))

theorem KeepsOut.flitReceive {link dir flit errors load} (h : Keeps s₀ s) : KeepsOut s₀ (execFlitReceive link dir flit errors load s) := by
  unfold execFlitReceive
  refine .ite (.next h) (.ite (.next h) ?_)
  extract_lets _ _ s1
  have h1 : Keeps s₀ s1 := .ite (.fryCount (.ite (.setLinkDir h) h)) (.ite (.setLinkDir h) h)
  exact .ite (.next (.flitIn h1)) (.ite (.next (.flitIn (.ite (.fryCount (.countFlit (.setLinkDir h1))) (.countFlit (.setLinkDir h1)))))
      (.next (.discard h1)))

theorem Keeps.laneFailed {m} (h : Keeps s₀ s) : Keeps s₀ (s.laneFailed m) := .ite (.fryDown h) h

theorem Keeps.markLanes {m d lanes} (h : Keeps s₀ s) : Keeps s₀ (s.markLanes m d lanes) := .laneFailed (.modFerry h)

theorem Keeps.countRemap {m} (h : Keeps s₀ s) : Keeps s₀ (s.countRemap m) := .foldl (fun _ _ h1 => .ctlInc h1) h

theorem KeepsOut.remap {module dir bist} (h : Keeps s₀ s) : KeepsOut s₀ (execRemap module dir bist s) := by
  unfold execRemap
  refine .ite (.next h) ?_
  extract_lets s1
  have h1 : Keeps s₀ s1 := .ite (.modFerry h) h
  refine .ite (.next (.linkRetrain h1)) (.ite (.next (.laneFailed h1)) ?_)
  split
  · exact .next (.event (.countRemap (.modFerry h1)))
  · exact .next h1

theorem Keeps.fryFailed {m} (h : Keeps s₀ s) : Keeps s₀ (s.fryFailed m) := .ite (.afterDown (.event (.modFerry h))) (.modFerry h)

theorem Keeps.fryMap {m} (h : Keeps s₀ s) : Keeps s₀ (s.fryMap m) := .ite (.fryFailed (.ite h (.event h))) (.modFerry (.ite h (.event h)))

theorem Keeps.fryUp {m} (h : Keeps s₀ s) : Keeps s₀ (s.fryUp m) := .modFerry h

theorem KeepsOut.ferryTrainingStep {module lanes0 lanes1} (h : Keeps s₀ s) : KeepsOut s₀ (execFerryTrainingStep module lanes0 lanes1 s) := by
  unfold execFerryTrainingStep
  refine .ite (.next h) ?_
  extract_lets
  split
  · exact .next (.modFerry h)
  · exact .next (.modFerry h)
  · exact .next (.fryMap h)
  · exact .next (.modFerry h)
  · exact .next (.fryUp h)
  · exact .ite (.next (.modFerry h)) (.next (.ite (.fryUp h) (.fryFailed h)))
  · exact .next h

theorem Keeps.fryRetrain {m} (h : Keeps s₀ s) : Keeps s₀ (s.fryRetrain m) := .ite (.fryDown h) h

theorem Keeps.fryEnable {m} (h : Keeps s₀ s) : Keeps s₀ (s.fryEnable m) := .ite (.modFerry h) h

theorem KeepsOut.txnTimeout {line port} (h : Keeps s₀ s) : KeepsOut s₀ (execTxnTimeout line port s) := by
  unfold execTxnTimeout
  split
  · exact .next h
  · exact .next (.serveWaits (.event (.setMem (.backInvalidate (.setMem' (.countUp h) (.frame h.mem))) (.setPoison .refl))))

theorem KeepsOut.crossingTraining {port lanes0 lanes1} (h : Keeps s₀ s) : KeepsOut s₀ (execCrossingTraining port lanes0 lanes1 s) := by
  unfold execCrossingTraining
  refine .ite (.next h) ?_
  extract_lets
  split
  · exact .next (.xngState h)
  · exact .next (.ite (.xngState h) h)
  · exact .next (.ite h (.xngState h))
  · exact .next (.ite h (.xngState h))
  · exact .ite (.next (.xngState (.modXport h))) (.ite (.next (.xngState (.modXport h))) (.next (.xngState (.modXport h))))

theorem Keeps.exchange {pub} (h : Keeps s₀ s) : Keeps s₀ (s.exchange pub) := .foldl (fun _ _ h1 => .modXport h1) (.emit (.frame h))

theorem Keeps.dropKeys (h : Keeps s₀ s) : Keeps s₀ s.dropKeys := .foldl (fun _ _ h1 => .modXport h1) h

theorem Keeps.join {peer epoch claims span pub} (h : Keeps s₀ s) : Keeps s₀ (s.join peer epoch claims span pub) :=
  .foldl (fun _ _ h1 => .ite (.raise h1) (.modLinks h1))
      (.modLinks (.event (.foldl (fun _ _ h2 => .ite (.enterCmp h2) h2) (.modLinks (.ctlSet (.ctlSet (.exchange h)))))))

theorem Keeps.unsync {n} (h : Keeps s₀ s) : Keeps s₀ (s.unsync n) := .ctlMod h

theorem Keeps.closeGap (h : Keeps s₀ s) : Keeps s₀ s.closeGap :=
  .serveWaits (.foldl (fun _ _ h1 => .setMem (.backInvalidate (.setMem' (.countUp h1) (.frame h1.mem))) (.setPoison .refl)) h)

theorem Keeps.closeWindow (h : Keeps s₀ s) : Keeps s₀ s.closeWindow :=
  .setMem (.foldl (fun _ _ h1 => .setMem h1 (.setPoison .refl)) h) (.frame .refl)

theorem Keeps.dropPartner (h : Keeps s₀ s) : Keeps s₀ s.dropPartner :=
  .foldl (fun _ _ h1 => .ite (.setMem (.backInvalidate h1) (.setPoison .refl)) (.setMem h1 (.ite (.freeDir .refl) (.setDir .refl)))) h

theorem Keeps.fence {n} (h : Keeps s₀ s) : Keeps s₀ (s.fence n) := by
  unfold State.fence
  split
  · exact h
  · exact h
  · exact h
  · extract_lets
    split
    · exact .ite (.chtCancel (.enterCmp (.quiesce h))) (.enterCmp (.quiesce h))
    · exact .enterCmp (.quiesce h)

theorem Keeps.splitResult {t0 result} (h : Keeps s₀ s) : Keeps s₀ (s.splitResult t0 result) := by
  unfold State.splitResult
  extract_lets _ _ _ _ _ s1
  have h1 : Keeps s₀ s1 := .foldl (fun _ _ h2 => .unsync h2) (.modLinks (.event (.ctlMod h)))
  exact .ite (.ite (.closeWindow (.dropPartner (.closeWindow (.closeGap h1)))) (.closeWindow (.closeGap h1)))
      (.foldl (fun _ _ h3 => .fence h3) (.dropWindow (.closeWindow (.closeGap h1))))

theorem KeepsOut.split (h : Keeps s₀ s) : KeepsOut s₀ (execSplit s) := by
  unfold execSplit
  refine .ite (.next h) ?_
  extract_lets _ _ s1 s2
  have h1 : Keeps s₀ s1 := .foldl (fun _ _ h2 => .ctlMod h2) (.event (.ctlSet (.dropKeys h)))
  have h3 : Keeps s₀ s2 := by
    unfold s2
    split
    · exact .ite (.chtReverse h1) h1
    · exact h1
  exact .ite (.next (.modLinks h3)) (.next (.ctlSet (.modLinks h3)))

theorem Keeps.keeperFrame {stream payload} (h : Keeps s₀ s) : Keeps s₀ (s.keeperFrame stream payload) := by
  unfold State.keeperFrame
  split
  · exact h
  · exact .forward (.ite (.modNet h) h)

theorem KeepsOut.witnessQuery (h : Keeps s₀ s) : KeepsOut s₀ (execWitnessQuery s) := by
  unfold execWitnessQuery
  split
  · exact .next h
  · refine .ite (.next h) (.next ?_)
    split
    · exact .keeperFrame (.emit (.modLinks (.frame h)))
    · exact .emit (.modLinks (.frame h))

theorem KeepsOut.witnessAnswer (h : Keeps s₀ s) : KeepsOut s₀ (execWitnessAnswer s) := by
  unfold execWitnessAnswer
  split
  · exact .next h
  · extract_lets
    split
    · exact .ite (.next (.splitResult (.modNet h))) (.next (.xngViolation (.modNet h)))
    · exact .next (.xngViolation (.modNet h))

theorem KeepsOut.splitResultTimeout (h : Keeps s₀ s) : KeepsOut s₀ (execSplitResultTimeout s) := by
  unfold execSplitResultTimeout
  split
  · exact .next (.ite (.splitResult h) h)
  · exact .next h

theorem KeepsOut.takeover {cmp} (h : Keeps s₀ s) : KeepsOut s₀ (execTakeover cmp s) := by
  unfold execTakeover
  split
  · exact .ite (.next (.raise (.modLinks h))) (.next h)
  · exact .next h

end
end Sys2Proof.Machine
end

section
/-!
PROOF. Keeps: power and the security processor.
-/
namespace Sys2Proof.Machine

section
variable {s₀ s : State}

theorem Keeps.modPwr {f} (h : Keeps s₀ s) : Keeps s₀ (s.modPwr f) := .frame h

theorem Keeps.toStep {n} (h : Keeps s₀ s) : Keeps s₀ (s.toStep n) := .bootStep (.modPwr h)

theorem Keeps.bootStop {error} (h : Keeps s₀ s) : Keeps s₀ (s.bootStop error) := .event (.modPwr (.ctlMod h))

theorem Keeps.bootChecks (h : Keeps s₀ s) : Keeps s₀ s.bootChecks := .toStep (.modPwr (.ite (.event h) h))

theorem Keeps.bootSelftest {rng tags} (h : Keeps s₀ s) : Keeps s₀ (s.bootSelftest rng tags) :=
  .ite (.tamperReset h) (.toStep (.foldl (fun _ _ h1 => .event h1) (.frame h)))

theorem Keeps.afterRail (h : Keeps s₀ s) : Keeps s₀ s.afterRail := .ite (.toStep (.modPwr h)) h

theorem Keeps.bootFlash {header board fwA fwB} (h : Keeps s₀ s) : Keeps s₀ (s.bootFlash header board fwA fwB) := by
  unfold State.bootFlash
  extract_lets s1
  have h1 : Keeps s₀ s1 := .modHep (.ctlSet h)
  exact .ite (.bootStop h1) (.ite (.bootStop h1) (.ite (.afterRail (.modPwr (.frame (.ctlMod h1)))) (.toStep (.frame (.ctlMod h1)))))

theorem Keeps.bootDram {failed} (h : Keeps s₀ s) : Keeps s₀ (s.bootDram failed) :=
  .toStep (.modPwr (.modDram (.modDram (.setMem (.foldl (fun _ _ h1 => .ite (.setSub h1)
      (.ite h1 (.ite (.event (.setSub h1)) (.setSub h1)))) h) (.frame .refl)))))

theorem Keeps.bootTrained (h : Keeps s₀ s) : Keeps s₀ s.bootTrained := .ite h (.ite (.bootStop h) (.ite (.bootStop h) (.toStep h)))

theorem Keeps.slotFails {id code section_ step} (h : Keeps s₀ s) : Keeps s₀ (s.slotFails id code section_ step) :=
  .ite (.modPwr (.toStep (.event (.ctlSet h)))) (.event (.modPwr (.ctlMod (.toStep (.event (.ctlSet h))))))

theorem Keeps.takeChart {c src} (h : Keeps s₀ s) : Keeps s₀ (s.takeChart c src) := .toStep (.modPwr (.ctlMod h))

theorem Keeps.bootContainer {o} (h : Keeps s₀ s) : Keeps s₀ (s.bootContainer o) := by
  unfold State.bootContainer
  refine .ite h (.ite (.slotFails (.modPwr h)) ?_)
  split
  · exact .slotFails h
  · exact .takeChart h

theorem Keeps.bootLoad (h : Keeps s₀ s) : Keeps s₀ s.bootLoad := by
  unfold State.bootLoad
  split
  · exact h
  · split
    · exact .ite (.toStep (.modPwr (.frame (.ctlSet h)))) (.slotFails (.ctlSet h))
    · exact .toStep (.modPwr (.loadChart h))

theorem Keeps.bootNext (h : Keeps s₀ s) : Keeps s₀ s.bootNext := by
  unfold State.bootNext
  split
  · exact .bootTrained h
  · split
    · exact .takeChart h
    · exact h
  · exact .bootLoad h
  · exact .ite (.switchSet h) (.toStep (.switchSet h))
  · exact .afterDown (.modPwr (.bootDone (.raiseAll h)))
  · exact h

theorem KeepsOut.bootStep {found} (h : Keeps s₀ s) : KeepsOut s₀ (execBootStep found s) := by
  unfold execBootStep
  refine .ite (.next h) ?_
  split
  · exact .next (.ite (.bootChecks h) h)
  · exact .next (.ite (.bootSelftest h) h)
  · exact .next (.ite (.bootFlash h) h)
  · exact .next (.ite (.bootDram h) h)
  · exact .next (.ite (.bootContainer h) h)
  · exact .next (.ite (.bootNext h) h)

theorem Keeps.parkDue (h : Keeps s₀ s) : Keeps s₀ s.parkDue := .ite (.modPwr (.foldl (fun _ _ h1 => .ite (.ctlMod h1) h1) h)) h

theorem Keeps.parkWrite (h : Keeps s₀ s) : Keeps s₀ s.parkWrite := .ite h (.parkDue (.modPwr h))

theorem Keeps.parkExit {cause} (h : Keeps s₀ s) : Keeps s₀ (s.parkExit cause) := .event (.bootStep (.modPwr (.ctlSet (.frame h))))

theorem Keeps.sendEligible {p n} (h : Keeps s₀ s) : Keeps s₀ (s.sendEligible p n) := by
  induction n generalizing s with
  | zero => exact h
  | succ n ih => exact .ite h (ih (.select (.setPort h)))

theorem Keeps.parkEnter (h : Keeps s₀ s) : Keeps s₀ s.parkEnter := by
  have hexit : ∀ (cause : Option Nat) (s : State), Keeps s₀ s → Keeps s₀ (match cause with | some c => s.parkExit c | none => s)
    | some _, _, h => .parkExit h
    | none, _, h => h
  unfold State.parkEnter
  exact hexit _ _ (.modPwr (.frame (.foldl (fun _ _ h => .ite h (.setSub h)) (.withMem (.event (.foldl (fun _ _ h => .emit h)
    (.linkLost (.foldl (fun _ _ h => .sendEligible h) (.foldl (fun _ _ h => .mftEnd h) (.foldl (fun _ _ h => .enterCmp (.quiesce h)) h))))))
    (.ofStores (.dramOnly (.flushAll .refl)))))))

theorem Keeps.wakeEvent {cause} (h : Keeps s₀ s) : Keeps s₀ (s.wakeEvent cause) := by
  unfold State.wakeEvent
  split
  · exact .parkExit h
  · exact .ite (.modPwr h) h
  · exact h

theorem Keeps.groveDown {g} (h : Keeps s₀ s) : Keeps s₀ (s.groveDown g) := by
  unfold State.groveDown
  exact .foldl (fun _ _ h1 => .modFerry h1) (.setUst (.frame (.setMem h (.ofStores (.dropWays .refl)))))

theorem Keeps.grvrst {g} (h : Keeps s₀ s) : Keeps s₀ (s.grvrst g) := .ite (.modPwr (.groveDown (.ctlMod h))) (.ctlMod h)

theorem Keeps.crstWrite {k v} (h : Keeps s₀ s) : Keeps s₀ (s.crstWrite k v) := by
  unfold State.crstWrite
  refine .ite (.ctlMod h) ?_
  extract_lets s1
  have h1 : Keeps s₀ s1 := .ctlMod h
  exact .ite (.ite (.modCore h1) h1) (.modPwr (.ite (.modCore h1) h1))

theorem Keeps.coreReset {k} (h : Keeps s₀ s) : Keeps s₀ (s.coreReset k) := by
  unfold State.coreReset
  split
  · exact .modPwr h
  · exact .ctlMod (.modPwr (.modCore (.coldCore (.setMem (.drainNow h) (.frame .refl)))))

theorem Keeps.tick (h : Keeps s₀ s) : Keeps s₀ s.tick := .parkDue (.frame h)

theorem Keeps.modSec {f} (h : Keeps s₀ s) : Keeps s₀ (s.modSec f) := .frame h

theorem Keeps.secOp {op slot fused} (h : Keeps s₀ s) : Keeps s₀ (s.secOp op slot fused) := by
  unfold State.secOp
  refine .ite h ?_
  extract_lets s1
  have h1 : Keeps s₀ s1 := .ctlSet h
  refine .ite ?_ (.foldl (fun _ _ h2 => .ctlSet h2) (.ctlSet (.frame h1)))
  split
  · exact .ite (.ctlMod h1) (.raiseSvn h1)
  · exact .raiseSvn h1

theorem Keeps.secRow {op slot fused} (h : Keeps s₀ s) : Keeps s₀ (s.secRow op slot fused) := .ite h (.ite (.ctlMod h) (.secOp h))

theorem Keeps.newChallenge (h : Keeps s₀ s) : Keeps s₀ s.newChallenge := .foldl (fun _ _ h1 => .ctlSet h1) (.frame h)

theorem Keeps.zeroise (h : Keeps s₀ s) : Keeps s₀ s.zeroise := by
  unfold State.zeroise
  exact .withMem (.foldl (fun _ _ h1 => .modXport h1) h) (.rekeyAll .refl)

theorem Keeps.packageDebug (h : Keeps s₀ s) : Keeps s₀ s.packageDebug :=
  .foldl (fun _ _ h1 => .ite (.enterCmp (.quiesce h1)) h1) (.ctlMod (.modSec (.zeroise h)))

theorem Keeps.grant {level} (h : Keeps s₀ s) : Keeps s₀ (s.grant level) := by
  unfold State.grant
  exact .newChallenge (.event (.ctlSet (.ctlSet (.ite (.packageDebug h) h))))

theorem Keeps.submit (h : Keeps s₀ s) : Keeps s₀ s.submit := .ite h (.ite (.grant h) (.event (.modSec (.ctlInc h))))

theorem Keeps.dbgResume {k} (h : Keeps s₀ s) : Keeps s₀ (s.dbgResume k) := .ite (.modCore h) h

theorem Keeps.dbgClose (h : Keeps s₀ s) : Keeps s₀ s.dbgClose := .foldl (fun _ _ h1 => .dbgResume h1) (.ctlSet (.ctlSet (.frame h)))

end
end Sys2Proof.Machine
end

section
/-!
PROOF. Keeps: register accesses and debug.
-/
namespace Sys2Proof.Machine

section
variable {s₀ s t : State}

theorem Keeps.readAct {who l ix} (h : Keeps s₀ s) : Keeps s₀ (s.readAct who l ix) := by
  unfold State.readAct
  split
  · exact .ite (.frame h) h
  · exact .ite (.ctlMod h) h
  · exact .ite (.modNet h) h
  · exact .ite (.modHep h) h
  · split
    · exact .teventRead h
    · exact h
  · exact .ite (.frame h) (.ite (.frame h) h)
  · exact h

theorem KeepsPair.ctlRead {who off} (h : Keeps s₀ s) : KeepsPair s₀ (s.ctlRead who off) := by
  unfold State.ctlRead
  split
  · exact .mk h
  · split
    · exact .mk h
    · refine .ite (.mk h) ?_
      extract_lets s1
      have h1 : Keeps s₀ s1 := .ite (.newChallenge h) h
      exact .mk (.readAct (.ite (.ite (.countUp h1) h1) (.ctlMod (.ite (.countUp h1) h1))))

theorem Keeps.viewError {l cmp off} (h : Keeps s₀ s) : Keeps s₀ (s.viewError l cmp off) := by
  unfold State.viewError
  extract_lets s1
  have h1 : Keeps s₀ s1 := by
    unfold s1
    split
    · exact .ctlInc h
    · exact h
  exact .event h1

theorem Keeps.setWrej {l} (h : Keeps s₀ s) : Keeps s₀ (s.setWrej l) := by
  unfold State.setWrej
  split
  · exact .ctlMod h
  · exact h

theorem Keeps.regStore {l r unpriv v} (h : Keeps s₀ s) : Keeps s₀ (s.regStore l r unpriv v) := .ite (.ctlSet h) (.ctlMod h)

theorem Keeps.qmWrite {who l v} (h : Keeps s₀ s) : Keeps s₀ (s.qmWrite who l v) := by
  unfold State.qmWrite
  refine .ite (.ite (.frame h) (.bellRefused h)) (.ite h (.ite ?_ ?_))
  · split
    · exact .qEnable h
    · exact .qDisable h
    · exact .qRearm h
    · exact .qHalt h
    · exact h
  · refine .ite h (.ite (.setWrej h) ?_)
    split
    · exact .modQueue h
    · exact h

theorem Keeps.ackWrite (h : Keeps s₀ t) : Keeps s₀ (s.ackWrite t) :=
  .intaSync (.ite (.irq (.ite h (.ctlMod (.modHep h)))) (.ite h (.ctlMod (.modHep h))))

theorem Keeps.mftWrite {l i v} (h : Keeps s₀ s) (ht : Keeps s₀ t) : Keeps s₀ (s.mftWrite t l i v) := by
  unfold State.mftWrite
  refine .ite (.ite ht ?_) (.ite (.mftSpace (.ite (.mftEnd ht) ht)) (.ite (.ridxWrite h) ht))
  split
  · exact .mftArm ht
  · exact .mftDisarm ht
  · exact ht

theorem Keeps.secWrite {l i v} (h : Keeps s₀ s) (ht : Keeps s₀ t) : Keeps s₀ (s.secWrite t l i v) :=
  .ite (.ite (.secOp h) ht) (.ite (.modSec h) ht)

theorem Keeps.pwrWrite {l v} (h : Keeps s₀ s) (ht : Keeps s₀ t) : Keeps s₀ (s.pwrWrite t l v) :=
  .ite (.ite (.warmrst h) (.ite (.parkWrite h) h)) (.ite (.ite (.grvrst ht) (.grvrst h)) ht)

theorem Keeps.hepfWrite {who l i v} (h : Keeps s₀ s) (ht : Keeps s₀ t) : Keeps s₀ (s.hepfWrite t who l i v) :=
  .ite (.wselWrite h) (.ite (.modHep h) (.ite (.wcfgWrite h) (.ite (.irq h) ht)))

theorem Keeps.l3Write {who l v} (h : Keeps s₀ s) (ht : Keeps s₀ t) : Keeps s₀ (s.l3Write t who l v) := by
  unfold State.l3Write
  refine .ite (.ite (.rangeGo (.ite (.rangeAbort h) h)) ?_) ht
  extract_lets
  split
  · exact .ctlMod (.ite (.rangeAbort ht) ht)
  · exact .ite (.rangeAbort ht) ht

theorem Keeps.pmuWrite {l i v} (h : Keeps s₀ s) (ht : Keeps s₀ t) : Keeps s₀ (s.pmuWrite t l i v) :=
  .ite (.ite (.ctlSet (.frame ht)) (.frame ht)) (.ite (.ctlSet h) ht)

theorem Keeps.dbgPc {k l v} (h : Keeps s₀ s) : Keeps s₀ (s.dbgPc k l v) := .ite (.setWrej h) (.modCore h)

theorem Keeps.writeAct {who l ix v} (h : Keeps s₀ s) (ht : Keeps s₀ t) : Keeps s₀ (s.writeAct t who l ix v) := by
  unfold State.writeAct
  refine .ite ?_ ?_
  · split
    · exact .ite (.qmWrite h) ht
    · exact .doorbell h
    · exact .ite h ht
    · exact ht
  · split
    · exact .ite (.chtWrite h) (.ite h ht)
    · exact .mftWrite h ht
    · exact .ite (.ackWrite ht) ht
    · exact .secWrite h ht
    · exact .pwrWrite h ht
    · exact .ite (.qmWrite h) ht
    · exact .doorbell h
    · exact .ite (.ite (.engResume h) (.ite (.engDiscard h) h)) ht
    · exact .ite (.macInstall ht) ht
    · exact .ite (.intaSync ht) ht
    · exact .hepfWrite h ht
    · exact .ite (.ite (.ipiSet ht) ht) (.ite (.crstWrite h) ht)
    · exact .ite (.ite (.fryEnable (.ite (.fryRetrain h) h)) (.ite (.fryRetrain h) h)) ht
    · exact .l3Write h ht
    · exact .ite (.ite (.discardParked (.ite (.setUst h) h)) (.ite (.setUst h) h)) ht
    · exact .pmuWrite h ht
    · split
      · exact .ite (.dbgPc h) ht
      · exact ht
    · exact .ite (.ite (.dbgClose (.ite (.submit h) h)) (.ite (.submit h) h)) ht
    all_goals exact ht

theorem Keeps.ctlWrite0 {who off v} (h : Keeps s₀ s) : Keeps s₀ (s.ctlWrite0 who off v) := by
  unfold State.ctlWrite0
  split
  · exact h
  · split
    · exact h
    · extract_lets _ _ s1
      have h1 : Keeps s₀ s1 := .ite (.viewError (.ite (.countUp h) h)) (.ite (.countUp h) h)
      exact .ite (.ctlInc h1) (.ite (.setWrej h1) (.ite (.slotWritten (.writeAct h1 (.regStore h1))) (.writeAct h1 (.regStore h1))))

theorem Keeps.dbgRej {k} (h : Keeps s₀ s) : Keeps s₀ (s.dbgRej k) := .ctlMod h

theorem Keeps.dbgStop {k} (h : Keeps s₀ s) : Keeps s₀ (s.dbgStop k) := by
  unfold State.dbgStop
  exact .modCore (.ite (.stopAt (.frame h)) (.frame h))

theorem Keeps.dbgHalt {k} (h : Keeps s₀ s) : Keeps s₀ (s.dbgHalt k) := .ite h (.ite (.dbgStop h) (.ite h (.frame h)))

theorem Keeps.dbgRun {k} (h : Keeps s₀ s) : Keeps s₀ (s.dbgRun k) := .ite (.dbgResume h) (.dbgRej h)

theorem Keeps.dbgStepGo {k} (h : Keeps s₀ s) : Keeps s₀ (s.dbgStepGo k) := .ite (.modCore h) (.dbgRej h)

theorem Keeps.dbgReg {k space idx v x write} (h : Keeps s₀ s) (e : s.dbgReg k space idx write v = .ok (t, x)) : Keeps s₀ t := by
  unfold State.dbgReg at e
  extract_lets c word put at e
  have hput : ∀ f, Keeps s₀ (put f) := fun f => .ite (.modCore h) h
  clear_value put
  split at e
  · split at e <;> cases e
    exact hput _
  · split at e <;> cases e
    exact hput _
  · split at e
    · cases e
    · split at e
      · split at e <;> cases e
        exact hput _
      · cases e
        exact h
  · split at e
    · cases e
    · split at e <;> cases e
      · exact .ite h (.csPut h)
      · exact .fst (.csRead h)
  · split at e
    · cases e
      exact hput _
    · split at e <;> cases e
      exact hput _

theorem KeepsPair.dbgWord {k pa write v ctlW} (hctlW : ∀ s a0 a1, Keeps s₀ s → Keeps s₀ (ctlW s a0 a1)) (h : Keeps s₀ s) :
    KeepsPair s₀ (s.dbgWord k pa write v ctlW) := by
  unfold State.dbgWord
  split
  · exact .ite (.mk (.modCore h)) (.mk h)
  · exact .ite (.mk (hctlW _ _ _ h)) (.mk (.fst (.ctlRead h)))
  · exact .ite (.mk (.acceptEntry h)) (.mk h)

theorem KeepsPair.dbgTranslate {k kind space la} (h : Keeps s₀ s) : KeepsPair s₀ (s.dbgTranslate k kind space la) := by
  unfold State.dbgTranslate
  refine .ite (.mk h) ?_
  extract_lets _ _ s1
  have h1 : KeepsPair s₀ s1 := by
    unfold s1
    split
    next e1 => exact .mk (.ofPair (.translateIn (.modCore h)) e1)
    next e1 => exact .mk (.ofPair (.translateIn (.modCore h)) e1)
    next e1 => exact .walkFill (.foldl (fun _ _ h2 => .gainTable h2) (.ofPair (.translateIn (.modCore h)) e1))
  exact .mk (.modCore (.fst h1))

theorem Keeps.dbgAgo {k ctlW} (hctlW : ∀ s a0 a1, Keeps s₀ s → Keeps s₀ (ctlW s a0 a1)) (h : Keeps s₀ s) : Keeps s₀ (s.dbgAgo k ctlW) := by
  unfold State.dbgAgo
  refine .ite (.dbgRej h) ?_
  dsimp only
  split
  · exact .ctlMod h
  next t x e =>
    have h1 : Keeps s₀ t := by
      split at e
      · exact .dbgReg h e
      · split at e
        · cases e
        · split at e
          · cases e
          next e1 =>
            have h2 := Keeps.ofPair (.dbgTranslate h) e1
            split at e
            · cases e
            · injection e with e
              exact .ofPair (.dbgWord hctlW h2) e
    exact .ite (.ctlMod h1) (.ctlSet (.ctlSet (.ctlSet (.ctlMod h1))))

theorem Keeps.dbgCtrl {k v ctlW} (hctlW : ∀ s a0 a1, Keeps s₀ s → Keeps s₀ (ctlW s a0 a1)) (h : Keeps s₀ s) :
    Keeps s₀ (s.dbgCtrl k v ctlW) := by
  unfold State.dbgCtrl
  extract_lets _ s1
  have h1 : Keeps s₀ s1 := .ite (.dbgRun (.ite (.dbgHalt h) h)) (.ite (.dbgHalt h) h)
  exact .ite (.dbgAgo (fun _ _ _ h2 => hctlW _ _ _ h2) (.ite (.dbgStepGo h1) h1)) (.ite (.dbgStepGo h1) h1)

theorem Keeps.dbgDo {jtag core f} (hf : ∀ s, Keeps s₀ s → Keeps s₀ (f s)) (h : Keeps s₀ s) : Keeps s₀ (s.dbgDo jtag core f) :=
  .ite h (.ite (.ctlInc h) (hf _ h))

theorem Keeps.ctlWrite {who off v} (h : Keeps s₀ s) : Keeps s₀ (s.ctlWrite who off v) := by
  unfold State.ctlWrite
  extract_lets s1
  have h1 : Keeps s₀ s1 := .ctlWrite0 h
  split
  · split
    · exact .ite (.dbgCtrl (fun _ _ _ h2 => .ctlWrite0 h2) h1) h1
    · exact h1
  · exact h1

end
end Sys2Proof.Machine
end

section
/-!
PROOF. Keeps: computing and memory instructions, and time.
-/
namespace Sys2Proof.Machine

section
variable {s₀ s t : State}

theorem Keeps.uorder {k ctx} (h : Keeps s₀ s) : Keeps s₀ (s.uorder k ctx) := by
  unfold State.uorder
  extract_lets
  split
  · exact h
  · refine .ite h ?_
    extract_lets _ _ s1
    have h1 : Keeps s₀ s1 := .setSess h
    refine .ite ?_ (.ite h1 (.mftEvent h1))
    split
    · exact .ite (.mftTake h1) h1
    · exact h1

theorem KeepsOut.ustAccept {grove ctx slot} (h : Keeps s₀ s) : KeepsOut s₀ (execUstAccept grove ctx slot s) := by
  unfold execUstAccept
  refine .ite (.next h) ?_
  split
  · exact .next h
  · exact .ite (.next h) (.next (.modCore (.ite (.passCycles h) (.count (.passCycles h)))))

theorem Keeps.acceptX {x w e} (h : Keeps s₀ s) : Keeps s₀ (s.acceptX x w e) :=
  .count (.ucount (.modCore (.fst (.xPerform (.setUst (.uorder h))))))

theorem KeepsOut.xOperation {x w} (h : Keeps s₀ s) : KeepsOut s₀ (execXOperation x w s) := by
  unfold execXOperation
  refine .issue (fun _ h1 => ?_) h
  split
  · exact .done (.acceptX (.landForRoom h1))
  · exact .hold h1

theorem KeepsOut.ustLanding {core late} (h : Keeps s₀ s) : KeepsOut s₀ (execUstLanding core late s) := by
  unfold execUstLanding
  split
  · exact .next h
  · refine .ite (.next h) (.ite ?_ (.next (.passTo h)))
    extract_lets
    split
    · exact .ite (.next (.passTo (.landX (.passTo h)))) (.next (.passTo h))
    · exact .next (.passTo h)

theorem KeepsPair.resolve {k w} (h : Keeps s₀ s) : KeepsPair s₀ (s.resolve k w) := by
  unfold State.resolve
  extract_lets
  split
  · exact .mk h
  · split
    · exact .mk h
    · split
      next e1 =>
        extract_lets s1
        have h1 : Keeps s₀ s1 := .freezeFor (.ofPair (.access h) e1)
        split
        · exact .mk h1
        · exact .mk h1
        · refine .ite ?_ (.mk h1)
          split
          next e2 =>
            extract_lets s2
            have h2 : Keeps s₀ s2 := .freezeFor (.ofPair (.access h1) e2)
            split
            · exact .mk h2
            · exact .mk h2
            · exact .ite (.mk h2) (.mk h2)

theorem Keeps.offerFor {k kind pa} (h : Keeps s₀ s) : Keeps s₀ (s.offerFor k kind pa) := .ite (.offer h) h

theorem Keeps.await {k kind pa} (h : Keeps s₀ s) : Keeps s₀ (s.await k kind pa) := .ite (.joinHome h) h

theorem Keeps.sramRead {row g pa syn} (h : Keeps s₀ s) : Keeps s₀ (s.sramRead row g pa syn) := by
  unfold State.sramRead
  extract_lets
  split
  · exact h
  · exact .event h
  · exact .ite (.event h) (.setMem' (.event h) (.setPoison h.mem))

theorem Keeps.servedFrom {k kind pa cls syn retry} (h : Keeps s₀ s) : Keeps s₀ (s.servedFrom k kind pa cls syn retry) := by
  unfold State.servedFrom
  extract_lets line g cmp s1 home s2 s3
  have hhome : ∀ s, Keeps s₀ s → Keeps s₀ (home s) := by
    intro s h
    unfold home
    split
    · exact .ucount h
    · exact h
  clear_value home
  have h1 : Keeps s₀ s1 := .ucount h
  have h2 : Keeps s₀ s2 := hhome _ (.ucount h1)
  have h3 : Keeps s₀ s3 := by
    unfold s3
    split
    · exact .dramRead (.openRow h2)
    · exact h2
  split
  · exact .sramRead (.count (.ite (hhome _ (.ucount h1)) h1))
  · exact .ite (.sramRead (.count h2)) (.count h3)

theorem Keeps.serve {k kind device pa syn retry} (h : Keeps s₀ s) : Keeps s₀ (s.serve k kind device pa syn retry) := by
  unfold State.serve
  extract_lets _ _ _ _ _ _ s1 _ s2
  have h1 : Keeps s₀ s1 := .ite (.count (.fst (.complete h))) (.fst (.complete h))
  have h2 : Keeps s₀ s2 := .ite (.servedFrom h1) (.sramRead h1)
  split
  · exact h1
  · exact h1
  · extract_lets s3
    have h3 : Keeps s₀ s3 := .ite (.count h1) (.sramRead (.ucount (.count h1)))
    exact .ite h3 (.count h3)
  · extract_lets _ _ s4 _ s5
    have h4 : Keeps s₀ s4 := .ite h2 (.ite (.gainOwn (.clearRes h2)) (.gainShared h2))
    have h5 : Keeps s₀ s5 := .ite (.setMem (.ite (.takeCls h4) h4) (.setPoison .refl)) (.ite (.takeCls h4) h4)
    exact .ite h5 (.modCore h5)

theorem KeepsRes.poisonTrap {k a pa} (h : Keeps s₀ s) : KeepsRes s₀ (Machine.poisonTrap k a pa s) := .trap (.event h)

theorem Keeps.markParts {k a size isWrite} (h : Keeps s₀ s) : Keeps s₀ (s.markParts k a size isWrite) :=
  .foldl (fun _ _ h1 => .ite h1 (.mftMark h1)) h

theorem KeepsRes.loadDo {k w a} (h : Keeps s₀ s) : KeepsRes s₀ (s.loadDo k w a) := by
  unfold State.loadDo
  extract_lets
  split
  · split
    next e1 => exact .done (.ofPair (.ite (.nondet h) (.nondet (.fst (.ctlRead h)))) e1)
  · split
    · exact .poisonTrap h
    · exact .done (.markParts h)

theorem KeepsRes.ldsgDo {k w a} (h : Keeps s₀ s) : KeepsRes s₀ (s.ldsgDo k w a) := by
  unfold State.ldsgDo
  split
  · exact .poisonTrap h
  · extract_lets
    split
    · exact .trap (.markParts h)
    · exact .ite (.trap (.markParts h)) (.done (.markParts h))

theorem Keeps.storeItem {k pa size v} (h : Keeps s₀ s) : Keeps s₀ (s.storeItem k pa size v) :=
  .ite (.mftItem (.mftItem (.mftItem (.mftItem h)))) (.mftItem (.mftItem h))

theorem Keeps.writeNow {k pa bs} (h : Keeps s₀ s) : Keeps s₀ (s.writeNow k pa bs) := .acceptEntry h

theorem KeepsRes.storeDo {k w a} (h : Keeps s₀ s) : KeepsRes s₀ (s.storeDo k w a) := by
  unfold State.storeDo
  extract_lets
  split
  · exact .done (.ite (.storeItem h) (.ctlWrite (.storeItem h)))
  · split
    · exact .freeze (.count h)
    · exact .done (.foldl (fun _ _ h1 => .ite (.modCore h1) (.ite (.writeNow h1) h1)) (.modCore (.storeItem h)))

theorem KeepsRes.lrDo {k w a} (h : Keeps s₀ s) : KeepsRes s₀ (s.lrDo k w a) := by
  unfold State.lrDo
  split
  · exact .poisonTrap h
  · exact .done (.modCore (.markParts (.clearRes h)))

theorem Keeps.noRes {k} (h : Keeps s₀ s) : Keeps s₀ (s.noRes k) := .modCore h

theorem KeepsRes.scDo {k a} (h : Keeps s₀ s) : KeepsRes s₀ (s.scDo k a) :=
  .ite (.done (.noRes (.writeNow (.storeItem h)))) (.done (.noRes (.fst (.nondet (.count h)))))

theorem KeepsRes.tasDo {k w a} (h : Keeps s₀ s) : KeepsRes s₀ (s.tasDo k w a) := by
  unfold State.tasDo
  split
  · exact .poisonTrap h
  · exact .done (.noRes (.writeNow (.storeItem (.markParts h))))

theorem KeepsRes.perform {k w a} (h : Keeps s₀ s) : KeepsRes s₀ (s.perform k w a) := by
  unfold State.perform
  split
  · exact .storeDo h
  · exact .lrDo h
  · exact .scDo h
  · exact .tasDo h
  · exact .ite (.ldsgDo h) (.loadDo h)

theorem Keeps.missCount {k kind a pa} (h : Keeps s₀ s) : Keeps s₀ (s.missCount k kind a pa) := .ite (.count h) h

theorem KeepsRes.attempt {k w a} (h : Keeps s₀ s) : KeepsRes s₀ (s.attempt k w a) := by
  unfold State.attempt
  extract_lets
  split
  · exact .perform h
  · exact .freeze (.count (.modCore h))
  · exact .freeze (.ite (.asDevice (.offerFor (.missCount h))) (.offerFor (.missCount h)))

theorem KeepsRes.memBody {k w} (h : Keeps s₀ s) : KeepsRes s₀ (Machine.memBody k w s) := by
  unfold Machine.memBody
  split
  next e1 => exact .trap (.ofPair (.resolve h) e1)
  next e1 => exact .freeze (.ofPair (.resolve h) e1)
  next e1 =>
    have h1 := Keeps.ofPair (.resolve h) e1
    exact .ite (.hold (.ite (.modCore h1) h1)) (.attempt (.ite (.modCore h1) h1))

theorem KeepsOut.memOp {n x w} (h : Keeps s₀ s) : KeepsOut s₀ (Machine.memOp n x w s) := .issue (fun _ h1 => .memBody h1) h

theorem Keeps.prefDo {k w} (h : Keeps s₀ s) : Keeps s₀ (s.prefDo k w) := by
  unfold State.prefDo
  refine .ite (.count h) ?_
  split
  · exact .count h
  · exact .modCore h

theorem KeepsRes.cmoBody {k w} (h : Keeps s₀ s) : KeepsRes s₀ (Machine.cmoBody k w s) := by
  unfold Machine.cmoBody
  refine .ite (.trap h) ?_
  extract_lets
  split
  next e1 => exact .trap (.freezeFor (.ofPair (.access h) e1))
  next e1 => exact .freeze (.freezeFor (.ofPair (.access h) e1))
  next e1 =>
    extract_lets s1
    have h1 : Keeps s₀ s1 := .modCore (.freezeFor (.ofPair (.access h) e1))
    exact .ite (.done h1) (.ite (.freeze (.count h1)) (.ite (.hold (.modCore h1)) (.done (.cmoLine h1))))

theorem Keeps.thaw {k f body} (hbody : ∀ s, Keeps s₀ s → KeepsRes s₀ (body s)) (h : Keeps s₀ s) : Keeps s₀ (s.thaw k f body) := by
  unfold State.thaw
  exact .finish (hbody _ (.modCore h))

theorem Keeps.stall {k n pad since bubbles} (h : Keeps s₀ s) : Keeps s₀ (s.stall k n pad since bubbles) := by
  unfold State.stall
  refine .ite (.ite (.advance (.cycles h)) (.freezeFor h)) ?_
  extract_lets _ s1
  have h1 : Keeps s₀ s1 := .ite (.advance (.cycles h)) (.freezeFor h)
  exact .ite h1 (.event (.count (.count h1)))

theorem Keeps.missTime {k kind a pa n} (h : Keeps s₀ s) : Keeps s₀ (s.missTime k kind a pa n) := .stall h

theorem KeepsPair.readsOffered {k eas} (h : Keeps s₀ s) : KeepsPair s₀ (s.readsOffered k eas) := by
  unfold State.readsOffered
  extract_lets s1
  have h1 : Keeps s₀ s1 := .foldl (fun _ _ h2 => .offerFor h2) h
  exact .mk (.ite (.foldl (fun _ _ h3 => .await h3) h1) h1)

theorem Keeps.readsServed {k syn retry eas} (h : Keeps s₀ s) : Keeps s₀ (s.readsServed k syn retry eas) := by
  induction eas generalizing s syn retry with
  | nil => exact h
  | cons ea eas ih =>
    unfold State.readsServed
    exact ih (.serve h)

theorem KeepsRes.frozenBody {k w} (h : Keeps s₀ s) : KeepsRes s₀ (Machine.frozenBody k w s) := by
  unfold Machine.frozenBody
  split
  · exact .cmoBody h
  · exact .memBody h

theorem Keeps.walkServed {k f la since n syn retry} (h : Keeps s₀ s) : Keeps s₀ (s.walkServed k f la since n syn retry) := by
  unfold State.walkServed
  extract_lets
  split
  next e1 =>
    have h1 := Keeps.ofPair (.readsOffered h) e1
    refine .ite h1 ?_
    extract_lets
    split
    next e2 =>
      have h2 := Keeps.ofPair (.walkFill (.readsServed (.stall h1))) e2
      exact .thaw (fun _ h3 => .trap h3) (.ite (.purge h2) h2)
    next e2 => exact .thaw (fun _ h4 => .frozenBody h4) (.ofPair (.walkFill (.readsServed (.stall h1))) e2)

theorem Keeps.missServed {k f a line n syn retry} (h : Keeps s₀ s) : Keeps s₀ (s.missServed k f a line n syn retry) :=
  .ite (.thaw (fun _ h1 => .attempt h1) (.withdraw (.missTime h)))
      (.ite (.await (.offerFor h)) (.ite (.offerFor h) (.finishFill (.thaw (fun _ h2 => .attempt h2) (.serve (.missTime (.offerFor h)))))))

theorem Keeps.overlapServed {k f a line n} (h : Keeps s₀ s) : Keeps s₀ (s.overlapServed k f a line n) := by
  unfold State.overlapServed
  exact .ite (.thaw (fun _ h1 => .attempt h1) (.freezeFor h)) (.thaw (fun _ h2 => .attempt h2) (.serve (.freezeFor h)))

theorem Keeps.prefServed {k syn retry} (h : Keeps s₀ s) : Keeps s₀ (s.prefServed k syn retry) := by
  unfold State.prefServed
  split
  · exact h
  · extract_lets
    split
    next e1 => exact .count (.modCore (.ofPair (.translateIn h) e1))
    next e1 =>
      split
      next e2 =>
        have h1 := Keeps.ofPair (.readsOffered (.ofPair (.translateIn h) e1)) e2
        refine .ite h1 ?_
        split
        next e3 => exact .count (.modCore (.ofPair (.walkFill (.readsServed h1)) e3))
        next e3 => exact .ofPair (.walkFill (.readsServed h1)) e3
    next e1 =>
      have h2 := Keeps.ofPair (.translateIn h) e1
      exact .ite (.count (.modCore h2)) (.ite (.modCore h2) (.ite (.await (.offerFor h2)) (.modCore (.serve (.offerFor h2)))))

theorem KeepsOut.loadMissFill {core cycles syn retry} (h : Keeps s₀ s) : KeepsOut s₀ (execLoadMissFill core cycles syn retry s) := by
  unfold execLoadMissFill
  extract_lets
  split
  · exact .next (.prefServed h)
  · exact .next h
  · refine .ite (.next h) ?_
    split
    · exact .next (.walkServed h)
    · exact .next (.missServed h)
    · exact .ite (.next h) (.next (.overlapServed h))
    · exact .ite (.next h) (.next (.thaw (fun _ h1 => .attempt h1) (.freezeFor h)))
    · exact .ite (.next h) (.next (.thaw (fun _ h2 => .cmoBody h2) (.freezeFor h)))
    · exact .next h

theorem Keeps.fetchServed {k la since n syn retry} (h : Keeps s₀ s) : Keeps s₀ (s.fetchServed k la since n syn retry) := by
  unfold State.fetchServed
  extract_lets
  split
  · exact .preFault (.modCore (.ite (.purge h) h))
  · split
    next e1 =>
      have h1 := Keeps.ofPair (.readsOffered h) e1
      refine .ite h1 ?_
      extract_lets
      split
      next e2 =>
        have h2 := Keeps.ofPair (.walkFill (.readsServed (.stall h1))) e2
        exact .preFault (.modCore (.ite (.purge h2) h2))
      next e2 => exact .modCore (.ofPair (.walkFill (.readsServed (.stall h1))) e2)
  · exact .ite (.await (.offerFor h)) (.modCore (.modCore (.count (.serve (.stall (.offerFor h))))))

theorem Keeps.fetchAhead {k la syn retry} (h : Keeps s₀ s) : Keeps s₀ (s.fetchAhead k la syn retry) := by
  unfold State.fetchAhead
  refine .ite h ?_
  extract_lets x eas walked
  have hw : ∀ t p, walked = some (t, p) → Keeps s₀ t := by
    intro t p e
    unfold walked at e
    split at e
    · cases e
    next e1 =>
      cases e
      exact .ofPair (.translateIn h) e1
    next e1 =>
      have h1 := Keeps.ofPair (.translateIn h) e1
      split at e
      next e2 =>
        have h2 := Keeps.ofPair (.readsOffered h1) e2
        split at e
        · cases e
          exact h2
        · split at e
          next e3 =>
            cases e
            exact .ofPair (.walkFill (.readsServed h2)) e3
          next e3 =>
            cases e
            exact .ofPair (.walkFill (.readsServed h2)) e3
  clear_value walked
  match walked, hw with
  | none, _ => exact h
  | some (t, none), hw => exact hw _ _ rfl
  | some (t, some p), hw =>
    have h1 : Keeps s₀ t := hw _ _ rfl
    exact .ite h1 (.ite (.await (.offerFor h1)) (.modCore (.serve (.offerFor h1))))

theorem KeepsOut.fetchLineFill {core la fill} (h : Keeps s₀ s) : KeepsOut s₀ (execFetchLineFill core la fill s) := by
  unfold execFetchLineFill
  refine .ite (.next h) ?_
  split
  · exact .ite (.next (.fetchServed h)) (.next (.fetchAhead h))
  · exact .next (.fetchAhead h)

theorem KeepsOut.mbIdleTimeout {core line} (h : Keeps s₀ s) : KeepsOut s₀ (execMbIdleTimeout core line s) := by
  unfold execMbIdleTimeout
  split
  · exact .ite (.next (.passTo h)) (.next (.modCore (.passTo h)))
  · exact .next h

theorem KeepsOut.drainAccept {core line cycles reads} (h : Keeps s₀ s) : KeepsOut s₀ (execDrainAccept core line cycles reads s) := by
  unfold execDrainAccept
  split
  · exact .ite (.next (.await (.offerFor h))) (.next (.finishDrain
        (.modCore (.acceptEntry (.serve (.ite (.passCycles (.offerFor h)) (.offerFor h)))))))
  · exact .next h

theorem KeepsPair.bar0Read {fn off} (h : Keeps s₀ s) : KeepsPair s₀ (s.bar0Read fn off) :=
  .ite (.mk h) (.ite (.mk h) (.ite (.mk h) (.mk (.fst (.ctlRead h)))))

theorem Keeps.bar0Write {fn off v} (h : Keeps s₀ s) : Keeps s₀ (s.bar0Write fn off v) :=
  .ite (.fnWrite h) (.ite (.ite (.msixWrite h) h) (.ite h (.ctlWrite h)))

theorem KeepsOut.hostBar0Access {fn off dws be write err} (h : Keeps s₀ s) : KeepsOut s₀ (execHostBar0Access fn off dws be write err s) := by
  unfold execHostBar0Access
  refine .ite (.next h) (.ite (.next (.tlpError h)) ?_)
  split
  · split
    next e1 =>
      have h1 := Keeps.ofPair (.readTurn h) e1
      exact .ite (.next h1) (.ite (.next (.emit (.aer h1)))
          (.ite (.next (.emit (.aer (.cfgOne h1)))) (.next (.emit (.fst (.bar0Read h1))))))
  · exact .ite (.next h) (.ite (.next (.closedWrite h)) (.ite (.next (.hepCount h)) (.next (.bar0Write h))))

theorem Keeps.regRead {who off} (h : Keeps s₀ s) : Keeps s₀ (s.regRead who off) := by
  unfold State.regRead
  refine .ite h ?_
  extract_lets
  split
  · exact .emit (.fst (.ctlRead h))
  · exact .fst (.ctlRead h)

theorem Keeps.idle (h : Keeps s₀ s) : Keeps s₀ s.idle := .tick h

end
end Sys2Proof.Machine
end

section
/-!
PROOF. Every command keeps the canonical memory, the fuses and the queue, hence every step does (O59); the reset state (O57).
-/
namespace Sys2Proof.Machine

/-- Every command, whatever the state, goes on in a state that is kept: one case per constructor, with the rule of the function that
gives it its meaning. -/
theorem KeepsOut.exec {s₀ s : State} {i : Instr} (h : Keeps s₀ s) : KeepsOut s₀ (exec i s) := by
  cases i with
  | add | sub | addc | subc | and | or | xor | andn | shl | shr | sar | rol | shli | shri | sari | roli | cmp | slt | sltu | min | max
  | minu | maxu | abs | neg | adds | subs | clz | popc | rdrc | rdfl | wrrc | wrfl | addi | andi | ori | xori | ldhi | cmpi | slti
  | sltiu | addd | subd | addcd | subcd | shld | shrd | sard | cmpd | movd | negd | packh | exth | exths | extb | extbs | insh | insb
  | mul | mulh | mulhu | muld | muldu | mulq | ladd | lsub | ladds | lsubs | lmul | lmax | lmin | labs | lshl | lsar | lcmpeq | lcmplt
  | macH4 | msuH4 | maczH4 | macW | msuW | maczW | acclr | acwr | acadd | acsar | acrd | acrds | acrdd | acrdx | acwrx | fabs | fneg
  | fclass | fsgnj => exact .issue (fun _ h1 => .compute h1) h
  | div | divu | rem | remu | divd | divdu | remd | remdu => exact .issue (fun _ h1 => .longOp h1) h
  | fadd | fsub | fmul | fma | fms | fnma | fmin | fmax | fcmp | cvt36W | cvt36Wu | cvtW36 | cvtWu36 | cvtW36Z | cvt36B32 | cvtB3236
  | cvt3672 | cvt72D | cvt72Du | cvtD72 | cvtDu72 | cvtD72Z | cvt72B64 | cvtB6472 | cvt7236 => exact .issue (fun _ h1 => .fpOp h1) h
  | fdiv | fsqrt => exact .issue (fun _ h1 => .fpLong h1) h
  | ldb | ldbs | ldh | ldhs | ldw | ldd | stb | sth | stw | std | ldsg | stsg | lr | sc | tas => exact .memOp h
  | pref => exact .issue (fun _ h1 => .done (.prefDo h1)) h
  | br | call => exact .issue (fun _ h1 => .done h1) h
  | jrl => exact .issue (fun _ h1 => .ite (.trap h1) (.done h1)) h
  | rpt | rptu => exact .issueT (fun _ h1 => .startRepeat h1) h
  | csrr => exact .issue (fun _ h1 => .ite (.trap h1) (.done (.fst (.csRead h1)))) h
  | csrw => exact .issue (fun _ h1 => .ite (.trap h1) (.done (.csPut (.settle h1)))) h
  | csrx => exact .issue (fun _ h1 => .ite (.trap h1) (.done (.csPut (.fst (.csRead (.settle h1)))))) h
  | syscall | brk => exact .issue (fun _ h1 => .trap h1) h
  | eret => exact .issue (fun _ h1 => .ite (.trap h1) (.done (.modCore (.eretDrain h1)))) h
  | lwait => exact .lwait h
  | fenceL | fenceS | fenceA => exact .issue (fun _ h1 => .fenceBody h1) h
  | ifence =>
    exact .issue (fun _ h1 => .afterDrain (fun _ h2 => .done (.advance (.cycles (.ite (.broadcast (.modCore h2)) (.modCore h2))))) h1) h
  | tlbiByAddress | tlbiByAsid | tlbiAll => exact .issue (fun _ h1 => .tlbiBody h1) h
  | tsync => exact .issue (fun _ h1 => .ite (.trap h1) (.ite (.hold h1) (.done (.advance (.cycles h1))))) h
  | cmoClean | cmoInvalidate | cmoCleanAndInvalidate => exact .issue (fun _ h1 => .cmoBody h1) h
  | wait => exact .issue (fun _ h1 => .ite (.trap h1) (.hold (.modCore h1))) h
  | xOperation => exact .xOperation h
  | ifenceBroadcastArrival => exact .ifenceBroadcastArrival h
  | tlbiBroadcastArrival => exact .tlbiBroadcastArrival h
  | interruptEntry => exact .interruptEntry h
  | long => exact .long h
  | longOperationLanding => exact .longOperationLanding h
  | loadMissFill => exact .loadMissFill h
  | fetchLineFill => exact .fetchLineFill h
  | ftModeChange => exact .ftModeChange h
  | ustAccept => exact .ustAccept h
  | ustLanding => exact .ustLanding h
  | ustDiscard => exact .ite (.next (.discardParked h)) (.next h)
  | timer => exact .ite (.next (.frame h)) (.next h)
  | ipiSet => exact .ite (.next (.slotWritten (.ipiSet h))) (.next h)
  | machineCheckAsync => exact .machineCheckAsync h
  | mbIdleTimeout => exact .mbIdleTimeout h
  | drainAccept => exact .drainAccept h
  | reservationDeferralEnd => exact .reservationDeferralEnd h
  | rangeClean | rangeInvalidate | rangeCleanAndInvalidate => exact .rangeStart h
  | rangeAbort => exact .ite (.next (.rangeAbort h)) (.next h)
  | rangeEngineLine => exact .rangeEngineLine h
  | rds | rdx | upg => exact .ite (.askGrove h) (.next h)
  | rdcur => exact .ite (.next h) (.ite (.next (.ite (.outRequest h) h)) (.ask h))
  | wrinv => exact .ite (.next h) (.ite (.next (.foldl (fun _ _ h1 => .wrNow h1) h)) (.ask h))
  | wb => exact .wb h
  | evc => exact .ite (.next (.groveEvict h)) (.next h)
  | fwds => exact .fwds h
  | fwdx => exact .fwdx h
  | fwdc => exact .fwdc h
  | invMsg => exact .invMsg h
  | binv => exact .binv h
  | dataMsg => exact .dataMsg h
  | ackMsg => exact .ackMsg h
  | cmpMessage => exact .cmpMessage h
  | mrd => exact .mrd h
  | mwr => exact .mwr h
  | stateSetSwitch => exact .next (.switchSet h)
  | shaperAccept => exact .shaperAccept h
  | apply => exact .next (.ite (.parkDue (.afterDown (.applyEv h))) (.parkDue (.applyEv h)))
  | stop => exact .stop h
  | start | resume | chtAbort => exact .next (.ite (.chtWrite h) h)
  | partnerCommitSignal => exact .partnerCommitSignal h
  | partnerStageTimeout => exact .partnerStageTimeout h
  | refresh | zqCalibration | dqsOscillatorRead | writeBatch | correctionWrite => exact .ite (.next (.modDram h)) (.next h)
  | mr4Read => exact .ite (.next (.ctlMod (.modDram h))) (.next h)
  | scrubRead => exact .ite (.next (.modDram (.modDram (.dramRead h)))) (.next h)
  | initialiserLine => exact .initialiserLine h
  | subchannelRetrain => exact .subchannelRetrain h
  | qmEnable => exact .qmEnable h
  | qmDisable => exact .qmDisable h
  | qmRearm => exact .qmRearm h
  | qmHalt => exact .qmHalt h
  | dbRing | dbarm => exact .ite (.next (.doorbell h)) (.next h)
  | copy | fill | nop | descriptorReservedOp => exact .next (.dmaWork h)
  | engResume => exact .ite (.next (.engResume h)) (.next h)
  | engDiscard => exact .ite (.next (.engDiscard h)) (.next h)
  | messageDelivery => exact .messageDelivery h
  | frameReceive => exact .frameReceive h
  | egressDequeue => exact .egressDequeue h
  | transmissionSelection => exact .ite (.next (.select h)) (.next h)
  | gateEntry => exact .gateEntry h
  | toffsetWrite => exact .next (.netTime (.foldl (fun _ _ h1 => .ite (.setPort h1) (.setPort h1)) (.ctlSet (.ctlSet h))))
  | teventRead => exact .ite (.next (.teventRead h)) (.next h)
  | macsecInstall => exact .ite (.next (.ctlSet (.macInstall h))) (.next h)
  | portLinkChange => exact .portLinkChange h
  | phyWake => exact .ite (.next h) (.ite (.next (.ite (.wakeEvent h) h)) (.next (.ite (.wakeEvent (.ctlMod h)) (.ctlMod h))))
  | hostMemWrite => exact .ite (.next h) (.ite (.next (.tlpError h)) (.next (.hostWrite h)))
  | hostMemRead => exact .hostMemRead h
  | hostBar0Access => exact .hostBar0Access h
  | hostConfigRequest => exact .hostConfigRequest h
  | hostCompletion => exact .hostCompletion h
  | completionTimeout => exact .completionTimeout h
  | functionLevelReset => exact .ite (.next h) (.ite (.next (.foldl (fun _ _ h1 => .flrEnd h1) h)) (.next (.intaSync (.flrStart h))))
  | busMasterEnableWrite => exact .ite (.next h) (.next (.bmeWrite h))
  | vfEnableWrite => exact .ite (.next h) (.next (.vfWrite h))
  | hotReset | perstAssert | pcieRefclkLoss => exact .next (.modHep (.linkLost h))
  | perstDeassert => exact .next (.modHep h)
  | hostLinkUp => exact .ite (.next h) (.next (.event (.modHep (.ctlMod (.foldl (fun _ _ h1 => .flrEnd h1) h)))))
  | hepWcfgWrite => exact .ite (.next (.wcfgWrite h)) (.next h)
  | hepWselWrite => exact .ite (.next (.wselWrite h)) (.next h)
  | msisend => exact .ite (.next (.irq h)) (.next h)
  | hdbset => exact .ite (.next (.fnWrite h)) (.next h)
  | flitReceive => exact .flitReceive h
  | retryRequest => exact .next (.ite (.ite (.fryCount (.setLinkDir h)) (.setLinkDir h)) h)
  | idleControlFlit => exact .next (.ite (.emit (.setLinkDir h)) h)
  | ferryTrainingStep => exact .ferryTrainingStep h
  | eyeMonitorSample | laneLossOfLock => exact .next (.ite (.markLanes h) h)
  | remap => exact .remap h
  | halfWidth => exact .ite (.next h) (.ite (.next (.afterDown (.event (.countRemap (.modFerry h))))) (.next (.fryDown h)))
  | fryRetrain => exact .next (.ite (.fryRetrain h) h)
  | fryEnable => exact .next (.ite (.fryEnable h) h)
  | routeChange => exact .routeChange h
  | txnTimeout => exact .txnTimeout h
  | heartbeat => exact .next (.ite (.emit (.modXport h)) h)
  | crossingTraining => exact .crossingTraining h
  | pairJoin =>
    exact .ite (.next h) (.ite (.next (.event (.modLinks h))) (.ite (.next h) (.ite (.next (.xngViolation h)) (.next (.join h)))))
  | mirrorWrite => exact .ite (.next h) (.ite (.next (.wrInv h)) (.next (.xngViolation h)))
  | split => exact .split h
  | witnessQuery => exact .witnessQuery h
  | witnessAnswer => exact .witnessAnswer h
  | splitResultTimeout => exact .splitResultTimeout h
  | takeover => exact .takeover h
  | chunkLimit => exact .chunkLimit h
  | manifestBlockWrite => exact .ite (.ite (.next (.ite (.mftEnd h) h)) (.next (.mftBlock h))) (.ite (.next (.mftBlock h)) (.next h))
  | arm => exact .ite (.next (.mftArm h)) (.next h)
  | disarm => exact .ite (.next (.mftDisarm h)) (.next h)
  | replay => exact .ite (.next (.mftReplay h)) (.next h)
  | replayChunk => exact .next (.mftChunk h)
  | mftStop => exact .ite (.next (.mftEnd h)) (.next h)
  | ridxWrite => exact .ite (.next (.ridxWrite h)) (.next h)
  | powerOn => exact .next (.ite (.toStep (.modPwr (.frame h))) h)
  | bootStep => exact .bootStep h
  | powerLoss => exact .next (.powerOff h)
  | resetN | watchdogExpiry | lockstepMismatch => exact .next (.ite (.warmReset h) h)
  | warmrst => exact .next (.ite (.warmrst h) h)
  | tamper => exact .next (.ite h (.tamperReset h))
  | tamperRelease | resetNRelease => exact .next (.ite (.frame h) h)
  | refclkFault => exact .next (.ite (.tamperReset h) h)
  | groveReset => exact .ite (.next (.ite (.modPwr (.ctlMod h)) h)) (.next (.ite (.grvrst h) h))
  | coreReset => exact .ite (.next h) (.ite (.next (.ite (.coreReset h) h)) (.next (.ite (.crstWrite h) h)))
  | holdRelease => exact .next (.ite (.crstWrite h) h)
  | park => exact .next (.ite (.parkWrite h) h)
  | parkGraceExpiry => exact .next (.ite (.parkEnter h) h)
  | parkAlarm | gpioWake => exact .next (.ite (.wakeEvent h) h)
  | railok => exact .next (.afterRail (.modPwr h))
  | avsTargetSet => exact .next (.ite (.emit h) h)
  | provision | revoke | raiseSvn | lock | raiseFwsvn => exact .next (.secRow h)
  | drbgReseed =>
    exact .ite (.next h) (.ite (.next (.modSec (.frame h))) (.next (.ite (.tamperReset (.event (.modSec h))) (.event (.modSec h)))))
  | challengeRead => exact .next (.ite (.newChallenge h) h)
  | submit => exact .next (.ite (.submit h) h)
  | close => exact .next (.ite (.dbgClose h) h)
  | cdbgHalt => exact .ite (.next (.ite h (.ite (.frame h) (.ite (.dbgStop h) h)))) (.next (.dbgDo (fun _ h1 => .dbgHalt h1) h))
  | cdbgRun => exact .next (.dbgDo (fun _ h1 => .dbgRun h1) h)
  | cdbgStep => exact .next (.dbgDo (fun _ h1 => .dbgStepGo h1) h)
  | cdbgAgo => exact .next (.dbgDo (fun _ h1 => .dbgAgo (fun _ _ _ h2 => .ctlWrite0 h2) h1) h)
  | ucnthRead | ucntlRead => exact .ite (.next (.regRead h)) (.next h)
  | rcRead => exact .next (.regRead h)
  | registerWrite => exact .ite (.next (.ctlWrite h)) (.next h)
  | undefinedEncoding => exact .issueT (fun _ h1 => .hold h1) h
  | syncedChange => exact .ite (.next h) (.next (.netTime (.ctlMod h)))
  | mirrorCopy => exact .ite (.next h) (.next (.ite (.ctlMod (.emit (.modLinks h))) (.emit (.modLinks h))))
  | linkLayerRetry => exact .linkLayerRetry h
  | packageFatalError => exact .packageFatalError h

/-- A command begins with the queue's rest, in the memory and with the fuses of the state that held it. -/
theorem step_keeps {s t : State} (e : step s = .next t) :
    KeepsMem s.mem t.mem ∧ t.fuses = s.fuses ∧ t.pending = s.pending.drop 1 := by
  unfold step at e
  split at e
  next hp =>
    cases e
    obtain ⟨hm, hf, hq⟩ := Keeps.idle (Keeps.refl (s := s))
    exact ⟨hm, hf, hq.trans (by rw [hp]; rfl)⟩
  next hp =>
    obtain ⟨hm, hf, hq⟩ := Keeps.ofNext (.exec .refl) e
    exact ⟨hm, hf, hq.trans (by rw [hp]; rfl)⟩

/-- Settles O59: by the rule of each function of the model, along the cases of `exec` and of `step`. -/
theorem stepKeepsInvariant : Obligations.StepKeepsInvariant := by
  unfold Obligations.StepKeepsInvariant
  exact fun _ _ => step_keeps

theorem Core.reg_initial (entry : Nat) (ft : Bool) (r : Nat) : (Core.initial entry ft).reg r = 0 := ite_self 0

theorem Core.seg_initial (entry : Nat) (ft : Bool) {i : Nat} (hi : i ≠ 0) : (Core.initial entry ft).seg i = SegDesc.null := by
  simp [Core.seg, Core.initial, smGet, hi.symm]

/-- Settles O57: each field is read off the reset state and off the initial state of a core (R280, Table 11-6). -/
theorem resetState : Obligations.ResetState := by
  unfold Obligations.ResetState
  exact ⟨rfl, rfl, rfl, rfl, rfl, rfl, rfl, rfl, ⟨rfl, rfl, rfl⟩, Core.reg_initial 0 false, fun _ => rfl, rfl, rfl, rfl, rfl,
    fun _ => Core.seg_initial 0 false, rfl⟩

end Sys2Proof.Machine
end

section
/-!
PROOF. The fields of a register value, bit by bit.
-/
namespace Sys2Proof.Machine

theorem testBit_fget (v : Reg32) (hi lo i : Nat) : (fget v hi lo).testBit i = (decide (i < hi + 1 - lo) && fbit v (lo + i)) := by
  rw [fget, Nat.testBit_mod_two_pow, ← Nat.shiftRight_eq_div_pow, Nat.testBit_shiftRight, BitVec.testBit_toNat]
  rfl

/-- Two values that agree in the bits of a field agree in the field. -/
theorem fget_congr {v w : Reg32} {hi lo : Nat} (h : ∀ i, lo ≤ i → i ≤ hi → fbit v i = fbit w i) : fget v hi lo = fget w hi lo := by
  refine Nat.eq_of_testBit_eq fun i => ?_
  rw [testBit_fget, testBit_fget]
  by_cases hi' : i < hi + 1 - lo
  · rw [h (lo + i) (by omega) (by omega)]
  · simp [hi']

theorem fbit_fset (v : Reg32) (hi lo x : Nat) {j : Nat} (hj : j < 32) :
    fbit (fset v hi lo x) j = if lo ≤ j ∧ j ≤ hi then x.testBit (j - lo) else fbit v j := by
  have field : (decide (lo ≤ j) && decide (j - lo < hi + 1 - lo)) = decide (lo ≤ j ∧ j ≤ hi) := by
    rw [← Bool.decide_and, decide_eq_decide]
    omega
  simp only [fbit, fset, BitVec.getLsbD_or, BitVec.getLsbD_and, BitVec.getLsbD_not, BitVec.getLsbD_ofNat, hj, decide_true, Bool.true_and,
    Nat.testBit_mul_two_pow, Nat.testBit_two_pow_sub_one, Nat.testBit_mod_two_pow, ← Bool.and_assoc, field]
  by_cases h : lo ≤ j ∧ j ≤ hi
  · rw [if_pos h, decide_eq_true h]
    simp
  · rw [if_neg h, decide_eq_false h]
    simp

theorem fbit_fone (v : Reg32) (i : Nat) (b : Bool) {j : Nat} (hj : j < 32) : fbit (fone v i b) j = if j = i then b else fbit v j := by
  rw [fone, fbit_fset _ _ _ _ hj]
  by_cases h : j = i
  · cases b <;> simp [h]
  · rw [if_neg h, if_neg (by omega)]

end Sys2Proof.Machine
end

section
/-!
PROOF. What the traffic of the package leaves as it was.

Stopping a core, closing a session, moving a line between caches or recording an event changes cores, memory, queues and counters, and
never the Chart in force, the Chart store, the generations, the operation of the CHT frame, the states of the compartments or the state of the pair.
`Steady p s₀ s` says that a state `s` reached from `s₀` by such work agrees with it in all of these. As for `Keeps`, there is one closure
rule for each function of the model.
-/
namespace Sys2Proof.Machine

-- One theorem after another: elaborated at once, they wait for one another in as many threads, and the stacks alone are gigabytes.
set_option Elab.async false

/-! ## The relation -/

/-- A state without what traffic changes, and without the states of the compartments and the registers, of which `Steady` speaks itself. -/
def State.still (s : State) : State :=
  { s with time := 0, draws := 0, cores := [], mem := Mem.reset, ctl := [], cmps := [], evl := EvLog.reset, buckets := [], held := [],
           flight := [], usts := [], lags := [], mft := [], mftc := [], nettime := [], dram := Dram.reset, qm := Qm.reset, hep := Hep.reset,
           net := Net.reset, sec := Sec.reset, sent := [], links := { s.links with countedAt := 0 } }

/-- RESULT of XNG.SPLITINFO says that this side lost the last split. -/
def lossShown (v : Reg32) : Bool := fget v 27 25 == 2 || fget v 27 25 == 4

/-- `s` differs from `s₀` only in what traffic changes. Under `p`, no write has made this side one that lost the last split either: `p` is
False for functions that write a register whose place a compartment's number alone decides (TT.LATE, TT.SMISS, QM.NPEND). -/
structure Steady (p : Prop) (s₀ s : State) : Prop where
  still : s.still = s₀.still
  cmpState : ∀ n, s.cmpState n = s₀.cmpState n
  lost : p → s.lastLost = true → s₀.lastLost = true

inductive SteadyPair (p : Prop) (s₀ : State) {α : Type} : State × α → Prop
  | mk {s a} (h : Steady p s₀ s) : SteadyPair p s₀ (s, a)

theorem lossShown_zero : lossShown 0 = false := by decide

/-- A bit outside RESULT shows no loss. -/
theorem lossShown_fone (v : Reg32) {i : Nat} (b : Bool) (hi : 27 < i) : lossShown (fone v i b) = lossShown v := by
  have field : fget (fone v i b) 27 25 = fget v 27 25 :=
    fget_congr fun j _ hj => by rw [fbit_fone _ _ _ (by omega), if_neg (by omega)]
  rw [lossShown, lossShown, field]

/-! ## Registers: none of these is XNG.SPLITINFO, whatever its indices -/

section
variable (g i j : Nat)

@[simp] theorem o_hepP0Intpend_ne_splitinfo : o_hepP0Intpend ≠ o_xngSplitinfo := by decide
@[simp] theorem o_evlCnote_ne_splitinfo : o_evlCnote g ≠ o_xngSplitinfo := by unfold o_evlCnote o_xngSplitinfo; omega
@[simp] theorem o_evlClast_ne_splitinfo : o_evlClast g ≠ o_xngSplitinfo := by unfold o_evlClast o_xngSplitinfo; omega
@[simp] theorem o_pmuCcntl_ne_splitinfo : o_pmuCcntl g i j ≠ o_xngSplitinfo := by unfold o_pmuCcntl o_xngSplitinfo; omega
@[simp] theorem o_pmuCcnth_ne_splitinfo : o_pmuCcnth g i j ≠ o_xngSplitinfo := by unfold o_pmuCcnth o_xngSplitinfo; omega
@[simp] theorem o_pmuCovf_ne_splitinfo : o_pmuCovf g i ≠ o_xngSplitinfo := by unfold o_pmuCovf o_xngSplitinfo; omega
@[simp] theorem o_pmuUcntl_ne_splitinfo : o_pmuUcntl g i ≠ o_xngSplitinfo := by unfold o_pmuUcntl o_xngSplitinfo; omega
@[simp] theorem o_pmuUcnth_ne_splitinfo : o_pmuUcnth g i ≠ o_xngSplitinfo := by unfold o_pmuUcnth o_xngSplitinfo; omega
@[simp] theorem o_pmuUovf_ne_splitinfo : o_pmuUovf g ≠ o_xngSplitinfo := by unfold o_pmuUovf o_xngSplitinfo; omega
@[simp] theorem o_dirOpen_ne_splitinfo : o_dirOpen g ≠ o_xngSplitinfo := by unfold o_dirOpen o_xngSplitinfo; omega
@[simp] theorem o_dirBackinv_ne_splitinfo : o_dirBackinv g ≠ o_xngSplitinfo := by unfold o_dirBackinv o_xngSplitinfo; omega
@[simp] theorem o_dirVicwait_ne_splitinfo : o_dirVicwait g ≠ o_xngSplitinfo := by unfold o_dirVicwait o_xngSplitinfo; omega
@[simp] theorem o_mftCstate_ne_splitinfo : o_mftCstate g ≠ o_xngSplitinfo := by unfold o_mftCstate o_xngSplitinfo; omega
@[simp] theorem o_mftWidx_ne_splitinfo : o_mftWidx g ≠ o_xngSplitinfo := by unfold o_mftWidx o_xngSplitinfo; omega
@[simp] theorem o_mftChunks_ne_splitinfo : o_mftChunks g ≠ o_xngSplitinfo := by unfold o_mftChunks o_xngSplitinfo; omega
@[simp] theorem o_mftStalls_ne_splitinfo : o_mftStalls g ≠ o_xngSplitinfo := by unfold o_mftStalls o_xngSplitinfo; omega
@[simp] theorem o_ustOverruns_ne_splitinfo : o_ustOverruns g ≠ o_xngSplitinfo := by unfold o_ustOverruns o_xngSplitinfo; omega
@[simp] theorem o_qmLostrec_ne_splitinfo : o_qmLostrec ≠ o_xngSplitinfo := by decide
@[simp] theorem o_hepHdbctl_ne_splitinfo : o_hepHdbctl g ≠ o_xngSplitinfo := by unfold o_hepHdbctl o_xngSplitinfo; omega
@[simp] theorem o_grvTcmpl_ne_splitinfo : o_grvTcmpl g i ≠ o_xngSplitinfo := by unfold o_grvTcmpl o_xngSplitinfo; omega
@[simp] theorem o_grvTcmph_ne_splitinfo : o_grvTcmph g i ≠ o_xngSplitinfo := by unfold o_grvTcmph o_xngSplitinfo; omega
@[simp] theorem o_grvIpi_ne_splitinfo : o_grvIpi g i ≠ o_xngSplitinfo := by unfold o_grvIpi o_xngSplitinfo; omega
@[simp] theorem oMstatus_ne_splitinfo (l3 : Bool) : oMstatus l3 g i ≠ o_xngSplitinfo := by
  unfold oMstatus oMctrl o_l3L3mCtrl o_l3L2mCtrl o_xngSplitinfo
  split <;> omega
end

/-! ## The rules -/

section
variable {p : Prop} {s₀ s t : State}

theorem Steady.refl : Steady p s s := ⟨rfl, fun _ => rfl, fun _ => id⟩

theorem Steady.trans {s₁} (h : Steady p s₀ s₁) (h' : Steady p s₁ s) : Steady p s₀ s :=
  ⟨h'.still.trans h.still, fun n => (h'.cmpState n).trans (h.cmpState n), fun hp => h.lost hp ∘ h'.lost hp⟩

/-- The constructor is spelled out, so that unification reads the fields off any record update of the model. -/
theorem Steady.frameCtl (h : Steady p s₀ s) {time draws cores mem ctl evl buckets held flight usts lags mft mftc nettime dram qm hep net sec sent}
    (hctl : p → smFind? ctl o_xngSplitinfo = smFind? s.ctl o_xngSplitinfo) :
    Steady p s₀ ⟨s.pending, time, draws, s.fuses, s.board, cores, mem, ctl, s.ulatch, s.live, s.store, s.cmps, s.generation, s.cht, evl,
      buckets, held, flight, usts, lags, s.lagCount, s.halts, mft, mftc, nettime, dram, qm, hep, net, s.links, s.pwr, sec, sent, s.logOff⟩ := by
  refine ⟨h.still, h.cmpState, fun hp hl => h.lost hp ?_⟩
  rw [← hl]
  simp only [State.lastLost, State.ctlGet, hctl hp]

theorem Steady.frame (h : Steady p s₀ s) {time draws cores mem evl buckets held flight usts lags mft mftc nettime dram qm hep net sec sent} :
    Steady p s₀ ⟨s.pending, time, draws, s.fuses, s.board, cores, mem, s.ctl, s.ulatch, s.live, s.store, s.cmps, s.generation, s.cht, evl,
      buckets, held, flight, usts, lags, s.lagCount, s.halts, mft, mftc, nettime, dram, qm, hep, net, s.links, s.pwr, sec, sent, s.logOff⟩ :=
  .frameCtl h fun _ => rfl

theorem Steady.countedAt {c} (h : Steady p s₀ s) : Steady p s₀ { s with links := { s.links with countedAt := c } } := ⟨h.still, h.cmpState, h.lost⟩

theorem Steady.setMem {m} (h : Steady p s₀ s) : Steady p s₀ (s.setMem m) := .frame h

theorem Steady.foldl {α : Type} {f : State → α → State} {l : List α} (hf : ∀ s a, Steady p s₀ s → Steady p s₀ (f s a))
    (h : Steady p s₀ s) : Steady p s₀ (l.foldl f s) := foldl_keeps hf l s h

theorem Steady.ite {c : Prop} [Decidable c] (h : Steady p s₀ s) (h' : Steady p s₀ t) : Steady p s₀ (if c then s else t) := by
  split <;> assumption

theorem SteadyPair.ite {α : Type} {c : Prop} [Decidable c] {a b : State × α} (h : SteadyPair p s₀ a) (h' : SteadyPair p s₀ b) :
    SteadyPair p s₀ (if c then a else b) := by
  split <;> assumption

theorem Steady.fst {α : Type} {x : State × α} (h : SteadyPair p s₀ x) : Steady p s₀ x.1 := by
  cases h; assumption

theorem Steady.ofPair {α : Type} {x : State × α} {a} (h : SteadyPair p s₀ x) (e : x = (s, a)) : Steady p s₀ s := by
  subst e; cases h; assumption

/-- A register write, when what it leaves in XNG.SPLITINFO shows no loss that was not there. -/
theorem Steady.ctlSet_of {off v} (h : Steady p s₀ s) (hv : off = o_xngSplitinfo → lossShown v = true → s.lastLost = true) :
    Steady p s₀ (s.ctlSet off v) := by
  refine ⟨h.still, h.cmpState, fun hp hl => h.lost hp ?_⟩
  by_cases e : off = o_xngSplitinfo
  · exact hv e (by simpa [State.lastLost, lossShown, e] using hl)
  · simpa [State.lastLost, e] using hl

theorem Steady.ctlSet {off v} (h : Steady p s₀ s) (ne : p → off ≠ o_xngSplitinfo := by simp) : Steady p s₀ (s.ctlSet off v) := by
  refine ⟨h.still, h.cmpState, fun hp hl => h.lost hp ?_⟩
  simpa [State.lastLost, ne hp] using hl

theorem Steady.ctlMod {off f} (h : Steady p s₀ s) (ne : p → off ≠ o_xngSplitinfo := by simp) : Steady p s₀ (s.ctlMod off f) := .ctlSet h ne

theorem Steady.ctlMod_of {off f} (h : Steady p s₀ s) (hf : ∀ v, lossShown (f v) = lossShown v) : Steady p s₀ (s.ctlMod off f) := by
  refine .ctlSet_of h fun e hl => ?_
  rwa [hf, e] at hl

theorem Steady.ctlInc {off} (h : Steady p s₀ s) (ne : p → off ≠ o_xngSplitinfo := by simp) : Steady p s₀ (s.ctlInc off) := .ctlMod h ne


/-! ### Steady: the control space, the host interface, the event log and the counters -/

theorem Steady.setCore {k c} (h : Steady p s₀ s) : Steady p s₀ (s.setCore k c) := .frame h

theorem Steady.modCore {k f} (h : Steady p s₀ s) : Steady p s₀ (s.modCore k f) := .setCore h

theorem Steady.modCores {f} (h : Steady p s₀ s) : Steady p s₀ (s.modCores f) := .frame h

theorem Steady.setUst {g u} (h : Steady p s₀ s) : Steady p s₀ (s.setUst g u) := .frame h

theorem Steady.modHep {f} (h : Steady p s₀ s) : Steady p s₀ (s.modHep f) := .frame h

theorem Steady.emit {x} (h : Steady p s₀ s) : Steady p s₀ (s.emit x) := .frame h

theorem Steady.setCfg {fn off v} (h : Steady p s₀ s) : Steady p s₀ (s.setCfg fn off v) := .modHep h

theorem Steady.sendInts {fn} (h : Steady p s₀ s) : Steady p s₀ (s.sendInts fn) := by
  unfold State.sendInts
  refine .foldl (fun _ _ h1 => ?_) h
  split
  · exact .modHep (.emit h1)
  · exact h1

theorem Steady.intaSync {before} (h : Steady p s₀ s) : Steady p s₀ (s.intaSync before) := .foldl (fun _ _ h1 => .ite h1 (.emit h1)) h

theorem Steady.irq {fn vec} (h : Steady p s₀ s) : Steady p s₀ (s.irq fn vec) :=
  .ite (.intaSync (.ite (.ctlMod h) (.modHep h))) (.sendInts (.modHep h))

theorem Steady.notice {cmp cls code} (h : Steady p s₀ s) : Steady p s₀ (s.notice cmp cls code) := by
  unfold State.notice
  split
  · exact h
  · exact .ctlSet (.ite (.ctlInc h) h)

theorem Steady.recordOne {cls code die cmp addr info aux} (h : Steady p s₀ s) : Steady p s₀ (s.recordOne cls code die cmp addr info aux) := by
  unfold State.recordOne
  extract_lets s1
  have h1 : Steady p s₀ s1 := .notice h
  refine .ite h1 (.ite (.frame h1) ?_)
  split
  · exact .frame h1
  · exact .ite (.frame h1) (.frame h1)

theorem Steady.record {cls code die cmp addr info aux} (h : Steady p s₀ s) : Steady p s₀ (s.record cls code die cmp addr info aux) :=
  .ite (.recordOne h) (.recordOne (.recordOne h))

theorem Steady.event {cls code die cmp addr info aux} (h : Steady p s₀ s) : Steady p s₀ (s.event cls code die cmp addr info aux) :=
  .ite (.irq (.record h)) (.record h)

theorem Steady.hepCount {cause fn} (h : Steady p s₀ s) : Steady p s₀ (s.hepCount cause fn) := .ite (.irq (.modHep h)) (.event (.irq (.modHep h)))

theorem Steady.setCnt48 {lo hi v} (h : Steady p s₀ s) (hlo : p → lo ≠ o_xngSplitinfo := by simp) (hhi : p → hi ≠ o_xngSplitinfo := by simp) :
    Steady p s₀ (s.setCnt48 lo hi v) := .ctlSet (.ctlSet h hlo) hhi

theorem Steady.bump48 {lo hi ovf j n} (h : Steady p s₀ s) (hlo : p → lo ≠ o_xngSplitinfo := by simp)
    (hhi : p → hi ≠ o_xngSplitinfo := by simp) (hovf : p → ovf ≠ o_xngSplitinfo := by simp) : Steady p s₀ (s.bump48 lo hi ovf j n) :=
  .ite (.ctlMod (.setCnt48 h hlo hhi) hovf) (.setCnt48 h hlo hhi)

theorem Steady.count {k ev n} (h : Steady p s₀ s) : Steady p s₀ (s.count k ev n) := by
  unfold State.count
  split
  · exact h
  · exact .ite (.foldl (fun _ _ h1 => .ite (.bump48 h1) h1) h) h

theorem Steady.ucount {g ev unit n cmp cls} (h : Steady p s₀ s) : Steady p s₀ (s.ucount g ev unit n cmp cls) := by
  unfold State.ucount
  split
  · exact h
  · exact .foldl (fun _ _ h1 => .ite (.bump48 h1) h1) h

/-! ### Steady: the caches, the directory and the homes -/

theorem Steady.dropStand {stand line} (h : Steady p s₀ s) : Steady p s₀ (s.dropStand stand line) := .setMem (.modCores h)

theorem Steady.dropGrove {g line} (h : Steady p s₀ s) : Steady p s₀ (s.dropGrove g line) := .setMem (.modCores h)

theorem Steady.putTag {g line st data} (h : Steady p s₀ s) : Steady p s₀ (s.putTag g line st data) := by
  unfold State.putTag
  split <;> exact .setMem h

theorem Steady.mirrorOut {line cls} (h : Steady p s₀ s) : Steady p s₀ (s.mirrorOut line cls) := by
  unfold State.mirrorOut
  split
  · exact .ite (.emit h) h
  · exact h

theorem Steady.modDram {f} (h : Steady p s₀ s) : Steady p s₀ (s.modDram f) := .frame h

theorem Steady.queueWrite {line r} (h : Steady p s₀ s) : Steady p s₀ (s.queueWrite line r) := by
  unfold State.queueWrite
  exact .modDram (.mirrorOut h)

theorem Steady.acceptWrite {line r} (h : Steady p s₀ s) : Steady p s₀ (s.acceptWrite line r) := by
  unfold State.acceptWrite
  split
  · exact .queueWrite (.ite h (.modDram h))
  · exact h

theorem Steady.sendWb {g line keep} (h : Steady p s₀ s) : Steady p s₀ (s.sendWb g line keep) := by
  unfold State.sendWb
  exact .ite (.emit (.ucount h)) (.acceptWrite (.ucount h))

theorem Steady.dropAll {line gs} (h : Steady p s₀ s) : Steady p s₀ (s.dropAll line gs) := .foldl (fun _ _ h1 => .dropGrove h1) h

theorem Steady.mergeHolders {line} (h : Steady p s₀ s) : Steady p s₀ (s.mergeHolders line) :=
  .setMem (.dropAll h)

theorem Steady.backInvalidate {line} (h : Steady p s₀ s) : Steady p s₀ (s.backInvalidate line) := .mergeHolders (.ite (.acceptWrite h) h)

theorem Steady.countBinv {h' n line} (h : Steady p s₀ s) : Steady p s₀ (s.countBinv h' n line) := by
  unfold State.countBinv
  exact .ucount (.ctlMod h)

theorem Steady.roomDir {line} (h : Steady p s₀ s) : Steady p s₀ (s.roomDir line) := by
  unfold State.roomDir
  refine .ite h ?_
  split
  · exact .backInvalidate (.countBinv h)
  · exact h

theorem Steady.homeOwn {g line} (h : Steady p s₀ s) : Steady p s₀ (s.homeOwn g line) := by
  unfold State.homeOwn
  refine .ite (.dropAll h) ?_
  extract_lets s1
  have h1 : Steady p s₀ s1 := by
    unfold s1
    split
    · exact .roomDir h
    · exact .dropAll h
  exact .setMem h1

theorem Steady.cleanGrove {g line} (h : Steady p s₀ s) : Steady p s₀ (s.cleanGrove g line) := by
  unfold State.cleanGrove
  split
  · exact h
  · extract_lets
    split
    · exact .setMem (.ite (.sendWb h) h)
    · exact .setMem (.ite (.sendWb h) h)
    · exact .ite (.sendWb h) h

theorem Steady.groveEvict {g line} (h : Steady p s₀ s) : Steady p s₀ (s.groveEvict g line) := by
  unfold State.groveEvict
  split
  · exact h
  · exact .ite (.setMem (.dropGrove (.sendWb h)))
        (.ite (.dropGrove h) (.ite (.setMem (.dropGrove h)) (.setMem (.dropGrove h))))

theorem Steady.l2Evict {stand line} (h : Steady p s₀ s) : Steady p s₀ (s.l2Evict stand line) := by
  unfold State.l2Evict
  split
  · exact h
  · extract_lets _ s1
    have h1 : Steady p s₀ s1 := .dropStand h
    split
    · exact h1
    · exact .ite (.groveEvict h1) (.ite (.cleanGrove h1) h1)

theorem Steady.roomL2 {stand line} (h : Steady p s₀ s) : Steady p s₀ (s.roomL2 stand line) := by
  unfold State.roomL2
  refine .ite h ?_
  split
  · exact .l2Evict h
  · exact h

theorem Steady.roomGrove {g line} (h : Steady p s₀ s) : Steady p s₀ (s.roomGrove g line) := by
  unfold State.roomGrove
  refine .ite h ?_
  split
  · exact .groveEvict h
  · exact h

theorem Steady.emptyWay {g w} (h : Steady p s₀ s) : Steady p s₀ (s.emptyWay g w) := .foldl (fun _ _ h1 => .groveEvict h1) h

theorem Steady.gainOwn {stand line} (h : Steady p s₀ s) : Steady p s₀ (s.gainOwn stand line) := by
  unfold State.gainOwn
  extract_lets _ _ _ _ _ _ s1 s2
  have h1 : Steady p s₀ s1 := by
    unfold s1
    split
    · exact .ite (.setMem h) (.putTag (.homeOwn h))
    · exact .putTag (.homeOwn (.roomGrove h))
  have h2 : Steady p s₀ s2 := .foldl (fun _ _ h3 => .dropStand h3) h1
  exact .setMem (.ite h2 (.roomL2 h2))

theorem Steady.ownedWrite {stand pa bytes} (h : Steady p s₀ s) : Steady p s₀ (s.ownedWrite stand pa bytes) := by
  unfold State.ownedWrite
  exact .setMem h

theorem Steady.clearRes {except line} (h : Steady p s₀ s) : Steady p s₀ (s.clearRes except line) := .modCores h

theorem Steady.countUpGrove {n g} (h : Steady p s₀ s) : Steady p s₀ (s.countUpGrove n g) :=
  .ite h (.foldl (fun _ _ h1 => .ite (.ucount h1) h1) (.foldl (fun _ _ h2 => .ucount h2) h))

theorem Steady.countUp (h : Steady p s₀ s) : Steady p s₀ s.countUp :=
  .countedAt (.ite h (.foldl (fun _ _ h1 => .countUpGrove h1) h))

theorem Steady.setTxn {t} (h : Steady p s₀ s) : Steady p s₀ (s.setTxn t) := .setMem h

theorem Steady.closeTxn {line} (h : Steady p s₀ s) : Steady p s₀ (s.closeTxn line) := .setMem (.countUp h)

theorem Steady.send {l} (h : Steady p s₀ s) : Steady p s₀ (s.send l) := .setMem h

theorem Steady.openT {t l} (h : Steady p s₀ s) : Steady p s₀ (s.openT t l) := by
  unfold State.openT
  exact .ucount (.ctlMod (.send (.setMem (.countUp h))))

theorem SteadyPair.victimStart {line} (h : Steady p s₀ s) : SteadyPair p s₀ (s.victimStart line) := by
  unfold State.victimStart
  refine .ite (.mk h) ?_
  split
  · exact .mk (.ucount (.ctlInc h))
  · exact .mk (.countBinv (.openT h))

theorem Steady.serveRds {g line} (h : Steady p s₀ s) : Steady p s₀ (s.serveRds g line) := by
  unfold State.serveRds
  extract_lets
  split
  · exact .openT (.setMem h)
  · extract_lets
    split
    · exact .ite (.openT (.setMem h)) (.openT (.setMem h))
    · exact .ite (.openT h) (.openT (.setMem h))
    · exact .openT (.setMem h)

theorem Steady.serveRdx {g line k} (h : Steady p s₀ s) : Steady p s₀ (s.serveRdx g line k) := by
  unfold State.serveRdx
  dsimp only
  split
  · exact .openT (.setMem h)
  · split <;> exact .openT (.setMem h)

theorem Steady.serveUpg {g line} (h : Steady p s₀ s) : Steady p s₀ (s.serveUpg g line) := by
  unfold State.serveUpg
  split
  · exact .serveRdx h
  · exact .ite (.serveRdx h) (.openT (.setMem h))

theorem Steady.serveRdcur {port line} (h : Steady p s₀ s) : Steady p s₀ (s.serveRdcur port line) := by
  unfold State.serveRdcur
  extract_lets
  split
  · exact .ite (.openT h) (.openT h)
  · exact .openT h

theorem Steady.progress {line} (h : Steady p s₀ s) : Steady p s₀ (s.progress line) := by
  unfold State.progress
  split
  · exact h
  · refine .ite h ?_
    split
    · exact .send (.setTxn h)
    · exact .ite (.setMem (.closeTxn h)) h

theorem Steady.serveWrinv {port line bytes} (h : Steady p s₀ s) : Steady p s₀ (s.serveWrinv port line bytes) := by
  unfold State.serveWrinv
  extract_lets
  split
  · exact .progress (.openT h)
  · refine .ite (.progress (.openT h)) ?_
    split <;> exact .openT h

theorem Steady.serveReq {w} (h : Steady p s₀ s) : Steady p s₀ (s.serveReq w) := by
  unfold State.serveReq
  split
  · exact .serveRds h
  · exact .serveRdx h
  · exact .serveUpg h
  · exact .serveRdcur h
  · exact .serveWrinv h
  · exact .setMem h
  · exact h

theorem SteadyPair.startReq {w} (h : Steady p s₀ s) : SteadyPair p s₀ (s.startReq w) := by
  unfold State.startReq
  refine .ite (.mk h) (.ite (.ite (.mk h) ?_) (.mk (.serveReq h)))
  split
  next e1 => exact .mk (.serveReq (.ofPair (.victimStart h) e1))
  next e1 => exact .mk (.ofPair (.victimStart h) e1)

theorem Steady.request {port line k} (h : Steady p s₀ s) : Steady p s₀ (s.request port line k) := by
  unfold State.request
  refine .ite (.setMem h) ?_
  split
  next e1 => exact .ofPair (.startReq h) e1
  next e1 => exact .setMem (.ofPair (.startReq h) e1)

theorem Steady.agePromoted {w} (h : Steady p s₀ s) : Steady p s₀ (s.agePromoted w) := .ite (.ucount h) h

theorem Steady.serveWaits (h : Steady p s₀ s) : Steady p s₀ s.serveWaits := by
  unfold State.serveWaits
  refine .foldl (fun _ _ h1 => .ite ?_ h1) h
  split
  next e1 => exact .agePromoted (.setMem (.ofPair (.startReq h1) e1))
  next e1 => exact .ofPair (.startReq h1) e1

theorem Steady.wrNow {port pa bytes} (h : Steady p s₀ s) : Steady p s₀ (s.wrNow port pa bytes) :=
  .setMem (.acceptWrite (.clearRes (.ite (.ite (.emit h) h) (.mergeHolders (.ite (.emit h) h)))))

theorem Steady.wrInvFrom {port pa bytes} (h : Steady p s₀ s) : Steady p s₀ (s.wrInvFrom port pa bytes) := by
  unfold State.wrInvFrom
  exact .ite (.request h) (.wrNow h)

theorem Steady.wrInv {pa bytes} (h : Steady p s₀ s) : Steady p s₀ (s.wrInv pa bytes) := .wrInvFrom h

/-! ### Steady: the manifest journal -/

theorem Steady.wrDev {pa bs} (h : Steady p s₀ s) : Steady p s₀ (s.wrDev pa bs) := .foldl (fun _ _ h1 => .wrInv h1) h

theorem Steady.wrOctets {dense base o octs} (h : Steady p s₀ s) : Steady p s₀ (s.wrOctets dense base o octs) := .wrDev h

theorem Steady.setSess {n m} (h : Steady p s₀ s) : Steady p s₀ (s.setSess n m) := .frame h

theorem Steady.mftSpace {n} (h : Steady p s₀ s) : Steady p s₀ (s.mftSpace n) := by
  unfold State.mftSpace
  refine .ctlMod_of (.ctlMod h) fun v => ?_
  exact lossShown_fone v _ (by decide)

theorem Steady.mftBlock {n} (h : Steady p s₀ s) : Steady p s₀ (s.mftBlock n) := by
  unfold State.mftBlock
  extract_lets
  split
  · exact h
  · exact .mftSpace (.ctlMod (.setSess (.wrOctets h)))

theorem Steady.mftFlush {n f} (h : Steady p s₀ s) : Steady p s₀ (s.mftFlush n f) := by
  induction f generalizing s with
  | zero => exact h
  | succ f ih => exact .ite h (ih (.mftBlock h))

theorem Steady.mftPut {n r} (h : Steady p s₀ s) : Steady p s₀ (s.mftPut n r) := .setSess h

theorem Steady.setMftc {k m} (h : Steady p s₀ s) : Steady p s₀ (s.setMftc k m) := .frame h

theorem Steady.mftRelease {k} (h : Steady p s₀ s) : Steady p s₀ (s.mftRelease k) := by
  unfold State.mftRelease
  split
  · exact .ite h (.foldl (fun _ _ h1 => .mftPut h1) (.setMftc h))
  · exact h

theorem Steady.mftReleaseAll {k} (h : Steady p s₀ s) : Steady p s₀ (s.mftReleaseAll k) := by
  unfold State.mftReleaseAll
  split
  · exact .foldl (fun _ _ h1 => .mftPut h1) (.setMftc h)
  · exact h

theorem Steady.mftEndChunk {k cause} (h : Steady p s₀ s) : Steady p s₀ (s.mftEndChunk k cause) := by
  unfold State.mftEndChunk
  split
  · exact .count (.setMftc (.ctlInc (.ite h (.mftPut h))))
  · exact h

theorem Steady.mftEndInput {n} (h : Steady p s₀ s) : Steady p s₀ (s.mftEndInput n) := .setSess h

theorem Steady.mftEnd {n cause} (h : Steady p s₀ s) : Steady p s₀ (s.mftEnd n cause) :=
  .ite (.event (.mftSpace (.ctlMod (.modCores (.frame (.mftFlush
      (.mftPut (.mftEndInput (.foldl (fun _ _ h1 => .mftReleaseAll (.mftEndChunk h1)) h))))))))) h

theorem Steady.mftEvent {k type data cont} (h : Steady p s₀ s) : Steady p s₀ (s.mftEvent k type data cont) := by
  unfold State.mftEvent
  split
  · exact .ite h (.ite (.mftEnd h) (.ite (.count (.ctlInc (.modCore (.mftPut h)))) (.mftPut h)))
  · exact h

theorem Steady.mftItem {k code v} (h : Steady p s₀ s) : Steady p s₀ (s.mftItem k code v) := by
  unfold State.mftItem
  split
  · exact .setMftc h
  · exact h

theorem Steady.mftOrder {n ea ec la lc} (h : Steady p s₀ s) : Steady p s₀ (s.mftOrder n ea ec la lc) := .mftPut h

theorem Steady.mftMarkAt {k lc line isWrite} (h : Steady p s₀ s) : Steady p s₀ (s.mftMarkAt k lc line isWrite) := by
  unfold State.mftMarkAt
  split
  · refine .ite h ?_
    extract_lets s1 _ s2
    have h1 : Steady p s₀ s1 := .foldl (fun _ _ h2 => .ite (.mftOrder (.mftEndChunk h2)) h2) h
    have h3 : Steady p s₀ s2 := .ite (.mftOrder (.mftEndInput h1)) h1
    split
    · exact .ite (.ite h3 (.setMftc h3)) (.ite h3 (.setMftc h3))
    · exact h3
  · exact h

theorem Steady.mftMark {k line isWrite} (h : Steady p s₀ s) : Steady p s₀ (s.mftMark k line isWrite) := .mftMarkAt h

theorem Steady.mftInput {n line mask source hash} (h : Steady p s₀ s) : Steady p s₀ (s.mftInput n line mask source hash) := by
  unfold State.mftInput
  refine .ite h ?_
  extract_lets s1
  have h1 : Steady p s₀ s1 := .foldl (fun _ _ h2 => .ite (.mftOrder (.mftEndChunk h2)) h2) h
  exact .ite (.mftEndInput (.setSess (.mftPut h1))) (.setSess (.mftPut h1))

/-! ### Steady: the shaper and the Understorey -/

theorem Steady.take {ci c q} (h : Steady p s₀ s) : Steady p s₀ (s.take ci c q) := .foldl (fun _ _ h1 => .frame h1) h

theorem SteadyPair.shape {q} (h : Steady p s₀ s) : SteadyPair p s₀ (s.shape q) := by
  unfold State.shape
  extract_lets
  split
  · exact .mk (.take h)
  · split
    · exact .mk (.take h)
    · exact .mk h

theorem Steady.accepted {q cmp cls now} (h : Steady p s₀ s) : Steady p s₀ (s.accepted q cmp cls now) := .frame h

theorem Steady.offer {q cmp now} (h : Steady p s₀ s) : Steady p s₀ (s.offer q cmp now) := by
  unfold State.offer
  refine .ite h ?_
  split
  next e1 => exact .accepted (.ofPair (.shape h) e1)
  next e1 => exact .frame (.ofPair (.shape h) e1)

theorem SteadyPair.complete {q now} (h : Steady False s₀ s) : SteadyPair False s₀ (s.complete q now) := by
  unfold State.complete
  split
  · exact .mk h
  · refine .ite (.mk (.frame h)) (.ite ?_ (.mk (.ctlInc (.frame h))))
    extract_lets s1 _ s2
    have h1 : Steady False s₀ s1 := .ctlInc (.frame h)
    have h2 : Steady False s₀ s2 := by
      unfold s2
      split
      · exact .ucount (.ite (.count h1) h1)
      · exact .ite (.count h1) h1
    exact .mk (.event h2)

theorem Steady.withdraw {srcKind item} (h : Steady p s₀ s) : Steady p s₀ (s.withdraw srcKind item) := .frame h

theorem Steady.releaseOther {q} (h : Steady p s₀ s) : Steady p s₀ (s.releaseOther q) := by
  unfold State.releaseOther
  split
  · exact h
  · exact .accepted (.frame h)
  · exact .accepted (.frame (.take (.frame h)))

theorem SteadyPair.passWait {q cmp} (h : Steady False s₀ s) : SteadyPair False s₀ (s.passWait q cmp) :=
  .complete (.frame (.ite (.releaseOther (.offer h)) (.offer h)))

theorem Steady.freeLines {lines} (h : Steady p s₀ s) : Steady p s₀ (s.freeLines lines) := .ite h (.setMem (.countUp h))

theorem Steady.leaveX {k seq} (h : Steady p s₀ s) : Steady p s₀ (s.leaveX k seq) := by
  unfold State.leaveX
  exact .modCore (.freeLines h)

theorem Steady.dropX {k seq} (h : Steady p s₀ s) : Steady p s₀ (s.dropX k seq) := .serveWaits (.leaveX h)

theorem Steady.xFault {k x sub addr} (h : Steady p s₀ s) : Steady p s₀ (s.xFault k x sub addr) :=
  .ite (.modCore (.modCore h)) (.dropX (.modCore h))

theorem Steady.xOverrun {k x} (h : Steady p s₀ s) : Steady p s₀ (s.xOverrun k x) := by
  unfold State.xOverrun
  exact .xFault (.mftEvent (.ucount (.ctlInc h)))

theorem Steady.xWrite {g x st} (h : Steady p s₀ s) : Steady p s₀ (s.xWrite g x st) := .ite (.wrNow h) (.wrInvFrom h)

theorem Steady.landX {k x late} (h : Steady p s₀ s) : Steady p s₀ (s.landX k x late) := by
  unfold State.landX
  refine .ite (.xOverrun h) ?_
  split
  · exact .xOverrun h
  · exact .xFault h
  · exact .modCore (.dropX h)
  · extract_lets _ s1 _ _ _ s2
    have h1 : Steady p s₀ s1 := .serveWaits (.foldl (fun _ _ h2 => .mftMark (.xWrite h2)) (.leaveX h))
    have h3 : Steady p s₀ s2 := .modCore (.ite h1 (.mftEvent h1))
    exact .ite (.mftItem (.ite h3 (.mftItem h3))) (.ite h3 (.mftItem h3))

theorem Steady.landXDue {k} (h : Steady p s₀ s) : Steady p s₀ (s.landXDue k) := by
  unfold State.landXDue
  refine .foldl (fun _ _ h1 => ?_) h
  split
  · exact .landX h1
  · exact h1

theorem Steady.landOp {k seq} (h : Steady p s₀ s) : Steady p s₀ (s.landOp k seq) := by
  unfold State.landOp
  split
  · exact .modCore h
  · split
    · exact .landX h
    · exact h

theorem Steady.landOps {k seqs} (h : Steady p s₀ s) : Steady p s₀ (s.landOps k seqs) := .foldl (fun _ _ h1 => .landOp h1) h

theorem Steady.landRest {k} (h : Steady p s₀ s) : Steady p s₀ (s.landRest k) := .ite (.landOps h) h

theorem Steady.sync {k} (h : Steady p s₀ s) : Steady p s₀ (s.sync k) := .frame h

theorem Steady.landLong {k} (h : Steady p s₀ s) : Steady p s₀ (s.landLong k) := .ite h (.landXDue (.modCore h))

theorem Steady.advance {k n} (h : Steady p s₀ s) : Steady p s₀ (s.advance k n) := .sync (.landLong (.modCore h))

theorem Steady.setDropped {k} (h : Steady p s₀ s) : Steady p s₀ (s.setDropped k) := .setUst h

theorem Steady.discardParked {k} (h : Steady p s₀ s) : Steady p s₀ (s.discardParked k) :=
  .ite (.modCore (.setDropped (.serveWaits (.freeLines h)))) h

theorem Steady.discardAll {k} (h : Steady p s₀ s) : Steady p s₀ (s.discardAll k) := by
  unfold State.discardAll
  exact .modCore (.serveWaits (.freeLines (.discardParked h)))

theorem Steady.acceptEntry {k e} (h : Steady p s₀ s) : Steady p s₀ (s.acceptEntry k e) := by
  unfold State.acceptEntry
  extract_lets _ _ _ s1
  have h1 : Steady p s₀ s1 := .ite (.ucount (.foldl (fun _ _ h2 => .setMem h2) (.clearRes h)))
      (.foldl (fun _ _ h3 => .ownedWrite h3) (.gainOwn (.clearRes h)))
  exact .mftMarkAt (.ite (.setMem h1) h1)

theorem Steady.drainNow {k} (h : Steady p s₀ s) : Steady p s₀ (s.drainNow k) := .mftRelease (.modCore (.foldl (fun _ _ h1 => .acceptEntry h1) h))

/-! ### Steady: stopping a core, the range engines, the queues and the DMA engines -/

theorem Steady.stopAt {k} (h : Steady p s₀ s) : Steady p s₀ (s.stopAt k) := by
  unfold State.stopAt
  exact .modCore (.landRest (.advance (.withdraw (.drainNow (.modCore h)))))

theorem Steady.rangeEnd {l3 g i result} (h : Steady p s₀ s) : Steady p s₀ (s.rangeEnd l3 g i result) := .ctlMod (.setMem h)

theorem Steady.rangeAbort {l3 g i} (h : Steady p s₀ s) : Steady p s₀ (s.rangeAbort l3 g i) := by
  unfold State.rangeAbort
  split
  · exact .rangeEnd h
  · exact h

theorem Steady.rangeQuiesce {n} (h : Steady p s₀ s) : Steady p s₀ (s.rangeQuiesce n) := .foldl (fun _ _ h1 => .rangeAbort h1) h

theorem Steady.setQueue {q x} (h : Steady p s₀ s) : Steady p s₀ (s.setQueue q x) := .frame h

theorem Steady.modQueue {q f} (h : Steady p s₀ s) : Steady p s₀ (s.modQueue q f) := .setQueue h

theorem Steady.inWrite {cmp pa bs source hash} (h : Steady p s₀ s) : Steady p s₀ (s.inWrite cmp pa bs source hash) := by
  unfold State.inWrite
  refine .foldl (fun _ _ h1 => ?_) h
  extract_lets
  split
  · exact .mftInput (.wrInv h1)
  · exact .wrInv h1

theorem Steady.qmWord {cmp pa v} (h : Steady p s₀ s) : Steady p s₀ (s.qmWord cmp pa v) := .inWrite h

theorem Steady.notify {q} (h : Steady False s₀ s) : Steady False s₀ (s.notify q) := .ctlMod h

theorem Steady.moveDev {q v} (h : Steady False s₀ s) : Steady False s₀ (s.moveDev q v) :=
  .ite (.notify (.modQueue (.qmWord (.setQueue h)))) (.qmWord (.setQueue h))

theorem Steady.ringPass {engine pa write} (h : Steady False s₀ s) : Steady False s₀ (s.ringPass engine pa write) := by
  unfold State.ringPass
  split
  · split
    · exact .fst (.passWait h)
    · exact h
  · exact h

theorem Steady.putRecord {r} (h : Steady False s₀ s) : Steady False s₀ (s.putRecord r) := .moveDev (.inWrite (.ringPass (.ringPass h)))

theorem Steady.dropRecords (h : Steady p s₀ s) : Steady p s₀ s.dropRecords := .foldl (fun _ _ h1 => .ctlInc h1) (.frame h)

theorem Steady.record1 {r} (h : Steady False s₀ s) : Steady False s₀ (s.record1 r) := .ite (.ctlInc h) (.ite (.frame h) (.putRecord h))

theorem Steady.setEngine {e x} (h : Steady p s₀ s) : Steady p s₀ (s.setEngine e x) := .frame h

theorem Steady.modEngine {e f} (h : Steady p s₀ s) : Steady p s₀ (s.modEngine e f) := .setEngine h

theorem Steady.killReads {e} (h : Steady p s₀ s) : Steady p s₀ (s.killReads e) := .modHep h

theorem Steady.dmaRecord {e status sub faddr} (h : Steady False s₀ s) : Steady False s₀ (s.dmaRecord e status sub faddr) := .record1 h

theorem Steady.dmaQuiesce {n} (h : Steady p s₀ s) : Steady p s₀ (s.dmaQuiesce n) :=
  .frame (.foldl (fun _ _ h1 => .ite (.modEngine (.withdraw (.killReads h1))) h1) h)

theorem Steady.engineMoved {e stays} (h : Steady False s₀ s) : Steady False s₀ (s.engineMoved e stays) :=
  .ite (.setEngine (.setMem h)) (.setEngine
      (.killReads (.ite (.dmaRecord (.setMem h)) (.setMem h))))

theorem Steady.queueMoved {q} (h : Steady p s₀ s) : Steady p s₀ (s.queueMoved q) := .setQueue h

theorem Steady.notifyMoved {moved} (h : Steady p s₀ s) : Steady p s₀ (s.notifyMoved moved) := .frame h

/-! ### Steady: the network and the host port -/

theorem Steady.modNet {f} (h : Steady p s₀ s) : Steady p s₀ (s.modNet f) := .frame h

theorem Steady.setPort {port x} (h : Steady p s₀ s) : Steady p s₀ (s.setPort port x) := .modNet h

theorem Steady.netLoad {port} (h : Steady p s₀ s) : Steady p s₀ (s.netLoad port) := by
  unfold State.netLoad
  extract_lets
  split
  · exact .setPort h
  · exact .ite (.setPort h) (.setPort h)

theorem Steady.cfgOne {fn off bit} (h : Steady p s₀ s) : Steady p s₀ (s.cfgOne fn off bit) := .ite h (.setCfg h)

theorem Steady.errMsg {fn sev ur} (h : Steady p s₀ s) : Steady p s₀ (s.errMsg fn sev ur) := .ite (.emit (.ite (.cfgOne h) h)) h

theorem Steady.aerFirst {fn bit} (h : Steady p s₀ s) : Steady p s₀ (s.aerFirst fn bit) :=
  .ite (.setCfg h) (.modHep (.foldl (fun _ _ h1 => .setCfg h1) (.setCfg h)))

theorem Steady.aer {fn advisory bit} (h : Steady p s₀ s) : Steady p s₀ (s.aer fn advisory bit) := by
  unfold State.aer
  extract_lets _ _ _ s1 _ s2
  have h1 : Steady p s₀ s1 := .cfgOne h
  have h2 : Steady p s₀ s2 := .ite (.cfgOne (.ite h1 (.aerFirst h1))) (.ite h1 (.aerFirst h1))
  exact .ite (.ite (.cfgOne h2) (.errMsg (.cfgOne h2))) (.ite
      (.ite (.cfgOne (.cfgOne h2)) (.ite (.cfgOne (.cfgOne h2)) (.errMsg (.cfgOne (.cfgOne h2)))))
          (.ite (.cfgOne h2) (.errMsg (.cfgOne h2))))

theorem Steady.closedWrite {fn} (h : Steady p s₀ s) : Steady p s₀ (s.closedWrite fn) := .hepCount (.aer h)

theorem Steady.functionMoved {v} (h : Steady p s₀ s) : Steady p s₀ (s.functionMoved v) := .ctlSet (.modHep h)

theorem Steady.hdbMoved {taken} (h : Steady p s₀ s) : Steady p s₀ (s.hdbMoved taken) := .foldl (fun _ _ h1 => .ite (.ctlSet h1) h1) h

theorem Steady.hostQuiesce {n} (h : Steady p s₀ s) : Steady p s₀ (s.hostQuiesce n) :=
  .foldl (fun _ _ h1 => .ite (.foldl (fun _ _ h2 => .closedWrite h2) (.modHep h1)) h1) h

/-! ### Steady: quiesce, a cold start and memory that moves -/

theorem Steady.stopCore {k} (h : Steady p s₀ s) : Steady p s₀ (s.stopCore k) := .ite (.modCore (.stopAt h)) h

theorem Steady.resumeCore {k} (h : Steady p s₀ s) : Steady p s₀ (s.resumeCore k) := .ite (.modCore h) h

theorem Steady.slotReset {k} (h : Steady p s₀ s) : Steady p s₀ (s.slotReset k) := by
  refine .frameCtl h fun _ => ?_
  simp [smFind?_smErase]

theorem Steady.coldCore {k entry ft} (h : Steady p s₀ s) : Steady p s₀ (s.coldCore k entry ft) :=
  .frame (.setCore (.discardAll (.withdraw (.slotReset h))))

theorem Steady.releaseSlot {k} (h : Steady p s₀ s) : Steady p s₀ (s.releaseSlot k) := .setCore (.discardAll (.withdraw (.slotReset h)))

theorem Steady.cellsAfresh {n} (h : Steady p s₀ s) : Steady p s₀ (s.cellsAfresh n) := .foldl (fun _ _ h1 => .setUst h1) h

theorem Steady.mftQuiesce {n} (h : Steady p s₀ s) : Steady p s₀ (s.mftQuiesce n) := .ite (.mftFlush (.foldl (fun _ _ h1 => .mftEndChunk h1) h)) h

theorem Steady.quiesceDevices {n} (h : Steady p s₀ s) : Steady p s₀ (s.quiesceDevices n) := .hostQuiesce (.dmaQuiesce (.rangeQuiesce h))

theorem Steady.quiesce {n ends} (h : Steady p s₀ s) : Steady p s₀ (s.quiesce n ends) := by
  unfold State.quiesce
  extract_lets s1 s2
  have h1 : Steady p s₀ s1 := .foldl (fun _ _ h2 => .stopCore h2) h
  have h3 : Steady p s₀ s2 := by
    unfold s2
    split
    · exact .mftEnd h1
    · exact .mftQuiesce h1
  exact .quiesceDevices h3

theorem Steady.mftStart {n} (h : Steady p s₀ s) : Steady p s₀ (s.mftStart n) :=
  .mftSpace (.foldl (fun _ _ h1 => .setSess (.mftPut h1)) (.mftPut (.foldl (fun _ _ h2 => .setMftc h2)
      (.ctlSet_of (.ctlSet (.ctlSet (.frame (.setSess (.frame h))))) fun _ hl => absurd (lossShown_zero.symm.trans hl) Bool.false_ne_true))))

theorem Steady.moveGranule {g} (h : Steady p s₀ s) : Steady p s₀ (s.moveGranule g) :=
  .setMem (.foldl (fun _ _ h1 => .backInvalidate h1) h)

theorem Steady.zeroWay {w} (h : Steady p s₀ s) : Steady p s₀ (s.zeroWay w) := by
  unfold State.zeroWay
  exact .setMem (.modCores (.emptyWay h))

theorem Steady.loadUst {g} (h : Steady p s₀ s) : Steady p s₀ (s.loadUst g) :=
  .setUst (.setUst (.setMem (.foldl (fun _ _ h1 => .discardAll h1) h)))

theorem Steady.undoMemory {op} (h : Steady p s₀ s) : Steady p s₀ (s.undoMemory op) :=
  .setMem (.foldl (fun _ _ h1 => .wrInv h1) (.foldl (fun _ _ h2 => .foldl (fun _ _ h3 => .ite (.setMem h3) h3) h2)
      (.foldl (fun _ _ h4 => .zeroWay h4) (.foldl (fun _ _ h5 => .moveGranule h5) h))))

theorem Steady.pmuReset {k} (h : Steady False s₀ s) : Steady False s₀ (s.pmuReset k) := .frameCtl h False.elim

theorem Steady.emptyStand {stand} (h : Steady p s₀ s) : Steady p s₀ (s.emptyStand stand) := .foldl (fun _ _ h1 => .l2Evict h1) h

end
end Sys2Proof.Machine
end

section
/-!
PROOF. How a compartment changes its state, and the operations of the CHT frame (O39).
-/
namespace Sys2Proof.Machine

-- One theorem after another: elaborated at once, they wait for one another in as many threads, and the stacks alone are gigabytes.
set_option Elab.async false

section
variable {p : Prop} {s₀ s t : State} {n m : Nat} {c : CmpState}

/-! ### What `still` and `Steady` say of each part of the state -/

theorem live_of_still (h : t.still = s.still) : t.live = s.live := (congrArg State.live h :)

theorem store_of_still (h : t.still = s.still) : t.store = s.store := (congrArg State.store h :)

theorem generation_of_still (h : t.still = s.still) : t.generation = s.generation := (congrArg State.generation h :)

theorem cht_of_still (h : t.still = s.still) : t.cht = s.cht := (congrArg State.cht h :)

theorem pwr_of_still (h : t.still = s.still) : t.pwr = s.pwr := (congrArg State.pwr h :)

theorem cmpSec_of_still (h : t.still = s.still) : t.cmpSec n = s.cmpSec n := congrArg (·.cmpSec n) (live_of_still h)

/-- A compartment that may run still may: the state of the pair is what it was, and no split has been lost. -/
theorem Steady.mayRaise (h : Steady p s₀ s) (hp : p) (hr : s₀.mayRaise n = true) : s.mayRaise n = true := by
  have pair : s.links.pair = s₀.links.pair := (congrArg (·.links.pair) h.still :)
  have active : s.links.active = s₀.links.active := (congrArg (·.links.active) h.still :)
  have spanOff : s.links.spanOff = s₀.links.spanOff := (congrArg (·.links.spanOff) h.still :)
  have lost : s₀.lastLost = false → s.lastLost = false := by
    simpa only [Bool.not_eq_true] using mt (h.lost hp)
  unfold State.mayRaise at hr ⊢
  rw [live_of_still h.still, pair, active, spanOff]
  split at hr
  · rfl
  · exact hr
  · simp only [Bool.and_eq_true, Bool.not_eq_true', Bool.and_eq_false_iff] at hr ⊢
    exact ⟨hr.1, hr.2.imp_right lost⟩

/-! ### A compartment enters a state -/

theorem Steady.setCmpState (h : Steady p s₀ s) : Steady p (s₀.setCmpState n c) (s.setCmpState n c) :=
  ⟨h.still, fun m => by rw [State.cmpState_setCmpState, State.cmpState_setCmpState, h.cmpState], h.lost⟩

theorem Steady.setCmpState_self : Steady p (s.setCmpState n (s.cmpState n)) s :=
  ⟨rfl, fun m => by rw [State.cmpState_setCmpState]; split <;> simp_all, fun _ => id⟩

theorem enterCmp_steady : Steady p (s.setCmpState n c) (s.enterCmp n c) := by
  unfold State.enterCmp
  split
  next e => exact e ▸ .setCmpState_self
  · exact .event .refl

theorem resumeCmp_steady : Steady p (s.setCmpState n .running) (s.resumeCmp n) :=
  .trans (.setCmpState (.foldl (fun _ _ h => .resumeCore h) .refl)) enterCmp_steady

theorem raise_steady {byStart : Bool} (hc : (s.cmpSec n).isSome) : Steady p (s.setCmpState n .running) (s.raise n byStart) := by
  obtain ⟨x, hx⟩ := Option.isSome_iff_exists.mp hc
  unfold State.raise
  rw [hx]
  refine .trans (.setCmpState ?_) enterCmp_steady
  exact .cellsAfresh (.foldl (fun _ _ h => .coldCore h) (.ite (.mftStart (.ite (.mftEnd .refl) .refl)) (.ite (.mftEnd .refl) .refl)))

/-- `t` is `s` with a new state for compartment n, and what traffic changes. -/
def Enters (p : Prop) (s : State) (n : Nat) (t : State) : Prop := ∃ c, Steady p (s.setCmpState n c) t

theorem Steady.enters (h : Steady p (s.setCmpState n c) t) : Enters p s n t := ⟨c, h⟩

theorem Enters.of_steady (h : Steady p s t) : Enters p s n t := ⟨_, .trans .setCmpState_self h⟩

theorem Enters.still (h : Enters p s n t) : t.still = s.still := by
  obtain ⟨_, h⟩ := h
  exact h.still

theorem Enters.cmpState (h : Enters p s n t) (ne : n ≠ m) : t.cmpState m = s.cmpState m := by
  obtain ⟨_, h⟩ := h
  rw [h.cmpState, State.cmpState_setCmpState, if_neg ne]

theorem Enters.mayRaise (h : Enters p s n t) (hp : p) (hr : s.mayRaise m = true) : t.mayRaise m = true := by
  obtain ⟨_, h⟩ := h
  exact h.mayRaise hp hr

theorem Steady.cmpState_entered (h : Steady p (s.setCmpState n c) t) : t.cmpState n = c := by
  rw [h.cmpState, State.cmpState_setCmpState, if_pos rfl]

/-! ### One function for each target -/

section
variable {f : State → Nat → State}

theorem foldl_still (enters : ∀ s m, Enters p s m (f s m)) (l : List Nat) (s : State) : (l.foldl f s).still = s.still :=
  foldl_keeps (p := fun t => t.still = s.still) (fun _ _ h => (enters _ _).still.trans h) l s rfl

/-- A target in state `a` is in state `b` when the function that takes it from `a` to `b` has been applied to every target. -/
theorem foldl_cmpState {a b : CmpState} {Q : State → Prop} (enters : ∀ s m, Enters p s m (f s m)) (keep : ∀ s m, Q s → Q (f s m))
    (go : ∀ s, Q s → s.cmpState n = a → (f s n).cmpState n = b) (stay : ∀ s, s.cmpState n = b → (f s n).cmpState n = b)
    {l : List Nat} (hn : n ∈ l) (hq : Q s) (ha : s.cmpState n = a) : (l.foldl f s).cmpState n = b := by
  induction l generalizing s with
  | nil => cases hn
  | cons m l ih =>
    by_cases e : m = n
    · subst e
      refine foldl_keeps (p := fun t : State => t.cmpState m = b) (fun (t : State) k ht => ?_) l _ (go s hq ha)
      by_cases ek : k = m
      · exact ek ▸ stay t (ek ▸ ht)
      · exact ((enters t k).cmpState ek).trans ht
    · have hn' : n ∈ l := (List.mem_cons.mp hn).resolve_left (Ne.symm e)
      exact ih hn' (keep s m hq) (((enters s m).cmpState e).trans ha)

end
end

/-! ### The end of an operation -/

section
variable {s t : State} {op : ChtOp} {off : Nat}

theorem sendInts_ctl (fn : Nat) : (s.sendInts fn).ctl = s.ctl := by
  unfold State.sendInts
  refine foldl_keeps (p := fun t => t.ctl = s.ctl) (fun t v h => ?_) _ s rfl
  split <;> exact h

theorem ite_ctl {c : Prop} [Decidable c] {m : SMap Reg32} (h : s.ctl = m) (h' : t.ctl = m) : (if c then s else t).ctl = m := by
  split <;> assumption

theorem intaSync_ctl (before : State) : (s.intaSync before).ctl = s.ctl := by
  refine foldl_keeps (p := fun t => t.ctl = s.ctl) (fun t fn h => ?_) _ s rfl
  exact ite_ctl h h

theorem ctlGet_of_ctl (h : t.ctl = s.ctl) : t.ctlGet off = s.ctlGet off := by
  unfold State.ctlGet
  rw [h]

/-- An interrupt to the host writes one register. -/
theorem irq_ctlGet (fn vec : Nat) (ne : off ≠ o_hepP0Intpend) : (s.irq fn vec).ctlGet off = s.ctlGet off := by
  unfold State.irq
  split
  · dsimp only
    rw [ctlGet_of_ctl (intaSync_ctl s)]
    split
    · simp [State.ctlMod, Ne.symm ne]
    · rfl
  · rw [ctlGet_of_ctl (sendInts_ctl fn)]
    rfl

theorem recordOne_ctl (cls code die addr info aux : Nat) : (s.recordOne cls code die none addr info aux).ctl = s.ctl := by
  unfold State.recordOne
  refine ite_ctl rfl (ite_ctl rfl ?_)
  split
  · rfl
  · exact ite_ctl rfl rfl

theorem record_ctl (cls code die addr info aux : Nat) : (s.record cls code die none addr info aux).ctl = s.ctl :=
  ite_ctl (recordOne_ctl ..) ((recordOne_ctl ..).trans (recordOne_ctl ..))

/-- An event of no compartment writes no register but the host's pending interrupts. -/
theorem event_ctlGet (cls code die addr info aux : Nat) (ne : off ≠ o_hepP0Intpend) :
    (s.event cls code die none addr info aux).ctlGet off = s.ctlGet off := by
  have record := ctlGet_of_ctl (off := off) (record_ctl (s := s) cls code die addr info aux)
  unfold State.event
  dsimp only
  split
  · exact (irq_ctlGet _ _ ne).trans record
  · exact record

/-- RAISE_SVN writes registers of the security block alone. -/
theorem svnWaits_ctlGet (h : off < 0x60000) : s.svnWaits.ctlGet off = s.ctlGet off := by
  have status : o_secStatus ≠ off := by unfold o_secStatus; omega
  have result : o_secResult ≠ off := by unfold o_secResult; omega
  have provdata : ∀ i, o_secProvdata i ≠ off := fun i => by unfold o_secProvdata; omega
  unfold State.svnWaits State.raiseSvn
  split
  · refine foldl_keeps (p := fun t : State => t.ctlGet off = s.ctlGet off) (fun t i ht => ?_) _ _ ?_
    · rw [State.ctlGet_ctlSet, if_neg (provdata i), ht]
    · simp only [State.ctlMod, State.ctlGet_ctlSet, if_neg status, if_neg result]
      rfl
  · rfl

theorem Steady.svnWaits {s₀} (h : Steady False s₀ s) : Steady False s₀ s.svnWaits :=
  .ite (.foldl (fun _ _ h1 => .ctlSet h1) (.ctlMod (.ctlSet (.frame h)))) h

theorem Steady.dropCht {p s₀} (h : Steady p s₀ s) : Steady p { s₀ with cht := none } { s with cht := none } :=
  ⟨congrArg (fun t : State => { t with cht := none }) h.still, h.cmpState, h.lost⟩

/-- The end of an operation leaves none in progress, and changes registers and the event log besides. -/
theorem chtEnd_steady {code sec : Nat} : Steady False { s with cht := none } (s.chtEnd op code sec) := by
  unfold State.chtEnd
  exact .svnWaits (.event (.dropCht (.ctlMod (.ctlSet .refl))))

/-- RESULT shows the code (Table 2-10). -/
theorem chtEnd_code {code : Nat} (hcode : code < 256) (hstep : op.step < 16) :
    fget ((s.chtEnd op code noSection).ctlGet o_chtResult) 31 24 = code := by
  unfold State.chtEnd
  extract_lets v s1 s2
  have kept : ({ s2 with cht := none } : State).ctlGet o_chtResult = r32 v := by
    rw [ctlGet_of_ctl (t := { s2 with cht := none }) (s := s2) rfl]
    simp [s2, s1, State.ctlMod, o_chtStatus, o_chtResult]
  have inFrame : o_chtResult < 0x60000 := by unfold o_chtResult; omega
  have other : o_chtResult ≠ o_hepP0Intpend := by unfold o_chtResult o_hepP0Intpend; omega
  rw [svnWaits_ctlGet inFrame, event_ctlGet _ _ _ _ _ _ other, kept, fget, r32, BitVec.toNat_ofNat]
  unfold v noSection
  omega

/-- An operation has ended with a code: none is in progress, and RESULT shows it. -/
def Ended (t : State) (code : Nat) : Prop := t.cht = none ∧ fget (t.ctlGet o_chtResult) 31 24 = code

theorem chtEnd_ended {code : Nat} (hcode : code < 256) (hstep : op.step < 16) : Ended (s.chtEnd op code noSection) code :=
  ⟨cht_of_still chtEnd_steady.still, chtEnd_code hcode hstep⟩

theorem chtEnd_cmpState {code sec n : Nat} : (s.chtEnd op code sec).cmpState n = s.cmpState n := chtEnd_steady.cmpState n

theorem chtEnd_live {code sec : Nat} : (s.chtEnd op code sec).live = s.live := live_of_still (s := { s with cht := none }) chtEnd_steady.still

theorem chtEnd_store {code sec : Nat} : (s.chtEnd op code sec).store = s.store := store_of_still (s := { s with cht := none }) chtEnd_steady.still

theorem chtEnd_pwr {code sec : Nat} : (s.chtEnd op code sec).pwr = s.pwr := pwr_of_still (s := { s with cht := none }) chtEnd_steady.still

end
end Sys2Proof.Machine
end

section
/-!
PROOF. The operations of the CHT frame, case by case (O39).
-/
namespace Sys2Proof.Machine

-- One theorem after another: elaborated at once, they wait for one another in as many threads, and the stacks alone are gigabytes.
set_option Elab.async false

section
variable {s t : State} {op : ChtOp} {n : Nat}

/-! ### A Park request that has waited -/

theorem parkDue_of_busy (h : s.cht.isSome) : s.parkDue = s := by
  have : s.parkReady = false := by simp [State.parkReady, Option.isSome_iff_ne_none.mp h]
  simp [State.parkDue, this]

theorem Ended.ctlMod {code off : Nat} {f : Reg32 → Reg32} (h : Ended s code) (ne : off ≠ o_chtResult) : Ended (s.ctlMod off f) code := by
  refine ⟨h.1, ?_⟩
  rw [State.ctlMod, State.ctlGet_ctlSet, if_neg ne]
  exact h.2

/-- The grace period of Park begins with notices to the compartments alone. -/
theorem parkDue_keeps {code : Nat} (h : Ended s code) : Ended s.parkDue code ∧ ∀ n, s.parkDue.cmpState n = s.cmpState n := by
  have notice : ∀ m, o_chtKnote m ≠ o_chtResult := fun m => by unfold o_chtKnote o_chtResult; omega
  unfold State.parkDue
  split
  · refine foldl_keeps (p := fun t : State => Ended t code ∧ ∀ n, t.cmpState n = s.cmpState n) (fun t m ht => ?_) _ _ ⟨h, fun _ => rfl⟩
    split
    · exact ⟨ht.1.ctlMod (notice m.id), ht.2⟩
    · exact ht
  · exact ⟨h, fun _ => rfl⟩

theorem execApply_eq {ev : ChtEv} (h : (s.applyEv ev).pwr = s.pwr) : exec (.apply ev) s = .next (s.applyEv ev).parkDue := by
  change execApply ev s = _
  unfold execApply
  simp only
  rw [h, if_neg]
  rintro ⟨boot, run⟩
  rw [boot] at run
  cases run

/-! ### GO -/

/-- The value that a command of the frame writes to CHT.CTRL: GO, OP and CMP. -/
theorem chtCommand_fields {k : Nat} (hk : k ≤ 4) (hn : n < 32) :
    fget (r32 (2 ^ 31 + k * 2 ^ 24 + n)) 27 24 = k ∧ fget (r32 (2 ^ 31 + k * 2 ^ 24 + n)) 4 0 = n ∧
    fbit (r32 (2 ^ 31 + k * 2 ^ 24 + n)) 31 = true ∧ fbit (r32 (2 ^ 31 + k * 2 ^ 24 + n)) 30 = false ∧
    fbit (r32 (2 ^ 31 + k * 2 ^ 24 + n)) 20 = false := by
  simp only [fget, fbit, r32, BitVec.toNat_ofNat, BitVec.getLsbD_ofNat, Nat.testBit_eq_decide_div_mod_eq]
  refine ⟨by omega, by omega, ?_, ?_, ?_⟩ <;> simp <;> omega

/-- A GO of the frame while nothing is in progress begins the operation. -/
theorem chtWrite_go {who : Sender} {k : Nat} {v : Reg32} {together : Bool} (hv : v = r32 (2 ^ 31 + k * 2 ^ 24 + n)) (hc : s.cht = none)
    (hk : 0 < k) (hk' : k ≤ 4) (hn : n < 32) :
    s.chtWrite who v together = (s.ctlSet o_chtCtrl (v &&& 0x0F10001F)).chtGo k (s.submitter who) v together := by
  obtain ⟨op, -, go, abort, space⟩ := chtCommand_fields hk' hn
  rw [← hv] at op go abort space
  have op0 : (k == 0) = false := by simp; omega
  unfold State.chtWrite
  simp only [op, go, abort, space, hc, op0]
  rw [if_neg (by simp; omega)]
  rfl

/-- CHT.STATUS as an operation begins: BUSY, and who has submitted it (Table 2-9). -/
def State.chtBusy (s : State) (sub : Option Nat) : State := s.ctlMod o_chtStatus (fun w => fset (fone w 31 true) 21 16 (sub.getD 63))

/-- APPLY begins with its fetch. -/
theorem chtGo_apply (sub : Option Nat) (v : Reg32) (together : Bool) :
    let t := s.chtGo 1 sub v together
    t.live = s.live ∧ t.pwr = s.pwr ∧ fbit (t.ctlGet o_chtStatus) 31 = true ∧
      ∃ op, t.cht = some op ∧ op.kind = .apply ∧ op.step = 1 ∧ op.submitter = sub := by
  refine ⟨rfl, rfl, ?_, _, rfl, rfl, rfl, rfl⟩
  have ctl : (s.chtGo 1 sub v together).ctl = (((s.chtBusy sub).setTargets []).ctlMod o_chtStatus (fun v => fset v 27 24 1)).ctl := rfl
  have other : o_chtTargets ≠ o_chtStatus := by decide
  rw [ctlGet_of_ctl ctl]
  simp only [State.chtBusy, State.setTargets, State.ctlMod, State.ctlGet_ctlSet, if_neg other, if_true]
  rw [fbit_fset _ _ _ _ (by decide), fbit_fset _ _ _ _ (by decide), fbit_fone _ _ _ (by decide)]
  rfl

section
variable {k : Nat} {sub : Option Nat} {v : Reg32} {together : Bool}

/-- The kinds of operation that name one compartment. -/
theorem stopKind_ne_apply (hk : 2 ≤ k) : stopKind k ≠ .apply := by
  match k, hk with
  | 2, _ => decide
  | 3, _ => decide
  | _ + 4, _ => exact fun h => by cases h

theorem chtGo_absent (hk : 2 ≤ k) (hn : fget v 4 0 = n) (hc : s.cmpSec n = none) : Ended (s.chtGo k sub v together) 9 := by
  subst hn
  have none : ((s.chtBusy sub).cmpSec (fget v 4 0)).isNone = true := Option.isNone_iff_eq_none.mpr hc
  have e : ∃ op : ChtOp, op.step = 0 ∧ s.chtGo k sub v together = (s.chtBusy sub).chtEnd op 9 noSection :=
    ⟨_, rfl, (if_neg (stopKind_ne_apply hk)).trans (if_pos none)⟩
  obtain ⟨op, step, e⟩ := e
  exact e ▸ chtEnd_ended (by decide) (by omega)

/-- The submitter names a compartment that exists, and is entitled to (R58). -/
def State.known (s : State) (sub : Option Nat) (n : Nat) : Prop := (s.cmpSec n).isSome = true ∧ s.mayName sub n = true

theorem State.known.present (h : s.known sub n) : ¬ (s.cmpSec n).isNone = true := by simp [Option.isSome_iff_ne_none.mp h.1]

theorem State.known.named (h : s.known sub n) : ¬ (!s.mayName sub n) = true := by simp [h.2]

theorem Steady.known {p s'} (hs : Steady p s s') (h : s.known sub n) : s'.known sub n := by
  have sec : ∀ m, s'.cmpSec m = s.cmpSec m := fun _ => cmpSec_of_still hs.still
  simpa only [State.known, State.mayName, sec] using h

theorem chtGo_stop (hn : fget v 4 0 = n) (h : s.known sub n) (hc : s.cmpState n = .running) :
    let t := s.chtGo 2 sub v together
    t.cmpState n = .stopping ∧ ∃ op, t.cht = some op ∧ op.kind = .stop ∧ op.targets = [n] := by
  subst hn
  intro t
  have e : ∃ (s' : State) (op : ChtOp), s'.cht = some op ∧ op.kind = .stop ∧ op.targets = [fget v 4 0] ∧ t = s'.enterCmp (fget v 4 0) .stopping := by
    unfold t State.chtGo
    extract_lets kind n s1 op s2 c
    have present : ¬ (s1.cmpSec n).isNone = true := h.present
    have named : ¬ (!s1.mayName sub n) = true := h.named
    rw [if_neg (stopKind_ne_apply (Nat.le_refl 2)), if_neg present, if_neg named]
    exact ⟨_, _, rfl, rfl, rfl, (if_pos hc).trans (if_pos hc)⟩
  obtain ⟨s', op, hop, kind, targets, e⟩ := e
  have entered : Steady False (s'.setCmpState (fget v 4 0) .stopping) t := e ▸ enterCmp_steady
  exact ⟨entered.cmpState_entered, op, (cht_of_still entered.still).trans hop, kind, targets⟩

/-- CHT.STATUS and CHT.TARGETS have no part in what a compartment may do. -/
theorem chtBusy_steady : Steady True s ((s.chtBusy sub).setTargets [n]) :=
  .ctlSet (.ctlMod .refl (fun _ => by decide)) (fun _ => by decide)

theorem chtGo_start (hn : fget v 4 0 = n) (h : s.known sub n) (hc : s.cmpState n = .stopped ∨ s.cmpState n = .halted) (hr : s.mayRaise n = true) :
    let t := s.chtGo 3 sub v false
    t.cmpState n = .running ∧ Ended t 0 := by
  subst hn
  intro t
  have begun : Steady True s ((s.chtBusy sub).setTargets [fget v 4 0]) := chtBusy_steady
  have e : ∃ op : ChtOp, op.step = 7 ∧ t = (((s.chtBusy sub).setTargets [fget v 4 0]).raise (fget v 4 0) true).chtEnd op 0 noSection := by
    unfold t State.chtGo
    extract_lets kind n s1 op s2 c
    have present : ¬ (s1.cmpSec n).isNone = true := h.present
    have named : ¬ (!s1.mayName sub n) = true := h.named
    have raised : s2.startCmp n true = s2.raise n true := if_pos (begun.mayRaise trivial hr)
    rw [if_neg (stopKind_ne_apply (Nat.le_succ 2)), if_neg present, if_neg named]
    refine ⟨op, rfl, (if_pos hc).trans ?_⟩
    exact congrArg (·.chtEnd op 0 noSection) raised
  have present : (((s.chtBusy sub).setTargets [fget v 4 0]).cmpSec (fget v 4 0)).isSome = true := h.1
  obtain ⟨op, step, e⟩ := e
  rw [e]
  exact ⟨chtEnd_cmpState.trans (raise_steady (p := False) present).cmpState_entered, chtEnd_ended (by decide) (by omega)⟩

theorem chtGo_resume (hn : fget v 4 0 = n) (h : s.known sub n) (hc : s.cmpState n = .stopped) (hr : s.mayRaise n = true) :
    let t := s.chtGo 4 sub v together
    t.cmpState n = .running ∧ Ended t 0 := by
  subst hn
  intro t
  have begun : Steady True s ((s.chtBusy sub).setTargets [fget v 4 0]) := chtBusy_steady
  have e : ∃ op : ChtOp, op.step = 7 ∧ t = (((s.chtBusy sub).setTargets [fget v 4 0]).resumeCmp (fget v 4 0)).chtEnd op 0 noSection := by
    unfold t State.chtGo
    extract_lets kind n s1 op s2 c
    have present : ¬ (s1.cmpSec n).isNone = true := h.present
    have named : ¬ (!s1.mayName sub n) = true := h.named
    rw [if_neg (stopKind_ne_apply (by decide)), if_neg present, if_neg named]
    exact ⟨op, rfl, if_pos ⟨hc, begun.mayRaise trivial hr⟩⟩
  obtain ⟨op, step, e⟩ := e
  rw [e]
  exact ⟨chtEnd_cmpState.trans (resumeCmp_steady (p := False)).cmpState_entered, chtEnd_ended (by decide) (by omega)⟩

end

/-! ### STOP ends -/

theorem chtQuiesce_enters {ends : Option Nat} (s : State) (m : Nat) : Enters False s m
    (match s.cmpState m with
      | .stopping => (s.quiesce m ends).enterCmp m .stopped
      | .halted => s.quiesceDevices m
      | _ => s) := by
  split
  · exact (Steady.trans (.setCmpState (.quiesce .refl)) enterCmp_steady).enters
  · exact .of_steady (.quiesceDevices .refl)
  · exact .of_steady .refl

/-- Targets that were STOPPING are STOPPED. -/
theorem chtQuiesce_cmpState {l : List Nat} {ends : Option Nat} (hn : n ∈ l) (h : s.cmpState n = .stopping) :
    (s.chtQuiesce l ends).cmpState n = .stopped := by
  unfold State.chtQuiesce
  refine foldl_cmpState (p := False) (Q := fun _ => True) chtQuiesce_enters (fun _ _ _ => trivial) (fun s _ h => ?_) (fun s h => ?_) hn trivial h
  · simp only [h]
    exact (Steady.trans (.setCmpState (.quiesce .refl)) enterCmp_steady : Steady False (s.setCmpState n .stopped) _).cmpState_entered
  · simp only [h]

theorem stop_next (hs : s.cht = some op) (hk : op.kind = .stop) (hstep : op.step ≤ 7) (hq : s.chtStoppable op = true) :
    After (.stop .next) s fun t => Ended t 0 ∧ ∀ n ∈ op.targets, s.cmpState n = .stopping → t.cmpState n = .stopped := by
  have e : exec (.stop .next) s = .next ((s.chtQuiesce op.targets none).chtEnd op 0 noSection) := by
    change execStop .next s = _
    simp only [execStop, hs, hk, hq, and_self, if_true]
  exact ⟨_, e, chtEnd_ended (by decide) (by omega), fun n hn h => chtEnd_cmpState.trans (chtQuiesce_cmpState hn h)⟩

/-! ### The release of the targets -/

theorem chtRelease_enters {cold : Nat → Bool} (s : State) (m : Nat) : Enters True s m
    (if s.cmpState m ≠ .changing then s
      else if !s.mayRaise m then s.enterCmp m .stopped
      else if cold m then s.raise m false
      else s.resumeCmp m) := by
  split
  · exact .of_steady .refl
  · split
    · exact enterCmp_steady.enters
    · split
      · by_cases hc : (s.cmpSec m).isSome
        · exact (raise_steady hc).enters
        · have : s.raise m false = s := by
            unfold State.raise
            rw [Option.not_isSome_iff_eq_none.mp hc]
          exact this.symm ▸ .of_steady .refl
      · exact resumeCmp_steady.enters

theorem chtRelease_still {cold : Nat → Bool} : (s.chtRelease op cold).still = s.still := foldl_still chtRelease_enters _ _

/-- Targets that may run, and were CHANGING, are RUNNING. -/
theorem chtRelease_cmpState {cold : Nat → Bool} (hn : n ∈ op.targets) (h : s.cmpState n = .changing) (hr : s.mayRaise n = true)
    (hc : (s.cmpSec n).isSome = true) : (s.chtRelease op cold).cmpState n = .running := by
  unfold State.chtRelease
  refine foldl_cmpState (Q := fun t => t.mayRaise n = true ∧ (t.cmpSec n).isSome = true) chtRelease_enters (fun s m hq => ?_)
    (fun s hq h => ?_) (fun s h => ?_) hn ⟨hr, hc⟩ h
  · have entered := chtRelease_enters (cold := cold) s m
    exact ⟨entered.mayRaise trivial hq.1, (cmpSec_of_still entered.still).symm ▸ hq.2⟩
  · rw [if_neg (by simp [h]), if_neg (by simp [hq.1])]
    split
    · exact (raise_steady (p := False) hq.2).cmpState_entered
    · exact (resumeCmp_steady (p := False)).cmpState_entered
  · simp [h]

theorem applyNext_release (hf : op.full = false) (hstep : op.step = 7) :
    s.applyNext op = (s.chtRelease op (op.cold.contains ·)).chtEnd op 0 noSection := by
  unfold State.applyNext
  simp only [hstep]
  unfold State.chtReleaseStep
  simp only [hf]
  rfl

theorem apply_release (hs : s.cht = some op) (hf : op.full = false) (hk : op.kind = .apply) (hstep : op.step = 7) :
    After (.apply .next) s fun t => Ended t 0 ∧
      ∀ n ∈ op.targets, s.cmpState n = .changing → s.mayRaise n = true → (s.cmpSec n).isSome → t.cmpState n = .running := by
  have e : s.applyEv .next = (s.chtRelease op (op.cold.contains ·)).chtEnd op 0 noSection := by
    rw [← applyNext_release hf hstep]
    simp only [State.applyEv, hs, hk, if_true]
  have ended : Ended (s.applyEv .next) 0 := e ▸ chtEnd_ended (by decide) (by omega)
  have pwr : (s.applyEv .next).pwr = s.pwr := by
    rw [e, chtEnd_pwr]
    exact pwr_of_still chtRelease_still
  obtain ⟨parked, cmps⟩ := parkDue_keeps ended
  refine ⟨_, execApply_eq pwr, parked, fun n hn h hr hc => ?_⟩
  rw [cmps, e, chtEnd_cmpState]
  exact chtRelease_cmpState hn h hr hc

/-! ### The commit -/

/-- The generations after a commit that names the compartments of a list as targets (Table 2-11). -/
def raiseGenerations (l : List Nat) (g : SMap Nat) : SMap Nat := l.foldl (fun g n => smPut 0 g n ((smGet 0 g n + 1) % 65536)) g

theorem smGet_raiseGenerations_of_notMem {l : List Nat} {g : SMap Nat} (h : n ∉ l) : smGet 0 (raiseGenerations l g) n = smGet 0 g n := by
  induction l generalizing g with
  | nil => rfl
  | cons m l ih =>
    obtain ⟨ne, h⟩ := not_or.mp (mt List.mem_cons.mpr h)
    exact (ih h).trans (by rw [smGet_smPut, if_neg (Ne.symm ne)])

theorem smGet_raiseGenerations {l : List Nat} {g : SMap Nat} (nodup : l.Nodup) (h : n ∈ l) :
    smGet 0 (raiseGenerations l g) n = (smGet 0 g n + 1) % 65536 := by
  induction l generalizing g with
  | nil => cases h
  | cons m l ih =>
    obtain ⟨hm, nodup⟩ := List.nodup_cons.mp nodup
    by_cases e : n = m
    · subst e
      exact (smGet_raiseGenerations_of_notMem hm).trans (by rw [smGet_smPut, if_pos rfl])
    · exact (ih nodup ((List.mem_cons.mp h).resolve_left e)).trans (by rw [smGet_smPut, if_neg (Ne.symm e)])

/-- The one write of the Chart store, and what it puts in force (R61). -/
theorem chtCommit_update (hf : op.full = false) :
    let t := s.chtCommit op
    t.live = s.chtNext op ∧ t.store = some (s.chtNext op) ∧ t.generation = raiseGenerations op.targets s.generation ∧ t.pwr = s.pwr := by
  intro t
  unfold t State.chtCommit
  extract_lets old ch gen mv cores s1 s2 s3 s4 s5 s6 s7 s8 s9 s10 s11
  rw [if_neg (by simp [hf])]
  have moved : Steady False s s6 :=
    .foldl (fun _ _ h => .pmuReset (.releaseSlot (.emptyStand h))) (.foldl (fun _ _ h => .functionMoved h) (.foldl (fun _ _ h => .queueMoved h)
      (.foldl (fun _ _ h => .engineMoved h) (.hdbMoved (.notifyMoved .refl)))))
  have loaded : Steady False { s6 with live := ch, store := some ch, buckets := [] } s10 :=
    .modHep (.foldl (fun _ _ h => .netLoad h) (.foldl (fun _ _ h => .loadUst h) (.dropRecords .refl)))
  have entered : s11.still = s10.still :=
    foldl_still (p := False) (fun s m => by
      split
      · exact ⟨_, .refl⟩
      · exact .of_steady .refl) op.targets s10
  have still := entered.trans loaded.still
  have pwr : s6.pwr = s.pwr := pwr_of_still moved.still
  have generation : s6.generation = s.generation := generation_of_still moved.still
  exact ⟨live_of_still still, store_of_still still, congrArg (raiseGenerations op.targets) ((generation_of_still still).trans generation),
    (pwr_of_still still).trans pwr⟩

/-- Step 6 of APPLY has been performed: the update is in force and in the store, its targets have new generations, and step 7 begins. -/
def Committed (s : State) (op : ChtOp) (t : State) : Prop :=
  t.live = s.chtNext op ∧ t.store = some (s.chtNext op) ∧ (∃ op', t.cht = some op' ∧ op'.step = 7) ∧
    (op.targets.Nodup → ∀ n ∈ op.targets, smGet 0 t.generation n = (smGet 0 s.generation n + 1) % 65536)

theorem chtCommitStep_committed (hf : op.full = false) : Committed s op (s.chtCommitStep op) ∧ (s.chtCommitStep op).pwr = s.pwr := by
  obtain ⟨live, store, generation, pwr⟩ := chtCommit_update (s := s) hf
  refine ⟨⟨live, store, ⟨_, rfl, rfl⟩, fun nodup n hn => ?_⟩, pwr⟩
  exact (congrArg (smGet 0 · n) generation).trans (smGet_raiseGenerations nodup hn)

theorem apply_commit (hs : s.cht = some op) (hf : op.full = false) (hk : op.kind = .apply) (hstep : op.step = 6) (hp : s.paired op = false) :
    After (.apply .next) s (Committed s op) := by
  have e : s.applyEv .next = s.chtCommitStep op := by
    simp only [State.applyEv, hs, hk, State.applyNext, hstep, hp, if_true]
    rfl
  obtain ⟨committed, pwr⟩ := chtCommitStep_committed (s := s) hf
  refine ⟨_, execApply_eq (e ▸ pwr), ?_⟩
  rw [e, parkDue_of_busy]
  · exact committed
  · rfl

theorem partnerCommitSignal_commit (hs : s.cht = some op) (hf : op.full = false) (hstep : op.step = 6) (hp : s.paired op = true)
    (hi : s.live.pairIndex = 1) : After .partnerCommitSignal s (Committed s op) := by
  refine ⟨_, ?_, (chtCommitStep_committed hf).1⟩
  change execPartnerCommitSignal s = _
  unfold execPartnerCommitSignal
  simp only [hs, hstep, hp, hi, and_self, if_true]

/-! ### Reversal -/

theorem releaseSaved_enters (s : State) (m : Nat) : Enters False s m (s.releaseSaved op m) := by
  have go : Enters False s m (if s.mayRaise m then s.resumeCmp m else s.enterCmp m .stopped) := by
    split
    · exact resumeCmp_steady.enters
    · exact enterCmp_steady.enters
  unfold State.releaseSaved
  split
  · exact resumeCmp_steady.enters
  · exact go
  · dsimp only
    split
    · exact enterCmp_steady.enters
    · exact go
  · exact .of_steady .refl

/-- An operation has been reversed: it has ended with a code, and the Chart in force and the store are as they were. -/
def Reversed (s : State) (code : Nat) (t : State) : Prop := Ended t code ∧ t.live = s.live ∧ t.store = s.store

theorem chtReverse_reversed {code : Nat} (hf : op.full = false) (hstep : op.step < 16) (hcode : code < 256) :
    Reversed s code (s.chtReverse op code noSection) := by
  unfold State.chtReverse
  extract_lets s1 s2
  have undone : Steady False s s1 := .ite (.undoMemory .refl) .refl
  have e : s2 = s1 := if_neg (by simp [hf])
  have still : (op.targets.foldl (fun s n => s.releaseSaved op n) s2).still = s.still :=
    (foldl_still releaseSaved_enters _ _).trans (e ▸ undone.still)
  exact ⟨chtEnd_ended hcode hstep, chtEnd_live.trans (live_of_still still), chtEnd_store.trans (store_of_still still)⟩

theorem partnerStageTimeout_reversed (hs : s.cht = some op) (hf : op.full = false) (hstep : op.step < 6) (hp : s.paired op = true)
    (hd : op.partner ≠ some op.update.digest) (ht : op.go + 5000000 ≤ s.time) : After .partnerStageTimeout s (Reversed s 18) := by
  refine ⟨_, ?_, chtReverse_reversed hf (by omega) (by decide)⟩
  change execPartnerStageTimeout s = _
  unfold execPartnerStageTimeout
  simp only [hs]
  exact congrArg _ (if_pos ⟨hp, hstep, hd, ht⟩)

/-- The value that ABORT alone writes to CHT.CTRL: OP and CMP as they are, and of SRC_SPACE what the sender may write. -/
def State.abortValue (s : State) (who : Sender) : Reg32 :=
  fone (s.ctlGet o_chtCtrl &&& (if who = .host then 0x0F00001F else 0x0F10001F)) 30 true

theorem abortValue_fields (who : Sender) :
    fget (s.abortValue who) 27 24 = fget (s.ctlGet o_chtCtrl) 27 24 ∧ fbit (s.abortValue who) 31 = false ∧
    fbit (s.abortValue who) 30 = true ∧ (who = .host → fbit (s.abortValue who) 20 = false) := by
  have bit : ∀ {i}, i < 32 → i ≠ 30 → fbit (s.abortValue who) i =
      (fbit (s.ctlGet o_chtCtrl) i && (if who = .host then (0x0F00001F : Reg32) else 0x0F10001F).getLsbD i) := fun hi ne => by
    rw [State.abortValue, fbit_fone _ _ _ hi, if_neg ne]
    exact BitVec.getLsbD_and
  refine ⟨fget_congr fun i lo hi => ?_, ?_, ?_, fun host => ?_⟩
  · have op : (if who = .host then (0x0F00001F : Reg32) else 0x0F10001F).getLsbD i = true := by
      interval_cases i <;> split <;> decide
    rw [bit (by omega) (by omega), op, Bool.and_true]
  · rw [bit (by decide) (by decide)]
    split <;> simp
  · rw [State.abortValue, fbit_fone _ _ _ (by decide), if_pos rfl]
  · rw [bit (by decide) (by decide), if_pos host]
    simp

theorem Reversed.ctlSet {code off : Nat} {v : Reg32} (h : Reversed s code t) (ne : off ≠ o_chtResult) : Reversed s code (t.ctlSet off v) := by
  obtain ⟨⟨cht, result⟩, live, store⟩ := h
  refine ⟨⟨cht, ?_⟩, live, store⟩
  rwa [State.ctlGet_ctlSet, if_neg ne]

theorem chtAbort_reversed {who : Sender} (hs : s.cht = some op) (hf : op.full = false) (hstep : op.step < 6) (hr : s.chtReach who = true)
    (ho : fget (s.ctlGet o_chtCtrl) 27 24 ≤ 4) : After (.chtAbort who) s (Reversed s 19) := by
  obtain ⟨fields, go, abort, space⟩ := abortValue_fields (s := s) who
  have taken : ¬ (4 < fget (s.abortValue who) 27 24 ∨ (who = .host ∧ fbit (s.abortValue who) 20)) := by
    rw [fields]
    rintro (h | ⟨host, h⟩)
    · omega
    · exact absurd h (by simp [space host])
  have cancel : s.chtCancel = s.chtReverse op 19 noSection := by
    unfold State.chtCancel
    simp only [hs, hstep, if_true]
  have e : s.chtWrite who (s.abortValue who) false = (s.chtReverse op 19 noSection).ctlSet o_chtCtrl (s.abortValue who &&& 0x0F10001F) := by
    unfold State.chtWrite
    dsimp only
    rw [if_neg taken]
    simp [go, abort, cancel]
  exact ⟨_, congrArg Host.Outcome.next ((if_pos hr).trans e), (chtReverse_reversed hf (by omega) (by decide)).ctlSet (by decide)⟩

end

/-! ### The commands -/

section
variable {s : State} {who : Sender} {n : Nat} {P : State → Prop}

/-- A command that writes CHT.CTRL begins its operation. -/
theorem after_chtGo {k : Nat} {i : Instr} {v : Reg32} (hr : s.chtReach who = true) (hc : s.cht = none) (hn : n < 32) (hk : 0 < k) (hk' : k ≤ 4)
    (hv : v = r32 (2 ^ 31 + k * 2 ^ 24 + n)) (hi : exec i s = .next (if s.chtReach who then s.chtWrite who v false else s))
    (h : ∀ s', Steady True s s' → fget v 4 0 = n → P (s'.chtGo k (s.submitter who) v false)) : After i s P := by
  refine ⟨_, hi, ?_⟩
  rw [if_pos hr, chtWrite_go hv hc hk hk' hn]
  exact h _ (.ctlSet .refl fun _ => by decide) (hv ▸ (chtCommand_fields hk' hn).2.1)

theorem after_stop_go (hr : s.chtReach who = true) (hc : s.cht = none) (hn : n < 32)
    (h : ∀ s' v, Steady True s s' → fget v 4 0 = n → P (s'.chtGo 2 (s.submitter who) v false)) : After (.stop (.go who n)) s P :=
  after_chtGo (v := r32 (2 ^ 31 + 2 * 2 ^ 24 + n % 32)) hr hc hn (by decide) (by decide) (by rw [Nat.mod_eq_of_lt hn]) rfl (fun s' => h s' _)

theorem after_start (hr : s.chtReach who = true) (hc : s.cht = none) (hn : n < 32)
    (h : ∀ s' v, Steady True s s' → fget v 4 0 = n → P (s'.chtGo 3 (s.submitter who) v false)) : After (.start who n false) s P :=
  after_chtGo (v := r32 (2 ^ 31 + 3 * 2 ^ 24 + n % 32)) hr hc hn (by decide) (by decide) (by rw [Nat.mod_eq_of_lt hn]) rfl (fun s' => h s' _)

theorem after_resume (hr : s.chtReach who = true) (hc : s.cht = none) (hn : n < 32)
    (h : ∀ s' v, Steady True s s' → fget v 4 0 = n → P (s'.chtGo 4 (s.submitter who) v false)) : After (.resume who n) s P :=
  after_chtGo (v := r32 (2 ^ 31 + 4 * 2 ^ 24 + n % 32)) hr hc hn (by decide) (by decide) (by rw [Nat.mod_eq_of_lt hn]) rfl (fun s' => h s' _)

theorem after_apply_go (hr : s.chtReach who = true) (hc : s.cht = none) :
    After (.apply (.go who 0)) s fun t => t.live = s.live ∧ fbit (t.ctlGet o_chtStatus) 31 = true ∧
      ∃ op, t.cht = some op ∧ op.kind = .apply ∧ op.step = 1 ∧ op.submitter = s.submitter who := by
  have e := chtWrite_go (s := s) (who := who) (together := false) (v := r32 (2 ^ 31 + 2 ^ 24 + 0)) rfl hc (by decide : 0 < 1) (by decide)
    (by decide : 0 < 32)
  obtain ⟨live, pwr, busy, op, cht, begun⟩ := chtGo_apply (s := s.ctlSet o_chtCtrl (r32 (2 ^ 31 + 2 ^ 24 + 0) &&& 0x0F10001F))
    (s.submitter who) (r32 (2 ^ 31 + 2 ^ 24 + 0)) false
  rw [← e] at live pwr busy cht
  have applied : s.applyEv (.go who 0) = s.chtWrite who (r32 (2 ^ 31 + 2 ^ 24 + 0)) false := if_pos hr
  rw [← applied] at live pwr busy cht
  refine ⟨_, execApply_eq pwr, ?_⟩
  rw [parkDue_of_busy (by rw [cht]; rfl)]
  exact ⟨live, busy, op, cht, begun⟩

end

/-- Settles O39: each command of the frame is taken apart by the rule of what it begins or ends, and `Steady` says that stopping, moving and
raising a compartment leave the rest of the Chart's state alone. -/
theorem chartOperations : Obligations.ChartOperations := by
  unfold Obligations.ChartOperations
  refine ⟨fun s who n hr hc hn => ?_, fun s op hs hf hstep => ?_⟩
  · refine ⟨after_apply_go hr hc, fun absent => ?_, fun known running => ?_, fun known stopped raised => ?_, fun known stopped raised => ?_⟩
    · have ended : ∀ {k} s' v, 2 ≤ k → Steady True s s' → fget v 4 0 = n → Ended (s'.chtGo k (s.submitter who) v false) 9 :=
        fun s' v hk steady hv => chtGo_absent hk hv ((cmpSec_of_still steady.still).trans absent)
      exact ⟨after_stop_go hr hc hn fun s' v => ended s' v (by decide), after_start hr hc hn fun s' v => ended s' v (by decide),
        after_resume hr hc hn fun s' v => ended s' v (by decide)⟩
    · exact after_stop_go hr hc hn fun s' v steady hv => chtGo_stop hv (steady.known known) ((steady.cmpState n).trans running)
    · exact after_start hr hc hn fun s' v steady hv =>
        chtGo_start hv (steady.known known) (by rwa [steady.cmpState]) (steady.mayRaise trivial raised)
    · exact after_resume hr hc hn fun s' v steady hv =>
        chtGo_resume hv (steady.known known) ((steady.cmpState n).trans stopped) (steady.mayRaise trivial raised)
  · exact ⟨fun hk => stop_next hs hk hstep, fun hk => apply_commit hs hf hk, fun hk => apply_release hs hf hk,
      partnerCommitSignal_commit hs hf, partnerStageTimeout_reversed hs hf, fun _ => chtAbort_reversed hs hf⟩

end Sys2Proof.Machine
end

section
/-!
PROOF. Floating-point instructions: the precise ones end with their writes and flags or with FPE, and divide and root take the divide unit
(O6).
-/
namespace Sys2Proof.Machine

/-- The format and the latency that the statements choose by opcode are those of the model. -/
theorem fmtOf_eq (w : Word) : fmtOf w = if opcodeOf w = 6 then f36 else f72 := by simp [fmtOf, narrowFp]

theorem fpLat_eq (w : Word) : fpLat w = if opcodeOf w = 6 then 4 else 5 := by simp [fpLat, narrowFp]

theorem fdivLat_eq (w : Word) : (if narrowFp w = true then 20 else 38) = if opcodeOf w = 6 then 20 else 38 := by simp [narrowFp]

section
variable {s s1 : State} {x : At} {w : Word} {spells : Bool} {lat k : Nat} {i : Instr} {f : Core → Effs × BitVec 5}

/-! ## Precise operations (R77) -/

theorem fpOp_of_masked (h : (f (s.core k)).2 &&& (s.core k).fpEnable = 0) :
    fpOp k lat f s = .done s ((f (s.core k)).1 ++ if (f (s.core k)).2 = 0 then [] else [(.fp (f (s.core k)).2, lat)]) .fall :=
  if_neg (not_not.mpr h)

theorem fpOp_of_enabled (h : (f (s.core k)).2 &&& (s.core k).fpEnable ≠ 0) :
    fpOp k lat f s = .trap (s.modCore k (fun c => c.orFp (f (s.core k)).2)) ⟨9, fpeSub ((f (s.core k)).2 &&& (s.core k).fpEnable), 0, none⟩ :=
  if_pos h

theorem fpOp_ends (he : exec i s = s.issue x w spells (fpOp x.core lat f)) (ok : spells = true) : FloatEnds s x w i lat f := by
  intro s1 h
  rw [he, issue_of_issues h ok]
  exact ⟨fun masked => by rw [fpOp_of_masked masked]; rfl, fun enabled => by rw [fpOp_of_enabled enabled]; rfl⟩

/-- An operation in the format of its opcode, with that format's latency. -/
theorem fpEffs_ends {r : Fmt → Core → Nat × BitVec 5}
    (he : exec i s = s.issue x w spells (fpOp x.core (fpLat w) fun c => fpEffs w (r (fmtOf w) c))) (ok : spells = true) :
    let f := if opcodeOf w = 6 then f36 else f72
    let lat := if opcodeOf w = 6 then 4 else 5
    FloatEnds s x w i lat fun c => (fpWr w lat (r f c).1, (r f c).2) := by
  rw [← fpLat_eq, ← fmtOf_eq]
  exact fpOp_ends he ok

/-! ## Divide and square root (R77, R145) -/

/-- The divide-unit operation that a result sets off: with an enabled flag only the flags land, and FPE is its fault. -/
def fpDivOp (c : Core) (slot : Slot) (due : Nat) (lands : List Land) (raised : BitVec 5) : DivOp :=
  let flags : List Land := if raised = 0 then [] else [.fp raised]
  { lands := if raised &&& c.fpEnable = 0 then lands ++ flags else flags
    fault := if raised &&& c.fpEnable = 0 then none else some ⟨9, fpeSub (raised &&& c.fpEnable), slotAddr c.pc slot, c.seq⟩
    due := due, seq := c.seq }

/-- A core whose divide unit takes the operation. -/
def Core.startsFp (c : Core) (slot : Slot) (due : Nat) (lands : List Land) (raised : BitVec 5) : Core :=
  { c with div := c.div ++ [fpDivOp c slot due lands raised], divFree := due }

theorem fpLong_eq (f : Core → List Land × BitVec 5) :
    let s2 := s.divWait x
    let c := s2.core x.core
    fpLong x lat f s =
      .done ((s2.modCore x.core (fun c' => c'.startsFp x.slot (c.startOf x.slot + lat) (f c).1 (f c).2)).count x.core 0x13 1) [] .fall := by
  intro s2 c
  refine congrArg (fun d => Res.done ((s2.setCore x.core d).count x.core 0x13 1) [] .fall) ?_
  unfold Core.startsFp fpDivOp
  by_cases masked : (f c).2 &&& c.fpEnable = 0
  · simp only [masked, ne_eq, not_true_eq_false, if_false, if_true, Option.map_none, s2, c]
  · simp only [masked, ne_eq, not_false_eq_true, if_false, if_true, Option.map_some, s2, c]

/-- Divide and square root: the unit is waited for, and takes the operation. -/
theorem fpLong_starts {r : Core → Nat × BitVec 5}
    (he : exec i s = s.issue x w spells (fpLong x lat fun c => (fpLands w (r c).1, (r c).2))) (ok : spells = true) (h : Issues s x w 0 s1) :
    let s2 := s1.divWait x
    let c := s2.core x.core
    exec i s = .next (((s2.modCore x.core (fun c' =>
      c'.startsFp x.slot (c.startOf x.slot + lat) (fpLands w (r c).1) (r c).2)).count x.core 0x13 1).retire x.core x.slot w [] .fall) := by
  rw [he, issue_of_issues h ok, fpLong_eq]
  rfl

end

/-- Settles O6: the precise operations end as `fpOp_ends` says, and FDIV and FSQRT start as `fpLong_starts` says. -/
theorem floatArithmetic : Obligations.FloatArithmetic := by
  unfold Obligations.FloatArithmetic
  refine ⟨fun s x w => ⟨?_, ?_, ?_, ?_, ?_, ?_⟩, fun s s1 x w h => ⟨fun ok => ?_, fun ok => ?_⟩⟩
  · exact fpEffs_ends (r := fun f c => f.add c.rm c.trapUF false (c.fpA w) (c.fpB w)) rfl
  · exact fpEffs_ends (r := fun f c => f.add c.rm c.trapUF true (c.fpA w) (c.fpB w)) rfl
  · exact fpEffs_ends (r := fun f c => f.mul c.rm c.trapUF (c.fpA w) (c.fpB w)) rfl
  · exact fpEffs_ends (r := fun f c => f.fma c.rm c.trapUF false false (c.fpA w) (c.fpB w) (c.fpD w)) rfl
  · exact fpEffs_ends (r := fun f c => f.fma c.rm c.trapUF false true (c.fpA w) (c.fpB w) (c.fpD w)) rfl
  · exact fpEffs_ends (r := fun f c => f.fma c.rm c.trapUF true false (c.fpA w) (c.fpB w) (c.fpD w)) rfl
  · have starts := fpLong_starts (i := .fdiv x w) (s := s) (r := fun c => (fmtOf w).div c.rm c.trapUF (c.fpA w) (c.fpB w)) rfl ok h
    rw [fmtOf_eq, fdivLat_eq] at starts
    exact starts
  · have starts := fpLong_starts (i := .fsqrt x w) (s := s) (r := fun c => (fmtOf w).sqrt c.rm c.trapUF (c.fpA w)) rfl ok h
    rw [fmtOf_eq] at starts
    exact starts

end Sys2Proof.Machine
end

section
/-!
PROOF. Reads of the CS registers (R82, R83, R169; O21).
-/
namespace Sys2Proof.Machine

section
variable {s s1 : State} {x : At} {w : Word} {k n r : Nat}

/-! ## What a read writes -/

theorem csResult_word (hn : csPairRead n = false) (v : Word) : csResult n r (v.setWidth 72) = [(.w r v, 2)] := by
  have low : (v.setWidth 72).extractLsb' 0 36 = v := by
    ext i hi
    simp [BitVec.getLsbD_eq_getElem hi, show i < 72 by omega]
  rw [csResult, if_neg (by simp [hn]), low]
  rfl

theorem csResult_pair (hn : csPairRead n = true) (v : Nat) : csResult n (dstOf w) (BitVec.ofNat 72 v) = toP w v 2 := by
  rw [csResult, if_pos hn, toP, BitVec.ofInt_natCast]
  rfl

/-! ## What is read -/

theorem nondet_live (hj : smFind? s.mftc k = none) (hr : s.replaying k = false) (type v : Nat) (cont : List Nat) :
    s.nondet k type v cont = (s, v) := by
  simp [State.nondet, State.mftEvent, hj, hr]

/-- The registers of Table 3-5 that a read leaves the state for, by number. -/
theorem csRead_plain (hn : n ∉ [7, 16, 17, 19]) {v : Word}
    (hv : [(s.core k).status, (s.core k).fpcsr, s.coreid k, (s.core k).faultword, (s.core k).epc, (s.core k).estatus, (s.core k).ecause, 0,
      (s.core k).vbase, smGet 0 (s.core k).scratch 0, smGet 0 (s.core k).scratch 1, smGet 0 (s.core k).scratch 2, smGet 0 (s.core k).scratch 3,
      (s.core k).segtab, (s.core k).ptbase, (s.core k).asid, 0, 0, (s.core k).imask &&& 0xFFFFFFFF, 0, (s.core k).savedrc][n]? = some v) :
    s.csRead k n = (s, v.setWidth 72) ∧ csPairRead n = false := by
  obtain ⟨lt, rfl⟩ := List.getElem?_eq_some_iff.mp hv
  simp only [List.length_cons, List.length_nil] at lt
  interval_cases n <;> simp [State.csRead, csPairRead] at hn ⊢

theorem csRead_time (hj : smFind? s.mftc k = none) (hr : s.replaying k = false) :
    s.csRead k 16 = (s, BitVec.ofNat 72 (s.time % 2 ^ 72)) := by
  rw [State.csRead, nondet_live hj hr]

theorem csRead_rng (hj : smFind? s.mftc k = none) (hr : s.replaying k = false) :
    s.csRead k 17 = ({ s with draws := s.draws + 1 }, (Config.rngDraw s.draws).setWidth 72) := by
  rw [State.csRead, nondet_live hj hr, ← BitVec.ofNat_toNat]

theorem csRead_ipend (hj : smFind? s.mftc k = none) (hr : s.replaying k = false) : s.csRead k 19 = (s, (s.ipend k).setWidth 72) := by
  rw [State.csRead, nondet_live hj hr, ← BitVec.ofNat_toNat]

theorem csRead_eaddr : s.csRead k 7 = (s, BitVec.ofNat 72 (s.core k).eaddr.toNat) := by
  rw [State.csRead, BitVec.ofNat_toNat]

theorem csUserRead_iff : csUserRead n = true ↔ n ∈ [0, 1, 2, 16, 17] := by simp [csUserRead, or_assoc]

/-! ## CSRR -/

section
variable (h : Issues s x w 0 s1) (ok : isSys w 0 = true)
include h ok

theorem csrr_refused (hu : (s1.core x.core).user = true) (hn : csUserRead (argOf w) = false) :
    exec (.csrr x w) s = .next (s1.trap x.core x.slot ⟨2, 2, 0, none⟩) := by
  rw [show exec (.csrr x w) s = s.issue x w (isSys w 0) _ from rfl, issue_of_issues h ok, if_pos (by simp [hu, hn])]
  rfl

theorem csrr_reads (hu : (s1.core x.core).user = false ∨ csUserRead (argOf w) = true) :
    exec (.csrr x w) s = .next ((s1.csRead x.core (argOf w)).1.retire x.core x.slot w
      (csResult (argOf w) (dstOf w) (s1.csRead x.core (argOf w)).2) .fall) := by
  rw [show exec (.csrr x w) s = s.issue x w (isSys w 0) _ from rfl, issue_of_issues h ok, if_neg (by rcases hu with hu | hu <;> simp [hu])]
  rfl

variable (arg : argOf w = n) (hu : (s1.core x.core).user = false ∨ csUserRead n = true)
include arg hu

theorem csrr_word {t : State} {v : Word} (hn : csPairRead n = false) (e : s1.csRead x.core n = (t, v.setWidth 72)) :
    exec (.csrr x w) s = .next (t.retire x.core x.slot w [(.w (dstOf w) v, 2)] .fall) := by
  subst arg
  rw [csrr_reads h ok hu, e, csResult_word hn]

theorem csrr_pair {v : Nat} (hn : csPairRead n = true) (e : s1.csRead x.core n = (s1, BitVec.ofNat 72 v)) :
    exec (.csrr x w) s = .next (s1.retire x.core x.slot w (toP w v 2) .fall) := by
  subst arg
  rw [csrr_reads h ok hu, e, csResult_pair hn]

end
end

/-- Settles O21: a read in a mode that may not make it is refused, and every other writes what `csRead` answers. -/
theorem csReads : Obligations.CsReads := by
  unfold Obligations.CsReads
  intro s s1 x w h ok k c n one two plain
  refine ⟨fun ⟨hu, hn⟩ => ?_, fun hu hn v hv => ?_, fun ⟨hu, hn⟩ => ?_, fun ⟨hj, hr⟩ => ⟨fun hn => ?_, fun hn => ?_, fun ⟨hn, hu⟩ => ?_⟩⟩
  · exact csrr_refused h ok hu (by rwa [← Bool.not_eq_true, csUserRead_iff])
  · obtain ⟨e, word⟩ := csRead_plain hn hv
    exact csrr_word h ok rfl (hu.imp_right fun hn => csUserRead_iff.mpr (List.mem_append_left [16, 17] hn)) word e
  · exact csrr_pair h ok hn (.inl hu) rfl csRead_eaddr
  · exact csrr_pair h ok hn (.inr rfl) rfl (csRead_time hj hr)
  · exact csrr_word h ok hn (.inr rfl) rfl (csRead_rng hj hr)
  · exact csrr_word h ok hn (.inl hu) rfl (csRead_ipend hj hr)

end Sys2Proof.Machine
end

section
/-!
PROOF. Writes of the CS registers (R83, R169, R170, R196; O22).
-/
namespace Sys2Proof.Machine

section
variable {s s1 : State} {x : At} {w : Word} {k n : Nat}

/-! ## CSRW and CSRX -/

theorem csUserWrite_iff : csUserWrite n = true ↔ n ∈ [1, 2, 16, 17] := by simp [csUserWrite, or_assoc]

/-- User mode may read whatever register it may write. -/
theorem csUserRead_of_write (h : csUserWrite n = true) : csUserRead n = true := by
  rw [csUserWrite_iff] at h
  exact csUserRead_iff.mpr (List.mem_cons_of_mem 0 h)

section
variable (h : Issues s x w 0 s1)
include h

theorem csrw_refused (ok : isSys w 1 = true) (hu : (s1.core x.core).user = true) (hn : csUserWrite (argOf w) = false) :
    exec (.csrw x w) s = .next (s1.trap x.core x.slot ⟨2, 2, 0, none⟩) := by
  rw [show exec (.csrw x w) s = s.issue x w (isSys w 1) _ from rfl, issue_of_issues h ok, if_pos (by simp [hu, hn])]
  rfl

theorem csrw_writes (ok : isSys w 1 = true) (hu : (s1.core x.core).user = false ∨ csUserWrite (argOf w) = true) :
    exec (.csrw x w) s = .next (((s1.settle x.core).csPut x.core (argOf w)
      (csOperand ((s1.settle x.core).core x.core) (argOf w) (srcAOf w))).retire x.core x.slot w [] .fall) := by
  rw [show exec (.csrw x w) s = s.issue x w (isSys w 1) _ from rfl, issue_of_issues h ok, if_neg (by rcases hu with hu | hu <;> simp [hu])]
  rfl

theorem csrx_refused (ok : isSys w 2 = true) (hu : (s1.core x.core).user = true) (hn : csUserWrite (argOf w) = false) :
    exec (.csrx x w) s = .next (s1.trap x.core x.slot ⟨2, 2, 0, none⟩) := by
  rw [show exec (.csrx x w) s = s.issue x w (isSys w 2) _ from rfl, issue_of_issues h ok, if_pos (by simp [hu, hn])]
  rfl

theorem csrx_writes (ok : isSys w 2 = true) (hu : (s1.core x.core).user = false ∨ csUserWrite (argOf w) = true) :
    exec (.csrx x w) s = .next ((((s1.settle x.core).csRead x.core (argOf w)).1.csPut x.core (argOf w)
      (csOperand ((s1.settle x.core).core x.core) (argOf w) (srcAOf w))).retire x.core x.slot w
      (csResult (argOf w) (dstOf w) ((s1.settle x.core).csRead x.core (argOf w)).2) .fall) := by
  rw [show exec (.csrx x w) s = s.issue x w (isSys w 2) _ from rfl, issue_of_issues h ok,
    if_neg (by rcases hu with hu | hu <;> simp [hu, csUserRead_of_write])]
  rfl

end

/-! ## Masks -/

/-- A mask of the low bits is a remainder. -/
theorem toNat_and_low (v : Word) {m : Word} {b : Nat} (hm : m.toNat = 2 ^ b - 1) : (v &&& m).toNat = v.toNat % 2 ^ b := by
  rw [BitVec.toNat_and, hm, Nat.and_two_pow_sub_one_eq_mod]

/-- The mask of CS.VBASE clears the ten low bits. -/
theorem toNat_and_vbase (v : Word) : (v &&& 0xFFFFFFC00).toNat = v.toNat / 1024 * 1024 := by
  rw [BitVec.toNat_and, show (0xFFFFFFC00 : Word).toNat = (2 ^ 26 - 1) * 2 ^ 10 from rfl, show 1024 = 2 ^ 10 from rfl,
    ← Nat.shiftRight_eq_div_pow]
  refine Nat.eq_of_testBit_eq fun i => ?_
  rw [Nat.testBit_and, Nat.testBit_mul_two_pow, Nat.testBit_mul_two_pow, Nat.testBit_two_pow_sub_one, Nat.testBit_shiftRight]
  by_cases low : i < 10
  · simp [show ¬10 ≤ i by omega]
  · rw [Nat.add_sub_cancel' (by omega)]
    by_cases inside : i < 36
    · simp [show 10 ≤ i by omega, show i - 10 < 26 by omega]
    · rw [Nat.testBit_lt_two_pow (Nat.lt_of_lt_of_le v.isLt (Nat.pow_le_pow_right (by decide) (by omega)))]
      simp

/-- Of two values under masks that share no bit, each mask reads its own. -/
theorem or_and_disjoint (a b : Word) {m n : Word} (disjoint : n &&& m = 0) : (a &&& m ||| b &&& n) &&& m = a &&& m := by
  rw [BitVec.and_or_distrib_right, BitVec.and_assoc, BitVec.and_self, BitVec.and_assoc, disjoint]
  simp

/-! ## CS.STATUS (Table 3-7) -/

section
variable {c : Core} {covered : Bool} {v : Word}

theorem writeStatus_refused (hv : v.getLsbD 3 = true) (hc : covered = false) : c.writeStatus covered v = c.csrej :=
  if_pos (by rw [hv, hc]; rfl)

theorem writeStatus_taken (hv : v.getLsbD 3 = false ∨ covered = true) :
    c.writeStatus covered v = { c with
      status := (v &&& 7) ||| (c.status &&& if v.getLsbD 7 = true then 0x8 else 0x88)
      ftChange := if v.getLsbD 3 = c.status.getLsbD 3 then none else some (v.getLsbD 3) } := by
  rw [Core.writeStatus, if_neg (by rcases hv with hv | hv <;> rw [hv] <;> simp)]
  split <;> rfl

theorem writeStatus_fields (hv : v.getLsbD 3 = false ∨ covered = true) :
    let t := c.writeStatus covered v
    (t.status &&& 7 = v &&& 7) ∧ (t.status &&& 8 = c.status &&& 8) ∧ t.status.getLsbD 7 = (c.status.getLsbD 7 && !v.getLsbD 7) ∧
      t.ftChange = if v.getLsbD 3 = c.status.getLsbD 3 then none else some (v.getLsbD 3) := by
  rw [writeStatus_taken hv]
  refine ⟨or_and_disjoint _ _ (by split <;> rfl), ?_, ?_, rfl⟩
  · dsimp only
    rw [BitVec.and_or_distrib_right, BitVec.and_assoc, BitVec.and_assoc, show (7 : Word) &&& 8 = 0 from rfl]
    split <;> simp
  · dsimp only
    split
    next set => simp [set]
    next clear =>
      rw [Bool.not_eq_true] at clear
      rw [clear]
      simp

end

/-! ## What a write leaves -/

section
variable {c : Core} {covered : Bool} {v : DWord}

theorem fld_low (w : Word) (hi : Nat) : fld w hi 0 = w.toNat % 2 ^ (hi + 1) := by simp [fld]

theorem csWrite_fpcsr_refused (hv : 5 ≤ (v.extractLsb' 0 36).toNat % 8) : c.csWrite covered 1 v = c.csrej :=
  if_pos (by rwa [fld_low])

theorem csWrite_fpcsr (hv : (v.extractLsb' 0 36).toNat % 8 < 5) :
    c.csWrite covered 1 v = { c with fpcsr := v.extractLsb' 0 36 &&& 0xF8FF } :=
  if_neg (by rw [fld_low]; exact Nat.not_le.mpr hv)

/-- CS.ECAUSE takes the codes and the original codes of Table 11-2, and no other. -/
theorem csWrite_ecause_refused (hv : (v.extractLsb' 0 36).toNat % 16 = 15 ∨ (v.extractLsb' 0 36).toNat / 65536 % 16 ∉ [0, 8, 9, 11]) :
    c.csWrite covered 6 v = c.csrej :=
  if_pos (hv.imp (fun code => by rwa [fld_low]) fun orig => by simpa [fld] using orig)

theorem csWrite_ecause (code : (v.extractLsb' 0 36).toNat % 16 ≠ 15) (orig : (v.extractLsb' 0 36).toNat / 65536 % 16 ∈ [0, 8, 9, 11]) :
    c.csWrite covered 6 v = { c with ecause := v.extractLsb' 0 36 &&& 0x3000FFFFF } :=
  if_neg (not_or.mpr ⟨by rwa [fld_low], not_not.mpr (by simpa [fld] using orig)⟩)

theorem csWrite_scratch {i : Nat} (hi : i < 4) : smGet (0 : Word) (c.csWrite covered (9 + i) v).scratch i = v.extractLsb' 0 36 := by
  have written : (c.csWrite covered (9 + i) v).scratch = smPut 0 c.scratch i (v.extractLsb' 0 36) := by
    interval_cases i <;> rfl
  rw [written, smGet_smPut, if_pos rfl]

/-- CS.COREID, CS.FAULTWORD, CS.TIME, CS.RNG and CS.IPEND are read-only. -/
theorem csWrite_readOnly (hn : n ∈ [2, 3, 16, 17, 19]) : c.csWrite covered n v = c := by
  simp only [List.mem_cons, List.not_mem_nil, or_false] at hn
  rcases hn with rfl | rfl | rfl | rfl | rfl <;> rfl

end
end

/-- Settles O22: the refusals and the writes of CSRW and CSRX, and then one lemma for each register that does not simply take the value. -/
theorem csWrites : Obligations.CsWrites := by
  unfold Obligations.CsWrites
  refine ⟨fun s s1 x w h => ?_, fun c covered v => ?_⟩
  · have refused {n : Nat} (hn : n ∉ [1, 2, 16, 17]) : csUserWrite n = false := by rwa [← Bool.not_eq_true, csUserWrite_iff]
    exact ⟨fun ⟨ok, hu, hn⟩ => csrw_refused h ok hu (refused hn), fun ⟨ok, hu⟩ => csrw_writes h ok (hu.imp_right csUserWrite_iff.mpr),
      fun ⟨ok, hu, hn⟩ => csrx_refused h ok hu (refused hn), fun ⟨ok, hu⟩ => csrx_writes h ok (hu.imp_right csUserWrite_iff.mpr)⟩
  · exact ⟨fun ⟨hv, hc⟩ => writeStatus_refused hv hc, writeStatus_fields, csWrite_fpcsr_refused, csWrite_fpcsr, rfl, rfl, rfl,
      fun code => csWrite_ecause_refused (.inl code), fun ⟨code, orig⟩ => csWrite_ecause code orig, fun orig => csWrite_ecause_refused (.inr orig),
      toNat_and_vbase _, fun i hi => csWrite_scratch hi, rfl, toNat_and_low _ (b := 30) rfl, toNat_and_low _ (b := 12) rfl,
      toNat_and_low _ (b := 32) rfl, rfl, fun n => csWrite_readOnly⟩

end Sys2Proof.Machine
end

section
/-!
PROOF. Landings: the later of two writes to one register remains (R94, R181), and the divide unit's operation lands in its core cycle
(R183, R278; O29).
-/
namespace Sys2Proof.Machine

/-! ## Writes of one cycle -/

section
variable {c : Core}

theorem Core.landShort_idle (h : c.pend = []) : c.landShort = c := by simp [Core.landShort, Core.landCycles, h]

/-- Two writes in flight that are due together land in one cycle. -/
theorem Core.landCycles_two {a b : Land} {due seq seq' : Nat} (h : c.pend = [⟨a, due, seq⟩, ⟨b, due, seq'⟩]) (hd : due ≤ c.pcyc) :
    c.landCycles = [due] := by
  simp [Core.landCycles, h, hd, insertUp]

/-- They land in program order, with nothing left in flight. -/
theorem Core.landShort_two {a b : Land} {due seq seq' : Nat} (h : c.pend = [⟨a, due, seq⟩, ⟨b, due, seq'⟩]) (hd : due ≤ c.pcyc) :
    c.landShort = ((({ c with pend := [] } : Core).discard [(a, seq), (b, seq')]).land a).land b := by
  rw [Core.landShort, landCycles_two h hd]
  simp [Core.landCycle, h]

/-- A write of a general register changes no other field of the core. -/
theorem Core.land_w_frame (c : Core) (r : Nat) (v : Word) : ∃ w, c.land (.w r v) = { c with w := w } := by
  simp only [land, setReg]
  split
  · exact ⟨c.w, rfl⟩
  · exact ⟨_, rfl⟩

theorem Core.land_w_reg (h : c.opW = none) (r q : Nat) (v : Word) : (c.land (.w r v)).reg q = if r = q ∧ r ≠ 0 then v else c.reg q :=
  c.reg_setReg r q v h

section
variable {r due seq seq' : Nat} {u v : Word} (h : c.pend = [⟨.w r u, due, seq⟩, ⟨.w r v, due, seq'⟩]) (hd : due ≤ c.pcyc)
include h hd

/-- Of two writes to a register the later remains. -/
theorem Core.landShort_two_reg (ho : c.opW = none) (q : Nat) : c.landShort.reg q = if r = q ∧ r ≠ 0 then v else c.reg q := by
  rw [landShort_two h hd]
  obtain ⟨w, first⟩ := Core.land_w_frame (({ c with pend := [] } : Core).discard [(.w r u, seq), (.w r v, seq')]) r u
  rw [land_w_reg (by rw [first]; exact ho), land_w_reg (by exact ho)]
  split <;> rfl

theorem Core.landShort_two_pend : c.landShort.pend = [] := by
  rw [landShort_two h hd]
  obtain ⟨_, first⟩ := Core.land_w_frame (({ c with pend := [] } : Core).discard [(.w r u, seq), (.w r v, seq')]) r u
  obtain ⟨_, second⟩ := Core.land_w_frame ((({ c with pend := [] } : Core).discard [(.w r u, seq), (.w r v, seq')]).land (.w r u)) r v
  rw [second, first]
  rfl

end
end

/-! ## The divide unit -/

section
variable {c : Core} {d : DivOp}

theorem Core.landDivDue_one (h : c.div = [d]) (hd : d.due ≤ c.ccyc) : c.landDivDue = c.landDiv d := by
  simp [Core.landDivDue, h, hd]

/-- A result lands: the divide unit is empty, and one register has changed. -/
theorem Core.landDiv_result {r due seq : Nat} {v : Word} (h : c.div = [⟨[.w r v], none, due, seq⟩]) (hp : c.pend = []) (hx : c.xops = [])
    (ho : c.opW = none) :
    ∃ w, c.landDiv ⟨[.w r v], none, due, seq⟩ = { c with div := [], w := w } ∧
      ∀ q, ({ c with div := [], w := w } : Core).reg q = if r = q ∧ r ≠ 0 then v else c.reg q := by
  obtain ⟨w, hw⟩ := Core.land_w_frame { c with div := [] } r v
  have discarded : ({ c with div := [] } : Core).discard [(.w r v, seq)] = { c with div := [] } := by
    simp [Core.discard, hp, hx]
  refine ⟨w, ?_, fun q => ?_⟩
  · simp [Core.landDiv, h, discarded, hw]
  · rw [← hw]
    exact Core.land_w_reg (c := { c with div := [] }) ho r q v

/-- A fault of the divide unit is recorded when no other of the divide unit waits (R278). -/
theorem Core.landDiv_fault {f : LongFault} {due seq : Nat} (h : c.div = [⟨[], some f, due, seq⟩]) (hf : f.code ≠ 11)
    (room : ∀ g ∈ c.faults, g.code = 11) :
    ∃ faults, f ∈ faults ∧ c.landDiv ⟨[], some f, due, seq⟩ = { c with div := [], faults := faults } := by
  have mine : c.faults.filter (fun g => (g.code == 11) == (f.code == 11)) = [] := by
    rw [List.filter_eq_nil_iff]
    intro g hg
    simp [room g hg, hf]
  refine ⟨(c.faults.filter fun g => decide (g.seq < f.seq)) ++ [f] ++ c.faults.filter fun g => !decide (g.seq < f.seq), by simp, ?_⟩
  simp [Core.landDiv, h, Core.record, mine, hf]

end

/-! ## Time passes in a core with nothing else in flight -/

section
variable {s : State} {k : Nat}

theorem count_off (h : smFind? s.ctl (o_pmuCctl (groveOf k) (slotOf k)) = none) (ev n : Nat) : s.count k ev n = s := by
  simp [State.count, h]

theorem cycles_off (h : smFind? s.ctl (o_pmuCctl (groveOf k) (slotOf k)) = none) (cat n : Nat) : s.cycles k cat n = s := by
  simp [State.cycles, count_off h]

theorem landXDue_none (h : (s.core k).xops = []) : s.landXDue k = s := by simp [State.landXDue, h]

/-- A core n cycles later, before anything has landed. -/
def Core.after (c : Core) (n : Nat) : Core := { c with pcyc := c.pcyc + n, ccyc := c.ccyc + n }

/-- n cycles pass in a core of which only the divide unit works. -/
theorem core_advance {c : Core} (hr : s.replaying k = false) (hp : (s.core k).pend = []) (n : Nat)
    (hc : ((s.core k).after n).landDivDue = c) (hx : c.xops = []) : (s.advance k n).core k = c := by
  have short : ((s.core k).after n).landShort = (s.core k).after n := Core.landShort_idle hp
  unfold State.advance
  rw [show (s.modCore k fun c => (({ c with pcyc := c.pcyc + n, ccyc := c.ccyc + n } : Core).landShort)) =
      s.setCore k ((s.core k).after n) from congrArg _ short,
    landLong_live (by exact hr), landXDue_none (by simp [hc, hx])]
  show State.core (State.modCore _ k _) k = c
  simp [hc]

section
variable {due seq : Nat} (hp : (s.core k).pend = []) (hf : (s.core k).freeze = none) (hpair : (s.core k).pair = none)
  (hr : s.replaying k = false) (hctl : smFind? s.ctl (o_pmuCctl (groveOf k) (slotOf k)) = none) (hle : (s.core k).ccyc ≤ due)
include hp hf hpair hr hctl

/-- LONG_OPERATION_LANDING with nothing else in flight: the core at the operation's cycle, with the operation landed. -/
theorem longOperationLanding_core {d : DivOp} {c : Core} (hd : (s.core k).div = [d])
    (hc : ((s.core k).after (d.due - (s.core k).ccyc)).landDiv d = c) (hx : c.xops = []) :
    ∃ t, exec (.longOperationLanding k) s = .next t ∧ t.core k = c := by
  have passes : exec (.longOperationLanding k) s = .next (s.advance k (d.due - (s.core k).ccyc)) := by
    show execLongOperationLanding k s = _
    simp [execLongOperationLanding, hd, State.passTo, State.passCycles, hf, hpair, cycles_off hctl]
  refine ⟨_, passes, core_advance hr hp _ ?_ hx⟩
  rw [Core.landDivDue_one (by exact hd) (Nat.sub_le_iff_le_add'.mp (Nat.le_refl _)), hc]

variable (hx : (s.core k).xops = [])
include hle hx

/-- A result lands: its register holds it, and no other changes. -/
theorem longOperationLanding_result {r : Nat} {v : Word} (hd : (s.core k).div = [⟨[.w r v], none, due, seq⟩]) (ho : (s.core k).opW = none) :
    ∃ t, exec (.longOperationLanding k) s = .next t ∧ (t.core k).ccyc = due ∧ (t.core k).div = [] ∧ (t.core k).faults = (s.core k).faults ∧
      ∀ q, (t.core k).reg q = if r = q ∧ r ≠ 0 then v else (s.core k).reg q := by
  obtain ⟨w, landed, reg⟩ := Core.landDiv_result (c := (s.core k).after (due - (s.core k).ccyc)) hd hp hx ho
  obtain ⟨t, ht, core⟩ := longOperationLanding_core hp hf hpair hr hctl hd landed hx
  exact ⟨t, ht, core ▸ Nat.add_sub_cancel' hle, core ▸ rfl, core ▸ rfl, core ▸ reg⟩

/-- A fault is recorded, and nothing is written. -/
theorem longOperationLanding_fault {f : LongFault} (hd : (s.core k).div = [⟨[], some f, due, seq⟩]) (code : f.code ≠ 11)
    (room : ∀ g ∈ (s.core k).faults, g.code = 11) :
    ∃ t, exec (.longOperationLanding k) s = .next t ∧ (t.core k).ccyc = due ∧ (t.core k).div = [] ∧ f ∈ (t.core k).faults ∧
      (t.core k).w = (s.core k).w ∧ ∀ q, (t.core k).reg q = (s.core k).reg q := by
  obtain ⟨faults, mem, landed⟩ := Core.landDiv_fault (c := (s.core k).after (due - (s.core k).ccyc)) hd code room
  obtain ⟨t, ht, core⟩ := longOperationLanding_core hp hf hpair hr hctl hd landed hx
  exact ⟨t, ht, core ▸ Nat.add_sub_cancel' hle, core ▸ rfl, core ▸ mem, core ▸ rfl, fun _ => core ▸ rfl⟩

end
end

/-- Settles O29: `landShort_two_reg` for the short writes; for the divide unit `longOperationLanding_result` and
`longOperationLanding_fault`. -/
theorem landings : Obligations.Landings := by
  unfold Obligations.Landings
  refine ⟨fun c r due seq seq' u v ho h hd lt => ⟨Core.landShort_two_pend h hd, fun hr => ?_, Core.reg_zero _, fun hr => ?_, fun q hq => ?_⟩,
    fun s k r seq due v fault => ?_⟩
  · rw [Core.landShort_two_reg h hd ho, if_pos ⟨rfl, hr⟩]
  · subst hr
    rw [Core.landShort_two h hd]
    rfl
  · rw [Core.landShort_two_reg h hd ho, if_neg fun e => hq e.1.symm]
  · intro c hd hp hx hf ho hpair hr hle room hctl
    cases fault with
    | none =>
      obtain ⟨t, ht, ccyc, div, faults, reg⟩ := longOperationLanding_result hp hf hpair hr hctl hle hx hd ho
      exact ⟨t, ht, ccyc, div, fun _ hr => (reg r).trans (if_pos ⟨rfl, hr⟩), fun _ => faults, fun _ => nofun,
        fun q hq => (reg q).trans (if_neg fun e => hq e.1.symm)⟩
    | some f =>
      obtain ⟨code, room⟩ := room f rfl
      obtain ⟨t, ht, ccyc, div, mem, w, reg⟩ := longOperationLanding_fault hp hf hpair hr hctl hle hx hd code room
      refine ⟨t, ht, ccyc, div, nofun, nofun, fun g hg => ?_, fun q _ => reg q⟩
      obtain rfl := Option.some.inj hg
      exact ⟨mem, w⟩

end Sys2Proof.Machine
end

section
/-!
PROOF. Values of floating-point arithmetic: an exact result that the format holds is returned unrounded (R72, R76, R137), and the operands
that are NaN, infinite or zero (R73, R74; O9).
-/
namespace Sys2Proof.Machine

section
variable {f : Fmt} {rm m M : Nat} {tu neg : Bool} {e q n : Int} {x y z : Nat}

/-! ## Rounding what is exact -/

theorem two_zpow_raise {i j : Int} (le : i ≤ j) : (2 : ℚ) ^ j = 2 ^ (j - i).toNat * 2 ^ i := by
  rw [← zpow_natCast, ← zpow_add₀ two_ne_zero, Int.toNat_of_nonneg (by omega), sub_add_cancel]

/-- Two binary fractions of one value: the significand of the smaller exponent is the other's, shifted. -/
theorem mant_of_eq (h : (m : ℚ) * 2 ^ e = M * 2 ^ q) :
    if e ≤ q then m = M * 2 ^ (q - e).toNat else m * 2 ^ (e - q).toNat = M := by
  have shifted {a b : Nat} {i j : Int} (le : i ≤ j) (h : (a : ℚ) * 2 ^ i = b * 2 ^ j) : a = b * 2 ^ (j - i).toNat := by
    rw [two_zpow_raise le, ← mul_assoc] at h
    exact_mod_cast mul_right_cancel₀ (zpow_ne_zero i two_ne_zero) h
  split
  next le => exact shifted le h
  next le => exact (shifted (by omega) h.symm).symm

theorem roundAt_exact (rm : Nat) (neg : Bool) (M shift : Nat) : roundAt rm neg (M * 2 ^ shift) false shift = (M, false) := by
  have pos : 0 < 2 ^ shift := by positivity
  have half : (if shift = 0 then 0 else if 0 < 2 ^ (shift - 1) then 0 else if 0 = 2 ^ (shift - 1) then 1 else 2) = 0 := by
    rw [if_pos (by positivity : 0 < 2 ^ (shift - 1)), ite_self]
  have kept : roundUp rm neg (M % 2 == 1) false 0 = false := by
    unfold roundUp
    split <;> simp
  simp [roundAt, Nat.mul_div_cancel _ pos, kept]

/-- A value that the last kept bit divides is kept. -/
theorem roundTo_exact (h : (m : ℚ) * 2 ^ e = M * 2 ^ q) : roundTo rm neg m false e q = (M, false) := by
  have shifted := mant_of_eq h
  unfold roundTo
  split at shifted
  next le => rw [if_pos le, shifted, roundAt_exact]
  next le => rw [if_neg le, shifted]

/-- The place of the leading bit does not depend on how a value is written. -/
theorem log2_of_eq (hM : M ≠ 0) (hm : m ≠ 0) (h : (m : ℚ) * 2 ^ e = M * 2 ^ q) : (Nat.log2 m : Int) + e = Nat.log2 M + q := by
  have shifted := mant_of_eq h
  have log (a : Nat) (ha : a ≠ 0) (k : Nat) : Nat.log2 (a * 2 ^ k) = Nat.log2 a + k := by
    induction k with
    | zero => simp
    | succ k ih =>
      have pos : 0 < 2 ^ k := by positivity
      rw [show a * 2 ^ (k + 1) = 2 * (a * 2 ^ k) by ring, Nat.log2_two_mul (by positivity), ih, Nat.add_assoc]
  split at shifted
  next le => rw [shifted, log M hM]; omega
  next le => rw [← shifted, log m hm]; omega

/-! ## The significand of a finite number -/

/-- The significand fills the fraction's bits and, in a normal number, the bit above them. -/
theorem mant_lt (f : Fmt) (z : Nat) : f.mant z < 2 ^ (f.fb + 1) ∧ (f.mant z < 2 ^ f.fb ↔ f.expo z = 0) := by
  have frac : f.frac z < 2 ^ f.fb := Nat.mod_lt _ (by positivity)
  unfold Fmt.mant
  split <;> omega

theorem mant_ne_zero (hz : f.isZero z = false) : f.mant z ≠ 0 := by
  have pos : 0 < 2 ^ f.fb := by positivity
  unfold Fmt.mant
  split
  next e => simpa [Fmt.isZero, e] using hz
  · omega

theorem expo_lt (h : f.Finite z) : f.expo z < f.emask := by
  have lt : f.expo z < 2 ^ f.eb := Nat.mod_lt _ (by positivity)
  have ne : f.expo z ≠ f.emask := by
    intro e
    obtain ⟨nan, inf⟩ := h
    simp [Fmt.isNan, Fmt.isInf, e] at nan inf
    exact inf nan
  unfold Fmt.emask at *
  omega

theorem pack_fields (hz : z < 2 ^ (1 + f.eb + f.fb)) : f.pack (f.sign z) (f.expo z) (f.frac z) = z := by
  have top : z / 2 ^ (f.eb + f.fb) < 2 := Nat.div_lt_of_lt_mul (by rwa [← pow_succ, Nat.add_comm _ 1, ← Nat.add_assoc])
  have sign : (if f.sign z = true then 2 ^ (f.eb + f.fb) else 0) = z / 2 ^ (f.eb + f.fb) * 2 ^ (f.eb + f.fb) := by
    simp only [Fmt.sign, beq_iff_eq, Nat.mod_eq_of_lt top]
    split
    next one => rw [one, Nat.one_mul]
    next zero => rw [Nat.lt_one_iff.mp (lt_of_le_of_ne (Nat.le_of_lt_succ top) zero), Nat.zero_mul]
  have low : z / 2 ^ (f.eb + f.fb) * 2 ^ (f.eb + f.fb) + z / 2 ^ f.fb % 2 ^ f.eb * 2 ^ f.fb = z / 2 ^ f.fb * 2 ^ f.fb := by
    rw [Nat.add_comm f.eb, pow_add, ← Nat.div_div_eq_div_mul, Nat.mul_comm (2 ^ f.fb) (2 ^ f.eb), ← Nat.mul_assoc, ← Nat.add_mul,
      Nat.div_add_mod']
  rw [Fmt.pack, sign, Fmt.expo, Fmt.frac, low, Nat.div_add_mod']

/-- The last bit of the significand that rounding keeps is that of the number itself. -/
theorem lastBit_of_eq (hz : f.isZero z = false) (hm : m ≠ 0) (h : (m : ℚ) * 2 ^ e = f.mant z * 2 ^ f.exp2 z) :
    max ((Nat.log2 m + 1 : Nat) + e - (f.fb + 1 : Nat)) (1 - (f.bias : Nat) - (f.fb : Nat)) = f.exp2 z := by
  have log := log2_of_eq (mant_ne_zero hz) hm h
  obtain ⟨lt, small⟩ := mant_lt f z
  have below : Nat.log2 (f.mant z) < f.fb + 1 := (Nat.log2_lt (mant_ne_zero hz)).mpr lt
  have normal : Nat.log2 (f.mant z) < f.fb ↔ f.expo z = 0 := (Nat.log2_lt (mant_ne_zero hz)).trans small
  unfold Fmt.exp2 at *
  omega

/-- A value of the format is rounded to itself, and raises neither OF nor NX. -/
theorem round_exact (hf : f.Finite z) (hz : f.isZero z = false) (hm : m ≠ 0) (h : (m : ℚ) * 2 ^ e = f.mant z * 2 ^ f.exp2 z) :
    (f.round rm tu neg m false e).1 = f.pack neg (f.expo z) (f.frac z) ∧ (f.round rm tu neg m false e).2 &&& 5 = 0 := by
  have lastBit := lastBit_of_eq hz hm h
  obtain ⟨lt, small⟩ := mant_lt f z
  have carry : f.mant z ≠ 2 ^ (f.fb + 1) := by omega
  have place : f.exp2 z + (f.bias + f.fb : Nat) = max 1 (f.expo z) := by unfold Fmt.exp2; omega
  have flags (b : Bool) : ((if b then fpUF else 0) ||| 0) &&& 5 = 0 := by cases b <;> rfl
  simp only [Fmt.round, lastBit, roundTo_exact h, carry, if_false, place, Bool.false_eq_true]
  by_cases subnormal : f.expo z = 0
  · rw [if_pos (small.mpr subnormal), subnormal, Fmt.mant, if_pos subnormal]
    exact ⟨rfl, flags _⟩
  · have top := expo_lt hf
    rw [if_neg (mt small.mp subnormal), if_neg (by omega), Int.toNat_natCast, Nat.max_eq_right (by omega),
      Fmt.mant, if_neg subnormal, Nat.add_sub_cancel_left]
    exact ⟨rfl, flags _⟩

/-! ## Signed values -/

theorem val_eq_signed (f : Fmt) (x : Nat) : f.val x = (f.signed x : ℚ) * 2 ^ f.exp2 x := by
  unfold Fmt.val Fmt.signed
  split <;> push_cast <;> ring

theorem natAbs_signed (f : Fmt) (x : Nat) : (f.signed x).natAbs = f.mant x := by
  unfold Fmt.signed
  split <;> simp

theorem signed_neg_iff (hz : f.isZero z = false) : f.signed z < 0 ↔ f.sign z = true := by
  have := mant_ne_zero hz
  unfold Fmt.signed
  split
  next neg => exact iff_of_true (by omega) neg
  next pos => exact iff_of_false (by omega) pos

/-- An exact value of the format, as an integer and an exponent, is rounded to the number that has it. -/
theorem roundInt_exact {zneg : Bool} (hf : f.Finite z) (hlt : z < 2 ^ (1 + f.eb + f.fb)) (hz : f.isZero z = false)
    (h : (n : ℚ) * 2 ^ e = f.val z) : (f.roundInt rm tu zneg n e).1 = z ∧ (f.roundInt rm tu zneg n e).2 &&& 5 = 0 := by
  rw [val_eq_signed] at h
  have pos (i : Int) : (0 : ℚ) < 2 ^ i := zpow_pos two_pos i
  have size : (n.natAbs : ℚ) * 2 ^ e = f.mant z * 2 ^ f.exp2 z := by
    have abs := congrArg abs h
    rw [abs_mul, abs_mul, abs_of_pos (pos e), abs_of_pos (pos _)] at abs
    rw [← natAbs_signed, Nat.cast_natAbs, Nat.cast_natAbs]
    exact_mod_cast abs
  have nonzero : n.natAbs ≠ 0 := by
    intro zero
    rw [zero, Nat.cast_zero, zero_mul, eq_comm, mul_eq_zero, or_iff_left (pos _).ne'] at size
    exact mant_ne_zero hz (by exact_mod_cast size)
  have sign : decide (n < 0) = f.sign z := by
    have signs := congrArg SignType.sign h
    rw [sign_mul, sign_mul, sign_pos (pos e), sign_pos (pos _), mul_one, mul_one] at signs
    rw [Bool.eq_iff_iff, decide_eq_true_iff, ← signed_neg_iff hz, ← Int.cast_lt_zero (R := ℚ), ← sign_eq_neg_one_iff, signs,
      sign_eq_neg_one_iff, Int.cast_lt_zero]
  have rounded := round_exact (rm := rm) (tu := tu) (neg := f.sign z) hf hz nonzero size
  rw [pack_fields hlt] at rounded
  rwa [Fmt.roundInt, if_neg (by omega), sign]

/-! ## Exact sums and products -/

theorem addExact_val (a ea b eb : Int) : ((addExact a ea b eb).1 : ℚ) * 2 ^ (addExact a ea b eb).2 = a * 2 ^ ea + b * 2 ^ eb := by
  unfold addExact
  split
  next le => rw [two_zpow_raise le]; push_cast; ring
  next le => rw [two_zpow_raise (by omega : eb ≤ ea)]; push_cast; ring

theorem nanOf_eq_none (hx : f.isNan x = false) (hy : f.isNan y = false) : f.nanOf [x, y] = none := by
  simp [Fmt.nanOf, hx, hy]

/-- The sum of finite numbers is the exact one, rounded once; so is the difference. -/
theorem add_finite (hx : f.Finite x) (hy : f.Finite y) (sub : Bool) :
    ∃ zneg n e, f.add rm tu sub x y = f.roundInt rm tu zneg n e ∧
      (n : ℚ) * 2 ^ e = if sub = true then f.val x - f.val y else f.val x + f.val y := by
  obtain ⟨nanx, infx⟩ := hx
  obtain ⟨nany, infy⟩ := hy
  let b := if sub = true then -f.signed y else f.signed y
  refine ⟨if f.isZero x && f.isZero y then zeroSign rm (f.sign x) (f.sign y != sub) else rm == 2,
    (addExact (f.signed x) (f.exp2 x) b (f.exp2 y)).1, (addExact (f.signed x) (f.exp2 x) b (f.exp2 y)).2, ?_, ?_⟩
  · simp [Fmt.add, nanOf_eq_none nanx nany, infx, infy, b]
  · rw [addExact_val, val_eq_signed, val_eq_signed]
    unfold b
    split <;> push_cast <;> ring

theorem mul_finite (hx : f.Finite x) (hy : f.Finite y) :
    ∃ zneg n e, f.mul rm tu x y = f.roundInt rm tu zneg n e ∧ (n : ℚ) * 2 ^ e = f.val x * f.val y := by
  obtain ⟨nanx, infx⟩ := hx
  obtain ⟨nany, infy⟩ := hy
  refine ⟨f.sign x != f.sign y, f.signed x * f.signed y, f.exp2 x + f.exp2 y, ?_, ?_⟩
  · simp [Fmt.mul, nanOf_eq_none nanx nany, infx, infy]
  · rw [zpow_add₀ two_ne_zero, val_eq_signed, val_eq_signed]
    push_cast
    ring

/-! ## NaNs, infinities and zeros (R73, R74) -/

theorem nanOf_nan (h : f.isNan x = true ∨ f.isNan y = true) :
    f.nanOf [x, y] = some (f.quiet (if f.isNan x = true then x else y), if (f.isSig x || f.isSig y) = true then 16 else 0) := by
  unfold Fmt.nanOf
  by_cases hx : f.isNan x = true
  · simp [hx, fpNV]
  · simp [hx, h.resolve_left hx, fpNV]

/-- A zero is no NaN and no infinity. -/
theorem zero_finite (he : f.emask ≠ 0) (hz : f.isZero z = true) : f.Finite z := by
  simp only [Fmt.isZero, Bool.and_eq_true, beq_iff_eq] at hz
  simp [Fmt.Finite, Fmt.isNan, Fmt.isInf, hz, he.symm]

theorem nan_first (h : f.isNan x = true ∨ f.isNan y = true) (sub : Bool) :
    let r := (f.quiet (if f.isNan x = true then x else y), if (f.isSig x || f.isSig y) = true then (16 : BitVec 5) else 0)
    f.add rm tu sub x y = r ∧ f.mul rm tu x y = r ∧ f.div rm tu x y = r := by
  simp [Fmt.add, Fmt.mul, Fmt.div, nanOf_nan h]

section
variable (nanx : f.isNan x = false)
include nanx

theorem sqrt_zero (hz : f.isZero x = true) : f.sqrt rm tu x = (x, 0) := by simp [Fmt.sqrt, Fmt.nanOf, nanx, hz]

theorem sqrt_negative (hz : f.isZero x = false) (neg : f.sign x = true) : f.sqrt rm tu x = (f.qnan, 16) := by
  simp [Fmt.sqrt, Fmt.nanOf, nanx, hz, neg, fpNV]

variable (nany : f.isNan y = false)
include nany

/-- The sum of opposite infinities, and the difference of equal ones, is invalid. -/
theorem add_opposite_inf {sub : Bool} (hx : f.isInf x = true) (hy : f.isInf y = true) (signs : f.sign x = f.sign y ↔ sub = true) :
    f.add rm tu sub x y = (f.qnan, 16) := by
  have opposite : (f.sign x != (f.sign y != sub)) = true := by
    cases sub <;> simpa using signs
  simp [Fmt.add, nanOf_eq_none nanx nany, hx, hy, opposite, fpNV]

theorem mul_inf_zero (h : f.isInf x = true ∧ f.isZero y = true ∨ f.isZero x = true ∧ f.isInf y = true) :
    f.mul rm tu x y = (f.qnan, 16) := by
  simp [Fmt.mul, nanOf_eq_none nanx nany, h, fpNV]

theorem div_invalid (h : f.isInf x = true ∧ f.isInf y = true ∨ f.isZero x = true ∧ f.isZero y = true) :
    f.div rm tu x y = (f.qnan, 16) := by
  simp [Fmt.div, nanOf_eq_none nanx nany, h, fpNV]

end

theorem div_by_zero (he : f.emask ≠ 0) (hf : f.Finite x) (hx : f.isZero x = false) (hy : f.isZero y = true) :
    f.div rm tu x y = (f.inf (f.sign x != f.sign y), 8) := by
  obtain ⟨nanx, infx⟩ := hf
  obtain ⟨nany, infy⟩ := zero_finite he hy
  simp [Fmt.div, nanOf_eq_none nanx nany, infx, infy, hx, hy, fpDZ]

end

/-- Settles O9: `add_finite` and `mul_finite` give the exact sum and product, which `roundInt_exact` keeps; then one lemma for each kind of
special operand. -/
theorem floatValues : Obligations.FloatValues := by
  unfold Obligations.FloatValues
  refine ⟨fun f rm x y z tu _ ⟨hx, hy, hz, lt, nonzero⟩ => ⟨fun sum => ?_, fun difference => ?_, fun product => ?_⟩,
    fun f rm x y tu sub hf => ?_⟩
  · obtain ⟨zneg, n, e, eq, val⟩ := add_finite (rm := rm) (tu := tu) hx hy false
    exact eq ▸ roundInt_exact hz lt nonzero (val.trans sum.symm)
  · obtain ⟨zneg, n, e, eq, val⟩ := add_finite (rm := rm) (tu := tu) hx hy true
    exact eq ▸ roundInt_exact hz lt nonzero (val.trans difference.symm)
  · obtain ⟨zneg, n, e, eq, val⟩ := mul_finite (rm := rm) (tu := tu) hx hy
    exact eq ▸ roundInt_exact hz lt nonzero (val.trans product.symm)
  · intro nan first nv
    have emask : f.emask ≠ 0 := by rcases hf with rfl | rfl <;> decide
    have clean (h : ¬nan) : f.isNan x = false ∧ f.isNan y = false := by simpa [nan] using h
    exact ⟨fun h => nan_first h sub, fun ⟨h, hx, hy, signs⟩ => add_opposite_inf (clean h).1 (clean h).2 hx hy signs,
      fun ⟨h, ops⟩ => mul_inf_zero (clean h).1 (clean h).2 ops, fun ⟨h, ops⟩ => div_invalid (clean h).1 (clean h).2 ops,
      fun ⟨fin, hx, hy⟩ => div_by_zero emask fin hx hy, fun ⟨h, hx⟩ => sqrt_zero (clean h).1 hx,
      fun ⟨h, hx, neg⟩ => sqrt_negative (clean h).1 hx neg⟩

end Sys2Proof.Machine
end

section
/-!
PROOF. Coherence: a sparse store read after a filter and after a fold of writes (O16).
-/
namespace Sys2Proof.Machine

section
variable {α : Type} {l : SMap α} {k : Nat}

theorem smFind?_below {lo : Nat} (h : smRising lo l = true) (lt : k < lo) : smFind? l k = none := by
  induction l generalizing lo with
  | nil => rfl
  | cons e r ih =>
    simp only [smRising, Bool.and_eq_true, decide_eq_true_eq] at h
    simp only [smFind?]
    rw [if_neg (by omega), ih h.2 (by omega)]

/-- No key at or above a bound of the keys is listed. -/
theorem smFind?_above {hi : Nat} (h : ∀ e ∈ l, e.1 < hi) (le : hi ≤ k) : smFind? l k = none := by
  induction l with
  | nil => rfl
  | cons e r ih =>
    have he : e.1 < hi := h e List.mem_cons_self
    simp only [smFind?]
    rw [if_neg (by omega), ih fun x hx => h x (List.mem_cons_of_mem _ hx)]

theorem smFind?_filter (p : Nat → Bool) : smFind? (l.filter (fun e => p e.1)) k = if p k then smFind? l k else none := by
  induction l with
  | nil => simp [smFind?]
  | cons e r ih =>
    obtain ⟨q, v⟩ := e
    by_cases hq : q = k
    · subst q; by_cases hp : p k <;> simp [hp, smFind?, ih]
    · by_cases hp : p q <;> simp [hp, hq, smFind?, ih]

/-- Setting the keys of a rising list in turn leaves the list's value of each key that it names. -/
theorem smGet_foldl_smSet (d : α) (b : SMap α) {lo : Nat} (h : smRising lo l = true) :
    smGet d (l.foldl (fun m e => smSet m e.1 e.2) b) k = (smFind? l k).getD (smGet d b k) := by
  induction l generalizing lo b with
  | nil => rfl
  | cons e r ih =>
    simp only [smRising, Bool.and_eq_true, decide_eq_true_eq] at h
    simp only [List.foldl_cons, ih _ h.2, smGet_smSet, smFind?]
    by_cases hk : e.1 = k
    · simp [hk, smFind?_below h.2 (show k < e.1 + 1 by omega)]
    · simp [hk]

end
end Sys2Proof.Machine
end

section
/-!
PROOF. Coherence: what leaves the memory as it was (O16).
-/
namespace Sys2Proof.Machine

section
variable {s : State} {line g pa : Nat}

theorem State.ite_mem {c : Prop} [Decidable c] {t u : State} {m : Mem} (h : t.mem = m) (h' : u.mem = m) : (if c then t else u).mem = m := by
  split <;> assumption

theorem State.bump48_mem {lo hi ovf j n} : (s.bump48 lo hi ovf j n).mem = s.mem := by
  unfold State.bump48
  dsimp only
  split <;> rfl

@[simp] theorem State.ucount_mem {ev unit n cmp cls} : (s.ucount g ev unit n cmp cls).mem = s.mem := by
  unfold State.ucount
  split
  · rfl
  · exact foldl_keeps (p := fun t : State => t.mem = s.mem) (fun _ _ ht => State.ite_mem (State.bump48_mem.trans ht) ht) _ _ rfl

@[simp] theorem State.count_mem {k ev n} : (s.count k ev n).mem = s.mem := by
  unfold State.count
  split
  · rfl
  · exact State.ite_mem
      (foldl_keeps (p := fun t : State => t.mem = s.mem) (fun _ _ ht => State.ite_mem (State.bump48_mem.trans ht) ht) _ _ rfl) rfl

@[simp] theorem State.mirrorOut_mem {cls} : (s.mirrorOut line cls).mem = s.mem := by
  unfold State.mirrorOut
  split
  · split <;> rfl
  · rfl

@[simp] theorem State.acceptWrite_mem {r} : (s.acceptWrite line r).mem = s.mem := by
  unfold State.acceptWrite State.queueWrite
  split
  · simp only [State.modDram_mem, State.mirrorOut_mem]
    split <;> rfl
  · rfl

@[simp] theorem State.sendWb_mem {keep} : (s.sendWb g line keep).mem = s.mem := by
  unfold State.sendWb
  dsimp only
  split <;> simp

@[simp] theorem State.countBinv_mem {n} : (s.countBinv g n line).mem = s.mem := by simp [State.countBinv]

@[simp] theorem State.mftEndChunk_mem {k cause} : (s.mftEndChunk k cause).mem = s.mem := by
  unfold State.mftEndChunk
  split
  · simp only [State.count_mem, State.setMftc_mem]
    split <;> rfl
  · rfl

theorem State.mftMarkAt_mem {k lc isWrite} : (s.mftMarkAt k lc line isWrite).mem = s.mem := by
  unfold State.mftMarkAt
  split
  · split
    · rfl
    · extract_lets s1 _ s2
      have h1 : s1.mem = s.mem := foldl_keeps (p := fun t : State => t.mem = s.mem) (fun t e ht => by
        split
        · exact State.mftEndChunk_mem.trans ht
        · exact ht) _ _ rfl
      have h2 : s2.mem = s.mem := by
        unfold s2
        split <;> exact h1
      split
      · split <;> split <;> exact h2
      · exact h2
  · rfl

end
end Sys2Proof.Machine
end

section
/-!
PROOF. Coherence: moving lines between caches writes no byte and makes no copy (R88, R319; O16).

What a Stand, a Grove or a home does on the way to a fill only gives copies up or lowers them, and brings dirty bytes to DRAM. `Recalls m₀ m`
says so of the memories before and after; there is one rule for each function, backwards, as for `Keeps`. The new copy itself is the last
step of `gainShared` and `gainOwn`.
-/
namespace Sys2Proof.Machine

/-- What is read stays what it was while no subchannel has failed, and every Stand that holds a line held it before. -/
structure Recalls (m₀ m : Mem) : Prop where
  failed : m.failed = m₀.failed
  bytes : m₀.failed = [] → m₀.Canonical → m.Canonical ∧ ∀ pa, m.byte pa = m₀.byte pa
  copies : ∀ t ∈ m.l2, ∃ u ∈ m₀.l2, u.stand = t.stand ∧ u.line = t.line

/-- The same of a function's pair of a state and an answer. -/
abbrev RecallsPair {α : Type} (m₀ : Mem) (p : State × α) : Prop := Recalls m₀ p.1.mem

section
variable {m₀ m m' : Mem} {s t : State} {stand line g pa : Nat}

theorem Mem.byte_flushLine (h : m.failed = []) (hc : m.Canonical) : (m.flushLine line).byte pa = m.byte pa := by
  have mine : smRising 0 (m.dirty.filter (fun e => e.1 / 64 == line)) = true := smRising_filter _ hc.2.1
  have rest : smFind? (m.dirty.filter (fun e => !(e.1 / 64 == line))) pa = if pa / 64 = line then none else smFind? m.dirty pa := by
    have := smFind?_filter (l := m.dirty) (k := pa) (fun a => !(a / 64 == line))
    by_cases ha : pa / 64 = line <;> simpa [ha] using this
  unfold Mem.flushLine Mem.byte
  by_cases c : isClearing pa = true
  · simp [c]
  · simp only [List.partition_eq_filter_filter, Function.comp_def, Mem.dramByte, Mem.onFailed, h, List.isEmpty_nil, Bool.not_true,
      Bool.false_and, Bool.false_eq_true, if_false, c, rest, smGet_foldl_smSet _ _ mine, smFind?_filter (fun a => a / 64 == line), beq_iff_eq]
    by_cases ha : pa / 64 = line
    · simp only [ha, if_true]
      cases smFind? m.dirty pa <;> rfl
    · simp [ha]

/-! ## The shapes -/

theorem Recalls.refl : Recalls m m := ⟨rfl, fun _ h => ⟨h, fun _ => rfl⟩, fun t ht => ⟨t, ht, rfl, rfl⟩⟩

theorem Recalls.trans (h : Recalls m₀ m) (h' : Recalls m m') : Recalls m₀ m' where
  failed := h'.failed.trans h.failed
  bytes hf hc := by
    obtain ⟨hc1, hb⟩ := h.bytes hf hc
    obtain ⟨hc2, hb'⟩ := h'.bytes (h.failed.trans hf) hc1
    exact ⟨hc2, fun pa => (hb' pa).trans (hb pa)⟩
  copies t ht := by
    obtain ⟨u, hu, stand, line⟩ := h'.copies t ht
    obtain ⟨v, hv, stand', line'⟩ := h.copies u hu
    exact ⟨v, hv, stand'.trans stand, line'.trans line⟩

/-- The constructor is spelled out, so that unification reads the fields off any record update of the model. -/
theorem Recalls.frame (h : Recalls m₀ m) {grove gpend dir txns waits msgs bcasts ranges engLast marks utlb dtc poison lost healed} :
    Recalls m₀ ⟨m.dram, m.keys, m.era, m.epoch, m.dirty, m.clr, poison, lost, healed, m.failed, m.l2, grove, gpend,
      dir, txns, waits, msgs, bcasts, ranges, engLast, marks, utlb, dtc⟩ :=
  h.trans ⟨rfl, fun _ hc => ⟨hc, fun _ => rfl⟩, fun t ht => ⟨t, ht, rfl, rfl⟩⟩

/-- Some copies are given up. -/
theorem Recalls.filter (h : Recalls m₀ m) {p grove gpend} :
    Recalls m₀ { m with l2 := m.l2.filter p, grove := grove, gpend := gpend } :=
  h.trans ⟨rfl, fun _ hc => ⟨hc, fun _ => rfl⟩, fun t ht => ⟨t, (List.mem_filter.mp ht).1, rfl, rfl⟩⟩

/-- Some copies change their state. -/
theorem Recalls.map (h : Recalls m₀ m) {f : L2Line → L2Line} (hf : ∀ u, (f u).stand = u.stand ∧ (f u).line = u.line) :
    Recalls m₀ { m with l2 := m.l2.map f } := by
  refine h.trans ⟨rfl, fun _ hc => ⟨hc, fun _ => rfl⟩, fun t ht => ?_⟩
  obtain ⟨u, hu, rfl⟩ := List.mem_map.mp ht
  exact ⟨u, hu, (hf u).1.symm, (hf u).2.symm⟩

/-- A state with the same memory. -/
theorem Recalls.same (h : Recalls m₀ s.mem) (e : t.mem = s.mem) : Recalls m₀ t.mem := e ▸ h

theorem Recalls.setMem (h : Recalls m₀ m) : Recalls m₀ (s.setMem m).mem := h

theorem Recalls.foldl {α : Type} {f : State → α → State} {l : List α} (hf : ∀ s a, Recalls m₀ s.mem → Recalls m₀ (f s a).mem)
    (h : Recalls m₀ s.mem) : Recalls m₀ (l.foldl f s).mem := foldl_keeps (p := fun s => Recalls m₀ s.mem) hf l s h

theorem Recalls.ofPair {α : Type} {p : State × α} {a} (h : RecallsPair m₀ p) (e : p = (s, a)) : Recalls m₀ s.mem := by
  subst e; exact h

section
variable {c : Prop} [Decidable c]

theorem Recalls.iteMem (h : Recalls m₀ m) (h' : Recalls m₀ m') : Recalls m₀ (if c then m else m') := by
  split <;> assumption

theorem Recalls.ite (h : Recalls m₀ s.mem) (h' : Recalls m₀ t.mem) : Recalls m₀ (if c then s else t).mem := by
  split <;> assumption

end

/-! ## Operations on the memory -/

theorem Recalls.flushLine (h : Recalls m₀ m) : Recalls m₀ (m.flushLine line) :=
  h.trans ⟨rfl, fun hf hc => ⟨Mem.canonical_flushLine hc line, fun _ => Mem.byte_flushLine hf hc⟩, fun t ht => ⟨t, ht, rfl, rfl⟩⟩

theorem Recalls.setTag {t} (h : Recalls m₀ m) : Recalls m₀ (m.setTag t) := .frame h

theorem Recalls.setDir {e} (h : Recalls m₀ m) : Recalls m₀ (m.setDir e) := .frame h

theorem Recalls.freeDir (h : Recalls m₀ m) : Recalls m₀ (m.freeDir line) := .frame h

theorem Recalls.touchTag (h : Recalls m₀ m) : Recalls m₀ (m.touchTag g line) := by
  unfold Mem.touchTag
  split
  · exact .setTag h
  · exact h

theorem Recalls.cleanL2 (h : Recalls m₀ m) : Recalls m₀ (m.cleanL2 g line) := .map h fun u => by split <;> exact ⟨rfl, rfl⟩

theorem Recalls.tellPartner (h : Recalls m₀ m) : Recalls m₀ (m.tellPartner line) := by
  unfold Mem.tellPartner
  split
  · exact .iteMem (.frame h) h
  · exact h

theorem Recalls.dirRelease (h : Recalls m₀ m) : Recalls m₀ (m.dirRelease g line) := by
  unfold Mem.dirRelease
  split
  · exact h
  · split
    · exact .iteMem (.freeDir h) h
    · exact .iteMem (.iteMem (.freeDir h) (.setDir h)) (.setDir h)
    · exact .iteMem (.freeDir h) (.setDir h)

/-! ## Operations on the state -/

theorem Recalls.dropStand (h : Recalls m₀ s.mem) : Recalls m₀ (s.dropStand stand line).mem := .filter h

theorem Recalls.dropGrove (h : Recalls m₀ s.mem) : Recalls m₀ (s.dropGrove g line).mem := .filter h

theorem Recalls.demote {p} (h : Recalls m₀ s.mem) : Recalls m₀ (s.demote p line).mem := .map h fun u => by split <;> exact ⟨rfl, rfl⟩

theorem Recalls.shareGrove (h : Recalls m₀ s.mem) : Recalls m₀ (s.shareGrove g line).mem := .demote h

theorem Recalls.putTag {st data} (h : Recalls m₀ s.mem) : Recalls m₀ (s.putTag g line st data).mem := by
  unfold State.putTag
  split <;> exact .setTag h

theorem Recalls.sendWb {keep} (h : Recalls m₀ s.mem) : Recalls m₀ (s.sendWb g line keep).mem := .same h State.sendWb_mem

theorem RecallsPair.holderFwdS {h'} (h : Recalls m₀ s.mem) : RecallsPair m₀ (s.holderFwdS h' line) := by
  unfold State.holderFwdS RecallsPair
  split
  · exact h
  · extract_lets s1
    have h1 : Recalls m₀ s1.mem := .shareGrove h
    split
    · split
      · exact .putTag h1
      · exact .flushLine (.putTag (.sendWb h1))
    · exact h1
    · exact h1
    · exact .putTag h1

theorem Recalls.dropAll {gs} (h : Recalls m₀ s.mem) : Recalls m₀ (s.dropAll line gs).mem := .foldl (fun _ _ h1 => .dropGrove h1) h

theorem Recalls.mergeHolders (h : Recalls m₀ s.mem) : Recalls m₀ (s.mergeHolders line).mem :=
  .freeDir (.flushLine (.tellPartner (.dropAll h)))

theorem Recalls.backInvalidate (h : Recalls m₀ s.mem) : Recalls m₀ (s.backInvalidate line).mem :=
  .mergeHolders (.ite (.same h State.acceptWrite_mem) h)

theorem Recalls.roomDir (h : Recalls m₀ s.mem) : Recalls m₀ (s.roomDir line).mem := by
  unfold State.roomDir
  refine .ite h ?_
  split
  · exact .backInvalidate (.same h State.countBinv_mem)
  · exact h

theorem RecallsPair.homeRead (h : Recalls m₀ s.mem) : RecallsPair m₀ (s.homeRead g line) := by
  unfold State.homeRead RecallsPair
  dsimp only
  split
  · exact h
  · split
    · exact .setDir (.roomDir h)
    · split
      · exact .setDir (.ite (RecallsPair.holderFwdS h) h)
      · have h1 {h'} := RecallsPair.holderFwdS (line := line) (h' := h') h
        split
        · exact h
        · split
          · split <;> exact .setDir h1
          · exact .setDir h1
      · exact .setDir (RecallsPair.holderFwdS h)

theorem Recalls.homeOwn (h : Recalls m₀ s.mem) : Recalls m₀ (s.homeOwn g line).mem := by
  unfold State.homeOwn
  refine .ite (.dropAll h) ?_
  extract_lets s1
  have h1 : Recalls m₀ s1.mem := by
    unfold s1
    split
    · exact .roomDir h
    · exact .dropAll h
  exact .setDir h1

theorem Recalls.cleanGrove (h : Recalls m₀ s.mem) : Recalls m₀ (s.cleanGrove g line).mem := by
  unfold State.cleanGrove
  split
  · exact h
  · extract_lets _ s1 m1
    have h1 : Recalls m₀ s1.mem := .ite (.sendWb h) h
    have h2 : Recalls m₀ m1 := .cleanL2 (.flushLine h1)
    split
    · exact .setTag h2
    · simp only [State.setMem_mem]
      split
      · exact .iteMem (.setDir (.setTag h2)) (.setTag h2)
      · exact .setTag h2
    · exact h1

theorem Recalls.groveEvict (h : Recalls m₀ s.mem) : Recalls m₀ (s.groveEvict g line).mem := by
  unfold State.groveEvict
  split
  · exact h
  · extract_lets s1 s2
    have h1 : Recalls m₀ s1.mem := .dropGrove (.sendWb h)
    have h2 : Recalls m₀ s2.mem := .dropGrove h
    split
    · exact .setMem (.dirRelease (.flushLine h1))
    · exact .ite h2 (.ite (.setMem (.frame h2)) (.setMem (.dirRelease h2)))

theorem Recalls.l2Evict (h : Recalls m₀ s.mem) : Recalls m₀ (s.l2Evict stand line).mem := by
  unfold State.l2Evict
  split
  · exact h
  · extract_lets _ s1
    have h1 : Recalls m₀ s1.mem := .dropStand h
    split
    · exact h1
    · exact .ite (.groveEvict h1) (.ite (.cleanGrove h1) h1)

theorem Recalls.roomL2 (h : Recalls m₀ s.mem) : Recalls m₀ (s.roomL2 stand line).mem := by
  unfold State.roomL2
  refine .ite h ?_
  split
  · exact .l2Evict h
  · exact h

theorem Recalls.roomGrove (h : Recalls m₀ s.mem) : Recalls m₀ (s.roomGrove g line).mem := by
  unfold State.roomGrove
  refine .ite h ?_
  split
  · exact .groveEvict h
  · exact h

theorem RecallsPair.standRead (h : Recalls m₀ s.mem) : RecallsPair m₀ (s.standRead stand line) := by
  unfold State.standRead RecallsPair
  dsimp only
  split
  · exact h
  · exact .shareGrove h

theorem Recalls.settleData (h : Recalls m₀ s.mem) : Recalls m₀ (s.settleData g line).mem := by
  unfold State.settleData
  split
  · exact .ite (.cleanGrove h) h
  · exact h

end
end Sys2Proof.Machine
end

section
/-!
PROOF. Coherence: a Stand that obtains a line, and the copies that others then hold (R319, R336; O16).
-/
namespace Sys2Proof.Machine

section
variable {m₀ m : Mem} {s t : State} {stand line g pa : Nat}

/-! ## The copy itself -/

theorem Mem.l2line_setL2_isSome (x : L2Line) : ((m.setL2 x).l2line x.stand x.line).isSome := by simp [Mem.l2line, Mem.setL2]

theorem Mem.mem_setL2_l2 {x u : L2Line} : u ∈ (m.setL2 x).l2 ↔ (u ∈ m.l2 ∧ ¬(u.stand = x.stand ∧ u.line = x.line)) ∨ u = x := by
  simp [Mem.setL2, imp_iff_not_or]

/-- A line that a Stand holds moves to the end of its set; else the copy is made after everything else. -/
theorem State.gainShared_mem : ∃ m x, Recalls s.mem m ∧ (s.gainShared stand line).mem = m.setL2 x ∧ x.stand = stand ∧ x.line = line := by
  unfold State.gainShared
  dsimp only
  split
  next x hx =>
    obtain ⟨hs, hl⟩ : x.stand = stand ∧ x.line = line := by simpa using List.find?_some hx
    exact ⟨_, x, .refl, by simp [Mem.touchL2, hx], hs, hl⟩
  · split
    · exact ⟨_, _, .roomL2 (.settleData (.putTag (RecallsPair.standRead .refl))), rfl, rfl, rfl⟩
    · exact ⟨_, _, .roomL2 (.putTag (RecallsPair.homeRead (.roomGrove .refl))), rfl, rfl, rfl⟩

theorem State.byte_gainShared (hf : s.mem.failed = []) (hc : s.mem.Canonical) : (s.gainShared stand line).mem.byte pa = s.mem.byte pa := by
  obtain ⟨m, x, hm, e, -, -⟩ := State.gainShared_mem (s := s) (stand := stand) (line := line)
  rw [e]
  exact (hm.bytes hf hc).2 pa

theorem State.l2line_gainShared : ((s.gainShared stand line).mem.l2line stand line).isSome := by
  obtain ⟨m, x, -, e, rfl, rfl⟩ := State.gainShared_mem (s := s) (stand := stand) (line := line)
  rw [e]
  exact Mem.l2line_setL2_isSome x

/-! ## Ownership

The first part of `gainOwn` brings the line to the Grove; `ownGrove` names it. -/

/-- Grove g holds the line exclusively or asks for it. -/
def State.ownGrove (s : State) (g line : Nat) : State :=
  match s.mem.gtag g line with
  | some t =>
    if t.st == CState.e || t.st == CState.m then s.setMem (s.mem.touchTag g line)
    else
      let s := s.homeOwn g line
      s.putTag g line (if s.mem.isDirty line then .m else .e) false
  | none =>
    let s := s.roomGrove g line
    let s := s.homeOwn g line
    s.putTag g line (if s.mem.isDirty line then .m else .e) false

/-- The other Stands of the Grove give the line up. -/
def State.dropOthers (s : State) (stand line : Nat) : State :=
  ((List.range 5).filter (fun i => stand / 5 * 5 + i != stand)).foldl (fun s i => s.dropStand (stand / 5 * 5 + i) line) s

/-- The Grove owns the line, the other Stands have given it up, and the Stand has room for it. -/
def State.ownStand (s : State) (stand line : Nat) : State :=
  if (s.mem.l2line stand line).isSome then (s.ownGrove (stand / 5) line).dropOthers stand line
  else ((s.ownGrove (stand / 5) line).dropOthers stand line).roomL2 stand line

theorem State.gainOwn_mem : (s.gainOwn stand line).mem =
    (s.ownStand stand line).mem.setL2
      { stand := stand, line := line, st := if (s.ownStand stand line).mem.isDirty line then .m else .e } := rfl

theorem Recalls.ownGrove (h : Recalls m₀ s.mem) : Recalls m₀ (s.ownGrove g line).mem := by
  unfold State.ownGrove
  split
  · exact .ite (.setMem (.touchTag h)) (.putTag (.homeOwn h))
  · exact .putTag (.homeOwn (.roomGrove h))

theorem Recalls.ownStand (h : Recalls m₀ s.mem) : Recalls m₀ (s.ownStand stand line).mem := by
  have h1 : Recalls m₀ ((s.ownGrove (stand / 5) line).dropOthers stand line).mem := .foldl (fun _ _ h2 => .dropStand h2) (.ownGrove h)
  exact .ite h1 (.roomL2 h1)

theorem State.byte_gainOwn (hf : s.mem.failed = []) (hc : s.mem.Canonical) : (s.gainOwn stand line).mem.byte pa = s.mem.byte pa :=
  (Recalls.refl.ownStand.bytes hf hc).2 pa

theorem State.l2line_gainOwn : ((s.gainOwn stand line).mem.l2line stand line).isSome := Mem.l2line_setL2_isSome _

/-! ## Who keeps a copy -/

theorem State.mem_dropStand_l2 {u : L2Line} :
    u ∈ (s.dropStand stand line).mem.l2 ↔ u ∈ s.mem.l2 ∧ ¬(u.stand = stand ∧ u.line = line) := by
  simp [State.dropStand, imp_iff_not_or]

theorem State.mem_dropGrove_l2 {u : L2Line} :
    u ∈ (s.dropGrove g line).mem.l2 ↔ u ∈ s.mem.l2 ∧ ¬(u.stand / 5 = g ∧ u.line = line) := by
  simp [State.dropGrove, imp_iff_not_or]

/-- Stands that give a line up in turn do not hold it then. -/
theorem State.mem_dropStands_l2 {f : Nat → Nat} {l : List Nat} {u : L2Line}
    (hu : u ∈ (l.foldl (fun s i => s.dropStand (f i) line) s).mem.l2) :
    u ∈ s.mem.l2 ∧ (u.line = line → ∀ i ∈ l, u.stand ≠ f i) := by
  induction l generalizing s with
  | nil => exact ⟨hu, by simp⟩
  | cons i l ih =>
    obtain ⟨hu, rest⟩ := ih hu
    obtain ⟨hu, first⟩ := State.mem_dropStand_l2.mp hu
    refine ⟨hu, fun hl j hj => ?_⟩
    rcases List.mem_cons.mp hj with rfl | hj
    · exact fun hs => first ⟨hs, hl⟩
    · exact rest hl j hj

/-- Groves that give a line up in turn do not hold it then. -/
theorem State.mem_dropAll_l2 {gs : List Nat} {u : L2Line} (hu : u ∈ (s.dropAll line gs).mem.l2) :
    u ∈ s.mem.l2 ∧ (u.line = line → u.stand / 5 ∉ gs) := by
  induction gs generalizing s with
  | nil => exact ⟨hu, by simp⟩
  | cons g gs ih =>
    obtain ⟨hu, rest⟩ := ih hu
    obtain ⟨hu, first⟩ := State.mem_dropGrove_l2.mp hu
    refine ⟨hu, fun hl hm => ?_⟩
    rcases List.mem_cons.mp hm with rfl | hm
    · exact first ⟨rfl, hl⟩
    · exact rest hl hm

theorem State.putTag_l2 {st data} : (s.putTag g line st data).mem.l2 = s.mem.l2 := by
  unfold State.putTag
  split <;> rfl

/-- A copy that remains when a Stand has room for a line that it is to own was the Grove's, and no other Stand's of the Grove. -/
theorem State.mem_ownStand_l2 {u : L2Line} (hu : u ∈ (s.ownStand stand line).mem.l2) :
    ∃ v ∈ (s.ownGrove (stand / 5) line).mem.l2, v.stand = u.stand ∧ v.line = u.line ∧
      (u.line = line → u.stand / 5 = stand / 5 → u.stand = stand) := by
  have room : Recalls ((s.ownGrove (stand / 5) line).dropOthers stand line).mem (s.ownStand stand line).mem := .ite .refl (.roomL2 .refl)
  obtain ⟨v, hv, hs, hl⟩ := room.copies u hu
  obtain ⟨hv, gone⟩ := State.mem_dropStands_l2 hv
  refine ⟨v, hv, hs, hl, fun hline hg => ?_⟩
  by_contra hne
  refine gone (hl.trans hline) (u.stand % 5) ?_ (by omega)
  simp only [List.mem_filter, List.mem_range, bne_iff_ne]
  omega

/-! ## The home that lists the line -/

theorem Mem.dirEnt_freeDir_ne {l' : Nat} (h : l' ≠ line) : (m.freeDir l').dirEnt line = m.dirEnt line := by
  unfold Mem.freeDir Mem.dirEnt
  rw [List.find?_filter]
  congr 1
  funext e
  by_cases he : e.line = line <;> simp [he, Ne.symm h]

theorem Mem.dirEnt_setDir_ne {e : DirEnt} (h : e.line ≠ line) : (m.setDir e).dirEnt line = m.dirEnt line := by
  have hf := Mem.dirEnt_freeDir_ne (m := m) h
  unfold Mem.freeDir Mem.dirEnt at hf
  unfold Mem.setDir Mem.dirEnt
  simp [List.find?_append, hf, h]

theorem Mem.line_of_dirEnt {e : DirEnt} (h : m.dirEnt line = some e) : e.line = line := by simpa using List.find?_some h

/-- A home that learns of one line's eviction keeps what it lists of the others. -/
theorem Mem.dirEnt_dirRelease_ne {l' : Nat} (h : l' ≠ line) : (m.dirRelease g l').dirEnt line = m.dirEnt line := by
  unfold Mem.dirRelease
  split
  · rfl
  next e he =>
    have hl : e.line ≠ line := by rw [Mem.line_of_dirEnt he]; exact h
    have free := Mem.dirEnt_freeDir_ne (m := m) h
    have set {x : DirEnt} (hx : x.line = e.line) : (m.setDir x).dirEnt line = m.dirEnt line :=
      Mem.dirEnt_setDir_ne (by rw [hx]; exact hl)
    split
    · split
      · exact free
      · rfl
    · split
      · dsimp only
        split
        · exact free
        · exact set rfl
      · exact set rfl
    · dsimp only
      split
      · exact free
      · exact set rfl

theorem State.dirEnt_groveEvict_ne {l' : Nat} (h : l' ≠ line) : (s.groveEvict g l').mem.dirEnt line = s.mem.dirEnt line := by
  have drop (t : State) : (t.dropGrove g l').mem.dirEnt line = t.mem.dirEnt line := rfl
  have flush (m : Mem) : (m.flushLine l').dirEnt line = m.dirEnt line := rfl
  unfold State.groveEvict
  split
  · rfl
  · dsimp only
    split
    · simp only [State.setMem_mem, Mem.dirEnt_dirRelease_ne h, flush, drop, State.sendWb_mem]
    · split
      · rfl
      · split
        · rfl
        · simp only [State.setMem_mem, Mem.dirEnt_dirRelease_ne h, drop]

/-- Making room for a line that a Grove does not hold leaves what the line's home lists of it. -/
theorem State.dirEnt_roomGrove (h : s.mem.gtag g line = none) : (s.roomGrove g line).mem.dirEnt line = s.mem.dirEnt line := by
  have other {v : GTag} (hv : v ∈ s.tagSet g line) : v.line ≠ line := by
    obtain ⟨hm, hs⟩ := List.mem_filter.mp hv
    have := List.find?_eq_none.mp h v hm
    simp only [Bool.and_eq_true, beq_iff_eq] at hs this
    exact fun hl => this ⟨hs.1.1, hl⟩
  unfold State.roomGrove
  dsimp only
  split
  · rfl
  · split
    next v hv =>
      refine State.dirEnt_groveEvict_ne (other ?_)
      cases found : (s.tagSet g line).find? (fun v => !s.lockedTag g v.line) with
      | some x =>
        rw [found] at hv
        cases hv
        exact List.mem_of_find?_eq_some found
      | none =>
        rw [found] at hv
        exact List.mem_of_head? hv
    · rfl

/-- A Grove that asks for a line that its home lists takes it from every other Grove. -/
theorem State.grove_of_mem_homeOwn {u : L2Line} (h : (s.mem.dirEnt line).isSome) (hu : u ∈ (s.homeOwn g line).mem.l2) (hl : u.line = line)
    (h60 : u.stand < 60) : u.stand / 5 = g := by
  have hd : u ∈ (s.dropAll line ((List.range 12).filter (· != g))).mem.l2 := by
    obtain ⟨e, he⟩ := Option.isSome_iff_exists.mp h
    unfold State.homeOwn at hu
    split at hu
    · exact hu
    · simp only [he] at hu
      exact hu
  have hm := (State.mem_dropAll_l2 hd).2 hl
  simp only [List.mem_filter, List.mem_range, bne_iff_ne, not_and, not_not] at hm
  exact hm (by omega)

/-- A Grove that does not hold a line exclusively asks for it. -/
theorem State.grove_of_mem_ownGrove {u : L2Line} (h : (s.mem.dirEnt line).isSome) (ask : ∀ x ∈ s.mem.gtag g line, x.st ≠ .e ∧ x.st ≠ .m)
    (hu : u ∈ (s.ownGrove g line).mem.l2) (hl : u.line = line) (h60 : u.stand < 60) : u.stand / 5 = g := by
  unfold State.ownGrove at hu
  split at hu
  next x hx =>
    obtain ⟨ne, nm⟩ := ask x hx
    rw [if_neg (by simp [ne, nm])] at hu
    exact State.grove_of_mem_homeOwn h (State.putTag_l2 ▸ hu) hl h60
  next hx =>
    exact State.grove_of_mem_homeOwn (by rwa [State.dirEnt_roomGrove hx]) (State.putTag_l2 ▸ hu) hl h60

/-- What `OwnershipIsExclusive` says of the copies after a Stand has obtained ownership. -/
theorem State.gainOwn_exclusive {u : L2Line} (hu : u ∈ (s.gainOwn stand line).mem.l2) (hl : u.line = line) :
    (u.stand / 5 = stand / 5 → u.stand = stand ∧ u.excl = true) ∧
    ((s.mem.dirEnt line).isSome → (∀ x ∈ s.mem.gtag (stand / 5) line, x.st ≠ .e ∧ x.st ≠ .m) → u.stand < 60 → u.stand = stand) := by
  rw [State.gainOwn_mem, Mem.mem_setL2_l2] at hu
  rcases hu with ⟨hu, other⟩ | rfl
  · obtain ⟨v, hv, hs, hline, own⟩ := State.mem_ownStand_l2 hu
    refine ⟨fun hg => absurd ⟨own hl hg, hl⟩ other, fun h ask h60 => own hl ?_⟩
    rw [← hs]
    exact State.grove_of_mem_ownGrove h ask hv (hline.trans hl) (by omega)
  · refine ⟨fun _ => ⟨rfl, ?_⟩, fun _ _ _ => rfl⟩
    simp only [L2Line.excl]
    split <;> rfl

end
end Sys2Proof.Machine
end

section
/-!
PROOF. Coherence: an accepted entry's bytes are what memory holds (R88, R294; O16).
-/
namespace Sys2Proof.Machine

/-- The bytes of a sparse list are set in turn, each at its offset from a base. -/
def Mem.setBytes (m : Mem) (base : Nat) (l : SMap Byte) : Mem := l.foldl (fun m b => m.setByte (base + b.1) b.2) m

section
variable {m : Mem} {s : State} {base pa stand : Nat}

theorem Mem.byte_setBytes {l : SMap Byte} {lo : Nat} (h : smRising lo l = true) :
    (m.setBytes base l).byte pa = if base ≤ pa then (smFind? l (pa - base)).getD (m.byte pa) else m.byte pa := by
  unfold Mem.setBytes
  induction l generalizing m lo with
  | nil => simp [smFind?]
  | cons e r ih =>
    simp only [smRising, Bool.and_eq_true, decide_eq_true_eq] at h
    simp only [List.foldl_cons, ih h.2, Mem.byte_setByte, smFind?]
    by_cases hb : base + e.1 = pa
    · have later : smFind? r (pa - base) = none := smFind?_below h.2 (by omega)
      simp [later, show base ≤ pa by omega, show e.1 = pa - base by omega]
    · by_cases hle : base ≤ pa
      · simp [hb, hle, show e.1 ≠ pa - base by omega]
      · simp [hb, hle]

/-- Runs of consecutive bytes written in turn are the bytes set in turn. -/
theorem Mem.foldl_write_runsOf (l : SMap Byte) : (runsOf l).foldl (fun m r => m.write (base + r.1) r.2) m = m.setBytes base l := by
  unfold Mem.setBytes
  induction l generalizing m with
  | nil => rfl
  | cons e r ih =>
    obtain ⟨o, b⟩ := e
    rw [List.foldl_cons, ← ih]
    simp only [runsOf]
    split
    next p bs q hr =>
      split
      next hp =>
        subst hp
        simp only [hr, List.foldl_cons, Mem.write, Nat.add_assoc]
      · simp only [hr, List.foldl_cons, Mem.write]
    next hr => simp only [hr, List.foldl_cons, List.foldl_nil, Mem.write]

theorem State.byte_ownedWrite {bytes : List Byte} : (s.ownedWrite stand pa bytes).mem.byte = (s.mem.write pa bytes).byte := by
  unfold State.ownedWrite
  dsimp only
  split <;> rfl

/-- Of the runs that an owner writes, what is read is what the writes alone give. -/
theorem State.byte_foldl_ownedWrite (rs : List (Nat × List Byte)) (h : s.mem.byte = m.byte) :
    (rs.foldl (fun s r => s.ownedWrite stand (base + r.1) r.2) s).mem.byte =
      (rs.foldl (fun m r => m.write (base + r.1) r.2) m).byte := by
  induction rs generalizing s m with
  | nil => exact h
  | cons r rs ih =>
    refine ih (State.byte_ownedWrite.trans ?_)
    funext q
    simp only [Mem.byte_write, h]

theorem State.foldl_setByte_mem (l : SMap Byte) :
    (l.foldl (fun s b => s.setMem (s.mem.setByte (base + b.1) b.2)) s).mem = s.mem.setBytes base l :=
  (List.foldl_hom State.mem fun _ _ => rfl).symm

theorem Mem.byte_setBytes_congr {m' : Mem} {l : SMap Byte} (hl : smRising 0 l = true) (h : m.byte = m'.byte) :
    (m.setBytes base l).byte = (m'.setBytes base l).byte := by
  funext q
  simp only [Mem.byte_setBytes hl, h]

/-- What is read after an entry is accepted: its bytes set in turn. -/
theorem State.byte_acceptEntry {k : Nat} {e : MbEntry} (hf : s.mem.failed = []) (hc : s.mem.Canonical) (hl : smRising 0 e.bytes = true) :
    (s.acceptEntry k e).mem.byte = (s.mem.setBytes (e.line * 64) e.bytes).byte := by
  have poison (t : State) : (if e.bytes.length = 64 then t.setMem (t.mem.setPoison e.line false) else t).mem.byte = t.mem.byte := by
    split <;> rfl
  unfold State.acceptEntry
  dsimp only
  rw [State.mftMarkAt_mem, poison]
  split
  · rw [State.ucount_mem, State.foldl_setByte_mem]
    rfl
  · have own : ((s.clearRes k e.line).gainOwn (standOf k) e.line).mem.byte = s.mem.byte :=
      funext fun _ => State.byte_gainOwn (s := s.clearRes k e.line) hf hc
    rw [State.byte_foldl_ownedWrite _ rfl, Mem.foldl_write_runsOf, Mem.byte_setBytes_congr hl own]

end

/-- Settles O16: moving a line between caches recalls what memory held, and ownership makes every other copy go. -/
theorem coherentValues : Obligations.CoherentValues := by
  unfold Obligations.CoherentValues
  refine ⟨fun s k e hf hc hl h64 pa => ?_, fun s stand line pa hf hc => ⟨State.byte_gainShared hf hc, State.byte_gainOwn hf hc⟩,
    fun s stand line _ => ⟨State.l2line_gainShared, State.l2line_gainOwn, fun u hu hl => (State.gainOwn_exclusive hu hl).1,
      fun h ask u hu hl => (State.gainOwn_exclusive hu hl).2 h ask⟩⟩
  rw [State.byte_acceptEntry hf hc hl, Mem.byte_setBytes hl]
  by_cases hpa : pa / 64 = e.line
  · rw [if_pos (by omega), if_pos hpa, show pa - e.line * 64 = pa % 64 by omega]
  · rw [if_neg hpa]
    split
    · rw [smFind?_above h64 (by omega)]
      rfl
    · rfl

end Sys2Proof.Machine
end

section
/-!
PROOF. An undefined word takes its exception with the smallest sub-code (R118, R119; O20).
-/
namespace Sys2Proof.Machine

theorem least_cons (a : Nat) (r : List Nat) : least (a :: r) = some (r.foldl min a) := by
  induction r generalizing a with
  | nil => rfl
  | cons n r ih => exact ih (min a n)

theorem least_eq_min? (l : List Nat) : least l = l.min? := by
  cases l with
  | nil => rfl
  | cons a r => exact least_cons a r

/-- The sub-code of a word on its own is the smallest of its causes. -/
theorem udSingle_some {x : Word → List Nat} {odd : Bool} {w v : Word} {sub : Nat} (h : udSingle x odd w = some (sub, v)) :
    v = w ∧ ∀ c ∈ udCauses x w, sub ≤ c := by
  rw [udSingle, least_eq_min?, Option.map_eq_some_iff] at h
  obtain ⟨m, smallest, e⟩ := h
  obtain ⟨rfl, rfl⟩ := Prod.mk.inj e
  exact ⟨rfl, fun c hc => (List.min?_eq_some_iff.mp smallest).2 c (List.mem_append_right _ hc)⟩

theorem udOf_single {s : State} {k : Nat} {w target : Word} (h : classOf w ≠ .pfx) :
    s.udOf k .single w target = udSingle (s.xCauses k) ((s.core k).pc % 8 == 4) w := by
  simp [State.udOf, h]

/-- UD of a word that has been fetched is taken at once: what comes before it is ranks 1 to 3 alone (R276). -/
theorem preFault_undefined {s : State} {k : Nat} (h : s.noneFirst k = true) (slot : Slot) (sub pa : Nat) (v : Word) :
    s.preFault k slot ⟨1, sub, 0, some v⟩ pa = s.trap k slot ⟨1, sub, 0, some v⟩ := by
  simp [State.preFault, h]

/-- A word alone that has been fetched and is undefined does not issue: it traps. -/
theorem prepare_undefined {s s1 : State} {k sub : Nat} {w v target : Word} (hp : classOf w ≠ .pfx)
    (fits : (s.wake k).slotFits k .single w target = true) (fetched : (s.wake k).fetch k ((s.wake k).core k).pc = .ok s1)
    (first : s1.noneFirst k = true) (ud : s1.udOf k .single w target = some (sub, v)) :
    s.prepare k .single w target = .out (s1.trap k .single ⟨1, sub, 0, some v⟩) := by
  simp [State.prepare, fits, fetched, hp, ud, preFault_undefined first]

/-- Settles O20: the word traps by `prepare_undefined`, and `udSingle_some` says with which sub-code. -/
theorem undefinedWords : Obligations.UndefinedWords := by
  unfold Obligations.UndefinedWords
  intro s s1 k sub w v target hp spells fits fetched first ud
  refine ⟨?_, udSingle_some (by rw [← ud, udOf_single hp])⟩
  show s.issueT ⟨k, .single⟩ w target _ _ = _
  simp [State.issueT, spells, prepare_undefined hp fits fetched first ud]

end Sys2Proof.Machine
end

section
/-!
PROOF. The Understorey: X words present, are accepted, land and are discarded (R113, R213 to R215, R219, R220; O31).
-/
namespace Sys2Proof.Machine

/-! ## What counting leaves alone -/

section
variable {s t u : State}

/-- Nothing but control registers differs. -/
def CtlOnly (s t : State) : Prop := ∃ ctl, t = { s with ctl := ctl }

theorem CtlOnly.refl : CtlOnly s s := ⟨s.ctl, rfl⟩

theorem CtlOnly.trans (h : CtlOnly s t) (h' : CtlOnly t u) : CtlOnly s u := by
  obtain ⟨_, rfl⟩ := h
  obtain ⟨ctl, rfl⟩ := h'
  exact ⟨ctl, rfl⟩

theorem CtlOnly.bump48 (s : State) (lo hi ovf j n : Nat) : CtlOnly s (s.bump48 lo hi ovf j n) := by
  unfold State.bump48
  dsimp only
  split <;> exact ⟨_, rfl⟩

/-- A loop that at some of its turns adds to a counter. -/
theorem CtlOnly.bumps {p : State → Nat → Bool} {lo hi ovf : Nat → Nat} {n : Nat} (l : List Nat) (s : State) :
    CtlOnly s (l.foldl (fun s j => if p s j then s.bump48 (lo j) (hi j) (ovf j) j n else s) s) := by
  refine foldl_keeps (p := CtlOnly s) (fun t j ht => ?_) l s .refl
  split
  · exact ht.trans (.bump48 ..)
  · exact ht

theorem CtlOnly.count (s : State) (k ev n : Nat) : CtlOnly s (s.count k ev n) := by
  unfold State.count
  split
  · exact .refl
  · dsimp only
    split
    · exact .bumps ..
    · exact .refl

theorem CtlOnly.ucount (s : State) (g ev unit n : Nat) (cmp cls : Option Nat) : CtlOnly s (s.ucount g ev unit n cmp cls) := by
  unfold State.ucount
  split
  · exact .refl
  · exact .bumps ..

theorem CtlOnly.countUpGrove (s : State) (n g : Nat) : CtlOnly s (s.countUpGrove n g) := by
  unfold State.countUpGrove
  split
  · exact .refl
  · dsimp only
    refine .trans (foldl_keeps (p := CtlOnly s) (fun t x ht => ht.trans (.ucount ..)) _ s .refl)
      (foldl_keeps (p := CtlOnly _) (fun t l ht => ?_) _ _ .refl)
    split
    · exact ht.trans (.ucount ..)
    · exact ht

theorem CtlOnly.core (h : CtlOnly s t) (k : Nat) : t.core k = s.core k := by
  obtain ⟨_, rfl⟩ := h
  rfl

theorem CtlOnly.ust (h : CtlOnly s t) (g : Nat) : t.ust g = s.ust g := by
  obtain ⟨_, rfl⟩ := h
  rfl

/-- Counting up to now touches counters and the time to which they have been counted. -/
theorem countUp_frame (s : State) : ∃ ctl links, s.countUp = { s with ctl := ctl, links := links } := by
  have counted : CtlOnly s (if s.time - s.links.countedAt = 0 then s
      else (List.range 12).foldl (fun t g => t.countUpGrove (s.time - s.links.countedAt) g) s) := by
    split
    · exact .refl
    · exact foldl_keeps (p := CtlOnly s) (fun t g ht => ht.trans (.countUpGrove ..)) _ s .refl
  obtain ⟨ctl, e⟩ := counted
  exact ⟨ctl, _, by simp only [State.countUp, e]; rfl⟩

end

/-! ## Requests that no home holds -/

section
variable {s : State} {k : Nat}

theorem serveWaits_none (h : s.mem.waits = []) : s.serveWaits = s := by simp [State.serveWaits, h, sortBy]

/-- The lines of an operation are freed: counters are brought up to date and transactions end. -/
theorem freeLines_frame (s : State) (lines : List Nat) : ∃ ctl links m, m.waits = s.mem.waits ∧
    s.freeLines lines = { s with ctl := ctl, links := links, mem := m } := by
  unfold State.freeLines
  split
  · exact ⟨s.ctl, s.links, s.mem, rfl, rfl⟩
  · obtain ⟨ctl, links, e⟩ := countUp_frame s
    exact ⟨ctl, links, { s.mem with txns := s.mem.txns.filter fun t => !(t.held && lines.contains t.line) }, rfl, by rw [e]; rfl⟩

theorem leaveX_frame (s : State) (k seq : Nat) : (s.leaveX k seq).mem.waits = s.mem.waits ∧
    (s.leaveX k seq).core k = { s.core k with xops := (s.core k).xops.filter (·.seq != seq) } := by
  obtain ⟨_, _, m, waits, e⟩ := freeLines_frame s (((s.core k).xops.filter (·.seq == seq)).flatMap (·.lines))
  unfold State.leaveX
  dsimp only
  rw [e]
  exact ⟨waits, State.core_modCore_self ..⟩

theorem dropX_core (h : s.mem.waits = []) (seq : Nat) :
    (s.dropX k seq).core k = { s.core k with xops := (s.core k).xops.filter (·.seq != seq) } := by
  obtain ⟨waits, core⟩ := leaveX_frame s k seq
  rw [State.dropX, serveWaits_none (waits.trans h), core]

end

/-! ## Presenting and acceptance (R213, R214) -/

section
variable {s : State} {k : Nat}

/-- An X word whose context has not granted its core holds the group. -/
theorem groupHold_presents {w : Word} {e : UstEntry} (mb : (s.core k).mb = []) (hw : 56 ≤ opcodeOf w) (he : s.xEntry k w = some e)
    (hg : (s.core k).grant ≠ some e.ctx) :
    s.groupHold k [w] = some (s.modCore k (fun c => { c with held := true, present := some e.ctx })) := by
  have waits : s.xWaits k w = some e.ctx := by simp [State.xWaits, Nat.not_lt.mpr hw, he, hg]
  simp [State.groupHold, mb, waits]

/-- Of the cores that present, the one to be accepted next is granted. -/
theorem ustAccept_grants {grove ctx at_ : Nat} (free : ∀ e ∈ s.cores, groveOf e.1 = grove → e.2.grant ≠ some ctx)
    (next : s.nextAccept grove ctx = some (k, at_)) :
    ∃ t : State, exec (.ustAccept grove ctx (slotOf k)) s =
      .next (t.modCore k (fun c => { c with present := none, held := false, grant := some ctx })) := by
  have idle : s.cores.any (fun e => groveOf e.1 == grove && e.2.grant == some ctx) = false := by simpa using free
  rw [show exec (.ustAccept grove ctx (slotOf k)) s = execUstAccept grove ctx (slotOf k) s from rfl, execUstAccept,
    if_neg (by simp [idle]), next]
  dsimp only
  rw [if_neg (by simp)]
  exact ⟨_, rfl⟩

/-- Outside a recording and a replay no order of acceptance is written or read. -/
theorem uorder_off {n : Nat} (hn : s.cmpOf k = some n) (hr : s.recording n = false) (hm : s.mftMode n ≠ 3) (ctx : Nat) :
    s.uorder k ctx = s := by
  simp [State.uorder, hn, hr, hm]

/-- An operation as the array has computed it (R222): its result is done, and stores nothing. -/
def XOp.computed (u : UstSec) (y : XOp) : XOp :=
  { y with outcome := .done (Config.ustResult u.image y.ctx y.operands y.cells.acc y.cells.mem []) [] }

/-- An operation without memory is done as it is accepted. -/
theorem xPerform_array {u : UstSec} {y : XOp} (hu : s.ustCfg (groveOf k) = some u) (hm : y.mem = false) :
    s.xPerform k y = (s.xCells (groveOf k) u y, y.computed u) := by
  simp [State.xPerform, hu, hm, XOp.computed]

@[simp] theorem State.ust_setUst (s : State) (g : Nat) (u : Ust) : (s.setUst g u).ust g = u := by simp [State.ust, State.setUst, smGet_smSet]

theorem xCells_lastSlot (s : State) (g : Nat) (u : UstSec) (y : XOp) : ((s.xCells g u y).ust g).lastSlot = (s.ust g).lastSlot := by
  simp [State.xCells]

/-- What the array notes of an acceptance: which slot its context accepted, when, and how many. -/
def State.noteAccept (s : State) (k ctx order : Nat) : State :=
  s.setUst (groveOf k) { s.ust (groveOf k) with
    lastSlot := smSet (s.ust (groveOf k)).lastSlot ctx (slotOf k), lastTime := smSet (s.ust (groveOf k)).lastTime ctx (s.localTime k)
    accepts := smSet (s.ust (groveOf k)).accepts ctx order }

theorem noteAccept_lastSlot (s : State) (k ctx order : Nat) :
    smFind? ((s.noteAccept k ctx order).ust (groveOf k)).lastSlot ctx = some (slotOf k) := by
  simp [State.noteAccept, smFind?_smSet]

theorem ustCfg_noteAccept (s : State) (k ctx order : Nat) : (s.noteAccept k ctx order).ustCfg (groveOf k) = s.ustCfg (groveOf k) := by
  simp [State.ustCfg, State.noteAccept]

/-- The core's part of an acceptance: the operation is in flight, and the grant is used. -/
def Core.takeX (c : Core) (ctx : Nat) (y : XOp) : Core := { c with xops := c.xops ++ [y], xlast := smSet c.xlast ctx c.ccyc, grant := none }

section
variable {x : At} {w : Word} {e : UstEntry} {u : UstSec} {n : Nat} (hn : s.cmpOf x.core = some n) (hr : s.recording n = false)
  (hm : s.mftMode n ≠ 3)
include hn hr hm

/-- Acceptance, but for its counters: the array notes it, the operation is performed, and the core takes it. -/
theorem acceptX_parts {r : State × XOp} (hp : (s.noteAccept x.core e.ctx (s.newX x w e).order).xPerform x.core (s.newX x w e) = r) :
    CtlOnly (r.1.modCore x.core (·.takeX e.ctx r.2)) (s.acceptX x w e) := by
  subst hp
  rw [State.acceptX, uorder_off hn hr hm]
  exact .trans (.ucount ..) (.count ..)

variable (hu : s.ustCfg (groveOf x.core) = some u) (he : e.mem = false)
include hu he

/-- Without memory, the operation it takes is the array's, which has written its cells. -/
theorem acceptX_array :
    CtlOnly (((s.noteAccept x.core e.ctx (s.newX x w e).order).xCells (groveOf x.core) u (s.newX x w e)).modCore x.core
      (·.takeX e.ctx ((s.newX x w e).computed u))) (s.acceptX x w e) :=
  acceptX_parts hn hr hm (xPerform_array ((ustCfg_noteAccept ..).trans hu) he)

theorem acceptX_core : (s.acceptX x w e).core x.core = (s.core x.core).takeX e.ctx ((s.newX x w e).computed u) := by
  rw [(acceptX_array hn hr hm hu he).core, State.core_modCore_self]
  rfl

theorem acceptX_lastSlot : smFind? ((s.acceptX x w e).ust (groveOf x.core)).lastSlot e.ctx = some (slotOf x.core) := by
  rw [(acceptX_array hn hr hm hu he).ust]
  exact (congrArg (smFind? · e.ctx) (xCells_lastSlot ..)).trans (noteAccept_lastSlot ..)

end
end

/-! ## Landing (R215, R219) -/

section
variable {s : State} {k : Nat} {x : XOp}

/-- A core in whose part of the record there is room takes a fault. -/
theorem Core.mem_record_ufault {c : Core} {f : LongFault} (hf : f.code = 11) (room : (c.faults.filter (·.code == 11)).length < 4) :
    f ∈ (c.record f).faults := by
  have mine : c.faults.filter (fun g => (g.code == 11) == (f.code == 11)) = c.faults.filter (·.code == 11) := by simp [hf]
  rw [Core.record, mine, if_neg (by simpa [hf] using room)]
  simp

theorem mftEvent_off (h : smFind? s.mftc k = none) (type data : Nat) (cont : List Nat) : s.mftEvent k type data cont = s := by
  simp [State.mftEvent, h]

/-- A fault that parks nothing is recorded, and its operation is dropped. -/
theorem xFault_drops {sub : Nat} (h : 3 < sub % 16) (addr : Nat) :
    s.xFault k x sub addr = (s.modCore k (fun c => c.record ⟨11, sub, addr, x.seq⟩)).dropX k x.seq := by
  simp [State.xFault, Nat.not_le.mpr h]

/-- An OVERRUN is recorded, and its operation is dropped. -/
theorem xOverrun_faults (hj : smFind? s.mftc k = none) (hw : s.mem.waits = []) :
    ((s.xOverrun k x).core k).faults = ((s.core k).record ⟨11, 5, x.addr, x.seq⟩).faults := by
  have counted : CtlOnly s ((s.ctlInc (o_ustOverruns (groveOf k))).ucount (groveOf k) 0x0C 0 1 (s.cmpOf k) none) :=
    .trans ⟨_, rfl⟩ (.ucount ..)
  obtain ⟨ctl, e⟩ := counted
  unfold State.xOverrun
  dsimp only
  rw [e, mftEvent_off (by exact hj), xFault_drops (by decide), dropX_core (by exact hw), State.core_modCore_self]
  rfl

theorem landX_late (h : x.mem = true) : s.landX k x true = s.xOverrun k x := by simp [State.landX, h]

theorem mftItem_core (s : State) (k code v : Nat) : (s.mftItem k code v).core k = s.core k := by
  unfold State.mftItem
  split <;> rfl

/-- An operation that stores nothing lands its word in the destination. -/
theorem landX_word {v : DWord} (done : x.outcome = .done v []) (kind : x.dstKind = 1) (keep : x.dropLo = false) (hw : s.mem.waits = []) :
    (s.landX k x false).core k = (((s.leaveX k x.seq).core k).discard [(.w x.dst (v.extractLsb' 0 36), x.seq)]).land
      (.w x.dst (v.extractLsb' 0 36)) := by
  have settled : (s.leaveX k x.seq).serveWaits = s.leaveX k x.seq := serveWaits_none ((leaveX_frame s k x.seq).1.trans hw)
  simp [State.landX, done, kind, keep, settled, mftItem_core]

/-- Its destination then reads as that word. -/
theorem landX_reg {v : DWord} (done : x.outcome = .done v []) (kind : x.dstKind = 1) (keep : x.dropLo = false) (hd : x.dst ≠ 0)
    (ho : (s.core k).opW = none) (hw : s.mem.waits = []) : ((s.landX k x false).core k).reg x.dst = v.extractLsb' 0 36 := by
  rw [landX_word done kind keep hw, (leaveX_frame s k x.seq).2, Core.land_w_reg (by exact ho), if_pos ⟨rfl, hd⟩]

/-- The oldest operation in flight lands in its landing cycle. -/
theorem ustLanding_onTime (hc : s.clocked k = true) (hx : (s.core k).xops.find? (·.parked.isNone) = some x) :
    exec (.ustLanding k false) s = .next (s.passTo k x.due) := by
  show execUstLanding k false s = _
  simp [execUstLanding, hx, hc]

/-- One that is late, and still in flight in the cycle before, is an OVERRUN in its landing cycle. -/
theorem ustLanding_late {y : XOp} (hc : s.clocked k = true) (hx : (s.core k).xops.find? (·.parked.isNone) = some x)
    (hy : ((s.passTo k (x.due - 1)).core k).xops.find? (·.seq == x.seq) = some y)
    (hd : x.due ≤ ((s.passTo k (x.due - 1)).core k).ccyc + 1) :
    exec (.ustLanding k true) s = .next (((s.passTo k (x.due - 1)).landX k y true).passTo k x.due) := by
  show execUstLanding k true s = _
  simp [execUstLanding, hx, hc, hy, hd]

end

/-! ## Discarding (R220) -/

section
variable {s : State} {k : Nat}

theorem discardParked_none (h : (s.core k).xops.any (·.parked.isSome) = false) : s.discardParked k = s := by
  simp [State.discardParked, h]

theorem setDropped_dropped (s : State) (k : Nat) : ((s.setDropped k).ust (groveOf k)).dropped.getLsbD (slotOf k) = true := by
  have slot : slotOf k < 20 := Nat.mod_lt _ (by decide)
  rw [State.setDropped, State.ust_setUst, BitVec.getLsbD_or, BitVec.natCast_eq_ofNat, BitVec.getLsbD_ofNat]
  simp [slot, Nat.testBit_shiftLeft]

/-- The parked operations go, and DROPPED says so. -/
theorem discardParked_some (h : (s.core k).xops.any (·.parked.isSome) = true) (hw : s.mem.waits = []) :
    ((s.discardParked k).core k).xops = (s.core k).xops.filter (·.parked.isNone) ∧
      ((s.discardParked k).ust (groveOf k)).dropped.getLsbD (slotOf k) = true := by
  obtain ⟨ctl, links, m, waits, e⟩ := freeLines_frame s (((s.core k).xops.filter (·.parked.isSome)).flatMap (·.lines))
  rw [State.discardParked, if_pos h]
  dsimp only
  rw [e, serveWaits_none (waits.trans hw)]
  exact ⟨by rw [State.core_modCore_self]; rfl, setDropped_dropped _ k⟩

theorem discardParked_xops (hw : s.mem.waits = []) : ((s.discardParked k).core k).xops = (s.core k).xops.filter (·.parked.isNone) := by
  by_cases h : (s.core k).xops.any (·.parked.isSome) = true
  · exact (discardParked_some h hw).1
  · rw [Bool.not_eq_true] at h
    rw [discardParked_none h, List.filter_eq_self.mpr]
    simpa using h

end

/-- Settles O31: presenting and acceptance by `groupHold_presents`, `ustAccept_grants`, `acceptX_core` and `acceptX_lastSlot`; landing by
`ustLanding_onTime`, `ustLanding_late`, `xOverrun_faults` and `landX_reg`; discarding by `discardParked_some`. -/
theorem understoreyOperations : Obligations.UnderstoreyOperations := by
  unfold Obligations.UnderstoreyOperations
  refine ⟨fun s s1 x w e h hw he => ?_, fun s k w e => groupHold_presents, fun s grove ctx k at_ free next => ?_,
    fun s x w e u n hn hr hm hu he => ⟨⟨(s.newX x w e).computed u, ?_, rfl, rfl, rfl, rfl, rfl⟩, ?_, acceptX_lastSlot hn hr hm hu he⟩,
    fun s k x hc hx => ⟨ustLanding_onTime hc hx, fun y => ustLanding_late hc hx⟩, fun s k x hm hj hw room => ?_,
    fun s k x v => landX_reg, fun s k hp hw => ⟨s.discardParked k, ?_, discardParked_xops hw, fun h => (discardParked_some h hw).2⟩⟩
  · rw [show exec (.xOperation x w) s = s.issue x w (56 ≤ opcodeOf w) _ from rfl, issue_of_issues h (by simpa using hw), he]
    rfl
  · obtain ⟨t, granted⟩ := ustAccept_grants free next
    exact ⟨_, granted, by simp⟩
  · rw [acceptX_core hn hr hm hu he]
    rfl
  · rw [acceptX_core hn hr hm hu he]
    rfl
  · rw [landX_late hm, xOverrun_faults hj hw]
    exact Core.mem_record_ufault rfl room
  · show execUstDiscard k s = _
    simp [execUstDiscard, hp]

end Sys2Proof.Machine
end

section
/-!
PROOF. Sums, shifts, saturation and the flags of Table 5-3 as exact numbers (R69 to R71, R124, R126).
-/
namespace Sys2Proof.Machine

section
variable {n : Nat}

/-! ## The flags of an exact number -/

theorem flZN_ofInt (n : Nat) (v : Int) : flZN (BitVec.ofInt n v) = flagsZN n v := by
  have pos : 0 ≤ v % 2 ^ n := Int.emod_nonneg v (by positivity)
  have z : (BitVec.ofInt n v == 0) = (v % 2 ^ n == 0) := by
    rw [Bool.eq_iff_iff, beq_iff_eq, beq_iff_eq, ← BitVec.toNat_inj, BitVec.toNat_ofInt]
    push_cast
    simp only [BitVec.ofNat_eq_ofNat, BitVec.toNat_ofNat, Nat.zero_mod]
    omega
  have neg : (BitVec.ofInt n v).msb = decide (2 ^ (n - 1) ≤ v % 2 ^ n) := by
    rw [BitVec.msb_eq_decide, BitVec.toNat_ofInt, decide_eq_decide]
    push_cast
    rw [Int.le_toNat pos]
    push_cast
    rfl
  rw [flZN, z, neg, flagsZN]

/-- V of Table 5-3: the exact result is not the value of the word that is written. -/
theorem outside_eq (hn : 0 < n) (e : Int) : outside n e = decide (e ≠ (BitVec.ofInt n e).toInt) := by
  obtain ⟨m, rfl⟩ := Nat.exists_eq_succ_of_ne_zero hn.ne'
  have half : (2 : Int) ^ m = (2 ^ m : Nat) := by push_cast; rfl
  have pos : 0 < 2 ^ (m + 1) := by positivity
  have low := Int.le_bmod (x := e) pos
  have high := Int.bmod_lt (x := e) pos
  rw [outside, decide_eq_decide, BitVec.toInt_ofInt, Nat.succ_sub_one, half]
  refine ⟨fun out eq => ?_, fun ne => ?_⟩
  · rw [← eq] at low high
    push_cast at low high
    omega
  · by_contra inside
    refine ne (Int.bmod_eq_of_le_mul_two ?_ ?_).symm <;> push_cast <;> omega

theorem flSum_ofInt (v : Int) (cy : Bool) (e : Int) : flSum (BitVec.ofInt n v, cy, outside n e) = flagsOf n v cy e := by
  rw [flSum, flZN_ofInt]
  simp [flC, flV, flagsOf]

/-! ## Sums and differences -/

theorem addCarry_eq (hn : 0 < n) (a b : BitVec n) (cin : Bool) :
    addCarry a b cin = (BitVec.ofInt n (a.toInt + b.toInt + cin.toNat), decide (2 ^ n ≤ a.toNat + b.toNat + cin.toNat),
      outside n (a.toInt + b.toInt + cin.toNat)) := by
  have sum : BitVec.ofNat n (a.toNat + b.toNat + cin.toNat) = BitVec.ofInt n (a.toInt + b.toInt + cin.toNat) := by
    rw [BitVec.ofNat_add, BitVec.ofNat_add, BitVec.ofNat_toNat, BitVec.ofNat_toNat, BitVec.setWidth_eq, BitVec.setWidth_eq,
      BitVec.ofInt_add, BitVec.ofInt_add, BitVec.ofInt_toInt, BitVec.ofInt_toInt, BitVec.ofInt_natCast]
  rw [addCarry, sum, outside_eq hn]

theorem toInt_not_of_pos (hn : 0 < n) (b : BitVec n) : (~~~b).toInt = -b.toInt - 1 := by
  have lt := b.isLt
  rw [BitVec.toInt_eq_msb_cond, BitVec.toInt_eq_msb_cond, BitVec.msb_not, BitVec.toNat_not, Nat.cast_sub (by omega), Nat.cast_sub (by omega)]
  cases b.msb <;> simp [hn] <;> ring

/-- A − B as A + NOT B + carry-in. -/
theorem subCarry_eq (hn : 0 < n) (a b : BitVec n) (cin : Bool) :
    subCarry a b cin = (BitVec.ofInt n (a.toInt - b.toInt - 1 + cin.toNat), decide (b.toNat + 1 ≤ a.toNat + cin.toNat),
      outside n (a.toInt - b.toInt - 1 + cin.toNat)) := by
  have lt := b.isLt
  rw [subCarry, addCarry_eq hn, toInt_not_of_pos hn, BitVec.toNat_not, show a.toInt + (-b.toInt - 1) = a.toInt - b.toInt - 1 by ring]
  congr 3
  exact propext (by omega)

theorem addCarry_false (hn : 0 < n) (a b : BitVec n) :
    addCarry a b false = (BitVec.ofInt n (a.toInt + b.toInt), decide (2 ^ n ≤ a.toNat + b.toNat), outside n (a.toInt + b.toInt)) := by
  simp [addCarry_eq hn]

theorem subCarry_true (hn : 0 < n) (a b : BitVec n) :
    subCarry a b true = (BitVec.ofInt n (a.toInt - b.toInt), decide (b.toNat ≤ a.toNat), outside n (a.toInt - b.toInt)) := by
  simp [subCarry_eq hn]

theorem toNat_flagC (c : Core) : c.flagC.toNat = c.carry := by
  rw [Core.flagC, Core.carry]
  cases c.fl.getLsbD 2 <;> rfl

/-! ## Shifts, and the last bit shifted out (R126) -/

theorem shlC_eq (a : BitVec n) (s : Nat) :
    shlC a s = (BitVec.ofInt n (a.toNat * 2 ^ s : Nat), if s = 0 then none else some ((a.toNat * 2 ^ s).testBit n)) := by
  have shifted : a <<< s = BitVec.ofInt n (a.toNat * 2 ^ s : Nat) := by
    rw [BitVec.ofInt_natCast]
    exact BitVec.eq_of_toNat_eq (by simp [Nat.shiftLeft_eq])
  rw [shlC, shifted, ← Nat.shiftLeft_eq, Nat.testBit_shiftLeft]
  rfl

theorem shrC_eq (a : BitVec n) (s : Nat) :
    shrC a s = (BitVec.ofInt n (a.toNat / 2 ^ s : Nat), if s = 0 then none else some (a.toNat.testBit (s - 1))) := by
  have shifted : a >>> s = BitVec.ofInt n (a.toNat / 2 ^ s : Nat) := by
    rw [BitVec.ofInt_natCast, ← Nat.shiftRight_eq_div_pow]
    exact BitVec.eq_of_toNat_eq (by simp [Nat.mod_eq_of_lt (Nat.lt_of_le_of_lt (Nat.shiftRight_le _ _) a.isLt)])
  have out : s ≠ 0 → (decide (s ≤ n) && a.getLsbD (s - 1)) = a.toNat.testBit (s - 1) := by
    intro hs
    by_cases le : s ≤ n
    · simp [le, BitVec.getLsbD]
    · simp [le, show a.toNat.testBit (s - 1) = false from a.getLsbD_of_ge (s - 1) (by omega)]
  rw [shrC, shifted]
  split
  · rfl
  next hs => rw [out hs]

theorem sshiftRight_ofInt (a : BitVec n) (s : Nat) : a.sshiftRight s = BitVec.ofInt n (a.toInt / 2 ^ s) := by
  rw [← BitVec.ofInt_toInt (x := a.sshiftRight s), BitVec.toInt_sshiftRight, Int.shiftRight_eq_div_pow]
  push_cast
  rfl

theorem getLsbD_zero_eq (hn : 0 < n) (a : BitVec n) : a.getLsbD 0 = (a.toInt % 2 == 1) := by
  have even : 2 ∣ ((2 ^ n : Nat) : Int) := by exact_mod_cast dvd_pow_self 2 hn.ne'
  rw [BitVec.getLsbD, Nat.testBit_zero, BitVec.toInt_eq_msb_cond, Bool.eq_iff_iff, decide_eq_true_iff, beq_iff_eq]
  split <;> omega

theorem sarC_eq (hn : 0 < n) (a : BitVec n) (s : Nat) :
    sarC a s = (BitVec.ofInt n (a.toInt / 2 ^ s), if s = 0 then none else some (a.toInt / 2 ^ (s - 1) % 2 == 1)) := by
  have out : s ≠ 0 → (if s ≤ n then a.getLsbD (s - 1) else a.msb) = (a.toInt / 2 ^ (s - 1) % 2 == 1) := by
    intro hs
    have last : (a.sshiftRight (s - 1)).getLsbD 0 = if s ≤ n then a.getLsbD (s - 1) else a.msb := by
      rw [BitVec.getLsbD_sshiftRight]
      simp [hn.ne', show s - 1 < n ↔ s ≤ n by omega]
    rw [← last, getLsbD_zero_eq hn, BitVec.toInt_sshiftRight, Int.shiftRight_eq_div_pow]
    push_cast
    rfl
  rw [sarC, sshiftRight_ofInt]
  split
  · rfl
  next hs => rw [out hs]

/-- Above the width every amount shifts the same bits in and out. -/
theorem shlC_min (a : BitVec n) (s : Nat) : shlC a (min s (n + 1)) = shlC a s := by
  rcases Nat.le_total s (n + 1) with le | ge
  · rw [Nat.min_eq_left le]
  · have gone (t : Nat) (h : n < t) : shlC a t = (0, some false) := by
      simp [shlC, show t ≠ 0 by omega, show ¬t ≤ n by omega, BitVec.shiftLeft_eq_zero (x := a) (n := t) (by omega)]
    rw [Nat.min_eq_right ge, gone _ (by omega), gone _ (by omega)]

theorem shrC_min (a : BitVec n) (s : Nat) : shrC a (min s (n + 1)) = shrC a s := by
  rcases Nat.le_total s (n + 1) with le | ge
  · rw [Nat.min_eq_left le]
  · have gone (t : Nat) (h : n < t) : shrC a t = (0, some false) := by
      simp [shrC, show t ≠ 0 by omega, show ¬t ≤ n by omega, BitVec.ushiftRight_eq_zero (x := a) (n := t) (by omega)]
    rw [Nat.min_eq_right ge, gone _ (by omega), gone _ (by omega)]

theorem sarC_min (a : BitVec n) (s : Nat) : sarC a (min s (n + 1)) = sarC a s := by
  rcases Nat.le_total s (n + 1) with le | ge
  · rw [Nat.min_eq_left le]
  · have signs (t : Nat) (h : n < t) : sarC a t = (if a.msb then BitVec.allOnes n else 0, some a.msb) := by
      have copies : a.sshiftRight t = if a.msb then BitVec.allOnes n else 0 := by
        ext i hi
        rw [← BitVec.getLsbD_eq_getElem, BitVec.getLsbD_sshiftRight]
        cases m : a.msb <;> simp [hi, show ¬t + i < n by omega]
      simp [sarC, show t ≠ 0 by omega, show ¬t ≤ n by omega, copies]
    rw [Nat.min_eq_right ge, signs _ (by omega), signs _ (by omega)]

theorem toNat_rotateLeft_eq (a : Word) {k : Nat} (hk : k < 36) : (a.rotateLeft k).toNat = rotated a.toNat k := by
  have lt := a.isLt
  have split36 : 2 ^ 36 = 2 ^ (36 - k) * 2 ^ k := by rw [← pow_add, Nat.sub_add_cancel hk.le]
  have high : a.toNat * 2 ^ k % 2 ^ 36 = 2 ^ k * (a.toNat % 2 ^ (36 - k)) := by
    rw [split36, Nat.mul_mod_mul_right, Nat.mul_comm]
  have low : a.toNat * 2 ^ k / 2 ^ 36 = a.toNat / 2 ^ (36 - k) := by
    rw [split36, Nat.mul_div_mul_right _ _ (by positivity)]
  have bound : a.toNat / 2 ^ (36 - k) < 2 ^ k := Nat.div_lt_of_lt_mul (split36 ▸ lt)
  rw [BitVec.toNat_rotateLeft, Nat.mod_eq_of_lt hk, Nat.shiftLeft_eq, Nat.shiftRight_eq_div_pow, rotated, high, low,
    Nat.two_pow_add_eq_or_of_lt bound]

theorem rolC_eq (a : Word) (s : Nat) :
    rolC a s = (BitVec.ofInt 36 (rotated a.toNat (s % 36)), if s % 36 = 0 then none else some (rotated a.toNat (s % 36) % 2 == 1)) := by
  have turned := toNat_rotateLeft_eq a (Nat.mod_lt s (by decide : 36 > 0))
  have word : a.rotateLeft (s % 36) = BitVec.ofInt 36 (rotated a.toNat (s % 36)) := by
    rw [BitVec.ofInt_natCast, ← turned, BitVec.ofNat_toNat, BitVec.setWidth_eq]
  have bit : (a.rotateLeft (s % 36)).getLsbD 0 = (rotated a.toNat (s % 36) % 2 == 1) := by
    rw [BitVec.getLsbD, turned, Nat.testBit_zero]
    rfl
  rw [rolC, bit, word]

/-! ## Saturation (R71) -/

theorem satTo_eq (n : Nat) (v : Int) : satTo n v = (BitVec.ofInt n (clip n v), clip n v != v) := by
  have pos : (0 : Int) < 2 ^ (n - 1) := by positivity
  simp only [satTo, clip]
  split
  next below => rw [max_eq_left (by omega)]; simp; omega
  next notBelow =>
    split
    next above => rw [min_eq_right (by omega), max_eq_right (by omega)]; simp; omega
    next notAbove => rw [min_eq_left (by omega), max_eq_right (by omega)]; simp

theorem flQ_clip (n : Nat) (v : Int) (lat : Nat) : flQ (clip n v != v) lat = setsQ n v lat := by
  unfold flQ setsQ
  by_cases h : clip n v = v <;> simp [h]

/-- A saturated value is written clipped, with Q when it clips. -/
theorem satTo_effs (dst : BitVec n → Effs) (v : Int) (lat : Nat) :
    dst (satTo n v).1 ++ flQ (satTo n v).2 lat = dst (BitVec.ofInt n (clip n v)) ++ setsQ n v lat := by
  rw [satTo_eq, flQ_clip]

end

end Sys2Proof.Machine
end

section
/-!
PROOF. The INT group and the I-format instructions (R124 to R128; O1).
-/
namespace Sys2Proof.Machine

/-! ## What an instruction's writes come to -/

/-- A body that computes writes, given in other words. -/
theorem computes_of_eq {s : State} {x : At} {w : Word} {i : Instr} {spells : Bool} {f g : Core → Effs}
    (he : exec i s = s.issue x w spells (compute x.core g)) (hg : ∀ c, g c = f c) (ok : spells = true) : Computes s x w i f := by
  intro s1 h
  rw [he, issue_compute h ok, hg]

section
variable {n : Nat} (w : Word)

theorem sumEffs_exact (dst : BitVec n → Effs) (v : Int) (cy : Bool) (e : Int) :
    sumEffs w dst (BitVec.ofInt n v, cy, outside n e) = dst (BitVec.ofInt n v) ++ onF w (flagsOf n v cy e) := by
  rw [sumEffs, flSum_ofInt]
  rfl

theorem logicEffs_exact (v : Int) : logicEffs w (BitVec.ofInt 36 v) = toW w v 1 ++ onF w (flagsZN 36 v) := by
  rw [logicEffs, flZN_ofInt]
  rfl

theorem shiftEffs_exact (v : Int) (m : Nat) (b : Bool) :
    shiftEffs w (BitVec.ofInt 36 v, if m = 0 then none else some b) = toW w v 1 ++ onF w (flagsZN 36 v ++ shiftC m b) := by
  rw [shiftEffs, flShift, flZN_ofInt, shiftC]
  split <;> rfl

/-! ## Words as exact numbers -/

theorem ofInt_toNat (a : BitVec n) : BitVec.ofInt n a.toNat = a := by
  rw [BitVec.ofInt_natCast, BitVec.ofNat_toNat, BitVec.setWidth_eq]

theorem and_ofInt (a b : BitVec n) : a &&& b = BitVec.ofInt n (Nat.land a.toNat b.toNat) := (ofInt_toNat (a &&& b)).symm

theorem or_ofInt (a b : BitVec n) : a ||| b = BitVec.ofInt n (Nat.lor a.toNat b.toNat) := (ofInt_toNat (a ||| b)).symm

theorem xor_ofInt (a b : BitVec n) : a ^^^ b = BitVec.ofInt n (Nat.xor a.toNat b.toNat) := (ofInt_toNat (a ^^^ b)).symm

theorem andn_ofInt (a b : BitVec n) : a &&& ~~~b = BitVec.ofInt n (Nat.land a.toNat (2 ^ n - 1 - b.toNat)) := by
  rw [and_ofInt, BitVec.toNat_not]

theorem slt_min (a b : BitVec n) : (if a.slt b then a else b) = BitVec.ofInt n (min a.toInt b.toInt) := by
  simp only [BitVec.slt, decide_eq_true_eq]
  split
  next lt => rw [min_eq_left lt.le, BitVec.ofInt_toInt]
  next ge => rw [min_eq_right (not_lt.mp ge), BitVec.ofInt_toInt]

theorem slt_max (a b : BitVec n) : (if a.slt b then b else a) = BitVec.ofInt n (max a.toInt b.toInt) := by
  simp only [BitVec.slt, decide_eq_true_eq]
  split
  next lt => rw [max_eq_right lt.le, BitVec.ofInt_toInt]
  next ge => rw [max_eq_left (not_lt.mp ge), BitVec.ofInt_toInt]

theorem ult_min (a b : BitVec n) : (if a.ult b then a else b) = BitVec.ofInt n (min a.toNat b.toNat : Nat) := by
  simp only [BitVec.ult, decide_eq_true_eq]
  split
  next lt => rw [min_eq_left lt.le, ofInt_toNat]
  next ge => rw [min_eq_right (not_lt.mp ge), ofInt_toNat]

theorem ult_max (a b : BitVec n) : (if a.ult b then b else a) = BitVec.ofInt n (max a.toNat b.toNat : Nat) := by
  simp only [BitVec.ult, decide_eq_true_eq]
  split
  next lt => rw [max_eq_right lt.le, ofInt_toNat]
  next ge => rw [max_eq_left (not_lt.mp ge), ofInt_toNat]

theorem boolWord_decide (p : Prop) [Decidable p] : boolWord (decide p) = BitVec.ofInt 36 (if p then 1 else 0) := by
  by_cases h : p <;> simp [boolWord, h]

theorem abs_ofInt (a : BitVec n) : (if a.msb then -a else a) = BitVec.ofInt n a.toInt.natAbs := by
  rw [BitVec.msb_eq_toInt]
  by_cases neg : a.toInt < 0
  · rw [if_pos (by simpa using neg), Int.ofNat_natAbs_of_nonpos neg.le, BitVec.ofInt_neg, BitVec.ofInt_toInt]
  · rw [if_neg (by simpa using neg), Int.natAbs_of_nonneg (not_lt.mp neg), BitVec.ofInt_toInt]

theorem eq_intMin_iff (a : Word) : (a == BitVec.intMin 36) = (a.toInt == -(2 ^ 35)) := by
  rw [Bool.eq_iff_iff, beq_iff_eq, beq_iff_eq, ← BitVec.toInt_inj]
  rfl

theorem clz36_eq (a : Word) : clz36 a = if a.toNat = 0 then 36 else 35 - a.toNat.log2 := by
  have lt := a.isLt
  unfold clz36
  by_cases zero : a.toNat = 0
  · rw [if_pos zero, List.find?_range_eq_none.mpr fun i _ => by simp [BitVec.getLsbD, zero]]
    rfl
  · have top : a.toNat.log2 < 36 := (Nat.log2_lt zero).mpr lt
    have above (j : Nat) (hj : j < 35 - a.toNat.log2) : a.toNat.testBit (35 - j) = false :=
      Nat.testBit_lt_two_pow ((Nat.log2_lt zero).mp (by omega))
    have leading : (List.range 36).find? (fun i => a.getLsbD (35 - i)) = some (35 - a.toNat.log2) := by
      rw [List.find?_range_eq_some]
      refine ⟨?_, by simp; omega, fun j hj => by simp [BitVec.getLsbD, above j hj]⟩
      rw [Nat.sub_sub_self (by omega)]
      exact Nat.testBit_log2 zero
    rw [if_neg zero, leading]
    rfl

theorem popc36_eq (a : Word) : popc36 a = (List.range 36).countP a.toNat.testBit := List.countP_eq_length_filter.symm

/-! ## Immediates of format I (R107) -/

theorem immSx_ofInt : immSx w = BitVec.ofInt 36 (immS w) := rfl

theorem toInt_immSx : (immSx w).toInt = immS w := BitVec.toInt_signExtend_of_le (by decide)

theorem toNat_immSx : (immSx w).toNat = (immS w % 2 ^ 36).toNat := by
  rw [immSx_ofInt, BitVec.toNat_ofInt]
  rfl

theorem toNat_immZx : (immZx w).toNat = immZ w := by
  have lt : w.toNat % 2 ^ 17 < 2 ^ 36 := (Nat.mod_lt _ (by decide)).trans (by decide)
  simpa [immZx, immZ, fld] using lt

end

/-! ## The operations -/

section
variable {n : Nat} (w : Word) (c : Core)

theorem abs_exact :
    logicEffs w (if (c.srcA w).msb then -(c.srcA w) else c.srcA w) ++ (if flagBit w then flV (c.srcA w == BitVec.intMin 36) else []) =
      toW w (c.sA w).natAbs 1 ++ onF w (flagsZN 36 (c.sA w).natAbs ++ [(.fl 3 (c.sA w == -(2 ^ 35)), 1)]) := by
  rw [abs_ofInt, logicEffs_exact, eq_intMin_iff, List.append_assoc]
  by_cases h : flagBit w = true <;> simp [onF, h, flV, Core.sA]

theorem neg_exact (dst : BitVec n → Effs) (hn : 0 < n) (a : BitVec n) :
    sumEffs w dst (subCarry 0 a true) = dst (BitVec.ofInt n (-a.toInt)) ++ onF w (flagsOf n (-a.toInt) (a.toNat == 0) (-a.toInt)) := by
  have carry : decide (a.toNat ≤ (0 : BitVec n).toNat) = (a.toNat == 0) := by
    rw [Bool.eq_iff_iff]
    simp
  rw [subCarry_true hn, carry, sumEffs_exact]
  simp

/-- The saturating sum and difference write the clipped value, and C and V of the exact one. -/
theorem saturating_exact (v : Int) (cy : Bool) :
    wrD w (BitVec.ofInt 36 (clip 36 v)) ++ flQ (clip 36 v != v) 1 ++
      (if flagBit w then flSum (BitVec.ofInt 36 (clip 36 v), cy, outside 36 v) else []) =
      toW w (clip 36 v) 1 ++ setsQ 36 v 1 ++ onF w (flagsOf 36 (clip 36 v) cy v) := by
  rw [flQ_clip, flSum_ofInt]
  rfl

theorem wrfl_exact : (List.range 4).map (fun i => (Land.fl i ((c.srcA w).getLsbD i), 1)) ++ [(.qw ((c.srcA w).getLsbD 4), 1)] =
    [(.fl 0 ((c.zA w).testBit 0), 1), (.fl 1 ((c.zA w).testBit 1), 1), (.fl 2 ((c.zA w).testBit 2), 1),
     (.fl 3 ((c.zA w).testBit 3), 1), (.qw ((c.zA w).testBit 4), 1)] := rfl

/-- A selector above 1 of functions 29 and 30 is reserved (R128). -/
theorem udInt_selector (h : isFn w 1 29 ∧ 2 ≤ srcAOf w ∨ isFn w 1 30 ∧ 2 ≤ dstOf w) : 4 ∈ udInt w := by
  rcases h with ⟨fn, sel⟩ | ⟨fn, sel⟩
  · have code : codeOf w = 29 := by simp [isFn] at fn; exact fn.2
    simp [udInt, code, immAbove, cause, show 1 < srcAOf w from sel]
  · have code : codeOf w = 30 := by simp [isFn] at fn; exact fn.2
    simp [udInt, code, immAbove, cause, show 1 < dstOf w from sel]

end

/-- Settles O1: sums and differences by `addCarry_eq` and `subCarry_eq`, shifts by `shlC_eq` and its like, and each other row by the lemma that
says which exact number its word is. -/
theorem integerInstructions : Obligations.IntegerInstructions := by
  unfold Obligations.IntegerInstructions
  refine ⟨fun s x w => ?_, fun s x w => ?_, fun s x w => ?_⟩
  · refine ⟨?_, ?_, ?_, ?_, ?_, ?_, ?_, ?_, ?_, ?_, ?_, ?_, ?_, ?_, ?_, ?_, ?_, ?_, ?_, ?_, ?_, ?_, ?_, ?_, ?_, ?_, ?_, ?_, ?_⟩
    · exact computes_of_eq rfl fun c => by rw [addCarry_false (by decide), sumEffs_exact]; rfl
    · exact computes_of_eq rfl fun c => by rw [subCarry_true (by decide), sumEffs_exact]; rfl
    · exact computes_of_eq rfl fun c => by rw [addCarry_eq (by decide), sumEffs_exact, toNat_flagC]; rfl
    · exact computes_of_eq rfl fun c => by rw [subCarry_eq (by decide), sumEffs_exact, toNat_flagC]; rfl
    · exact computes_of_eq rfl fun c => by rw [and_ofInt, logicEffs_exact]; rfl
    · exact computes_of_eq rfl fun c => by rw [or_ofInt, logicEffs_exact]; rfl
    · exact computes_of_eq rfl fun c => by rw [xor_ofInt, logicEffs_exact]; rfl
    · exact computes_of_eq rfl fun c => by rw [andn_ofInt, logicEffs_exact]; rfl
    · exact computes_of_eq rfl fun c => by rw [amount, shlC_min, shlC_eq, shiftEffs_exact]; rfl
    · exact computes_of_eq rfl fun c => by rw [amount, shrC_min, shrC_eq, shiftEffs_exact]; rfl
    · exact computes_of_eq rfl fun c => by rw [amount, sarC_min, sarC_eq (by decide), shiftEffs_exact]; rfl
    · exact computes_of_eq rfl fun c => by rw [rolC_eq, shiftEffs_exact]; rfl
    · exact computes_of_eq rfl fun c => by rw [shlC_eq, shiftEffs_exact]; rfl
    · exact computes_of_eq rfl fun c => by rw [shrC_eq, shiftEffs_exact]; rfl
    · exact computes_of_eq rfl fun c => by rw [sarC_eq (by decide), shiftEffs_exact]; rfl
    · exact computes_of_eq rfl fun c => by rw [rolC_eq, shiftEffs_exact]; rfl
    · exact computes_of_eq rfl fun c => by rw [subCarry_true (by decide), flSum_ofInt]; rfl
    · exact computes_of_eq rfl fun c => by rw [BitVec.slt, boolWord_decide]; rfl
    · exact computes_of_eq rfl fun c => by rw [BitVec.ult, boolWord_decide]; rfl
    · exact computes_of_eq rfl fun c => by rw [slt_min]; rfl
    · exact computes_of_eq rfl fun c => by rw [slt_max]; rfl
    · exact computes_of_eq rfl fun c => by rw [ult_min]; rfl
    · exact computes_of_eq rfl fun c => by rw [ult_max]; rfl
    · exact computes_of_eq rfl fun c => abs_exact w c
    · exact computes_of_eq rfl fun c => neg_exact w _ (by decide) (c.srcA w)
    · exact computes_of_eq rfl fun c => by rw [addCarry_false (by decide), satTo_eq]; exact saturating_exact w _ _
    · exact computes_of_eq rfl fun c => by rw [subCarry_true (by decide), satTo_eq]; exact saturating_exact w _ _
    · exact computes_of_eq rfl fun c => by rw [clz36_eq, ← BitVec.ofInt_natCast]; rfl
    · exact computes_of_eq rfl fun c => by rw [popc36_eq, ← BitVec.ofInt_natCast]; rfl
  · refine ⟨fun ⟨fn, sel⟩ => ?_, fun ⟨fn, sel⟩ => ?_, fun ⟨fn, sel⟩ => ?_, fun ⟨fn, sel⟩ => ?_, udInt_selector w⟩
    · exact computes_of_eq rfl (fun c => rfl) (by simp [fn, sel])
    · exact computes_of_eq rfl (fun c => by rw [toW, BitVec.ofInt_natCast, BitVec.ofNat_toNat]; rfl) (by simp [fn, sel])
    · exact computes_of_eq rfl (fun c => rfl) (by simp [fn, sel])
    · exact computes_of_eq rfl (fun c => wrfl_exact w c) (by simp [fn, sel])
  · refine ⟨fun op => ?_, fun op => ?_, fun op => ?_, fun op => ?_, fun op => ?_, fun op => ?_, fun op => ?_, fun op => ?_⟩
    · exact computes_of_eq rfl (fun c => by rw [toW, BitVec.ofInt_add, Core.sA, BitVec.ofInt_toInt]; rfl) (by simp [op])
    · exact computes_of_eq rfl (fun c => by rw [and_ofInt, toNat_immZx]; rfl) (by simp [op])
    · exact computes_of_eq rfl (fun c => by rw [or_ofInt, toNat_immZx]; rfl) (by simp [op])
    · exact computes_of_eq rfl (fun c => by rw [xor_ofInt, toNat_immZx]; rfl) (by simp [op])
    · exact computes_of_eq rfl (fun c => by rw [← BitVec.ofInt_natCast]; rfl) (by simp [op])
    · exact computes_of_eq rfl (fun c => by rw [subCarry_true (by decide), flSum_ofInt, toInt_immSx, toNat_immSx]; rfl) (by simp [op])
    · exact computes_of_eq rfl (fun c => by rw [BitVec.slt, boolWord_decide, toInt_immSx]; rfl) (by simp [op])
    · exact computes_of_eq rfl (fun c => by rw [BitVec.ult, boolWord_decide, toNat_immSx]; rfl) (by simp [op])

end Sys2Proof.Machine
end

section
/-!
PROOF. The WIDE group (R129; O2).
-/
namespace Sys2Proof.Machine

/-! ## Parts of a word -/

section
variable (w d v : Word) (lo n : Nat)

theorem append_ofInt {m n : Nat} (a : BitVec m) (b : BitVec n) : a ++ b = BitVec.ofInt (m + n) (a.toNat * 2 ^ n + b.toNat : Nat) := by
  rw [← ofInt_toNat (a ++ b), BitVec.toNat_append, Nat.shiftLeft_eq, Nat.mul_comm a.toNat, ← Nat.two_pow_add_eq_or_of_lt b.isLt]

theorem toNat_lowPart {m : Nat} (a : BitVec m) (n : Nat) : (a.extractLsb' 0 n).toNat = a.toNat % 2 ^ n := by
  rw [BitVec.extractLsb'_toNat, Nat.shiftRight_zero]

theorem part_ofInt : (v.extractLsb' lo n).setWidth 36 = BitVec.ofInt 36 (v.toNat / 2 ^ lo % 2 ^ n : Nat) := by
  rw [BitVec.ofInt_natCast, ← Nat.shiftRight_eq_div_pow, ← BitVec.extractLsb'_toNat, BitVec.ofNat_toNat]

theorem signedPart_ofInt (m : Nat) :
    (v.extractLsb' lo (m + 1)).signExtend 36 =
      BitVec.ofInt 36 (if ((v.toNat / 2 ^ lo % 2 ^ (m + 1) : Nat) : Int) < 2 ^ m then ((v.toNat / 2 ^ lo % 2 ^ (m + 1) : Nat) : Int)
        else (v.toNat / 2 ^ lo % 2 ^ (m + 1) : Nat) - 2 ^ (m + 1)) := by
  have half : (2 : Int) ^ m = (2 ^ m : Nat) := by push_cast; rfl
  rw [BitVec.signExtend, BitVec.toInt_eq_toNat_cond, BitVec.extractLsb'_toNat, Nat.shiftRight_eq_div_pow, half]
  congr 1
  split <;> split <;> push_cast <;> omega

theorem testBit_putBits (d lo n v i : Nat) :
    (putBits d lo n v).testBit i = if lo ≤ i ∧ i < lo + n then v.testBit (i - lo) else d.testBit i := by
  have low : d % 2 ^ lo < 2 ^ lo := Nat.mod_lt _ (by positivity)
  have field : 2 ^ lo * (v % 2 ^ n) + d % 2 ^ lo < 2 ^ (lo + n) := by
    calc 2 ^ lo * (v % 2 ^ n) + d % 2 ^ lo < 2 ^ lo * (v % 2 ^ n + 1) := by rw [Nat.mul_succ]; omega
      _ ≤ 2 ^ lo * 2 ^ n := Nat.mul_le_mul_left _ (Nat.mod_lt v (by positivity))
      _ = 2 ^ (lo + n) := (pow_add 2 lo n).symm
  have stacked : putBits d lo n v = 2 ^ (lo + n) * (d / 2 ^ (lo + n)) + (2 ^ lo * (v % 2 ^ n) + d % 2 ^ lo) := by
    rw [putBits]
    ring
  rw [stacked, Nat.testBit_two_pow_mul_add _ field, Nat.testBit_two_pow_mul_add _ low]
  simp only [Nat.testBit_mod_two_pow, Nat.testBit_div_two_pow]
  by_cases below : i < lo
  · simp [below, show i < lo + n by omega, show ¬lo ≤ i by omega]
  · by_cases above : i < lo + n
    · simp [below, above, show lo ≤ i by omega, show i - lo < n by omega]
    · simp [above, show i - (lo + n) + (lo + n) = i by omega]

theorem getLsbD_putField {i : Nat} (hi : i < 36) :
    (putField d lo n v).getLsbD i = if lo ≤ i ∧ i < lo + n then v.getLsbD (i - lo) else d.getLsbD i := by
  have mask : (BitVec.ofNat 36 ((2 ^ n - 1) * 2 ^ lo)).getLsbD i = decide (lo ≤ i ∧ i < lo + n) := by
    rw [BitVec.getLsbD_ofNat, ← Nat.shiftLeft_eq, Nat.testBit_shiftLeft, Nat.testBit_two_pow_sub_one, Bool.eq_iff_iff]
    simp only [Bool.and_eq_true, decide_eq_true_eq]
    omega
  simp only [putField, BitVec.getLsbD_or, BitVec.getLsbD_and, BitVec.getLsbD_not, BitVec.getLsbD_shiftLeft, mask, hi, decide_true, Bool.true_and]
  by_cases inside : lo ≤ i ∧ i < lo + n
  · simp [inside]
  · simp [inside]

theorem putField_ofInt : putField d lo n v = BitVec.ofInt 36 (putBits d.toNat lo n v.toNat) := by
  rw [BitVec.ofInt_natCast]
  apply BitVec.eq_of_getLsbD_eq
  intro i hi
  rw [getLsbD_putField d v lo n hi, BitVec.getLsbD_ofNat, testBit_putBits]
  simp [hi, BitVec.getLsbD]

end

/-- Settles O2: the pairs by the same lemmas as words, at 72 bits, and the part-words by `part_ofInt`, `signedPart_ofInt` and `putField_ofInt`. -/
theorem wideGroup : Obligations.WideGroup := by
  unfold Obligations.WideGroup
  refine fun s x w => ⟨?_, ?_, ?_, ?_, ?_, ?_, ?_, ?_, ?_, ?_, ?_, ?_, ?_, ?_, ?_, ?_, ?_⟩
  · exact computes_of_eq rfl fun c => by rw [addCarry_false (by decide), sumEffs_exact]; rfl
  · exact computes_of_eq rfl fun c => by rw [subCarry_true (by decide), sumEffs_exact]; rfl
  · exact computes_of_eq rfl fun c => by rw [addCarry_eq (by decide), sumEffs_exact, toNat_flagC]; rfl
  · exact computes_of_eq rfl fun c => by rw [subCarry_eq (by decide), sumEffs_exact, toNat_flagC]; rfl
  · exact computes_of_eq rfl fun c => by rw [amount, shlC_min, shlC_eq]; rfl
  · exact computes_of_eq rfl fun c => by rw [amount, shrC_min, shrC_eq]; rfl
  · exact computes_of_eq rfl fun c => by rw [amount, sarC_min, sarC_eq (by decide)]; rfl
  · exact computes_of_eq rfl fun c => by rw [subCarry_true (by decide), flSum_ofInt]; rfl
  · exact computes_of_eq rfl fun c => by rw [toP, Core.zPA, ofInt_toNat]; rfl
  · exact computes_of_eq rfl fun c => by rw [neg_exact w _ (by decide)]; rfl
  · exact computes_of_eq rfl fun c => by rw [append_ofInt, toNat_lowPart, toNat_lowPart]; rfl
  · exact computes_of_eq rfl fun c => by rw [part_ofInt]; rfl
  · exact computes_of_eq rfl fun c => by rw [signedPart_ofInt]; rfl
  · exact computes_of_eq rfl fun c => by rw [part_ofInt]; rfl
  · exact computes_of_eq rfl fun c => by rw [signedPart_ofInt]; rfl
  · exact fun ⟨fn, _⟩ => computes_of_eq rfl (fun c => by rw [putField_ofInt]; rfl) fn
  · exact fun ⟨fn, _⟩ => computes_of_eq rfl (fun c => by rw [putField_ofInt]; rfl) fn

end Sys2Proof.Machine
end

section
/-!
PROOF. Multiply and divide: the products, the divisions that take the divide unit, and the wait of the second operation of a pair (R123,
R130, R131, R145, R183; O3).
-/
namespace Sys2Proof.Machine

/-! ## Products -/

section
variable (w : Word) (c : Core)

theorem mul_ofInt {n : Nat} (a b : BitVec n) : a * b = BitVec.ofInt n (a.toNat * b.toNat : Nat) := by
  rw [BitVec.ofInt_natCast, BitVec.ofNat_mul, BitVec.ofNat_toNat, BitVec.ofNat_toNat, BitVec.setWidth_eq, BitVec.setWidth_eq]

/-- Of two signed numbers of a width, the only product that the rounded Q format cannot hold is that of both least ones. -/
theorem product_bounds {m a b : Int} (lowA : -m ≤ a) (highA : a < m) (lowB : -m ≤ b) (highB : b < m) (other : ¬(a = -m ∧ b = -m)) :
    -(m * m) ≤ a * b ∧ a * b ≤ m * (m - 1) := by
  rcases lowA.eq_or_lt with rfl | above
  · have : b ≠ -m := fun e => other ⟨rfl, e⟩
    constructor <;> nlinarith [show -m + 1 ≤ b by omega]
  · have size : |a * b| ≤ (m - 1) * m :=
      (abs_mul a b).trans_le (mul_le_mul (abs_le.mpr ⟨by omega, by omega⟩) (abs_le.mpr ⟨lowB, highB.le⟩) (abs_nonneg b) (by omega))
    obtain ⟨low, high⟩ := abs_le.mp size
    constructor <;> nlinarith

theorem mulq_exact :
    wr3 w (satTo 36 (rsh (c.smul w) 35)).1 ++ flQ (satTo 36 (rsh (c.smul w) 35)).2 3 =
      if c.sA w = -(2 ^ 35) ∧ c.sB w = -(2 ^ 35) then toW w (2 ^ 35 - 1) 3 ++ [(.q, 3)]
      else toW w ((c.sA w * c.sB w + 2 ^ 34) / 2 ^ 35) 3 := by
  have lowA : -(2 ^ 35) ≤ c.sA w := (c.srcA w).le_toInt
  have highA : c.sA w < 2 ^ 35 := (c.srcA w).toInt_lt
  have lowB : -(2 ^ 35) ≤ c.sB w := (c.srcB w).le_toInt
  have highB : c.sB w < 2 ^ 35 := (c.srcB w).toInt_lt
  have rounded : rsh (c.smul w) 35 = (c.sA w * c.sB w + 2 ^ 34) / 2 ^ 35 := rfl
  rw [satTo_effs (wr3 w), rounded]
  split
  next least =>
    obtain ⟨a, b⟩ := least
    rw [a, b]
    rfl
  next other =>
    have fits : clip 36 ((c.sA w * c.sB w + 2 ^ 34) / 2 ^ 35) = (c.sA w * c.sB w + 2 ^ 34) / 2 ^ 35 := by
      obtain ⟨low, high⟩ := product_bounds lowA highA lowB highB other
      generalize c.sA w * c.sB w = p at low high
      rw [clip, min_eq_left (by omega), max_eq_right (by omega)]
    rw [setsQ, if_pos fits, fits]
    rfl

end

/-! ## Divisions -/

section
variable {s s1 : State} {x : At} {w : Word} {spells signed rem : Bool} {lat : Nat} {i : Instr} {c : Core}

/-- A core whose divide unit takes a division: with a divisor of zero DIVZ is its fault, and nothing is written. -/
def Core.startsDiv (c : Core) (slot : Slot) (due : Nat) (zero : Bool) (lands : List Land) : Core :=
  { c with
    div := c.div ++ [{ lands := if zero then [] else lands
                       fault := if zero then some ⟨8, 0, slotAddr c.pc slot, c.seq⟩ else none
                       due := due, seq := c.seq }]
    divFree := due }

theorem longOp_division {zero : Bool} {lands : List Land} {f : Core → List Land × Option (Nat × Nat)}
    (he : exec i s = s.issue x w spells (longOp x lat f)) (ok : spells = true) (h : Issues s x w 0 s1)
    (hf : f ((s1.divWait x).core x.core) = if zero then ([], some (8, 0)) else (lands, none)) :
    let due := ((s1.divWait x).core x.core).startOf x.slot + lat
    exec i s =
      .next ((((s1.divWait x).modCore x.core (·.startsDiv x.slot due zero lands)).count x.core 0x13 1).retire x.core x.slot w [] .fall) := by
  rw [he, issue_of_issues h ok, longOp]
  simp only [hf]
  cases zero <;> rfl

theorem div36_eq (signed rem : Bool) (w : Word) (c : Core) : div36 signed rem w c =
    if c.srcB w == 0 then ([], some (8, 0)) else ([.w (dstOf w) (divide signed rem (c.srcA w) (c.srcB w))], none) := by
  simp [div36]

theorem div72_eq (signed rem : Bool) (w : Word) (c : Core) : div72 signed rem w c =
    if c.pairB w == 0 then ([], some (8, 0))
    else ([.w (dstOf w) ((divide signed rem (c.pairA w) (c.pairB w)).extractLsb' 0 36),
      .w (dstOf w + 1) ((divide signed rem (c.pairA w) (c.pairB w)).extractLsb' 36 36)], none) := by
  simp [div72]

/-- The remainder that goes with the truncated quotient. -/
theorem divide_signed_rem {n : Nat} (a b : BitVec n) : divide true true a b = BitVec.ofInt n (a.toInt - b.toInt * a.toInt.tdiv b.toInt) := by
  rw [divide, Int.tmod_def]

end

/-! ## The wait for the divide unit -/

/-- What landings leave alone of a core's clock and of its open pair; where no X operation is in flight, none appears. -/
structure Core.SamePace (c d : Core) : Prop where
  ccyc : d.ccyc = c.ccyc
  pair : d.pair = c.pair
  xops : c.xops = [] → d.xops = []

namespace Core.SamePace
variable {c d e : Core}

theorem refl : SamePace c c := ⟨rfl, rfl, id⟩

theorem trans (h : SamePace c d) (h' : SamePace d e) : SamePace c e :=
  ⟨h'.ccyc.trans h.ccyc, h'.pair.trans h.pair, h'.xops ∘ h.xops⟩

theorem land (c : Core) (l : Land) : SamePace c (c.land l) := by
  cases l with
  | w r v =>
    obtain ⟨_, e⟩ := c.land_w_frame r v
    rw [e]
    exact ⟨rfl, rfl, id⟩
  | _ => exact ⟨rfl, rfl, id⟩

theorem lands {α : Type} (g : α → Land) (l : List α) (c : Core) : SamePace c (l.foldl (fun c a => c.land (g a)) c) :=
  foldl_keeps (p := SamePace c) (fun d a h => h.trans (land d (g a))) l c refl

theorem discard (c : Core) (l : List (Land × Nat)) : SamePace c (c.discard l) :=
  ⟨rfl, rfl, fun h => by simp [Core.discard, h]⟩

theorem record (c : Core) (f : LongFault) : SamePace c (c.record f) := by
  simp only [Core.record]
  generalize (if f.code = 11 then 4 else 1 : Nat) = room
  split <;> exact ⟨rfl, rfl, id⟩

theorem landCycle (c : Core) (n : Nat) : SamePace c (c.landCycle n) :=
  .trans (⟨rfl, rfl, id⟩ : SamePace c { c with pend := c.pend.filter fun p => !(p.due == n) }) ((discard _ _).trans (lands _ _ _))

theorem landShort (c : Core) : SamePace c c.landShort :=
  foldl_keeps (p := SamePace c) (fun d n h => h.trans (landCycle d n)) _ c refl

theorem landDiv (c : Core) (d : DivOp) : SamePace c (c.landDiv d) := by
  refine .trans (⟨rfl, rfl, id⟩ : SamePace c { c with div := c.div.filter (·.seq != d.seq) }) ?_
  simp only [Core.landDiv]
  split
  · exact (lands _ _ _).trans (record _ _)
  · exact (discard _ _).trans (lands _ _ _)

theorem landDivDue (c : Core) : SamePace c c.landDivDue := by
  refine foldl_keeps (p := SamePace c) (fun d op h => h.trans ?_) _ c refl
  split
  · exact landDiv _ _
  · exact refl

end Core.SamePace

section
variable {s : State} {k n : Nat}

theorem core_sync (s : State) (k j : Nat) : (s.sync k).core j = s.core j := rfl

/-- Time passes in a core with no X operation in flight. -/
theorem samePace_advance (hx : (s.core k).xops = []) : Core.SamePace ((s.core k).after n) ((s.advance k n).core k) := by
  have short : Core.SamePace ((s.core k).after n) ((s.core k).after n).landShort := .landShort _
  unfold State.advance State.landLong
  rw [core_sync]
  split
  · rw [State.core_modCore_self]
    exact short
  · have long : Core.SamePace ((s.core k).after n) ((s.core k).after n).landShort.landDivDue := short.trans (.landDivDue _)
    rw [landXDue_none] <;> rw [State.core_modCore_self, State.core_modCore_self]
    · exact long
    · exact long.xops hx

theorem cycles_core (cat : Nat) : (s.cycles k cat n).core k = s.core k := by
  unfold State.cycles
  split
  · rfl
  · exact ((CtlOnly.count ..).trans (.count ..)).core k

theorem samePace_hold (cat : Nat) (hx : (s.core k).xops = []) :
    Core.SamePace ((s.core k).after n) (((s.cycles k cat n).advance k n).core k) := by
  have same := cycles_core (s := s) (k := k) (n := n) cat
  have pace := samePace_advance (s := s.cycles k cat n) (k := k) (n := n) (by rwa [same])
  rwa [same] at pace

/-- The open pair's second operation starts now. -/
def Core.reopen (c : Core) : Core := { c with pair := c.pair.map fun p => { p with late := false, cyc := c.ccyc } }

theorem Core.startOf_reopen {c : Core} {p : PairOpen} (h : c.pair = some p) : c.reopen.startOf .second = c.ccyc := by
  simp [Core.startOf, Core.reopen, h]

theorem core_divWait {x : At} (second : x.slot = .second) (busy : (s.core x.core).startOf .second < (s.core x.core).divFree) :
    (s.divWait x).core x.core =
      Core.reopen (((s.cycles x.core 0x05 ((s.core x.core).divFree - (s.core x.core).ccyc)).advance x.core
        ((s.core x.core).divFree - (s.core x.core).ccyc)).core x.core) := by
  simp only [State.divWait]
  rw [if_pos ⟨second, busy⟩, State.core_modCore_self]
  rfl

/-- The pair's second operation waits, and starts when the unit is free. -/
theorem startOf_divWait {x : At} {p : PairOpen} (second : x.slot = .second) (opened : (s.core x.core).pair = some p)
    (busy : (s.core x.core).startOf .second < (s.core x.core).divFree) (hx : (s.core x.core).xops = []) :
    ((s.divWait x).core x.core).startOf .second = max (s.core x.core).divFree (s.core x.core).ccyc := by
  have pace := samePace_hold (n := (s.core x.core).divFree - (s.core x.core).ccyc) 0x05 hx
  rw [core_divWait second busy, Core.startOf_reopen (pace.pair.trans opened), pace.ccyc]
  show (s.core x.core).ccyc + ((s.core x.core).divFree - (s.core x.core).ccyc) = _
  omega

end

theorem divWait_idle {s : State} {x : At} (h : x.slot ≠ .second ∨ (s.core x.core).divFree ≤ (s.core x.core).startOf .second) :
    s.divWait x = s :=
  if_neg fun ⟨second, busy⟩ => h.elim (· second) (Nat.not_le.mpr busy)

/-- Settles O3: the products as exact numbers, the divisions by `longOp_division`, and the wait of a pair's second operation by
`startOf_divWait`. -/
theorem multiplyAndDivide : Obligations.MultiplyAndDivide := by
  unfold Obligations.MultiplyAndDivide
  refine ⟨fun s x w => ⟨?_, ?_, ?_, ?_, ?_, ?_⟩, fun s s1 x w h => ⟨?_, ?_, ?_, ?_, ?_, ?_, ?_, ?_⟩, fun s x => ⟨divWait_idle, ?_⟩⟩
  · exact computes_of_eq rfl fun c => by rw [mul_ofInt]; rfl
  · exact computes_of_eq rfl fun c => rfl
  · exact computes_of_eq rfl fun c => by rw [← BitVec.ofInt_natCast]; rfl
  · exact computes_of_eq rfl fun c => rfl
  · exact computes_of_eq rfl fun c => by rw [← BitVec.ofInt_natCast]; rfl
  · exact computes_of_eq rfl fun c => mulq_exact w c
  · exact fun ok => longOp_division rfl ok h (div36_eq ..)
  · exact fun ok => longOp_division rfl ok h (by rw [div36_eq, divide, ← BitVec.ofInt_natCast]; rfl)
  · exact fun ok => longOp_division rfl ok h (by rw [div36_eq, divide_signed_rem]; rfl)
  · exact fun ok => longOp_division rfl ok h (by rw [div36_eq, divide, ← BitVec.ofInt_natCast]; rfl)
  · exact fun ok => longOp_division rfl ok h (by rw [div72_eq]; rfl)
  · exact fun ok => longOp_division rfl ok h (by rw [div72_eq, divide, ← BitVec.ofInt_natCast]; rfl)
  · exact fun ok => longOp_division rfl ok h (by rw [div72_eq, divide_signed_rem]; rfl)
  · exact fun ok => longOp_division rfl ok h (by rw [div72_eq, divide, ← BitVec.ofInt_natCast]; rfl)
  · exact fun p second opened busy hx => startOf_divWait second opened busy hx

end Sys2Proof.Machine
end

section
/-!
PROOF. The LANE group: each lane by itself (R132, R133; O4).
-/
namespace Sys2Proof.Machine

/-! ## Lanes -/

section
variable {wd n : Nat} {a b : DWord} {g : BitVec wd → BitVec wd → BitVec wd × Bool}

theorem lanes_succ (wd n : Nat) (a b : DWord) (g : BitVec wd → BitVec wd → BitVec wd × Bool) :
    lanes wd (n + 1) a b g =
      ((lanes wd n a b g).1 ||| ((g (a.extractLsb' (wd * n) wd) (b.extractLsb' (wd * n) wd)).1.setWidth 72 <<< (wd * n)),
        (lanes wd n a b g).2 || (g (a.extractLsb' (wd * n) wd) (b.extractLsb' (wd * n) wd)).2) := by
  rw [lanes, List.range_succ, List.foldl_append]
  rfl

theorem lanes_any (wd n : Nat) (a b : DWord) (g : BitVec wd → BitVec wd → BitVec wd × Bool) :
    (lanes wd n a b g).2 = (List.range n).any fun k => (g (a.extractLsb' (wd * k) wd) (b.extractLsb' (wd * k) wd)).2 := by
  induction n with
  | zero => rfl
  | succ n ih => rw [lanes_succ, ih, List.range_succ, List.any_append]; simp

theorem getLsbD_lanes {k j : Nat} (hj : j < wd) (hk : wd * k + j < 72) :
    (lanes wd n a b g).1.getLsbD (wd * k + j) =
      (decide (k < n) && (g (a.extractLsb' (wd * k) wd) (b.extractLsb' (wd * k) wd)).1.getLsbD j) := by
  induction n with
  | zero => simp [lanes]
  | succ n ih =>
    rw [lanes_succ, BitVec.getLsbD_or, ih, BitVec.getLsbD_shiftLeft]
    rcases Nat.lt_trichotomy k n with lt | rfl | gt
    · have below : wd * k + j < wd * n := (Nat.lt_of_lt_of_le (by rw [Nat.mul_succ]; omega) (Nat.mul_le_mul_left wd lt))
      simp [below, lt, show k < n + 1 by omega]
    · simp [hk, show j < 72 by omega]
    · have above : wd * n + wd ≤ wd * k := Nat.mul_le_mul_left wd gt
      simp [show ¬k < n by omega, show ¬k < n + 1 by omega, BitVec.getLsbD_of_ge, show wd ≤ wd * k + j - wd * n by omega]

/-- Lane k of what is written is what the operation gives of lane k of each operand. -/
theorem extractLsb'_lanes (fits : wd * n ≤ 72) {k : Nat} (hk : k < n) :
    (lanes wd n a b g).1.extractLsb' (wd * k) wd = (g (a.extractLsb' (wd * k) wd) (b.extractLsb' (wd * k) wd)).1 := by
  have room : wd * k + wd ≤ 72 := (Nat.mul_le_mul_left wd hk).trans fits
  apply BitVec.eq_of_getLsbD_eq
  intro j hj
  rw [BitVec.getLsbD_extractLsb', getLsbD_lanes hj (by omega)]
  simp [hj, hk]

end

/-! ## Lane instructions -/

/-- What the statement says of a lane instruction: `f` gives each lane from those of the operands, `q` whether it clips. -/
def LaneEnds (s : State) (x : At) (w : Word) (i : Instr) (lat : Nat) (f : Nat → Int → Int → Int) (q : Nat → Int → Int → Bool) : Prop :=
  ∀ wd n, (wd = 18 ∧ n = 4 ∧ codeOf w < 16) ∨ (wd = 36 ∧ n = 2 ∧ 16 ≤ codeOf w) → ∀ s1, Issues s x w 0 s1 →
    ∃ v : DWord,
      (∀ k < n, v.extractLsb' (wd * k) wd =
        BitVec.ofInt wd (f wd (laneInt wd k ((s1.core x.core).pairA w)) (laneInt wd k ((s1.core x.core).pairB w)))) ∧
      exec i s = .next (s1.retire x.core x.slot w
        ([(.w (dstOf w) (v.extractLsb' 0 36), lat), (.w (dstOf w + 1) (v.extractLsb' 36 36), lat)] ++
          if (List.range n).any (fun k => q wd (laneInt wd k ((s1.core x.core).pairA w)) (laneInt wd k ((s1.core x.core).pairB w)))
          then [(.q, lat)] else []) .fall)

/-- The lanes that the word asks for. -/
theorem laneEffs_eq {w : Word} {wd n : Nat} (h : (wd = 18 ∧ n = 4 ∧ codeOf w < 16) ∨ (wd = 36 ∧ n = 2 ∧ 16 ≤ codeOf w)) (lat : Nat)
    (g : (wd : Nat) → BitVec wd → BitVec wd → BitVec wd × Bool) (c : Core) :
    laneEffs w lat g c =
      wrPair (dstOf w) (lanes wd n (c.pairA w) (c.pairB w) (g wd)).1 lat ++ flQ (lanes wd n (c.pairA w) (c.pairB w) (g wd)).2 lat := by
  rcases h with ⟨rfl, rfl, half⟩ | ⟨rfl, rfl, word⟩
  · rw [laneEffs, if_pos half]
  · rw [laneEffs, if_neg (by omega)]

/-- An operation on lanes that is `f` on exact numbers and clips where `q` says. -/
theorem laneEnds_of_eq {s : State} {x : At} {w : Word} {i : Instr} {lat : Nat} {spells : Bool}
    {g : (wd : Nat) → BitVec wd → BitVec wd → BitVec wd × Bool} {f : Nat → Int → Int → Int} {q : Nat → Int → Int → Bool}
    (he : exec i s = s.issue x w spells (compute x.core (laneEffs w lat g)))
    (hg : ∀ wd (a b : BitVec wd), 2 ≤ wd → g wd a b = (BitVec.ofInt wd (f wd a.toInt b.toInt), q wd a.toInt b.toInt)) (ok : spells = true) :
    LaneEnds s x w i lat f q := by
  intro wd n width s1 h
  have fits : wd * n ≤ 72 ∧ 2 ≤ wd := by rcases width with ⟨rfl, rfl, _⟩ | ⟨rfl, rfl, _⟩ <;> decide
  refine ⟨(lanes wd n ((s1.core x.core).pairA w) ((s1.core x.core).pairB w) (g wd)).1, fun k hk => ?_, ?_⟩
  · rw [extractLsb'_lanes fits.1 hk, hg _ _ _ fits.2]
    rfl
  · rw [he, issue_compute h ok, laneEffs_eq width, lanes_any]
    simp only [hg _ _ _ fits.2]
    rfl

section
variable {s : State} {x : At} {w : Word} {i : Instr} {lat : Nat} {spells : Bool} {g : (wd : Nat) → BitVec wd → BitVec wd → BitVec wd × Bool}
  (f : Nat → Int → Int → Int) (he : exec i s = s.issue x w spells (compute x.core (laneEffs w lat g)))
include he

theorem laneEnds_wraps (hg : ∀ wd (a b : BitVec wd), 2 ≤ wd → g wd a b = (BitVec.ofInt wd (f wd a.toInt b.toInt), false))
    (ok : spells = true) : LaneEnds s x w i lat f fun _ _ _ => false :=
  laneEnds_of_eq he hg ok

theorem laneEnds_clips (hg : ∀ wd (a b : BitVec wd), 2 ≤ wd → g wd a b = satTo wd (f wd a.toInt b.toInt)) (ok : spells = true) :
    LaneEnds s x w i lat (fun wd a b => clip wd (f wd a b)) fun wd a b => clip wd (f wd a b) != f wd a b :=
  laneEnds_of_eq he (fun wd a b wide => (hg wd a b wide).trans (satTo_eq wd _)) ok

end

/-! ## Lane operations as exact numbers -/

section
variable {n : Nat} (a b : BitVec n)

theorem add_ofInt : a + b = BitVec.ofInt n (a.toInt + b.toInt) := by
  rw [BitVec.ofInt_add, BitVec.ofInt_toInt, BitVec.ofInt_toInt]

theorem sub_ofInt : a - b = BitVec.ofInt n (a.toInt - b.toInt) := by
  rw [Int.sub_eq_add_neg, BitVec.ofInt_add, BitVec.ofInt_neg, BitVec.ofInt_toInt, BitVec.ofInt_toInt, BitVec.sub_eq_add_neg]

theorem shiftLeft_ofInt (k : Nat) : a <<< k = BitVec.ofInt n (a.toInt * 2 ^ k) := by
  have power : BitVec.ofInt n (2 ^ k) = BitVec.twoPow n k := by
    rw [show (2 : Int) ^ k = (2 ^ k : Nat) by push_cast; rfl, BitVec.ofInt_natCast]
    exact BitVec.eq_of_toNat_eq (by rw [BitVec.toNat_ofNat, BitVec.toNat_twoPow])
  rw [BitVec.ofInt_mul, BitVec.ofInt_toInt, power, BitVec.shiftLeft_eq_mul_twoPow]

theorem rsh_pred (v : Int) (hn : 2 ≤ n) : rsh v (n - 1) = (v + 2 ^ (n - 2)) / 2 ^ (n - 1) := by
  rw [rsh, if_neg (by omega)]
  rfl

theorem laneMask_decide (p : Prop) [Decidable p] : laneMask n (decide p) = BitVec.ofInt n (if p then -1 else 0) := by
  by_cases h : p
  · rw [laneMask, decide_eq_true h, if_pos h, BitVec.ofInt_neg, ← BitVec.neg_one_eq_allOnes]
    rfl
  · simp [laneMask, h]

theorem beq_toInt : (a == b) = decide (a.toInt = b.toInt) := by
  rw [Bool.eq_iff_iff, beq_iff_eq, decide_eq_true_iff, BitVec.toInt_inj]

end

/-- Settles O4: `extractLsb'_lanes` and `lanes_any` take the lanes apart, and each operation is the one on exact numbers. -/
theorem laneGroup : Obligations.LaneGroup := by
  unfold Obligations.LaneGroup
  refine fun s x w => ⟨?_, ?_, ?_, ?_, ?_, ?_, ?_, ?_, ?_, ?_, ?_, ?_⟩
  · exact laneEnds_wraps (fun _ a b => a + b) rfl fun wd a b _ => by rw [add_ofInt]
  · exact laneEnds_wraps (fun _ a b => a - b) rfl fun wd a b _ => by rw [sub_ofInt]
  · exact laneEnds_clips (fun _ a b => a + b) rfl fun wd a b _ => rfl
  · exact laneEnds_clips (fun _ a b => a - b) rfl fun wd a b _ => rfl
  · exact laneEnds_clips (fun wd a b => (a * b + 2 ^ (wd - 2)) / 2 ^ (wd - 1)) rfl fun wd a b wide => by rw [rsh_pred _ wide]
  · exact laneEnds_wraps (fun _ a b => max a b) rfl fun wd a b _ => by rw [slt_max]
  · exact laneEnds_wraps (fun _ a b => min a b) rfl fun wd a b _ => by rw [slt_min]
  · exact laneEnds_clips (fun _ a _ => (a.natAbs : Int)) rfl fun wd a b _ => rfl
  · exact laneEnds_wraps (fun _ a _ => a * 2 ^ srcBOf w) rfl fun wd a b _ => by rw [shiftLeft_ofInt]
  · exact laneEnds_wraps (fun _ a _ => a / 2 ^ srcBOf w) rfl fun wd a b _ => by rw [sshiftRight_ofInt]
  · exact laneEnds_wraps (fun _ a b => if a = b then -1 else 0) rfl fun wd a b _ => by rw [beq_toInt, laneMask_decide]
  · exact laneEnds_wraps (fun _ a b => if a < b then -1 else 0) rfl fun wd a b _ => by rw [BitVec.slt, laneMask_decide]

end Sys2Proof.Machine
end

section
/-!
PROOF. The MAC group: the accumulators as exact numbers (R134, R135; O5).
-/
namespace Sys2Proof.Machine

section
variable (w : Word) (c : Core) (a : Acc)

theorem dot4_eq : c.dot4 w = ([0, 1, 2, 3].map fun k => laneInt 18 k (c.pairA w) * laneInt 18 k (c.pairB w)).sum := by
  have left : c.dot4 w = 0 + laneInt 18 0 (c.pairA w) * laneInt 18 0 (c.pairB w) + laneInt 18 1 (c.pairA w) * laneInt 18 1 (c.pairB w) +
      laneInt 18 2 (c.pairA w) * laneInt 18 2 (c.pairB w) + laneInt 18 3 (c.pairA w) * laneInt 18 3 (c.pairB w) := rfl
  rw [left]
  simp
  ring

theorem accAdd_ofInt (v : Int) : accAdd a v = BitVec.ofInt 80 (a.toInt + v) := by
  rw [accAdd, BitVec.ofInt_add, BitVec.ofInt_toInt]

theorem accLow_ofInt : a.extractLsb' 0 36 = BitVec.ofInt 36 a.toInt := by
  rw [← BitVec.signExtend, BitVec.signExtend_eq_setWidth_of_le a (by decide), BitVec.setWidth_eq_extractLsb' (by decide)]

theorem toInt_accHigh : (a.extractLsb' 36 44).toInt = a.toInt / 2 ^ 36 := by
  have lt := a.isLt
  rw [BitVec.toInt_eq_toNat_cond, BitVec.toInt_eq_toNat_cond, BitVec.extractLsb'_toNat, Nat.shiftRight_eq_div_pow]
  split <;> split <;> push_cast <;> omega

end

/-- Settles O5: each row's accumulator or word is that of the exact number. -/
theorem macGroup : Obligations.MacGroup := by
  unfold Obligations.MacGroup
  refine fun s x w => ⟨?_, ?_, ?_, ?_, ?_, ?_, ?_, ?_, ?_, ?_, ?_, ?_, ?_, ?_, ?_⟩
  · exact computes_of_eq rfl fun c => by rw [accAdd_ofInt, dot4_eq]; rfl
  · exact computes_of_eq rfl fun c => by rw [accAdd_ofInt, dot4_eq, ← Int.sub_eq_add_neg]; rfl
  · exact computes_of_eq rfl fun c => by rw [dot4_eq]; rfl
  · exact computes_of_eq rfl fun c => by rw [accAdd_ofInt]; rfl
  · exact computes_of_eq rfl fun c => by rw [accAdd_ofInt, ← Int.sub_eq_add_neg]; rfl
  · exact computes_of_eq rfl fun c => rfl
  · exact computes_of_eq rfl fun c => rfl
  · exact computes_of_eq rfl fun c => rfl
  · exact computes_of_eq rfl fun c => by rw [add_ofInt, apply_ite BitVec.toInt]; rfl
  · exact computes_of_eq rfl fun c => by rw [sshiftRight_ofInt]; rfl
  · exact computes_of_eq rfl fun c => by rw [accLow_ofInt]; rfl
  · exact computes_of_eq rfl fun c => satTo_effs (wr (dstOf w) · 2) ..
  · exact computes_of_eq rfl fun c => satTo_effs (wrPair (dstOf w) · 2) ..
  · exact computes_of_eq rfl fun c => by rw [BitVec.signExtend, toInt_accHigh]; rfl
  · exact computes_of_eq rfl fun c => by rw [append_ofInt, toNat_lowPart]; rfl

end Sys2Proof.Machine
end

section
/-!
PROOF. Floating-point minimum and maximum, comparison, class and sign (R137 to R140, Table 5-12; O7).
-/
namespace Sys2Proof.Machine

section
variable {f : Fmt} {a b : Nat}

/-! ## The order of values -/

theorem isZero_iff : f.isZero a = true ↔ a % 2 ^ (f.eb + f.fb) = 0 := by
  have fields : a % 2 ^ (f.eb + f.fb) = a % 2 ^ f.fb + 2 ^ f.fb * (a / 2 ^ f.fb % 2 ^ f.eb) := by
    rw [Nat.add_comm, pow_add, Nat.mod_mul]
  have pos : 0 < 2 ^ f.fb := by positivity
  rw [fields, Nat.add_eq_zero_iff, Nat.mul_eq_zero, or_iff_right pos.ne']
  simp [Fmt.isZero, Fmt.expo, Fmt.frac, and_comm]

/-- The order of FMIN and FMAX: by sign and magnitude, with −0 below +0. -/
theorem ord_lt_iff : f.ord a < f.ord b ↔ f.smag a < f.smag b ∨ (f.smag a = f.smag b ∧ f.sign a = true ∧ f.sign b = false) := by
  simp only [Fmt.ord, Fmt.smag]
  cases f.sign a <;> cases f.sign b <;> simp <;> omega

/-- The order of FCMP takes both zeros for one. -/
theorem zeroOrd_cases (f : Fmt) (a : Nat) :
    (if f.isZero a then 0 else f.ord a) = if f.smag a < 0 then f.smag a - 1 else f.smag a := by
  obtain ⟨mag, hmag⟩ : ∃ m, a % 2 ^ (f.eb + f.fb) = m := ⟨_, rfl⟩
  have zero : f.isZero a = true ↔ mag = 0 := hmag ▸ isZero_iff
  by_cases neg : f.sign a = true
  · have ord : f.ord a = -mag - 1 := hmag ▸ if_pos neg
    have smag : f.smag a = -mag := hmag ▸ if_pos neg
    simp only [ord, smag, zero]
    split <;> split <;> omega
  · have ord : f.ord a = mag := hmag ▸ if_neg neg
    have smag : f.smag a = mag := hmag ▸ if_neg neg
    simp only [ord, smag, zero]
    split <;> split <;> omega

theorem minMax_eq (f : Fmt) (big : Bool) (a b : Nat) :
    f.minMax big a b =
      (if f.isNan a ∧ f.isNan b then f.quiet a else if f.isNan a then b else if f.isNan b then a
       else if big then
        (if f.smag a < f.smag b ∨ (f.smag a = f.smag b ∧ f.sign a = true ∧ f.sign b = false) then b else a)
       else if f.smag b < f.smag a ∨ (f.smag a = f.smag b ∧ f.sign b = true ∧ f.sign a = false) then b else a,
       if f.isSig a || f.isSig b then 16 else 0) := by
  simp only [Fmt.minMax, ord_lt_iff, eq_comm (a := f.smag b)]
  by_cases nanA : f.isNan a = true
  · by_cases nanB : f.isNan b = true
    · simp [nanA, nanB, fpNV]
    · simp [nanA, nanB, fpNV]
  · by_cases nanB : f.isNan b = true
    · simp [nanA, nanB, fpNV]
    · cases big <;> simp [nanA, nanB, fpNV]

/-- Z, N, C and V of FCMP, with the latency of the instruction. -/
def cmpFlags (z n cy v : Bool) : Effs := [(.fl 0 z, 2), (.fl 1 n, 2), (.fl 2 cy, 2), (.fl 3 v, 2)]

theorem cmp_eq (f : Fmt) (a b : Nat) :
    (cmpFlags (f.cmp a b).1.1 (f.cmp a b).1.2.1 (f.cmp a b).1.2.2.1 (f.cmp a b).1.2.2.2, (f.cmp a b).2) =
      (if f.isNan a || f.isNan b then cmpFlags false false false true
       else if f.smag a < f.smag b then cmpFlags false true false false
       else if f.smag a = f.smag b then cmpFlags true false true false
       else cmpFlags false false true false,
       if f.isSig a || f.isSig b then (16 : BitVec 5) else 0) := by
  have lt : (if f.isZero a then 0 else f.ord a) < (if f.isZero b then 0 else f.ord b) ↔ f.smag a < f.smag b := by
    rw [zeroOrd_cases, zeroOrd_cases]
    split <;> split <;> omega
  have eq : (if f.isZero a then 0 else f.ord a) = (if f.isZero b then 0 else f.ord b) ↔ f.smag a = f.smag b := by
    rw [zeroOrd_cases, zeroOrd_cases]
    split <;> split <;> omega
  simp only [Fmt.cmp, lt, eq]
  split
  · rfl
  · split
    · rfl
    · split <;> rfl

/-! ## The sign bit -/

theorem xor_two_pow {k : Nat} (h : a < 2 * 2 ^ k) : a ^^^ 2 ^ k = if a < 2 ^ k then a + 2 ^ k else a - 2 ^ k := by
  have set (b : Nat) (hb : b < 2 ^ k) : b ^^^ 2 ^ k = b + 2 ^ k := by
    rw [← Nat.or_two_pow_eq_add_of_lt hb]
    apply Nat.eq_of_testBit_eq
    intro i
    rw [Nat.testBit_xor, Nat.testBit_or, Nat.testBit_two_pow]
    by_cases top : k = i
    · simp [← top, Nat.testBit_lt_two_pow hb]
    · simp [top]
  split
  next lt => exact set a lt
  next ge =>
    have clear := set (a - 2 ^ k) (by omega)
    rw [Nat.sub_add_cancel (not_lt.mp ge)] at clear
    rw [← clear, Nat.xor_assoc, Nat.xor_self, Nat.xor_zero]
    omega

theorem sign_eq (h : a < 2 * 2 ^ (f.eb + f.fb)) : f.sign a = !decide (a < 2 ^ (f.eb + f.fb)) := by
  rw [Fmt.sign]
  by_cases low : a < 2 ^ (f.eb + f.fb)
  · simp [low, Nat.div_eq_of_lt low]
  · have one : a / 2 ^ (f.eb + f.fb) = 1 := Nat.div_eq_of_lt_le (by omega) (by omega)
    simp [low, one]

theorem sgnj_eq (h : b < 2 * 2 ^ (f.eb + f.fb)) :
    f.sgnj a b = a % 2 ^ (f.eb + f.fb) + if b < 2 ^ (f.eb + f.fb) then 0 else 2 ^ (f.eb + f.fb) := by
  rw [Fmt.sgnj, sign_eq h]
  by_cases low : b < 2 ^ (f.eb + f.fb) <;> simp [low]

/-! ## FCLASS -/

/-- The number of an operand's class (R140). -/
def Fmt.classNumber (f : Fmt) (neg : Prop) [Decidable neg] (e m : Nat) : Nat :=
  if e = 2 ^ f.eb - 1 then (if m = 0 then (if neg then 0 else 7) else if m < 2 ^ (f.fb - 1) then 8 else 9)
  else if e = 0 then (if m = 0 then (if neg then 3 else 4) else if neg then 2 else 5)
  else if neg then 1 else 6

theorem cls_eq (f : Fmt) (a : Nat) : f.cls a = 2 ^ f.classNumber (a / 2 ^ (f.eb + f.fb) % 2 = 1) (a / 2 ^ f.fb % 2 ^ f.eb) (a % 2 ^ f.fb) := by
  have quiet : a % 2 ^ f.fb / 2 ^ (f.fb - 1) = 0 ↔ a % 2 ^ f.fb < 2 ^ (f.fb - 1) := Nat.div_eq_zero_iff_lt (by positivity)
  simp only [Fmt.cls, Fmt.classNumber, Fmt.isNan, Fmt.isSig, Fmt.isInf, Fmt.isZero, Fmt.sign, Fmt.expo, Fmt.frac, Fmt.emask]
  by_cases special : a / 2 ^ f.fb % 2 ^ f.eb = 2 ^ f.eb - 1
  · by_cases inf : a % 2 ^ f.fb = 0
    · by_cases neg : a / 2 ^ (f.eb + f.fb) % 2 = 1 <;> simp [special, inf, neg]
    · by_cases sig : a % 2 ^ f.fb < 2 ^ (f.fb - 1) <;> simp [special, inf, quiet, sig]
  · by_cases small : a / 2 ^ f.fb % 2 ^ f.eb = 0
    · rw [small] at special
      by_cases zero : a % 2 ^ f.fb = 0
      · by_cases neg : a / 2 ^ (f.eb + f.fb) % 2 = 1 <;> simp [special, small, zero, neg]
      · by_cases neg : a / 2 ^ (f.eb + f.fb) % 2 = 1 <;> simp [special, small, zero, neg]
    · by_cases neg : a / 2 ^ (f.eb + f.fb) % 2 = 1 <;> simp [special, small, neg]

end

section
variable {s : State} {x : At} {w : Word} {i : Instr} {spells : Bool} {lat : Nat} {f g : Core → Effs × BitVec 5}

/-- A precise operation, given in other words. -/
theorem fpOp_ends_of_eq (he : exec i s = s.issue x w spells (fpOp x.core lat g)) (hg : ∀ c, g c = f c) (ok : spells = true) :
    FloatEnds s x w i lat f := by
  obtain rfl : g = f := funext hg
  exact fpOp_ends he ok

/-- The sign bit of the format that the opcode chooses. -/
theorem signBit_eq (w : Word) : 2 ^ ((fmtOf w).eb + (fmtOf w).fb) = if opcodeOf w = 6 then 2 ^ 35 else 2 ^ 71 := by
  rw [fmtOf_eq]
  split <;> rfl

theorem fpA_lt (c : Core) (w : Word) : c.fpA w < 2 * 2 ^ ((fmtOf w).eb + (fmtOf w).fb) := by
  rw [Core.fpA, fmtOf]
  split
  · exact (c.srcA w).isLt
  · exact (c.pairA w).isLt

theorem fpB_lt (c : Core) (w : Word) : c.fpB w < 2 * 2 ^ ((fmtOf w).eb + (fmtOf w).fb) := by
  rw [Core.fpB, fmtOf]
  split
  · exact (c.srcB w).isLt
  · exact (c.pairB w).isLt

end

/-- Settles O7: minimum and maximum by `minMax_eq`, comparison by `cmp_eq`, the sign by `xor_two_pow` and `sgnj_eq`, the class by `cls_eq`. -/
theorem floatComparisons : Obligations.FloatComparisons := by
  unfold Obligations.FloatComparisons
  refine ⟨fun s x w => ?_, fun s x w => ?_, fun s x w => ?_⟩
  · rw [← fmtOf_eq]
    exact ⟨fpOp_ends_of_eq rfl fun c => by rw [minMax_eq], fpOp_ends_of_eq rfl fun c => by rw [minMax_eq]⟩
  · rw [← fmtOf_eq]
    exact fpOp_ends_of_eq rfl fun c => cmp_eq (fmtOf w) (c.fpA w) (c.fpB w)
  · rw [← fmtOf_eq, ← signBit_eq]
    refine ⟨?_, ?_, ?_, ?_⟩
    · exact computes_of_eq rfl fun c => rfl
    · exact computes_of_eq rfl fun c => by rw [xor_two_pow (fpA_lt c w)]
    · exact computes_of_eq rfl fun c => by rw [sgnj_eq (fpB_lt c w)]
    · exact computes_of_eq rfl fun c => by rw [cls_eq, ← BitVec.ofInt_natCast]; rfl

end Sys2Proof.Machine
end

section
/-!
PROOF. Conversions between formats and with integers (R141 to R143, Table 5-13; O8).
-/
namespace Sys2Proof.Machine

section
variable {s : State} {x : At} {w : Word} {i : Instr} {op code : Nat} {r : Core → Nat × BitVec 5}

/-- A conversion, with the latency of its opcode. -/
theorem conversion_ends (he : exec i s = s.issue x w (isFn w op code) (fpOp x.core (if op = 6 then 4 else 5) fun c => fpEffs w (r c)))
    (ok : isFn w op code = true) :
    FloatEnds s x w i (if opcodeOf w = 6 then 4 else 5) fun c => (fpWr w (if opcodeOf w = 6 then 4 else 5) (r c).1, (r c).2) := by
  obtain ⟨rfl, -⟩ : opcodeOf w = op ∧ codeOf w = code := by simpa [isFn] using ok
  rw [← fpLat_eq] at he ⊢
  exact fpOp_ends he ok

end

/-! ## Values of conversions to integers (R142) -/

section
variable {f : Fmt} {a n : Nat} {uns : Bool} {v : Int}

/-- The largest integer of n bits, and how far the smallest lies below zero. -/
def mostOf (uns : Bool) (n : Nat) : Nat := if uns then 2 ^ n - 1 else 2 ^ (n - 1) - 1
def leastOf (uns : Bool) (n : Nat) : Nat := if uns then 0 else 2 ^ (n - 1)

theorem mostOf_cast (uns : Bool) (n : Nat) : (if uns then 2 ^ n - 1 else 2 ^ (n - 1) - 1 : Int) = mostOf uns n := by
  have pos (k : Nat) : 1 ≤ 2 ^ k := Nat.one_le_two_pow
  cases uns <;> simp [mostOf, Nat.cast_sub (pos _)]

theorem leastOf_cast (uns : Bool) (n : Nat) : (if uns then 0 else -(2 ^ (n - 1)) : Int) = -leastOf uns n := by
  cases uns <;> simp [leastOf]

theorem mostOf_lt (hn : 0 < n) (uns : Bool) : mostOf uns n < 2 ^ n := by
  have := Nat.two_pow_pred_lt_two_pow hn
  have : 0 < 2 ^ n := by positivity
  unfold mostOf
  split <;> omega

theorem leastOf_lt (hn : 0 < n) (uns : Bool) : leastOf uns n < 2 ^ n := by
  have := Nat.two_pow_pred_lt_two_pow hn
  cases uns <;> simp [leastOf, this]

/-- The pattern of a number between −2^n and 2^n. -/
theorem toNat_pattern (low : -(2 ^ n : Nat) ≤ v) (high : v < (2 ^ n : Nat)) :
    (v % 2 ^ n).toNat = if v < 0 then 2 ^ n - v.natAbs else v.natAbs := by
  have pattern : v % (2 ^ n : Nat) = if v < 0 then v + (2 ^ n : Nat) else v := by
    split
    · rw [← Int.add_emod_right, Int.emod_eq_of_lt (by omega) (by omega)]
    · exact Int.emod_eq_of_lt (by omega) high
  push_cast at pattern
  rw [pattern]
  have cast : (2 : Int) ^ n = (2 ^ n : Nat) := by push_cast; rfl
  rw [cast]
  split <;> omega

theorem toNat_mostOf (hn : 0 < n) : ((mostOf uns n : Int) % 2 ^ n).toNat = mostOf uns n := by
  have lt := mostOf_lt hn uns
  rw [toNat_pattern (by omega) (by omega), if_neg (by omega), Int.natAbs_natCast]

theorem toNat_leastOf (hn : 0 < n) : (-(leastOf uns n : Int) % 2 ^ n).toNat = leastOf uns n := by
  have lt := leastOf_lt hn uns
  have double : 2 ^ (n - 1) + 2 ^ (n - 1) = 2 ^ n := Nat.two_pow_pred_add_two_pow_pred hn
  rw [toNat_pattern (by omega) (by omega), Int.natAbs_neg, Int.natAbs_natCast]
  cases uns <;> simp [leastOf] at lt ⊢
  omega

theorem isNan_of_isInf (h : f.isInf a = true) : f.isNan a = false := by
  simp [Fmt.isInf] at h
  simp [Fmt.isNan, h]

theorem toInt_nan (hn : 0 < n) (rm : Nat) (h : f.isNan a = true) : f.toInt rm uns n a = (((mostOf uns n : Int) % 2 ^ n).toNat, 16) := by
  rw [toNat_mostOf hn, Fmt.toInt, if_pos h]
  rfl

theorem toInt_inf (hn : 0 < n) (rm : Nat) (h : f.isInf a = true) :
    f.toInt rm uns n a = (((if f.sign a then -(leastOf uns n : Int) else mostOf uns n) % 2 ^ n).toNat, 16) := by
  rw [Fmt.toInt, if_neg (by simp [isNan_of_isInf h]), if_pos h]
  split
  · rw [toNat_leastOf hn]; rfl
  · rw [toNat_mostOf hn]; rfl

/-- An integer value is rounded to itself. -/
theorem roundTo_isVal (rm : Nat) (h : f.IsVal a v 0) : roundTo rm (f.sign a) (f.mant a) false (f.exp2 a) 0 = (v.natAbs, false) := by
  have size := congrArg abs ((val_eq_signed f a).symm.trans h)
  have pos (i : Int) : (0 : ℚ) < 2 ^ i := zpow_pos two_pos i
  rw [abs_mul, abs_mul, abs_of_pos (pos _), abs_of_pos (pos _)] at size
  apply roundTo_exact
  rw [← natAbs_signed, Nat.cast_natAbs, Nat.cast_natAbs]
  exact_mod_cast size

theorem isVal_sign (h : f.IsVal a v 0) : if f.sign a then v ≤ 0 else 0 ≤ v := by
  have pos : (0 : ℚ) < 2 ^ f.exp2 a := zpow_pos two_pos _
  have value : (f.signed a : ℚ) * 2 ^ f.exp2 a = v := by rw [← val_eq_signed, h, zpow_zero, mul_one]
  split
  next neg =>
    have : (f.signed a : ℚ) ≤ 0 := by exact_mod_cast (show f.signed a ≤ 0 by rw [Fmt.signed, if_pos neg]; omega)
    exact_mod_cast value ▸ mul_nonpos_of_nonpos_of_nonneg this pos.le
  next nonneg =>
    have : (0 : ℚ) ≤ f.signed a := by exact_mod_cast (show 0 ≤ f.signed a by rw [Fmt.signed, if_neg nonneg]; omega)
    exact_mod_cast value ▸ mul_nonneg this pos.le

/-- What is written of a finite number that rounds exactly to k. -/
theorem toInt_of_round {rm k : Nat} (nan : f.isNan a = false) (inf : f.isInf a = false)
    (h : roundTo rm (f.sign a) (f.mant a) false (f.exp2 a) 0 = (k, false)) :
    f.toInt rm uns n a =
      if f.sign a then if k ≤ leastOf uns n then ((2 ^ n - k) % 2 ^ n, 0) else (leastOf uns n, 16)
      else if k ≤ mostOf uns n then (k, 0) else (mostOf uns n, 16) := by
  rw [Fmt.toInt, if_neg (by simp [nan]), if_neg (by simp [inf])]
  simp only [h]
  rfl

theorem toInt_finite (hn : 0 < n) (rm : Nat) (nan : f.isNan a = false) (inf : f.isInf a = false) (h : f.IsVal a v 0) :
    f.toInt rm uns n a =
      if v < -(leastOf uns n : Int) then ((-(leastOf uns n : Int) % 2 ^ n).toNat, 16)
      else if (mostOf uns n : Int) < v then (((mostOf uns n : Int) % 2 ^ n).toNat, 16) else ((v % 2 ^ n).toNat, 0) := by
  have most := mostOf_lt hn uns
  have least := leastOf_lt hn uns
  have side := isVal_sign h
  rw [toNat_mostOf hn, toNat_leastOf hn, toInt_of_round nan inf (roundTo_isVal rm h)]
  split at side
  next neg =>
    rw [if_pos neg]
    by_cases fits : v.natAbs ≤ leastOf uns n
    · rw [if_pos fits, if_neg (by omega), if_neg (by omega), toNat_pattern (by omega) (by omega)]
      congr 1
      split
      next below => exact Nat.mod_eq_of_lt (by omega)
      next zero => rw [show v.natAbs = 0 by omega, Nat.sub_zero, Nat.mod_self]
    · rw [if_neg fits, if_pos (by omega)]
  next nonneg =>
    rw [if_neg nonneg]
    by_cases fits : v.natAbs ≤ mostOf uns n
    · rw [if_pos fits, if_neg (by omega), if_neg (by omega), toNat_pattern (by omega) (by omega), if_neg (by omega)]
    · rw [if_neg fits, if_neg (by omega), if_pos (by omega)]

end

/-- Settles O8: each conversion ends as `conversion_ends` says, and the values to integers are those of `toInt_nan`, `toInt_inf` and
`toInt_finite`. -/
theorem floatConversions : Obligations.FloatConversions := by
  unfold Obligations.FloatConversions
  refine ⟨fun s x w => ?_, fun f rm n a uns hf => ?_⟩
  · refine ⟨?_, ?_, ?_, ?_, ?_, ?_, ?_, ?_, ?_, ?_, ?_, ?_, ?_, ?_, ?_, ?_⟩
    · exact conversion_ends (r := fun c => f36.ofInt c.rm c.trapUF (c.sA w)) rfl
    · exact conversion_ends (r := fun c => f36.ofInt c.rm c.trapUF (c.zA w)) rfl
    · exact conversion_ends (r := fun c => f36.toInt c.rm false 36 (c.zA w)) rfl
    · exact conversion_ends (r := fun c => f36.toInt c.rm true 36 (c.zA w)) rfl
    · exact conversion_ends (r := fun c => f36.toInt 1 false 36 (c.zA w)) rfl
    · exact conversion_ends (r := fun c => (b32.widenExact f36 (c.zA w % 2 ^ 32), 0)) rfl
    · exact conversion_ends (r := fun c => f36.narrow b32 c.rm c.trapUF (c.zA w)) rfl
    · exact conversion_ends (r := fun c => f72.narrow f36 c.rm c.trapUF (c.zPA w)) rfl
    · exact conversion_ends (r := fun c => f72.ofInt c.rm c.trapUF (c.sPA w)) rfl
    · exact conversion_ends (r := fun c => f72.ofInt c.rm c.trapUF (c.zPA w)) rfl
    · exact conversion_ends (r := fun c => f72.toInt c.rm false 72 (c.zPA w)) rfl
    · exact conversion_ends (r := fun c => f72.toInt c.rm true 72 (c.zPA w)) rfl
    · exact conversion_ends (r := fun c => f72.toInt 1 false 72 (c.zPA w)) rfl
    · exact conversion_ends (r := fun c => (b64.widenExact f72 (c.zPA w % 2 ^ 64), 0)) rfl
    · exact conversion_ends (r := fun c => f72.narrow b64 c.rm c.trapUF (c.zPA w)) rfl
    · exact conversion_ends (r := fun c => widen3672 (c.zA w)) rfl
  · have hn : 0 < n := by rcases hf with ⟨-, rfl⟩ | ⟨-, rfl⟩ <;> decide
    intro lo hi
    rw [show lo = -leastOf uns n from leastOf_cast uns n, show hi = mostOf uns n from mostOf_cast uns n]
    refine ⟨toInt_nan hn rm, fun ⟨inf, pos⟩ => ?_, fun ⟨inf, neg⟩ => ?_, fun v ⟨nan, inf, val⟩ => toInt_finite hn rm nan inf val⟩
    · rw [toInt_inf hn rm inf, pos]
      rfl
    · rw [toInt_inf hn rm inf, neg]
      rfl

end Sys2Proof.Machine
end

section
/-!
PROOF. An instruction that retires with register writes alone: what its core cycle lands, what is left in flight, and what nothing changes
(R122, R181; O28).
-/
namespace Sys2Proof.Machine

/-! ## Writes set off -/

section
variable {c d e : Core} {es : Effs}

/-- Setting writes off adds them to those in flight, and notes the newest of each accumulator. -/
theorem Core.setOff_eq (c : Core) (start : Nat) (es : Effs) :
    ∃ acNew, c.setOff start es = { c with pend := c.pend ++ es.map (fun e => ⟨e.1, start + e.2, c.seq⟩), acNew := acNew } := by
  induction es generalizing c with
  | nil => exact ⟨c.acNew, by simp [setOff]⟩
  | cons e r ih =>
    have noted : ∃ acNew, ({ c with pend := c.pend ++ [⟨e.1, start + e.2, c.seq⟩] } : Core).noteAc e.1 =
        { c with pend := c.pend ++ [⟨e.1, start + e.2, c.seq⟩], acNew := acNew } := by
      unfold noteAc
      split
      · exact ⟨_, rfl⟩
      · exact ⟨c.acNew, rfl⟩
    obtain ⟨acNew, first⟩ := noted
    obtain ⟨acNew', rest⟩ := ih { c with pend := c.pend ++ [⟨e.1, start + e.2, c.seq⟩], acNew := acNew }
    refine ⟨acNew', ?_⟩
    rw [setOff, List.foldl_cons, first, ← setOff, rest]
    simp

/-! ## Writes that land -/

/-- Nothing but registers and flags differs. -/
def Core.RegsOnly (c d : Core) : Prop :=
  ∃ w ac sg fl fpcsr rc, d = { c with w := w, ac := ac, sg := sg, fl := fl, fpcsr := fpcsr, rc := rc }

theorem Core.RegsOnly.refl : RegsOnly c c := ⟨c.w, c.ac, c.sg, c.fl, c.fpcsr, c.rc, rfl⟩

theorem Core.RegsOnly.trans (h : RegsOnly c d) (h' : RegsOnly d e) : RegsOnly c e := by
  obtain ⟨_, _, _, _, _, _, rfl⟩ := h
  obtain ⟨_, _, _, _, _, _, rfl⟩ := h'
  exact ⟨_, _, _, _, _, _, rfl⟩

theorem Core.RegsOnly.land (c : Core) (l : Land) : RegsOnly c (c.land l) := by
  cases l with
  | w r v =>
    obtain ⟨w, e⟩ := c.land_w_frame r v
    exact ⟨w, c.ac, c.sg, c.fl, c.fpcsr, c.rc, e⟩
  | _ => exact ⟨_, _, _, _, _, _, rfl⟩

/-- The writes of latency 1 land, in program order. -/
def Core.landOnes (c : Core) (es : Effs) : Core := es.foldl (fun c e => if e.2 = 1 then c.land e.1 else c) c

theorem Core.landOnes_eq (c : Core) (es : Effs) : c.landOnes es = ((es.filter fun e => decide (e.2 = 1)).map (·.1)).foldl Core.land c := by
  rw [List.foldl_map, List.foldl_filter]
  simp only [landOnes, decide_eq_true_eq]

/-- What each of the landings keeps, they keep together. -/
theorem Core.landOnes_keeps {α : Type} (p : Core → α) (h : ∀ e ∈ es, e.2 = 1 → ∀ c : Core, p (c.land e.1) = p c) (c : Core) :
    p (c.landOnes es) = p c := by
  induction es generalizing c with
  | nil => rfl
  | cons e r ih =>
    rw [landOnes, List.foldl_cons, ← landOnes, ih fun e he => h e (List.mem_cons_of_mem _ he)]
    split
    next one => exact h e List.mem_cons_self one c
    next => rfl

theorem Core.RegsOnly.landOnes (c : Core) (es : Effs) : RegsOnly c (c.landOnes es) := by
  refine foldl_keeps (p := RegsOnly c) (fun d e h => ?_) es c refl
  split
  · exact h.trans (land d e.1)
  · exact h

/-! ## What one landing leaves alone -/

theorem lastWrite_concat_same (es : Effs) (r : Nat) (v : Word) : lastWrite (es ++ [(.w r v, 1)]) r = some v := by
  simp [lastWrite, List.foldl_append]

theorem lastWrite_concat_other (es : Effs) {l : Land} {lat r : Nat} (h : lat = 1 → ∀ v, l ≠ .w r v) :
    lastWrite (es ++ [(l, lat)]) r = lastWrite es r := by
  rw [lastWrite, List.foldl_append, ← lastWrite]
  cases l with
  | w q u => exact if_neg fun ⟨same, one⟩ => h one u (same ▸ rfl)
  | _ => rfl

/-- A register holds the last of the writes to it. -/
theorem Core.reg_landOnes (ho : c.opW = none) {r : Nat} (hr : r ≠ 0) (es : Effs) : (c.landOnes es).reg r = (lastWrite es r).getD (c.reg r) := by
  induction es using List.reverseRecOn with
  | nil => rfl
  | append_singleton es e ih =>
    obtain ⟨l, lat⟩ := e
    have rest : (c.landOnes es).opW = none := by
      obtain ⟨_, _, _, _, _, _, e⟩ := RegsOnly.landOnes c es
      rw [e]
      exact ho
    have last : c.landOnes (es ++ [(l, lat)]) = if lat = 1 then (c.landOnes es).land l else c.landOnes es := by
      rw [landOnes, List.foldl_append, ← landOnes]
      rfl
    by_cases hit : lat = 1 ∧ ∃ v, l = .w r v
    · obtain ⟨rfl, v, rfl⟩ := hit
      rw [last, if_pos rfl, land_w_reg rest, if_pos ⟨rfl, hr⟩, lastWrite_concat_same]
      rfl
    · rw [lastWrite_concat_other es fun one v hv => hit ⟨one, v, hv⟩, ← ih, last]
      split
      next one => exact land_other_reg _ l r rest fun v hv => hit ⟨one, v, hv⟩
      next => rfl

theorem setFl_other (fl : BitVec 5) {i j : Nat} (b : Bool) (hi : i < 5) (ne : j ≠ i) : (setFl fl j b).getLsbD i = fl.getLsbD i := by
  by_cases hj : j < 5
  · rw [setFl_get fl j i b hj hi, if_neg ne]
  · have gone : (1 : BitVec 5) <<< j = 0 := BitVec.shiftLeft_eq_zero (by omega)
    have same : setFl fl j b = fl := by
      rw [setFl, gone]
      cases b
      · exact BitVec.and_allOnes
      · exact BitVec.or_zero
    rw [same]

theorem Core.land_other_flag (c : Core) {l : Land} {i : Nat} (hi : i < 5) (h : l.writesFlag i = false) :
    (c.land l).fl.getLsbD i = c.fl.getLsbD i := by
  cases l with
  | w r v =>
    obtain ⟨_, e⟩ := c.land_w_frame r v
    rw [e]
  | fl j b => exact setFl_other c.fl b hi (by simpa [Land.writesFlag] using h)
  | q => exact setFl_other c.fl true hi fun four => by simp [Land.writesFlag, ← four] at h
  | qw b => exact setFl_other c.fl b hi fun four => by simp [Land.writesFlag, ← four] at h
  | _ => rfl

theorem Core.land_other_acc (c : Core) {l : Land} {n : Nat} (h : ∀ v, l ≠ .ac n v) : (c.land l).acc n = c.acc n := by
  cases l with
  | w r v =>
    obtain ⟨_, e⟩ := c.land_w_frame r v
    rw [e]
    rfl
  | ac m v =>
    have ne : m ≠ n := by
      rintro rfl
      exact h v rfl
    exact (smGet_smPut ..).trans (if_neg ne)
  | _ => rfl

theorem Core.land_other_rc (c : Core) {l : Land} (h : ∀ v, l ≠ .rc v) : (c.land l).rc = c.rc := by
  cases l with
  | w r v =>
    obtain ⟨_, e⟩ := c.land_w_frame r v
    rw [e]
  | rc v => exact absurd rfl (h v)
  | _ => rfl

theorem Core.land_other_fpcsr (c : Core) {l : Land} (h : ∀ v, l ≠ .fp v) : (c.land l).fpcsr = c.fpcsr := by
  cases l with
  | w r v =>
    obtain ⟨_, e⟩ := c.land_w_frame r v
    rw [e]
  | fp v => exact absurd rfl (h v)
  | _ => rfl

theorem Core.land_other_sg (c : Core) {l : Land} (h : ∀ r v, l ≠ .sg r v) : (c.land l).sg = c.sg := by
  cases l with
  | w r v =>
    obtain ⟨_, e⟩ := c.land_w_frame r v
    rw [e]
  | sg r v => exact absurd rfl (h r v)
  | _ => rfl

/-! ## The core cycle after the issue -/

theorem foldr_insertUp_same {n : Nat} {l : List Nat} (h : ∀ m ∈ l, m = n) : l.foldr insertUp [] = if l = [] then [] else [n] := by
  induction l with
  | nil => rfl
  | cons m r ih =>
    obtain rfl := h m List.mem_cons_self
    rw [List.foldr_cons, ih fun i hi => h i (List.mem_cons_of_mem _ hi)]
    split <;> simp [insertUp]

/-- Writes that are not older than what lands are not discarded by it. -/
theorem Core.discard_young {landed : List (Land × Nat)} (hd : c.div = []) (hx : c.xops = [])
    (young : ∀ p ∈ c.pend, ∀ q ∈ landed, q.2 ≤ p.seq) : c.discard landed = c := by
  have kept : c.pend.filter (fun p => !landed.any fun q => q.1.same p.land && decide (p.seq < q.2)) = c.pend := by
    rw [List.filter_eq_self]
    intro p hp
    simp only [Bool.not_eq_true', List.any_eq_false, Bool.and_eq_true, decide_eq_true_eq, not_and, Nat.not_lt]
    exact fun q hq _ => young p hp q hq
  rw [discard, kept, hd, hx, List.map_nil, List.map_nil, ← hd, ← hx]

section
variable {start seq : Nat}

/-- The writes of an instruction that issued in pipeline cycle `start`. -/
def inFlight (start seq : Nat) (es : Effs) : List Pending := es.map fun e => ⟨e.1, start + e.2, seq⟩

theorem foldl_inFlight (es : Effs) (c : Core) :
    (inFlight start seq es).foldl (fun c p => c.land p.land) c = (es.map (·.1)).foldl Core.land c := by
  rw [inFlight, List.foldl_map, List.foldl_map]

theorem landCycle_fresh (hd : c.div = []) (hx : c.xops = []) (hp : c.pend = inFlight start seq es) (hes : ∀ e ∈ es, 1 ≤ e.2) :
    c.landCycle (start + 1) = ({ c with pend := inFlight start seq (es.filter fun e => decide (1 < e.2)) } : Core).landOnes es := by
  have now : c.pend.filter (fun p => p.due == start + 1) = inFlight start seq (es.filter fun e => decide (e.2 = 1)) := by
    rw [hp, inFlight, List.filter_map, inFlight]
    congr 1
    refine List.filter_congr fun e _ => ?_
    rw [Bool.eq_iff_iff]
    simp
  have later : c.pend.filter (fun p => !(p.due == start + 1)) = inFlight start seq (es.filter fun e => decide (1 < e.2)) := by
    rw [hp, inFlight, List.filter_map, inFlight]
    congr 1
    refine List.filter_congr fun e he => ?_
    have := hes e he
    rw [Bool.eq_iff_iff]
    simp
    omega
  have young : ∀ p ∈ inFlight start seq (es.filter fun e => decide (1 < e.2)),
      ∀ q ∈ (inFlight start seq (es.filter fun e => decide (e.2 = 1))).map (fun p => (p.land, p.seq)), q.2 ≤ p.seq := by
    intro p hp q hq
    simp only [inFlight, List.map_map, List.mem_map] at hp hq
    obtain ⟨_, _, rfl⟩ := hp
    obtain ⟨_, _, rfl⟩ := hq
    exact Nat.le_refl _
  have kept := Core.discard_young (c := { c with pend := inFlight start seq (es.filter fun e => decide (1 < e.2)) }) hd hx young
  rw [Core.landCycle, now, later, kept, foldl_inFlight, Core.landOnes_eq]

/-- A core whose instruction's writes alone are in flight, one cycle after it issued: what has latency 1 lands, and the rest stays. -/
theorem landShort_fresh (hd : c.div = []) (hx : c.xops = []) (hp : c.pend = inFlight start seq es) (hes : ∀ e ∈ es, 1 ≤ e.2)
    (hc : c.pcyc = start + 1) :
    c.landShort = ({ c with pend := inFlight start seq (es.filter fun e => decide (1 < e.2)) } : Core).landOnes es := by
  have same : ∀ n ∈ (c.pend.map (·.due)).filter (fun n => decide (n ≤ c.pcyc)), n = start + 1 := by
    intro n hn
    simp only [hp, inFlight, List.map_map, List.mem_filter, List.mem_map, decide_eq_true_eq] at hn
    obtain ⟨⟨e, he, rfl⟩, le⟩ := hn
    have := hes e he
    simp only [Function.comp] at le ⊢
    omega
  rw [Core.landShort, Core.landCycles, foldr_insertUp_same same]
  split
  next empty =>
    have long : ∀ e ∈ es, 1 < e.2 := by
      intro e he
      have := hes e he
      by_contra short
      have due : start + 1 ∈ (c.pend.map (·.due)).filter (fun n => decide (n ≤ c.pcyc)) := by
        simp only [hp, inFlight, List.map_map, List.mem_filter, List.mem_map, decide_eq_true_eq]
        exact ⟨⟨e, he, by simp only [Function.comp]; omega⟩, by omega⟩
      exact List.not_mem_nil (empty ▸ due)
    rw [List.filter_eq_self.mpr (by simpa using long), ← hp]
    exact (Core.landOnes_keeps id (fun e he one => absurd one (long e he).ne') c).symm
  next => exact landCycle_fresh hd hx hp hes

end
end

/-! ## Retirement of a quiet core -/

section
variable {s : State} {k n : Nat} {es : Effs}

/-- Time passes in a core with no X operation in flight that replays nothing. -/
theorem advance_eq (hr : s.replaying k = false) (hx : (s.core k).xops = []) :
    s.advance k n = ((s.modCore k fun c => (c.after n).landShort).modCore k Core.landDivDue).sync k := by
  have long : Core.SamePace ((s.core k).after n) ((s.core k).after n).landShort.landDivDue := (Core.SamePace.landShort _).trans (.landDivDue _)
  have short : s.advance k n = ((s.modCore k fun c => (c.after n).landShort).landLong k).sync k := rfl
  rw [short, landLong_live (by exact hr), landXDue_none]
  rw [State.core_modCore_self, State.core_modCore_self]
  exact long.xops hx

/-- A core whose instruction has set its writes off. -/
def Core.issued (c : Core) (es : Effs) : Core := { c.setOff c.pcyc es with seq := c.seq + 1, resume := false }

/-- A core that goes on at the next word. -/
def Core.fallsOn (c : Core) (pc : Nat) : Core := { c with pair := none, opW := none, lateUse := none, pc := (pc + 4) % 2 ^ 36 }

/-- A single instruction that only writes registers retires in one cycle, where nothing counts and nothing is recorded. -/
theorem retire_fall (w : Word) (es : Effs) (hj : smFind? s.mftc k = none) (hctl : smFind? s.ctl (o_pmuCctl (groveOf k) (slotOf k)) = none) :
    s.retire k .single w es .fall =
      (((((s.modCore k (·.issued es)).setCore k ((s.modCore k (·.issued es)).core k)).modCore k (·.fallsOn (s.core k).pc)).advance k 1).modCore k
        Core.stepped) := by
  have early : s.mftEarly k w = s := by simp [State.mftEarly, hj]
  have effs : s.mftEffs k es = s := by simp [State.mftEffs, hj]
  have retired : s.mftRetire k 1 = s := by simp [State.mftRetire, hj]
  unfold State.retire
  simp only [early, effs, retired, count_off, hctl, State.modCore_ctl, State.setCore_ctl]
  rfl

/-- A quiet core in the cycle after an instruction with the writes `es` has issued, before those of latency 1 have landed. -/
def Core.next (c : Core) (es : Effs) (acNew : SMap Acc) : Core :=
  { c with
    pend := inFlight c.pcyc c.seq (es.filter fun e => decide (1 < e.2)), acNew := acNew, seq := c.seq + 1, resume := false, pair := none
    opW := none, lateUse := none, pc := (c.pc + 4) % 2 ^ 36, pcyc := c.pcyc + 1, ccyc := c.ccyc + 1 }

theorem Core.landDivDue_idle {c : Core} (h : c.div = []) : c.landDivDue = c := by simp [Core.landDivDue, h]

theorem Core.stepped_running {c : Core} (h : c.dbgStep = false) : c.stepped = c := by simp [Core.stepped, h]

/-- With nothing else in flight, the cycle after the issue lands what has latency 1, and nothing else happens. -/
theorem Core.landShort_issued {c : Core} (hp : c.pend = []) (hd : c.div = []) (hx : c.xops = []) (hes : ∀ e ∈ es, 1 ≤ e.2) :
    ∃ acNew, (((c.issued es).fallsOn c.pc).after 1).landShort = (c.next es acNew).landOnes es := by
  obtain ⟨acNew, off⟩ := c.setOff_eq c.pcyc es
  refine ⟨acNew, ?_⟩
  rw [Core.issued, off]
  exact landShort_fresh (start := c.pcyc) (seq := c.seq) hd hx (by simp [Core.after, Core.fallsOn, hp, inFlight]) hes rfl

/-- The state in which the instruction has set its writes off and PC names the next word. -/
def State.fellOn (s : State) (k : Nat) (es : Effs) : State :=
  ((s.modCore k (·.issued es)).setCore k ((s.modCore k (·.issued es)).core k)).modCore k (·.fallsOn (s.core k).pc)

theorem core_fellOn (s : State) (k : Nat) (es : Effs) : (s.fellOn k es).core k = ((s.core k).issued es).fallsOn (s.core k).pc := by
  rw [State.fellOn, State.core_modCore_self, State.core_setCore, if_pos rfl, State.core_modCore_self]

theorem retire_quiet (q : Quiet s k) (w : Word) (es : Effs) :
    s.retire k .single w es .fall =
      ((((s.fellOn k es).modCore k fun c => (c.after 1).landShort).modCore k Core.landDivDue).sync k).modCore k Core.stepped := by
  obtain ⟨idle, live, -⟩ := q.journal
  obtain ⟨-, -, hx, -⟩ := q.flight
  rw [retire_fall w es idle q.counters, ← State.fellOn, advance_eq (by exact live)]
  rw [core_fellOn]
  obtain ⟨_, off⟩ := (s.core k).setOff_eq (s.core k).pcyc es
  rw [Core.issued, off]
  exact hx

theorem retire_core (q : Quiet s k) (w : Word) (hes : ∀ e ∈ es, 1 ≤ e.2) :
    ∃ acNew, (s.retire k .single w es .fall).core k = ((s.core k).next es acNew).landOnes es := by
  obtain ⟨hp, hd, hx, -⟩ := q.flight
  obtain ⟨-, running, -⟩ := q.debug
  obtain ⟨acNew, landed⟩ := Core.landShort_issued hp hd hx hes
  obtain ⟨_, _, _, _, _, _, frame⟩ := Core.RegsOnly.landOnes ((s.core k).next es acNew) es
  refine ⟨acNew, ?_⟩
  rw [retire_quiet q, State.core_modCore_self, core_sync, State.core_modCore_self, State.core_modCore_self, core_fellOn, landed,
    Core.landDivDue_idle (by rw [frame]; exact hd), Core.stepped_running (by rw [frame]; exact running)]

theorem retire_elsewhere (q : Quiet s k) (w : Word) (es : Effs) :
    let t := s.retire k .single w es .fall
    t.mem = s.mem ∧ t.ctl = s.ctl ∧ t.evl = s.evl ∧ t.live = s.live ∧ ∀ j ≠ k, t.core j = s.core j := by
  rw [retire_quiet q]
  refine ⟨by simp [State.fellOn, State.sync], by simp [State.fellOn, State.sync], by simp [State.fellOn, State.sync],
    by simp [State.fellOn, State.sync], fun j hj => ?_⟩
  have ne : k ≠ j := hj.symm
  rw [State.core_modCore_other _ _ ne, core_sync, State.core_modCore_other _ _ ne, State.core_modCore_other _ _ ne, State.fellOn,
    State.core_modCore_other _ _ ne, State.core_setCore, if_neg ne, State.core_modCore_other _ _ ne]

end

/-- Settles O28: `retire_core` says what the core becomes, and each clause what the landings of latency 1 leave alone; `retire_elsewhere`
says the rest. -/
theorem retireFrame : Obligations.RetireFrame := by
  unfold Obligations.RetireFrame
  intro s k w es q hes c t d
  obtain ⟨acNew, core⟩ : ∃ acNew, d = (c.next es acNew).landOnes es := retire_core q w hes
  obtain ⟨-, -, -, ho, -, -⟩ := q.flight
  have reg (r : Nat) : (c.next es acNew).reg r = c.reg r := by
    rw [Core.reg, Core.reg, show c.opW = none from ho]
    rfl
  have holds {r : Nat} (hr : r ≠ 0) : d.reg r = (lastWrite es r).getD (c.reg r) := by
    rw [core, Core.reg_landOnes rfl hr, reg]
  obtain ⟨_, _, _, _, _, _, frame⟩ := Core.RegsOnly.landOnes (c.next es acNew) es
  refine ⟨fun r v hr last => ?_, fun r untouched => ?_, Core.reg_zero d, ?_, fun i hi other => ?_, fun n other => ?_, fun other => ?_,
    fun other => ?_, fun other => ?_, ?_⟩
  · rw [holds hr, last, Option.getD_some]
  · by_cases hr : r = 0
    · rw [hr, Core.reg_zero, Core.reg_zero]
    · rw [holds hr, untouched, Option.getD_none]
  · rw [core, frame]
    rfl
  · rw [core]
    exact Core.landOnes_keeps (fun c => c.fl.getLsbD i) (fun e he one c => c.land_other_flag hi (other e he one)) _
  · rw [core]
    exact Core.landOnes_keeps (fun c => c.acc n) (fun e he one c => c.land_other_acc fun v => other e he v one) _
  · rw [core]
    exact Core.landOnes_keeps (fun c => c.rc) (fun e he one c => c.land_other_rc fun v => other e he v one) _
  · rw [core]
    exact Core.landOnes_keeps (fun c => c.fpcsr) (fun e he one c => c.land_other_fpcsr fun v => other e he v one) _
  · rw [core]
    exact Core.landOnes_keeps (fun c => c.sg) (fun e he one c => c.land_other_sg fun r v => other e he r v one) _
  · rw [core, frame]
    exact ⟨rfl, rfl, rfl, rfl, rfl, rfl, rfl, rfl, rfl, rfl, rfl, rfl, rfl, rfl, rfl, rfl, rfl, rfl, retire_elsewhere q w es⟩

end Sys2Proof.Machine
end

section
/-!
PROOF. Branches, calls and jumps with the conditions of Table 4-12 (R161 to R163; O18), and repeats with their iterations (R114, R115,
R164 to R167; O19).
-/
namespace Sys2Proof.Machine

section
variable {s s1 : State} {x : At} {w target : Word} {spells : Bool} {body : State → Res} {i : Instr}

/-- A command of a core whose word issues answers what its body says. -/
theorem exec_issued (h : Issues s x w target s1) (he : exec i s = s.issueT x w target spells body) (ok : spells = true) :
    exec i s = .next (State.finish x.core x.slot w (body s1)) :=
  he.trans (issueT_of_issues h ok)

theorem ownAddr_eq (c : Core) (slot : Slot) : ownAddr c slot = if slot = .second then c.pc + 4 else c.pc := by
  cases slot <;> rfl

/-! ## Branches -/

section
variable (h : Issues s x w 0 s1)
include h

theorem exec_br (ok : opcodeOf w = 32) :
    exec (.br x w) s = .next (s1.retire x.core x.slot w []
      (.branch (condHolds (condOf w) (s1.core x.core).fl) (relTarget (ownAddr (s1.core x.core) x.slot) w))) := by
  rw [exec_issued (i := .br x w) h rfl (beq_iff_eq.mpr ok)]
  rfl

theorem exec_call (ok : opcodeOf w = 33) :
    exec (.call x w) s = .next (s1.retire x.core x.slot w
      (if condHolds (condOf w) (s1.core x.core).fl then [(.w 63 (linkValue (ownAddr (s1.core x.core) x.slot)), 1)] else [])
      (.branch (condHolds (condOf w) (s1.core x.core).fl) (relTarget (ownAddr (s1.core x.core) x.slot) w))) := by
  rw [exec_issued (i := .call x w) h rfl (beq_iff_eq.mpr ok)]
  rfl

theorem exec_jrl_taken_odd (ok : opcodeOf w = 34) (taken : condHolds (fld w 3 0) (s1.core x.core).fl = true)
    (odd : ((s1.core x.core).srcA w).toNat % 4 ≠ 0) :
    exec (.jrl x w) s = .next (s1.trap x.core x.slot ⟨7, 1, ((s1.core x.core).srcA w).toNat, none⟩) := by
  rw [exec_issued (i := .jrl x w) h rfl (beq_iff_eq.mpr ok), if_pos (by simp [taken, odd])]
  rfl

theorem exec_jrl (ok : opcodeOf w = 34)
    (aligned : ¬(condHolds (fld w 3 0) (s1.core x.core).fl = true ∧ ((s1.core x.core).srcA w).toNat % 4 ≠ 0)) :
    exec (.jrl x w) s = .next (s1.retire x.core x.slot w
      (if condHolds (fld w 3 0) (s1.core x.core).fl then [(.w (dstOf w) (linkValue (ownAddr (s1.core x.core) x.slot)), 1)] else [])
      (.branch (condHolds (fld w 3 0) (s1.core x.core).fl) ((s1.core x.core).srcA w).toNat)) := by
  rw [exec_issued (i := .jrl x w) h rfl (beq_iff_eq.mpr ok), if_neg (by simpa using aligned)]
  rfl

end

/-! ## The start of a repeat -/

/-- The core when a repeat issues: with a count of 0 it goes on after the target, otherwise the repeat is in progress. -/
def Core.startsRepeat (c : Core) (w target : Word) (unint : Bool) (n : Word) : Core :=
  if n = 0 then { c with pc := (c.pc + 8) % 2 ^ 36, resume := false }
  else { c with rep := some { pc := c.pc, word := w, target := target, unint := unint }, resume := false }

/-- The count that RC takes: after a marked ERET the one that ERET gave it. -/
def Core.repeatCount (c : Core) (count : Word) : Word := if c.resume then c.rc else count

theorem exec_repeat {unint : Bool} {count : Core → Word} (h : Issues s x w target s1)
    (he : exec i s = s.issueT x w target spells (startRepeat x.core w target unint count)) (ok : spells = true) :
    let n := (s1.core x.core).repeatCount (count (s1.core x.core))
    exec i s = .next ((s1.modCore x.core (·.startsRepeat w target unint n)).retire x.core x.slot w [(.rc n, 1)] .set) :=
  exec_issued h he ok

end

/-! ## One iteration -/

section
variable {s : State} {k n : Nat} {w : Word}

/-- Time passes in a core that has nothing in flight. -/
theorem core_advance_idle (hp : (s.core k).pend = []) (hd : (s.core k).div = []) (hx : (s.core k).xops = []) :
    (s.advance k n).core k = (s.core k).after n := by
  have short : ((s.core k).after n).landShort = (s.core k).after n := Core.landShort_idle hp
  have core : (s.modCore k fun c => (c.after n).landShort).core k = (s.core k).after n := by rw [State.core_modCore_self, short]
  show ((s.modCore k fun c => (c.after n).landShort).landLong k).core k = _
  unfold State.landLong
  split
  · exact core
  · have long : ((s.core k).after n).landDivDue = (s.core k).after n := Core.landDivDue_idle hd
    rw [landXDue_none] <;> rw [State.core_modCore_self, core, long]
    exact hx

/-- The core when an iteration of a repeat has retired, before its cycle passes. -/
def Core.iterated (c : Core) (r : Rep) : Core :=
  let d : Core := { c with seq := c.seq + 1, resume := false, opW := none }
  if c.rc - 1 = 0 then { d with rc := 0, rep := none, pc := (r.pc + 8) % 2 ^ 36 } else { d with rc := c.rc - 1 }

theorem Core.iterated_rc (c : Core) (r : Rep) : (c.iterated r).rc = c.rc - 1 := by
  unfold iterated
  split
  next last => exact last.symm
  next => rfl

theorem Core.iterated_last {c : Core} (r : Rep) (h : c.rc = 1) :
    (c.iterated r).rep = none ∧ (c.iterated r).pc = (r.pc + 8) % 2 ^ 36 := by
  rw [iterated, if_pos (by rw [h]; rfl)]
  exact ⟨rfl, rfl⟩

theorem Core.iterated_more {c : Core} (r : Rep) (h : c.rc ≠ 1) : (c.iterated r).rep = c.rep ∧ (c.iterated r).pc = c.pc := by
  have more : c.rc - 1 ≠ 0 := fun e => h (by rw [← BitVec.sub_add_cancel c.rc 1, e]; rfl)
  rw [iterated, if_neg more]
  exact ⟨rfl, rfl⟩

theorem Core.iterated_flight (c : Core) (r : Rep) :
    (c.iterated r).pend = c.pend ∧ (c.iterated r).div = c.div ∧ (c.iterated r).xops = c.xops := by
  unfold iterated
  split <;> exact ⟨rfl, rfl, rfl⟩

theorem Core.stepped_regs (c : Core) : c.stepped.rc = c.rc ∧ c.stepped.rep = c.rep ∧ c.stepped.pc = c.pc := by
  unfold stepped
  split <;> exact ⟨rfl, rfl, rfl⟩

/-- An iteration of a core that does not record retires: what its cycle begins with. -/
theorem retire_iter_issued {r : Rep} (hr : (s.core k).rep = some r) (hj : smFind? s.mftc k = none) :
    ∃ t : State, s.retire k .iter w [] .fall = (t.advance k 1).modCore k Core.stepped ∧ t.core k = (s.core k).iterated r := by
  have early : s.mftEarly k w = s := by simp [State.mftEarly, hj]
  have effs : s.mftEffs k [] = s := by simp [State.mftEffs, hj]
  have retired : s.mftRetire k 1 = s := by simp [State.mftRetire, hj]
  refine ⟨_, rfl, ?_⟩
  rw [State.core_modCore_self, mftItem_core, (CtlOnly.count ..).core, (CtlOnly.count ..).core, (CtlOnly.count ..).core,
    State.core_modCore_self, (CtlOnly.count ..).core, (CtlOnly.count ..).core, early, effs, retired, hr]
  rfl

/-- With nothing in flight, its cycle lands nothing. -/
theorem retire_iter {r : Rep} (hr : (s.core k).rep = some r) (hp : (s.core k).pend = []) (hd : (s.core k).div = [])
    (hx : (s.core k).xops = []) (hj : smFind? s.mftc k = none) :
    (s.retire k .iter w [] .fall).core k = (((s.core k).iterated r).after 1).stepped := by
  obtain ⟨t, retired, core⟩ := retire_iter_issued (w := w) hr hj
  obtain ⟨pend, div, xops⟩ := (s.core k).iterated_flight r
  rw [retired, State.core_modCore_self, core_advance_idle, core] <;> rw [core]
  exacts [pend.trans hp, div.trans hd, xops.trans hx]

end

/-- Settles O18: what BR, CALL and JRL answer, and the conditions by cases of the flags. -/
theorem branches : Obligations.Branches := by
  unfold Obligations.Branches
  refine ⟨fun s s1 x w h => ?_, by decide⟩
  have own := ownAddr_eq (s1.core x.core) x.slot
  refine ⟨fun ok => ?_, fun ok => ?_, fun ⟨ok, aligned⟩ => ?_, fun ⟨ok, taken, odd⟩ => exec_jrl_taken_odd h ok taken odd⟩
  · have e := exec_br h ok
    rwa [own] at e
  · have e := exec_call h ok
    rwa [own] at e
  · have e := exec_jrl h ok aligned
    rwa [own] at e

/-- Settles O19: the start of a repeat by `exec_repeat`, and an iteration by `retire_iter`. -/
theorem repeats : Obligations.Repeats := by
  unfold Obligations.Repeats
  refine ⟨fun s s1 x w target h => ⟨fun ok => ?_, fun ok => ?_⟩, fun s k w r => ?_⟩
  · have e := exec_repeat (i := .rpt x w target) h rfl (beq_iff_eq.mpr ok)
    exact e
  · have e := exec_repeat (i := .rptu x w target) h rfl (beq_iff_eq.mpr ok)
    exact e
  intro c hr hp hd hx hj t
  have core : t = ((c.iterated r).after 1).stepped := retire_iter hr hp hd hx hj
  obtain ⟨rc, rep, pc⟩ := ((c.iterated r).after 1).stepped_regs
  rw [core, rc, rep, pc]
  exact ⟨c.iterated_rc r, Core.iterated_last r, fun more => (c.iterated_more r more).imp_left (·.trans hr)⟩

end Sys2Proof.Machine
end

section
/-!
PROOF. What time leaves alone in a core with no X operation in flight, exception entries (R175, R272; O23) and the return from one (R176,
R182, R203, R617; O24).
-/
namespace Sys2Proof.Machine

/-! ## Landings change registers, flags, recorded faults and what is in flight -/

/-- A core with no X operation in flight after landings: registers and flags, what is in flight and the recorded faults may differ, and no
write is in flight that was not before. -/
def Core.Lands (c d : Core) : Prop :=
  c.xops = [] → ∃ w ac sg fl fpcsr rc pend div faults, (∀ p ∈ pend, p ∈ c.pend) ∧
    d = { c with w := w, ac := ac, sg := sg, fl := fl, fpcsr := fpcsr, rc := rc, pend := pend, div := div, faults := faults }

namespace Core.Lands
variable {c d e : Core}

theorem refl : Lands c c := fun _ => ⟨c.w, c.ac, c.sg, c.fl, c.fpcsr, c.rc, c.pend, c.div, c.faults, fun _ => id, rfl⟩

theorem trans (h : Lands c d) (h' : Lands d e) : Lands c e := by
  intro hx
  obtain ⟨_, _, _, _, _, _, _, _, _, sub, rfl⟩ := h hx
  obtain ⟨_, _, _, _, _, _, _, _, _, sub', rfl⟩ := h' hx
  exact ⟨_, _, _, _, _, _, _, _, _, fun p hp => sub p (sub' p hp), rfl⟩

theorem ofRegs (h : RegsOnly c d) : Lands c d := by
  obtain ⟨_, _, _, _, _, _, rfl⟩ := h
  exact fun _ => ⟨_, _, _, _, _, _, _, _, _, fun _ => id, rfl⟩

theorem lands {α : Type} (g : α → Land) (l : List α) (c : Core) : Lands c (l.foldl (fun c a => c.land (g a)) c) :=
  foldl_keeps (p := Lands c) (fun d a h => h.trans (ofRegs (.land d (g a)))) l c refl

theorem fewer (c : Core) (p : Pending → Bool) : Lands c { c with pend := c.pend.filter p } :=
  fun _ => ⟨_, _, _, _, _, _, _, _, _, fun _ => List.mem_of_mem_filter, rfl⟩

theorem discard (c : Core) (l : List (Land × Nat)) : Lands c (c.discard l) := by
  intro hx
  have same : c.discard l = { c.discard l with xops := c.xops } := by rw [Core.discard, hx, List.map_nil]
  rw [same]
  exact ⟨_, _, _, _, _, _, _, _, _, fun _ => List.mem_of_mem_filter, rfl⟩

theorem record (c : Core) (f : LongFault) : Lands c (c.record f) := by
  simp only [Core.record]
  generalize (if f.code = 11 then 4 else 1 : Nat) = room
  split
  · exact refl
  · exact fun _ => ⟨_, _, _, _, _, _, _, _, _, fun _ => id, rfl⟩

theorem landShort (c : Core) : Lands c c.landShort :=
  foldl_keeps (p := Lands c) (fun d _ h => h.trans ((fewer d _).trans ((discard _ _).trans (lands _ _ _)))) _ c refl

theorem landDiv (c : Core) (d : DivOp) : Lands c (c.landDiv d) := by
  refine trans (d := { c with div := c.div.filter (·.seq != d.seq) }) (fun _ => ⟨_, _, _, _, _, _, _, _, _, fun _ => id, rfl⟩) ?_
  simp only [Core.landDiv]
  split
  · exact (lands _ _ _).trans (record _ _)
  · exact (discard _ _).trans (lands _ _ _)

theorem landDivDue (c : Core) : Lands c c.landDivDue := by
  refine foldl_keeps (p := Lands c) (fun d op h => h.trans ?_) _ c refl
  split
  · exact landDiv _ _
  · exact refl

theorem xops (h : Lands c d) (hx : c.xops = []) : d.xops = [] := by
  obtain ⟨_, _, _, _, _, _, _, _, _, _, rfl⟩ := h hx
  exact hx

end Core.Lands

section
variable {s : State} {k n : Nat}

/-- n cycles pass in a core with no X operation in flight: its clocks go on, and writes land. -/
theorem lands_advance (hx : (s.core k).xops = []) : Core.Lands ((s.core k).after n) ((s.advance k n).core k) := by
  have short : Core.Lands ((s.core k).after n) ((s.core k).after n).landShort := .landShort _
  unfold State.advance State.landLong
  rw [core_sync]
  split
  · rw [State.core_modCore_self]
    exact short
  · have long : Core.Lands ((s.core k).after n) ((s.core k).after n).landShort.landDivDue := short.trans (.landDivDue _)
    rw [landXDue_none] <;> rw [State.core_modCore_self, State.core_modCore_self]
    · exact long
    · exact long.xops hx

/-- Every write in flight is due by the end of the drain time. -/
theorem due_le_drainTime {c : Core} : ∀ p ∈ c.pend, p.due ≤ c.pcyc + c.drainTime := by
  have grows : ∀ (l : List Pending) (a : Nat), a ≤ l.foldl (fun a p => max a (p.due - c.pcyc)) a ∧
      ∀ p ∈ l, p.due - c.pcyc ≤ l.foldl (fun a p => max a (p.due - c.pcyc)) a := by
    intro l
    induction l with
    | nil => exact fun a => ⟨Nat.le_refl a, nofun⟩
    | cons p r ih =>
      intro a
      obtain ⟨start, rest⟩ := ih (max a (p.due - c.pcyc))
      refine ⟨Nat.le_trans (Nat.le_max_left ..) start, fun q hq => ?_⟩
      rcases List.mem_cons.mp hq with rfl | hq
      · exact Nat.le_trans (Nat.le_max_right ..) start
      · exact rest q hq
  intro p hp
  have : p.due - c.pcyc ≤ c.drainTime := (grows c.pend 0).2 p hp
  omega

end

/-! ## Exception entries (R272) -/

section
variable {s : State} {k : Nat} {e : Entry}

/-- A debugger's step that ends with an entry stops the core; its registers stay. -/
def Core.stepEntered (c : Core) : Core := if c.dbgStep then { c with dbg := true, dbgStep := false, dbgReason := 3 } else c

theorem Core.stepEntered_eq (c : Core) :
    ∃ dbg step reason, c.stepEntered = { c with dbg := dbg, dbgStep := step, dbgReason := reason } := by
  unfold stepEntered
  split
  · exact ⟨_, _, _, rfl⟩
  · exact ⟨c.dbg, c.dbgStep, c.dbgReason, rfl⟩

/-- An entry that is taken: time passes, and then the core's registers are written. -/
theorem enter_core (taken : ¬(e.code = 12 ∧ (s.core k).fatalMce e.sub = true)) :
    ∃ t : State, t.core k = s.core k ∧
      (s.enter k e).core k = (((t.advance k (max (s.core k).drainTime entryTime)).core k).enter e).stepEntered := by
  unfold State.enter
  dsimp only
  rw [if_neg (by simpa using taken)]
  refine ⟨_, ?_, by rw [State.core_modCore_self, State.core_modCore_self]; rfl⟩
  split
  · rw [(CtlOnly.count ..).core, (CtlOnly.count ..).core, cycles_core]
  · rw [(CtlOnly.count ..).core, cycles_core]

/-- Before them nothing but landings has changed the core, and where nothing was in flight its clocks alone have. -/
theorem enter_lands (taken : ¬(e.code = 12 ∧ (s.core k).fatalMce e.sub = true)) (hx : (s.core k).xops = []) :
    ∃ n d, Core.Lands ((s.core k).after n) d ∧ ((s.core k).pend = [] ∧ (s.core k).div = [] → d = (s.core k).after n) ∧
      (s.enter k e).core k = (d.enter e).stepEntered := by
  obtain ⟨t, same, core⟩ := enter_core taken
  refine ⟨max (s.core k).drainTime entryTime, _, ?_, fun ⟨hp, hd⟩ => ?_, core⟩
  · rw [← same] at hx ⊢
    exact lands_advance hx
  · rw [← same] at hp hd hx ⊢
    exact core_advance_idle hp hd hx

/-- MODE and IE are cleared, and the other bits of CS.STATUS stay. -/
theorem getLsbD_clearMode (v : Word) (i : Nat) : (v &&& ~~~3).getLsbD i = (decide (2 ≤ i) && v.getLsbD i) := by
  have three : (3 : Word).getLsbD i = decide (i < 2) := by
    rcases Nat.lt_or_ge i 2 with low | high
    · interval_cases i <;> rfl
    · have gone : Nat.testBit 3 i = false := Nat.testBit_lt_two_pow (Nat.lt_of_lt_of_le (by decide) (Nat.pow_le_pow_right (by decide) high))
      simp [BitVec.getLsbD, gone, Nat.not_lt.mpr high]
  rw [BitVec.getLsbD_and, BitVec.getLsbD_not, three]
  by_cases inside : i < 36
  · by_cases low : i < 2
    · simp [low, Nat.not_le.mpr low]
    · simp [inside, low, Nat.not_lt.mp low]
  · simp [inside, BitVec.getLsbD_of_ge v i (by omega)]

/-- CS.ECAUSE as a sum of its fields (Table 11-2). -/
theorem ecauseOf_eq (nest rpt : Bool) (orig sub code : Nat) : ecauseOf nest rpt orig sub code =
    BitVec.ofNat 36 (code + 16 * (sub % 4096) + 65536 * orig + (if rpt then 2 ^ 32 else 0) + if nest then 2 ^ 33 else 0) := by
  unfold ecauseOf
  congr 1
  cases nest <;> cases rpt <;> simp <;> ring

/-- The core with the offending word of UD saved. -/
def Core.savesWord (c : Core) (word : Option Word) : Core := { c with faultword := word.getD c.faultword }

/-- An exception of a word but for a machine check: its word is saved, and the entry is taken with the address of the word. -/
theorem trap_enter {slot : Slot} {x : Exc} (hx : x.code ≠ 12) :
    ∃ u : State, u.core k = (s.core k).savesWord x.word ∧ s.trap k slot x = u.enter k
      { code := x.code, sub := x.sub, orig := 0, epc := slotEpc (s.core k).pc slot + (if x.code = 13 then 4 else 0), addr := x.addr } := by
  unfold State.trap
  dsimp only
  rw [if_pos hx]
  cases x.word with
  | none => exact ⟨s, rfl, rfl⟩
  | some w => exact ⟨_, State.core_modCore_self .., rfl⟩

theorem slotEpc_eq (pc : Nat) (slot : Slot) : slotEpc pc slot = pc + if slot = .second then 4 else 0 := by
  cases slot <;> rfl

end

/-- Settles O23: SYSCALL and BREAK trap by their bodies; `enter_lands` says what an entry leaves of the core, and `trap_enter` which entry an
exception takes. -/
theorem exceptionEntry : Obligations.ExceptionEntry := by
  unfold Obligations.ExceptionEntry
  refine ⟨fun s x w => ⟨fun ok s1 h => issue_of_issues h ok, fun ok s1 h => issue_of_issues h ok⟩, fun s k e => ?_, fun s k slot e => ?_⟩
  · intro c taken hx t
    obtain ⟨n, d, lands, idle, core⟩ := enter_lands taken hx
    obtain ⟨_, _, _, step⟩ := (d.enter e).stepEntered_eq
    have saved : c.pend = [] ∧ c.div = [] → t.savedrc = if c.rep.isSome ∨ c.resume then c.rc else c.savedrc := fun none => by
      rw [show t = _ from core, step, idle none]
      simp only [← Bool.or_eq_true]
      rfl
    obtain ⟨_, _, _, _, _, _, _, _, _, _, landed⟩ := lands hx
    rw [step, landed] at core
    rw [show t = _ from core] at saved ⊢
    refine ⟨rfl, rfl, rfl, getLsbD_clearMode c.status 0, getLsbD_clearMode c.status 1,
      fun i hi => (getLsbD_clearMode c.status i).trans (by simp [hi]), ?_, rfl, rfl, rfl, rfl, rfl, rfl, saved, rfl, rfl, rfl, rfl, rfl, rfl, rfl⟩
    show ecauseOf (!c.user && !c.ie) (c.rep.isSome || c.resume) e.orig e.sub e.code = _
    rw [ecauseOf_eq]
    simp only [Core.user, Core.ie, Bool.and_eq_true, Bool.or_eq_true, Bool.not_eq_true']
  · intro c hx xops t
    obtain ⟨u, same, entered⟩ := trap_enter (s := s) (k := k) (slot := slot) hx
    obtain ⟨n, d, lands, -, core⟩ := enter_lands (s := u) (k := k) (e := ⟨e.code, e.sub, 0, slotEpc c.pc slot + (if e.code = 13 then 4 else 0), e.addr⟩)
      (fun taken => hx taken.1) (by rw [same]; exact xops)
    obtain ⟨_, _, _, step⟩ := (d.enter _).stepEntered_eq
    rw [same] at lands
    obtain ⟨_, _, _, _, _, _, _, _, _, _, landed⟩ := lands xops
    rw [← entered, step, landed, slotEpc_eq] at core
    rw [show t = _ from core]
    exact ⟨rfl, rfl⟩

/-! ## The return from an exception (R176) -/

section
variable (c : Core) (covered : Bool)

theorem eret_status : (c.eret covered).status =
    (c.estatus &&& 0x87) ||| (if c.ft then 8 else 0) ||| if c.estatus.getLsbD 3 && !covered then 0x80 else 0 := by
  have ft : (c.estatus &&& statusFields).getLsbD 3 = c.estatus.getLsbD 3 := by simp [statusFields]
  have fields : (c.estatus &&& statusFields) &&& ~~~8 = c.estatus &&& 0x87 := by rw [BitVec.and_assoc]; rfl
  show ((c.estatus &&& statusFields) &&& ~~~8) ||| _ ||| (if (c.estatus &&& statusFields).getLsbD 3 && !covered then 0x80 else 0) = _
  rw [ft, fields]

theorem eret_status_low {i : Nat} (hi : i < 3) : (c.eret covered).status.getLsbD i = c.estatus.getLsbD i := by
  rw [eret_status]
  generalize (c.estatus.getLsbD 3 && !covered) = refused
  interval_cases i <;> cases c.ft <;> cases refused <;> simp

theorem eret_status_ft : (c.eret covered).status.getLsbD 3 = c.status.getLsbD 3 := by
  rw [eret_status, Core.ft]
  generalize (c.estatus.getLsbD 3 && !covered) = refused
  generalize c.status.getLsbD 3 = ft
  cases ft <;> cases refused <;> simp

theorem eret_status_csrej : (c.eret covered).status.getLsbD 7 = (c.estatus.getLsbD 7 || (c.estatus.getLsbD 3 && !covered)) := by
  rw [eret_status]
  generalize (c.estatus.getLsbD 3 && !covered) = refused
  cases c.ft <;> cases refused <;> simp

/-- The fields of FT that a return asks for, and that a contract covers. -/
theorem eret_ftChange : (c.eret covered).ftChange =
    if (c.estatus.getLsbD 3 && covered) = c.status.getLsbD 3 then none else some (c.estatus.getLsbD 3 && covered) := by
  have ft : (c.estatus &&& statusFields).getLsbD 3 = c.estatus.getLsbD 3 := by simp [statusFields]
  rw [← ft]
  rfl

end

section
variable {s s1 : State} {x : At} {w : Word} {k : Nat}

theorem eretDrain_due (hx : (s.core k).xops = []) : ∀ p ∈ ((s.eretDrain k).core k).pend, p.due ≤ ((s.eretDrain k).core k).pcyc + 1 := by
  have same := cycles_core (s := s) (k := k) (n := (s.core k).drainTime - 1) 0x05
  obtain ⟨_, _, _, _, _, _, pend, _, _, sub, core⟩ :=
    lands_advance (s := s.cycles k 0x05 ((s.core k).drainTime - 1)) (k := k) (n := (s.core k).drainTime - 1) (by rwa [same]) (by rw [same]; exact hx)
  intro p hp
  rw [State.eretDrain, core] at hp ⊢
  have due := due_le_drainTime p ((congrArg Core.pend same) ▸ sub p hp)
  rw [same]
  show p.due ≤ (s.core k).pcyc + ((s.core k).drainTime - 1) + 1
  omega

end

/-- Settles O24: the body of ERET by cases of the mode, `eretDrain_due`, and a lemma for each field of CS.STATUS. -/
theorem exceptionReturn : Obligations.ExceptionReturn := by
  unfold Obligations.ExceptionReturn
  intro s s1 x w h ok k c t
  have eret : exec (.eret x w) s = _ := exec_issued (i := .eret x w) h rfl ok
  refine ⟨fun user => ?_, fun super => ?_, eretDrain_due, rfl, fun i hi => eret_status_low c _ hi, eret_status_ft c _, eret_status_csrej c _,
    rfl, rfl, rfl, rfl, eret_ftChange c _⟩
  · rw [eret, if_pos user]
    rfl
  · rw [eret, if_neg (Bool.eq_false_iff.mp super)]
    rfl

end Sys2Proof.Machine
end

section
/-!
PROOF. LWAIT, WAIT and the fences (R159, R160, R177, R277; O25).
-/
namespace Sys2Proof.Machine

section
variable {s s1 : State} {x : At} {w : Word} {k : Nat}

/-! ## LWAIT -/

/-- The state in which every long operation has landed. -/
def State.allLanded (s : State) (k : Nat) : State :=
  ((s.cycles k 0x05 (s.core k).longTime).advance k (s.core k).longTime).landRest k

section
variable (h : Issues s x w 0 s1) (ok : isSys w 6 = true)
include h ok

theorem exec_lwait_clear (none_ : ((s1.allLanded x.core).core x.core).faults = []) :
    let n := (s1.core x.core).longTime
    exec (.lwait x w) s = .next ((((s1.cycles x.core 0x05 (n - 1)).advance x.core (n - 1)).landRest x.core).retire
      x.core x.slot w [] .fall) := by
  unfold State.allLanded at none_
  rw [exec_issued (i := .lwait x w) h rfl ok]
  dsimp only
  rw [none_]
  rfl

theorem exec_lwait_fault {f : LongFault} {rest : List LongFault} (some_ : ((s1.allLanded x.core).core x.core).faults = f :: rest) :
    exec (.lwait x w) s = .next (((s1.allLanded x.core).modCore x.core fun c => { c with faults := rest }).trap x.core x.slot
      ⟨f.code, f.sub, f.addr, none⟩) := by
  unfold State.allLanded at some_ ⊢
  rw [exec_issued (i := .lwait x w) h rfl ok]
  dsimp only
  rw [some_]
  rfl

end

/-! ## WAIT -/

theorem exec_wait_user (h : Issues s x w 0 s1) (ok : isSys w 12 = true) (user : (s1.core x.core).user = true) :
    exec (.wait x w) s = .next (s1.trap x.core x.slot ⟨2, 1, 0, none⟩) := by
  rw [exec_issued (i := .wait x w) h rfl ok, if_pos user]
  rfl

theorem exec_wait (h : Issues s x w 0 s1) (ok : isSys w 12 = true) (super : (s1.core x.core).user = false) :
    exec (.wait x w) s = .next (s1.modCore x.core fun c => { c with run := .waiting }) := by
  rw [exec_issued (i := .wait x w) h rfl ok, if_neg (Bool.eq_false_iff.mp super)]
  rfl

/-- A core that replays nothing is woken by a pending source or a recorded fault. -/
theorem wakes_live (hr : s.replaying k = false) : s.wakes k = (s.pendingSources k != 0 || !(s.core k).faults.isEmpty) := by
  simp [State.wakes, hr]

theorem wake_asleep (hr : s.replaying k = false) (none_ : s.pendingSources k = 0) (faults : (s.core k).faults = []) : s.wake k = s := by
  unfold State.wake
  rw [landRecorded_live hr]
  exact if_neg fun ⟨_, _, woken⟩ => by simp [wakes_live hr, none_, faults] at woken

/-- A core that wakes goes on at the next word. -/
theorem wake_core (hw : (s.core k).run = .waiting) (hd : (s.core k).dbg = false) (hr : s.replaying k = false) (hj : smFind? s.mftc k = none)
    (some_ : s.pendingSources k ≠ 0) :
    (s.wake k).core k = { s.core k with run := .running, pc := ((s.core k).pc + 4) % 2 ^ 36 } := by
  have woken : s.wakes k = true := by rw [wakes_live hr, bne_iff_ne.mpr some_, Bool.true_or]
  unfold State.wake
  rw [landRecorded_live hr]
  dsimp only
  rw [if_pos ⟨hw, hd, woken⟩, nondet_live (by exact hj) (by exact hr), ite_self, (CtlOnly.count ..).core, State.mftRetire,
    show smFind? (s.modCore k _).mftc k = none from hj, State.core_modCore_self]

/-! ## Fences -/

/-- The core after a fence: every entry is asked to drain, and what follows is held. -/
def Core.fenced (c : Core) : Core := { c with mb := mbAsk (fun _ => true) c.mb, holdMb := true }

theorem exec_fence {n : Nat} {i : Instr} (h : Issues s x w 0 s1) (ok : isSys w 7 = true) (arg : argOf w % 4 = n)
    (he : exec i s = s.issue x w (isSys w 7 && argOf w % 4 == n) (fenceBody x.core)) :
    exec i s = .next ((s1.modCore x.core Core.fenced).retire x.core x.slot w [] .fall) := by
  rw [exec_issued h he (by simp [ok, arg])]
  rfl

end

/-- Settles O25: LWAIT by whether a fault is left once all has landed, WAIT by the two modes and
`wake_core`, the three fences by the one body `fenceBody` they share. -/
theorem waitingAndFences : Obligations.WaitingAndFences := by
  unfold Obligations.WaitingAndFences
  refine ⟨fun s s1 x w => ⟨fun h ok => ⟨exec_lwait_clear h ok, fun f rest => exec_lwait_fault h ok⟩,
    fun h ok => ⟨fun super => ⟨_, exec_wait h ok super, State.core_modCore_self ..⟩, exec_wait_user h ok⟩,
    fun hw hd hr hj => ⟨fun some_ => ?_, wake_asleep hr⟩⟩, fun s s1 x w h ok => ?_⟩
  · rw [wake_core hw hd hr hj some_]
    exact ⟨rfl, rfl⟩
  · intro f i hi arg
    simp only [List.mem_cons, List.not_mem_nil, or_false] at hi
    rcases hi with rfl | rfl | rfl
    · exact exec_fence h ok arg rfl
    · exact exec_fence h ok arg rfl
    · exact exec_fence h ok arg rfl

end Sys2Proof.Machine
end

section
/-!
PROOF. TLBI, TSYNC and IFENCE, and their broadcasts (R171, R172, R174, R194, R268, R270; O26).
-/
namespace Sys2Proof.Machine

section
variable {s s1 : State} {x : At} {w : Word} {k form n : Nat} {i : Instr}

/-! ## TLBI -/

/-- The operand of a TLBI: a page number, or an ASID. -/
def tlbiArg (form v : Nat) : Nat := if form = 0 then v else v % 2 ^ 12

/-- A TLBI of a core: in its own buffers at once, and with bit 2 of its argument to the other agents. -/
def State.tlbiFrom (s : State) (k form : Nat) (w : Word) (v : Nat) : State :=
  let t := s.modCore k (·.tlbi form (tlbiArg form v))
  if fld w 2 2 = 1 then t.broadcast k true (.tlbi form (tlbiArg form v)) else t

theorem tlbiBody_user (user : (s.core k).user = true) : tlbiBody k form w s = .trap s ⟨2, 1, 0, none⟩ := if_pos user

theorem tlbiBody_done (super : (s.core k).user = false) (empty : (s.core k).mb = []) :
    tlbiBody k form w s = .done (s.tlbiFrom k form w ((s.core k).srcA w).toNat) [] .fall := by
  have arg : fld ((s.core k).srcA w) 11 0 = ((s.core k).srcA w).toNat % 2 ^ 12 := fld_low ..
  rw [tlbiBody, if_neg (Bool.eq_false_iff.mp super), afterDrain, if_pos (by simp [empty])]
  dsimp only
  rw [arg]
  rfl

section
variable (h : Issues s x w 0 s1) (ok : isSys w 9 = true) (arg : argOf w % 4 = n)
  (he : exec i s = s.issue x w (isSys w 9 && argOf w % 4 == n) (tlbiBody x.core n w))
include h ok arg he

theorem exec_tlbi_user (user : (s1.core x.core).user = true) : exec i s = .next (s1.trap x.core x.slot ⟨2, 1, 0, none⟩) := by
  rw [exec_issued h he (by simp [ok, arg]), tlbiBody_user user]
  rfl

theorem exec_tlbi (super : (s1.core x.core).user = false) (empty : (s1.core x.core).mb = []) :
    exec i s = .next ((s1.tlbiFrom x.core n w ((s1.core x.core).srcA w).toNat).retire x.core x.slot w [] .fall) := by
  rw [exec_issued h he (by simp [ok, arg]), tlbiBody_done super empty]
  rfl

end

/-- No entry whose page holds the address remains. -/
theorem tlbi_address {v : Nat} {l : List TlbEntry} {e : TlbEntry} (he : e ∈ tlbi 0 v l) :
    ¬(e.page ≤ v * 4096 ∧ v * 4096 < e.page + 2 ^ e.size) := by
  have kept := (List.mem_filter.mp he).2
  simpa [imp_iff_not_or] using kept

/-- No entry of the ASID that is not global remains. -/
theorem tlbi_asid {v : Nat} {l : List TlbEntry} {e : TlbEntry} (he : e ∈ tlbi 1 v l) : ¬(e.asid = v ∧ ebit e.leaf 6 = false) := by
  have kept := (List.mem_filter.mp he).2
  simpa [imp_iff_not_or] using kept

/-! ## TSYNC and IFENCE -/

/-- n bubbles pass. -/
def State.bubbles (s : State) (k n : Nat) : State := (s.cycles k 0x05 n).advance k n

/-- The physical ranges of an IFENCE. -/
def State.ifenceRanges (s : State) (k : Nat) (w : Word) : List (Nat × Nat) :=
  s.mappedRanges (s.coreCtx k) (((s.core k).srcA w).toNat / 4096 + 2) (((s.core k).pairD w).extractLsb' 0 48).toNat ((s.core k).srcA w).toNat

/-- An IFENCE of a core: in its own buffers at once, and with bit 0 of its argument to the other cores. -/
def State.ifenceFrom (s : State) (k : Nat) (w : Word) (ranges : List (Nat × Nat)) : State :=
  let t := s.modCore k (·.ifence ranges)
  if fld w 0 0 = 1 then t.broadcast k false (.ifence ranges) else t

section
variable (h : Issues s x w 0 s1)
include h

theorem exec_tsync_user (ok : isSys w 10 = true) (user : (s1.core x.core).user = true) :
    exec (.tsync x w) s = .next (s1.trap x.core x.slot ⟨2, 1, 0, none⟩) := by
  rw [exec_issued (i := .tsync x w) h rfl ok, if_pos user]
  rfl

theorem exec_tsync (ok : isSys w 10 = true) (super : (s1.core x.core).user = false) (reached : s1.tlbiOpen x.core = false) :
    exec (.tsync x w) s = .next ((s1.bubbles x.core tsyncTime).retire x.core x.slot w [] .fall) := by
  rw [exec_issued (i := .tsync x w) h rfl ok, if_neg (Bool.eq_false_iff.mp super), if_neg (Bool.eq_false_iff.mp reached)]
  rfl

theorem exec_ifence (ok : isSys w 8 = true) (empty : (s1.core x.core).mb = []) :
    exec (.ifence x w) s = .next (((s1.ifenceFrom x.core w (s1.ifenceRanges x.core w)).bubbles x.core
      (ifenceTime ((s1.core x.core).srcA w).toNat - 1)).retire x.core x.slot w [] .fall) := by
  rw [exec_issued (i := .ifence x w) h rfl ok]
  dsimp only
  rw [afterDrain, if_pos (by simp [empty])]
  rfl

end
end

/-! ## Arrivals -/

section
variable {s : State} {src k : Nat} {b : Bcast}

/-- The broadcast that arrives is the only one of its source for its agent. -/
theorem find?_only {l : List Bcast} {p : Bcast → Bool} (hb : b ∈ l) (hp : p b = true) (only : ∀ d ∈ l, p d = true → d = b) :
    l.find? p = some b := by
  cases found : l.find? p with
  | none => exact absurd hp (by simpa using List.find?_eq_none.mp found b hb)
  | some d => rw [only d (List.mem_of_find?_eq_some found) (List.find?_some found)]

/-- The buffers of an Understorey after a TLBI. -/
def tlbiUtlbs (form arg g : Nat) (m : SMap (List TlbEntry)) : SMap (List TlbEntry) :=
  (List.range 4).foldl (fun m i => smSet m (g * 4 + i) (tlbi form arg (smGet [] m (g * 4 + i)))) m

/-- The state after a TLBI has reached its agent: a core that is frozen for an access it has translated is not reached. -/
def State.tlbiReaches (s : State) (b : Bcast) (form arg : Nat) : State :=
  let t := s.dropBcast b
  match b.dst with
  | .core k => if (s.core k).translated then s else t.modCore k (·.tlbi form arg)
  | .understorey g => t.setMem { t.mem with utlb := tlbiUtlbs form arg g t.mem.utlb }
  | .engine e => t.setMem { t.mem with dtc := smSet t.mem.dtc e (tlbi form arg (smGet [] t.mem.dtc e)) }

theorem tlbiReaches_core {form arg : Nat} (dst : b.dst = .core k) :
    s.tlbiReaches b form arg = if (s.core k).translated then s else (s.dropBcast b).modCore k (·.tlbi form arg) := by
  rw [State.tlbiReaches, dst]

theorem tlbiReaches_understorey {form arg g : Nat} (dst : b.dst = .understorey g) : s.tlbiReaches b form arg =
    (s.dropBcast b).setMem { (s.dropBcast b).mem with utlb := tlbiUtlbs form arg g s.mem.utlb } := by
  rw [State.tlbiReaches, dst]
  rfl

theorem tlbiReaches_engine {form arg e : Nat} (dst : b.dst = .engine e) : s.tlbiReaches b form arg =
    (s.dropBcast b).setMem { (s.dropBcast b).mem with dtc := smSet s.mem.dtc e (tlbi form arg (smGet [] s.mem.dtc e)) } := by
  rw [State.tlbiReaches, dst]
  rfl

section
variable (hb : b ∈ s.mem.bcasts) (hs : b.src = src) (only : ∀ d ∈ s.mem.bcasts, d.src = src → d.dst = b.dst → d = b)
include hb hs only

/-- An IFENCE does its work at the core it reaches. -/
theorem ifenceArrival {r : List (Nat × Nat)} (kind : b.kind = .ifence r) (dst : b.dst = .core k) (open_ : (s.core k).pair = none) :
    exec (.ifenceBroadcastArrival src k) s = .next ((s.modCore k (·.ifence r)).dropBcast b) := by
  show execIfenceBroadcastArrival src k s = _
  rw [execIfenceBroadcastArrival, find?_only hb (by simp [hs, dst, kind])]
  · simp [open_, kind]
  · intro d hd hp
    simp only [Bool.and_eq_true, beq_iff_eq] at hp
    exact only d hd hp.1.1 (by rw [hp.1.2, dst])

/-- A TLBI does its work at the agent that it reaches. -/
theorem tlbiArrival {form arg : Nat} (kind : b.kind = .tlbi form arg) :
    exec (.tlbiBroadcastArrival src b.dst) s = .next (s.tlbiReaches b form arg) := by
  show execTlbiBroadcastArrival src b.dst s = _
  rw [execTlbiBroadcastArrival, find?_only hb (by simp [hs, kind])]
  · simp only [kind]
    unfold State.tlbiReaches
    cases b.dst with
    | core k => exact (apply_ite Host.Outcome.next ..).symm
    | understorey g => rfl
    | engine e => rfl
  · intro d hd hp
    simp only [Bool.and_eq_true, beq_iff_eq] at hp
    exact only d hd hp.1.1 hp.1.2

end
end

/-- Each of an Understorey's four buffers loses its entries once. -/
theorem smGet_tlbiUtlbs (form arg g : Nat) (m : SMap (List TlbEntry)) {i : Nat} (hi : i < 4) :
    smGet [] (tlbiUtlbs form arg g m) (g * 4 + i) = tlbi form arg (smGet [] m (g * 4 + i)) := by
  simp only [tlbiUtlbs, show List.range 4 = [0, 1, 2, 3] from rfl, List.foldl_cons, List.foldl_nil, smGet_smSet]
  interval_cases i <;> simp

/-- Settles O26: the three TLBIs by `exec_tlbi`, what they leave by `tlbi_address` and `tlbi_asid`, TSYNC and IFENCE by `exec_tsync` and
`exec_ifence`, and the arrivals by `ifenceArrival` and `tlbiArrival`. -/
theorem broadcasts : Obligations.Broadcasts := by
  unfold Obligations.Broadcasts
  refine ⟨fun s s1 x w h ok => ⟨fun i hi arg => ?_, fun e => tlbi_address, fun e => tlbi_asid, rfl⟩,
    fun s s1 x w h => ⟨fun ⟨ok, user⟩ => exec_tsync_user h ok user, fun ⟨ok, super, reached⟩ => exec_tsync h ok super reached,
      fun ⟨ok, empty⟩ => exec_ifence h ok empty⟩, fun s src b hb hs only => ⟨fun r k kind dst pair => ?_, fun form arg kind => ?_⟩⟩
  · simp only [List.mem_cons, List.not_mem_nil, or_false] at hi
    rcases hi with rfl | rfl | rfl
    · exact ⟨exec_tlbi_user h ok arg rfl, fun ⟨super, empty⟩ => exec_tlbi h ok arg rfl super empty⟩
    · exact ⟨exec_tlbi_user h ok arg rfl, fun ⟨super, empty⟩ => exec_tlbi h ok arg rfl super empty⟩
    · exact ⟨exec_tlbi_user h ok arg rfl, fun ⟨super, empty⟩ => exec_tlbi h ok arg rfl super empty⟩
  · have core : ((s.modCore k (·.ifence r)).dropBcast b).core k = (s.core k).ifence r := s.core_modCore_self k (·.ifence r)
    exact ⟨_, ifenceArrival hb hs only kind dst pair, rfl, by rw [core]; rfl, by rw [core]; rfl⟩
  · have arrives := tlbiArrival hb hs only kind
    refine ⟨fun k dst busy => ?_, fun k dst free => ⟨_, arrives, ?_⟩, fun g dst => ⟨_, arrives, ?_⟩, fun e dst => ⟨_, arrives, ?_⟩⟩
    · rw [arrives, tlbiReaches_core dst, if_pos busy]
    · have core : ((s.dropBcast b).modCore k (·.tlbi form arg)).core k = (s.core k).tlbi form arg := State.core_modCore_self ..
      rw [tlbiReaches_core dst, if_neg (Bool.eq_false_iff.mp free), core]
      exact ⟨rfl, rfl, rfl, rfl⟩
    · rw [tlbiReaches_understorey dst]
      exact ⟨rfl, fun i hi => smGet_tlbiUtlbs form arg g s.mem.utlb hi⟩
    · rw [tlbiReaches_engine dst]
      exact ⟨rfl, (smGet_smSet ..).trans (if_pos rfl)⟩

end Sys2Proof.Machine
end

section
/-!
PROOF. Memory instructions: what an access comes to before it is performed (R146, R269, R272), and loads (R148, R149; O11).
-/
namespace Sys2Proof.Machine

section
variable {s s1 t : State} {x : At} {w : Word} {a : MemAcc} {k n : Nat} {i : Instr}

/-! ## The body of a memory instruction -/

/-- The fifteen memory instructions that make an access share one body. -/
theorem exec_memOp (s : State) (x : At) (w : Word) :
    ∀ i ∈ [(16, Instr.ldb x w), (17, .ldbs x w), (18, .ldh x w), (19, .ldhs x w), (20, .ldw x w), (21, .ldd x w), (22, .ldsg x w),
      (24, .stb x w), (25, .sth x w), (26, .stw x w), (27, .std x w), (28, .stsg x w), (29, .lr x w), (30, .sc x w),
      (31, .tas x w)], exec i.2 s = memOp i.1 x w s := by
  simp only [List.forall_mem_cons]
  exact ⟨rfl, rfl, rfl, rfl, rfl, rfl, rfl, rfl, rfl, rfl, rfl, rfl, rfl, rfl, rfl, List.forall_mem_nil _⟩

section
variable (h : Issues s x w 0 s1) (he : exec i s = memOp n x w s) (op : opcodeOf w = n)
include h he op

theorem exec_mem : exec i s = .next (State.finish x.core x.slot w (memBody x.core w s1)) := exec_issued h he (beq_iff_eq.mpr op)

/-- An access that fails a check takes its exception. -/
theorem exec_mem_fault {e : Exc} (hr : s1.resolve x.core w = (t, .fault e)) : exec i s = .next (t.trap x.core x.slot e) := by
  rw [exec_mem h he op, memBody, hr]
  rfl

/-- An access that no translation buffer holds freezes for its walk. -/
theorem exec_mem_walk {la : Nat} (hr : s1.resolve x.core w = (t, .walk la)) :
    exec i s = .next (t.modCore x.core fun c => { c with
      freeze := some { kind := .walk la c.ccyc, slot := x.slot, word := w, acc := none }, opW := some (c.opW.getD c.w) }) := by
  rw [exec_mem h he op, memBody, hr]
  rfl

end

/-! ## The access -/

/-- An access that orders no stores is attempted at once. -/
theorem memBody_attempt (hr : s.resolve k w = (t, .ok a)) (plain : (kindOf (opcodeOf w)).atomic = false) (orders : t.waitsEmpty w a = false) :
    memBody k w s = t.attempt k w a := by
  simp [memBody, hr, plain, orders]

/-- An atomic is attempted once the merging buffer is empty. -/
theorem memBody_atomic (hr : s.resolve k w = (t, .ok a)) (atomic : (kindOf (opcodeOf w)).atomic = true) (empty : (t.core k).mb = []) :
    memBody k w s = (t.modCore k Core.drainAll).attempt k w a := by
  have still : (t.core k).drainAll.mb = [] := by
    rw [Core.drainAll, empty]
    rfl
  simp [memBody, hr, atomic, still]

theorem attempt_ready (ready : s.need k (kindOf (opcodeOf w)) a (a.parts (sizeOf' (opcodeOf w))) = .ready) :
    s.attempt k w a = s.perform k w a := by
  rw [State.attempt, ready]

theorem baseUpd_eq (w : Word) (newb : Option Nat) : baseUpd w newb = newBase w newb := by
  cases newb <;> rfl

theorem sizeOf'_eq {op : Nat} (h : op ≠ 23) : sizeOf' op = scaleOf op := if_neg h

/-! ## Loads -/

theorem kindOf_load {op : Nat} (h : op < 24) : kindOf op = .load := by
  rw [kindOf, if_neg (by omega), if_neg (by omega), if_neg (by omega), if_neg (by omega)]

/-- A load of memory that nothing has poisoned. -/
theorem loadDo_memory (memory : s.isControl a.pa = false) (clean : s.poisonAt k a (sizeOf' (opcodeOf w)) = none) :
    s.loadDo k w a = .done (s.markParts k a (sizeOf' (opcodeOf w)) false)
      (loadEffs w (s.readAcc k a (sizeOf' (opcodeOf w))) ++ newBase w a.newb) .fall := by
  unfold State.loadDo
  dsimp only
  split
  next off region => simp [State.isControl, region] at memory
  next => rw [clean, baseUpd_eq]

/-- A load that has nothing to wait for writes what its effects say of the value read. -/
theorem exec_load (h : Issues s x w 0 s1) (he : exec i s = memOp n x w s) (op : opcodeOf w = n) (load : n ≤ 21)
    (hr : s1.resolve x.core w = (t, .ok a)) (device : a.device = false) (memory : t.isControl a.pa = false)
    (ready : t.need x.core .load a (a.parts (scaleOf n)) = .ready) (clean : t.poisonAt x.core a (scaleOf n) = none) :
    exec i s = .next ((t.markParts x.core a (scaleOf n) false).retire x.core x.slot w
      (loadEffs w (t.readAcc x.core a (scaleOf n)) ++ newBase w a.newb) .fall) := by
  subst op
  have kind : kindOf (opcodeOf w) = .load := kindOf_load (by omega)
  have size : sizeOf' (opcodeOf w) = scaleOf (opcodeOf w) := sizeOf'_eq (by omega)
  have orders : t.waitsEmpty w a = false := by simp [State.waitsEmpty, device, memory, kind]
  have performed : t.perform x.core w a = t.loadDo x.core w a := by
    rw [State.perform, kind]
    exact if_neg (by omega)
  rw [exec_mem h he rfl, memBody_attempt hr (by rw [kind]; rfl) orders, attempt_ready (by rw [kind, size]; exact ready), performed,
    loadDo_memory memory (by rw [size]; exact clean), size]
  rfl

/-! ## The value of a load in its registers (Table 6-2) -/

section
variable (v : Nat)

theorem signExtend_ofNat (m : Nat) : (BitVec.ofNat m v).signExtend 36 = BitVec.ofInt 36 ((v : Int).bmod (2 ^ m)) := by
  rw [BitVec.signExtend, BitVec.toInt_ofNat']

theorem loadEffs_ldb (op : opcodeOf w = 16) : loadEffs w v = toW w (v % 2 ^ 9 : Nat) 3 := by
  simp only [loadEffs, op, toW, BitVec.ofInt_natCast]
  rfl

theorem loadEffs_ldbs (op : opcodeOf w = 17) : loadEffs w v = toW w ((v : Int).bmod (2 ^ 9)) 3 := by
  simp only [loadEffs, op, signExtend_ofNat]
  rfl

theorem loadEffs_ldh (op : opcodeOf w = 18) : loadEffs w v = toW w (v % 2 ^ 18 : Nat) 3 := by
  simp only [loadEffs, op, toW, BitVec.ofInt_natCast]
  rfl

theorem loadEffs_ldhs (op : opcodeOf w = 19) : loadEffs w v = toW w ((v : Int).bmod (2 ^ 18)) 3 := by
  simp only [loadEffs, op, signExtend_ofNat]
  rfl

theorem loadEffs_ldw (op : opcodeOf w = 20) : loadEffs w v = toW w v 3 := by
  simp only [loadEffs, op, toW, BitVec.ofInt_natCast]
  rfl

theorem loadEffs_ldd (op : opcodeOf w = 21) : loadEffs w v = toP w v 3 := by
  simp only [loadEffs, op, toP, BitVec.ofInt_natCast]
  rfl

end
end

/-- Settles O11: the checks by `exec_mem_fault` and `exec_mem_walk`, and each load by `exec_load` with what it writes. -/
theorem loads : Obligations.Loads := by
  unfold Obligations.Loads
  refine ⟨fun s s1 s2 x w h i hi op => ?_, fun s s1 s2 x w a h hr range device memory ready clean => ?_⟩
  · have he := exec_memOp s x w i hi
    exact ⟨fun e => exec_mem_fault h he op, fun la => exec_mem_walk h he op⟩
  · have ends {i : Instr} (he : exec i s = memOp (opcodeOf w) x w s) :=
      exec_load h he rfl range.2 hr device memory ready clean
    refine ⟨fun op => ?_, fun op => ?_, fun op => ?_, fun op => ?_, fun op => ?_, fun op => ?_⟩
    · have e := ends (i := .ldb x w) (by rw [op]; rfl)
      rwa [loadEffs_ldb _ op] at e
    · have e := ends (i := .ldbs x w) (by rw [op]; rfl)
      rwa [loadEffs_ldbs _ op] at e
    · have e := ends (i := .ldh x w) (by rw [op]; rfl)
      rwa [loadEffs_ldh _ op] at e
    · have e := ends (i := .ldhs x w) (by rw [op]; rfl)
      rwa [loadEffs_ldhs _ op] at e
    · have e := ends (i := .ldw x w) (by rw [op]; rfl)
      rwa [loadEffs_ldw _ op] at e
    · have e := ends (i := .ldd x w) (by rw [op]; rfl)
      rwa [loadEffs_ldd _ op] at e

end Sys2Proof.Machine
end

section
/-!
PROOF. The merging buffer as the core reads it: draining and asking change no byte, and a store it takes is what the core then reads
(R88, R292, R295).
-/
namespace Sys2Proof.Machine

/-! ## Numbers as bytes (R66) -/

theorem byte_of_bytesVal (f : Nat → Byte) (pa : Nat) {n i : Nat} (hi : i < n) :
    BitVec.ofNat 9 (bytesVal f pa n / 2 ^ (9 * i)) = f (pa + i) := by
  induction n generalizing pa i with
  | zero => omega
  | succ n ih =>
    have low : (f pa).toNat < 512 := (f pa).isLt
    cases i with
    | zero =>
      apply BitVec.eq_of_toNat_eq
      simp only [bytesVal, BitVec.toNat_ofNat, Nat.mul_zero, Nat.pow_zero, Nat.div_one, Nat.add_zero]
      omega
    | succ i =>
      have above : bytesVal f pa (n + 1) / 512 = bytesVal f (pa + 1) n := by
        simp only [bytesVal]
        omega
      rw [show 2 ^ (9 * (i + 1)) = 512 * 2 ^ (9 * i) by rw [Nat.mul_succ, pow_add, Nat.mul_comm]; rfl, ← Nat.div_div_eq_div_mul, above,
        ih (pa + 1) (by omega), Nat.add_right_comm, Nat.add_assoc]

/-- The bytes of a number are those of its low digits. -/
theorem valBytes_mod (v n : Nat) : valBytes (v % 512 ^ n) n = valBytes v n := by
  induction n generalizing v with
  | zero => rfl
  | succ n ih =>
    have low : BitVec.ofNat 9 (v % 512 ^ (n + 1)) = BitVec.ofNat 9 v := by
      apply BitVec.eq_of_toNat_eq
      rw [BitVec.toNat_ofNat, BitVec.toNat_ofNat, Nat.mod_mod_of_dvd _ ⟨512 ^ n, by rw [pow_succ']⟩]
    have high : v % 512 ^ (n + 1) / 512 = v / 512 % 512 ^ n := by
      rw [pow_succ', Nat.mod_mul_right_div_self]
    rw [valBytes, valBytes, low, high, ih]

/-! ## Reading an entry and the buffer -/

/-- The byte that an entry holds at an address. -/
def MbEntry.byteAt (e : MbEntry) (pa : Nat) : Option Byte := if e.line = pa / 64 then smFind? e.bytes (pa % 64) else none

/-- The youngest byte that a buffer holds at an address. -/
def mbRead (mb : List MbEntry) (pa : Nat) : Option Byte := mb.reverse.findSome? (·.byteAt pa)

theorem mbByte_eq (c : Core) (pa : Nat) : c.mbByte pa = mbRead c.mb pa := rfl

theorem mbRead_concat (mb : List MbEntry) (e : MbEntry) (pa : Nat) : mbRead (mb ++ [e]) pa = (e.byteAt pa).or (mbRead mb pa) := by
  rw [mbRead, List.reverse_append, List.findSome?_append]
  simp [mbRead]

theorem mbRead_cons (mb : List MbEntry) (e : MbEntry) (pa : Nat) : mbRead (e :: mb) pa = (mbRead mb pa).or (e.byteAt pa) := by
  rw [mbRead, List.reverse_cons, List.findSome?_append]
  simp [mbRead]

/-- A change of the entries that keeps each one's byte at an address keeps what is read there. -/
theorem mbRead_map {f : MbEntry → MbEntry} {mb : List MbEntry} {pa : Nat} (h : ∀ e ∈ mb, (f e).byteAt pa = e.byteAt pa) :
    mbRead (mb.map f) pa = mbRead mb pa := by
  induction mb with
  | nil => rfl
  | cons e r ih =>
    rw [List.map_cons, mbRead_cons, mbRead_cons, h e List.mem_cons_self, ih fun e he => h e (List.mem_cons_of_mem _ he)]

theorem mbRead_mbStart (older : List Nat) (mb : List MbEntry) (pa : Nat) : mbRead (mbStart older mb) pa = mbRead mb pa := by
  induction mb generalizing older with
  | nil => rfl
  | cons e r ih =>
    rw [mbStart, mbRead_cons, mbRead_cons, ih]
    rfl

theorem mbRead_mbAsk (p : MbEntry → Bool) (mb : List MbEntry) (pa : Nat) : mbRead (mbAsk p mb) pa = mbRead mb pa := by
  rw [mbAsk, mbRead_mbStart]
  exact mbRead_map fun e _ => by split <;> rfl

theorem mbRead_mbPress (mb : List MbEntry) (pa : Nat) : mbRead (mbPress mb) pa = mbRead mb pa := by
  unfold mbPress
  split
  · rfl
  · exact mbRead_mbAsk _ mb pa

/-! ## A store into an entry -/

section
variable {pa q : Nat} {bs : List Byte} {e : MbEntry}

theorem lineBytes_concat (pa : Nat) (bs : List Byte) (b : Byte) : lineBytes pa (bs ++ [b]) = lineBytes pa bs ++ [(pa % 64 + bs.length, b)] := by
  simp [lineBytes, List.range_succ, List.zip_append]

/-- A line's bytes after those of a write have been set. -/
theorem smFind?_lineBytes (pa : Nat) (bs : List Byte) (m : SMap Byte) (i : Nat) :
    smFind? ((lineBytes pa bs).foldl (fun m x => smSet m x.1 x.2) m) i =
      if pa % 64 ≤ i ∧ i < pa % 64 + bs.length then bs[i - pa % 64]? else smFind? m i := by
  induction bs using List.reverseRecOn with
  | nil => simp [lineBytes]
  | append_singleton bs b ih =>
    rw [lineBytes_concat, List.foldl_append, List.foldl_cons, List.foldl_nil, smFind?_smSet, ih, List.length_append, List.length_singleton]
    by_cases last : pa % 64 + bs.length = i
    · subst last
      simp
    · by_cases inside : pa % 64 ≤ i ∧ i < pa % 64 + bs.length
      · rw [if_neg last, if_pos inside, if_pos (by omega), List.getElem?_append_left (by omega)]
      · rw [if_neg last, if_neg inside, if_neg (by omega)]

/-- An entry of the line with the bytes of a store set. -/
def MbEntry.takes (e : MbEntry) (pa now : Nat) (bs : List Byte) : MbEntry :=
  let b := (lineBytes pa bs).foldl (fun m x => smSet m x.1 x.2) e.bytes
  { e with bytes := b, last := now, asked := e.asked || b.length == 64 }

variable {now : Nat} (fits : pa % 64 + bs.length ≤ 64)
include fits

theorem MbEntry.byteAt_takes (he : e.line = lineOf pa) :
    (e.takes pa now bs).byteAt q = if pa ≤ q ∧ q < pa + bs.length then bs[q - pa]? else e.byteAt q := by
  unfold lineOf at he
  have set : (e.takes pa now bs).byteAt q =
      if e.line = q / 64 then (if pa % 64 ≤ q % 64 ∧ q % 64 < pa % 64 + bs.length then bs[q % 64 - pa % 64]? else smFind? e.bytes (q % 64))
      else none := by
    rw [← smFind?_lineBytes]
    rfl
  rw [set]
  by_cases inside : pa ≤ q ∧ q < pa + bs.length
  · rw [if_pos (by omega), if_pos (by omega), if_pos inside, show q % 64 - pa % 64 = q - pa by omega]
  · rw [if_neg inside, MbEntry.byteAt]
    split
    next same => rw [if_neg (by omega)]
    next => rfl

end

/-! ## A store into the buffer (R292) -/

section
variable {pa q chunk now : Nat} {bs : List Byte} {mb mb' : List MbEntry}

/-- A store merges into an entry of its line and its chunk that does not drain. -/
def MbEntry.merges (e : MbEntry) (pa chunk : Nat) : Bool := e.line == lineOf pa && !e.draining && e.chunk == chunk

/-- The entry that a store finds or starts. -/
def MbEntry.fresh (pa chunk now : Nat) : MbEntry :=
  { line := lineOf pa, bytes := [], asked := false, draining := false, last := now, chunk := chunk }

theorem mbPut_merges (h : mb.any (·.merges pa chunk) = true) :
    mbPut mb pa bs chunk now = some (mbStart [] (mb.map fun e => if e.merges pa chunk then e.takes pa now bs else e)) :=
  if_pos h

theorem mbPut_starts (h : mb.any (·.merges pa chunk) = false) (hp : mbPut mb pa bs chunk now = some mb') :
    mb' = mbAsk (fun e => decide (e.line = lineOf pa ∧ e.chunk ≠ chunk)) mb ++ [(MbEntry.fresh pa chunk now).takes pa now bs] := by
  have put : mbPut mb pa bs chunk now = if 16 ≤ mb.length ∨ 2 ≤ (mb.filter (·.line == lineOf pa)).length then none
      else some (mbAsk (fun e => decide (e.line = lineOf pa ∧ e.chunk ≠ chunk)) mb ++ [(MbEntry.fresh pa chunk now).takes pa now bs]) :=
    if_neg (by rw [← Bool.not_eq_true] at h; exact h)
  rw [put] at hp
  split at hp
  · exact absurd hp (by simp)
  · exact (Option.some.inj hp).symm

variable (fits : pa % 64 + bs.length ≤ 64)
include fits

/-- Outside the bytes of the store each entry holds what it held. -/
theorem mbRead_merged_outside (outside : ¬(pa ≤ q ∧ q < pa + bs.length)) :
    mbRead (mb.map fun e => if e.merges pa chunk then e.takes pa now bs else e) q = mbRead mb q := by
  refine mbRead_map fun e _ => ?_
  split
  next mine =>
    simp only [MbEntry.merges, Bool.and_eq_true, beq_iff_eq] at mine
    rw [MbEntry.byteAt_takes fits mine.1.1, if_neg outside]
  next => rfl

/-- Where all entries of the line but the youngest drain, the youngest is the one that takes the store. -/
theorem mbRead_merged_inside (older : ((mb.filter (·.line == lineOf pa)).dropLast.all (·.draining)) = true)
    (some_ : mb.any (·.merges pa chunk) = true) (inside : pa ≤ q ∧ q < pa + bs.length) :
    mbRead (mb.map fun e => if e.merges pa chunk then e.takes pa now bs else e) q = bs[q - pa]? := by
  have here : q / 64 = lineOf pa := by
    unfold lineOf
    omega
  induction mb using List.reverseRecOn with
  | nil => simp at some_
  | append_singleton mb e ih =>
    rw [List.map_append, List.map_singleton, mbRead_concat]
    by_cases line : e.line = lineOf pa
    · have before : mb.any (·.merges pa chunk) = false := by
        rw [List.filter_append, show [e].filter (·.line == lineOf pa) = [e] by simp [line], List.dropLast_concat, List.all_filter] at older
        rw [List.any_eq_false]
        intro f hf mine
        have drains := List.all_eq_true.mp older f hf
        simp only [MbEntry.merges, Bool.and_eq_true, Bool.not_eq_true'] at mine
        simp [mine.1.1, mine.1.2] at drains
      have mine : e.merges pa chunk = true := by simpa [before] using some_
      rw [if_pos mine, MbEntry.byteAt_takes fits line, if_pos inside, List.getElem?_eq_getElem (by omega)]
      rfl
    · have other : e.merges pa chunk = false := by simp [MbEntry.merges, line]
      have none_ : e.byteAt q = none := if_neg (by rw [here]; exact line)
      rw [other, if_neg (by simp), none_, Option.none_or]
      refine ih ?_ (by simpa [other] using some_)
      rwa [List.filter_append, show [e].filter (·.line == lineOf pa) = [] by simp [line], List.append_nil] at older

/-- The buffer after a store reads as the store at its bytes, and elsewhere as before. -/
theorem mbRead_mbPut (older : ((mb.filter (·.line == lineOf pa)).dropLast.all (·.draining)) = true)
    (hp : mbPut mb pa bs chunk now = some mb') :
    mbRead mb' q = if pa ≤ q ∧ q < pa + bs.length then bs[q - pa]? else mbRead mb q := by
  cases merges : mb.any (·.merges pa chunk) with
  | true =>
    rw [mbPut_merges merges, Option.some.injEq] at hp
    rw [← hp, mbRead_mbStart]
    split
    next inside => exact mbRead_merged_inside fits older merges inside
    next outside => exact mbRead_merged_outside fits outside
  | false =>
    rw [mbPut_starts merges hp, mbRead_concat, mbRead_mbAsk, MbEntry.byteAt_takes fits rfl]
    split
    next inside =>
      rw [List.getElem?_eq_getElem (by omega)]
      rfl
    next =>
      have empty : (MbEntry.fresh pa chunk now).byteAt q = none := ite_self none
      rw [empty, Option.none_or]

end

end Sys2Proof.Machine
end

section
/-!
PROOF. Stores join the merging buffer, and the core reads them back (R66, R88, R148, R292, R295; O12).
-/
namespace Sys2Proof.Machine

section
variable {s s1 t : State} {x : At} {w : Word} {a : MemAcc} {k n : Nat} {i : Instr} {mb : List MbEntry}

/-! ## Where an access goes -/

/-- Only what is installed decides where an address lies. -/
theorem region_of_board (h : t.board = s.board) : t.region = s.region := by
  funext pa
  simp only [State.region, State.dramBytes, h]

theorem isLocal_of_board (h : t.board = s.board) (pa : Nat) : t.isLocal pa = s.isLocal pa := by
  rw [State.isLocal, State.isLocal, region_of_board h]

theorem isLocal_of_isCached {pa : Nat} (h : s.isCached pa = true) : s.isLocal pa = false := by
  unfold State.isCached at h
  unfold State.isLocal
  split at h <;> simp_all

theorem isControl_of_isCached {pa : Nat} (h : s.isCached pa = true) : s.isControl pa = false := by
  unfold State.isCached at h
  unfold State.isControl
  split at h <;> simp_all

/-! ## The state hash of a store -/

/-- Nothing but the recordings of cores differs. -/
def MftcOnly (s t : State) : Prop := ∃ mftc, t = { s with mftc := mftc }

theorem MftcOnly.trans {u : State} (h : MftcOnly s t) (h' : MftcOnly t u) : MftcOnly s u := by
  obtain ⟨_, rfl⟩ := h
  obtain ⟨mftc, rfl⟩ := h'
  exact ⟨mftc, rfl⟩

theorem MftcOnly.mftItem (s : State) (k code v : Nat) : MftcOnly s (s.mftItem k code v) := by
  unfold State.mftItem
  split
  · exact ⟨_, rfl⟩
  · exact ⟨s.mftc, rfl⟩

theorem MftcOnly.storeItem (s : State) (k pa size v : Nat) : MftcOnly s (s.storeItem k pa size v) := by
  unfold State.storeItem
  split
  · exact (((mftItem ..).trans (mftItem ..)).trans (mftItem ..)).trans (mftItem ..)
  · exact (mftItem ..).trans (mftItem ..)

/-! ## The store itself -/

theorem kindOf_store {op : Nat} (h : 24 ≤ op) (h' : op ≤ 28) : kindOf op = .store := by
  rw [kindOf, if_neg (by omega), if_neg (by omega), if_neg (by omega), if_pos h]

/-- A store to cached memory in normal mode has nothing to wait for but an entry of the merging buffer. -/
theorem need_store (normal : (s.core k).ft = false) (device : a.device = false) {ps : List (Nat × Nat)} (cached : ∀ p ∈ ps, s.isCached p.1 = true) :
    s.need k .store a ps = .ready := by
  induction ps with
  | nil => rfl
  | cons p r ih =>
    have memory := cached p List.mem_cons_self
    have first : s.need1 k .store a p = .ready := by
      simp only [State.need1, isControl_of_isCached memory, device, normal, Bool.false_eq_true, if_false, ite_self]
    rw [State.need, first]
    exact ih fun q hq => cached q (List.mem_cons_of_mem _ hq)

/-- The parts of a store in the words of the statements: a double-word over two lines is stored word by word. -/
theorem storeParts_eq (a : MemAcc) (n v : Nat) : storeParts a n v = match a.hi with
    | none => [(a.pa, valBytes v n)]
    | some h => [(a.pa, valBytes (v % 2 ^ 36) 4), (h, valBytes (v / 2 ^ 36) 4)] := by
  unfold storeParts
  cases a.hi with
  | none => rfl
  | some h => exact congrArg (fun low => [(a.pa, low), (h, valBytes (v / 2 ^ 36) 4)]) (valBytes_mod v 4).symm

theorem mem_storeParts (a : MemAcc) (n v : Nat) : ∃ bs, (a.pa, bs) ∈ storeParts a n v := by
  unfold storeParts
  cases a.hi with
  | none => exact ⟨_, List.mem_cons_self⟩
  | some h => exact ⟨_, List.mem_cons_self⟩

theorem parts_fst (a : MemAcc) (n v : Nat) : (a.parts n).map (·.1) = (storeParts a n v).map (·.1) := by
  unfold MemAcc.parts storeParts
  cases a.hi <;> rfl

theorem foldl_eq_self {α β : Type} {f : β → α → β} {b : β} {l : List α} (h : ∀ x ∈ l, f b x = b) : l.foldl f b = b := by
  induction l with
  | nil => rfl
  | cons x r ih => rw [List.foldl_cons, h x List.mem_cons_self, ih fun y hy => h y (List.mem_cons_of_mem _ hy)]

/-- What a store leaves before it retires: its items, and the merging buffer with it. -/
def State.stores (s : State) (k pa n v : Nat) (mb : List MbEntry) : State :=
  (s.storeItem k pa n v).modCore k (fun c => { c with mb := mbPress mb })

theorem stores_mem (s : State) (k pa n v : Nat) (mb : List MbEntry) : (s.stores k pa n v mb).mem = s.mem := by
  obtain ⟨_, e⟩ := MftcOnly.storeItem s k pa n v
  rw [State.stores, e]
  rfl

theorem stores_board (s : State) (k pa n v : Nat) (mb : List MbEntry) : (s.stores k pa n v mb).board = s.board := by
  obtain ⟨_, e⟩ := MftcOnly.storeItem s k pa n v
  rw [State.stores, e]
  rfl

theorem storeVal_eq (c : Core) (op : opcodeOf w ≠ 28) : storeVal c w a = a.data.toNat % 512 ^ sizeOf' (opcodeOf w) := if_neg op

/-- A store of which every part goes to cached memory joins the merging buffer. -/
theorem storeDo_cached (normal : (s.core k).ft = false) (device : a.device = false)
    (cached : ∀ p ∈ storeParts a (sizeOf' (opcodeOf w)) (storeVal (s.core k) w a), s.isCached p.1 = true)
    (room : mbPutAll (s.chunkOf k) (s.core k).ccyc (s.core k).mb (storeParts a (sizeOf' (opcodeOf w)) (storeVal (s.core k) w a)) = some mb) :
    s.storeDo k w a = .done (s.stores k a.pa (sizeOf' (opcodeOf w)) (storeVal (s.core k) w a) mb) (newBase w a.newb) .fall := by
  generalize parts : storeParts a (sizeOf' (opcodeOf w)) (storeVal (s.core k) w a) = ps at cached room
  have here : s.isCached a.pa = true := by
    obtain ⟨bs, first⟩ := mem_storeParts a (sizeOf' (opcodeOf w)) (storeVal (s.core k) w a)
    rw [parts] at first
    exact cached (a.pa, bs) first
  have indirect : ∀ p ∈ ps, (s.isLocal p.1 || a.device || (s.core k).ft) = false := fun p hp => by
    simp [isLocal_of_isCached (cached p hp), device, normal]
  have through : ps.filter (fun p => !(s.isLocal p.1 || a.device || (s.core k).ft)) = ps :=
    List.filter_eq_self.mpr fun p hp => by simp [indirect p hp]
  unfold State.storeDo
  dsimp only
  rw [parts, through, room]
  split
  next off region => simp [State.isCached, region] at here
  next =>
    dsimp only
    rw [foldl_eq_self fun p hp => ?_, baseUpd_eq]
    · rfl
    · have outside : (s.stores k a.pa (sizeOf' (opcodeOf w)) (storeVal (s.core k) w a) mb).isLocal p.1 = false := by
        rw [isLocal_of_board (stores_board ..), isLocal_of_isCached (cached p hp)]
      unfold State.stores at outside
      rw [if_neg (Bool.eq_false_iff.mp outside), if_neg (Bool.eq_false_iff.mp (indirect p hp))]

/-- STB, STH, STW and STD to cached memory in normal mode: the store joins the merging buffer, and the instruction retires. -/
theorem exec_store (h : Issues s x w 0 s1) (he : exec i s = memOp n x w s) (op : opcodeOf w = n) (low : 24 ≤ n) (high : n ≤ 27)
    (hr : s1.resolve x.core w = (t, .ok a)) (device : a.device = false) (normal : (t.core x.core).ft = false)
    (cached : ∀ p ∈ storeParts a (scaleOf n) (a.data.toNat % 512 ^ scaleOf n), t.isCached p.1 = true)
    (room : mbPutAll (t.chunkOf x.core) (t.core x.core).ccyc (t.core x.core).mb
      (storeParts a (scaleOf n) (a.data.toNat % 512 ^ scaleOf n)) = some mb) :
    exec i s = .next ((t.stores x.core a.pa (scaleOf n) (a.data.toNat % 512 ^ scaleOf n) mb).retire x.core x.slot w (newBase w a.newb) .fall) := by
  subst op
  have kind : kindOf (opcodeOf w) = .store := kindOf_store low (by omega)
  have size : sizeOf' (opcodeOf w) = scaleOf (opcodeOf w) := sizeOf'_eq (by omega)
  have val : storeVal (t.core x.core) w a = a.data.toNat % 512 ^ scaleOf (opcodeOf w) := by rw [storeVal_eq _ (by omega), size]
  have here : t.isCached a.pa = true := by
    obtain ⟨bs, first⟩ := mem_storeParts a (scaleOf (opcodeOf w)) (a.data.toNat % 512 ^ scaleOf (opcodeOf w))
    exact cached (a.pa, bs) first
  have orders : t.waitsEmpty w a = false := by simp [State.waitsEmpty, device, isControl_of_isCached here, kind]
  have reached : ∀ p ∈ a.parts (scaleOf (opcodeOf w)), t.isCached p.1 = true := by
    intro p hp
    have same := List.mem_map_of_mem (f := (·.1)) hp
    rw [parts_fst a _ (a.data.toNat % 512 ^ scaleOf (opcodeOf w))] at same
    obtain ⟨q, hq, e⟩ := List.mem_map.mp same
    exact e ▸ cached q hq
  have performed : t.perform x.core w a = t.storeDo x.core w a := by rw [State.perform, kind]
  rw [exec_mem h he rfl, memBody_attempt hr (by rw [kind]; rfl) orders,
    attempt_ready (by rw [kind, size]; exact need_store normal device reached), performed,
    storeDo_cached normal device (by rw [size, val]; exact cached) (by rw [size, val]; exact room), size, val]
  rfl

end

/-! ## Reading -/

theorem readAcc_byte {s : State} {k n i : Nat} {a : MemAcc} (one : a.hi = none) (memory : s.isLocal a.pa = false) (device : a.device = false)
    (hi : i < n) : BitVec.ofNat 9 (s.readAcc k a n / 2 ^ (9 * i)) = ((s.core k).mbByte (a.pa + i)).getD (s.mem.byte (a.pa + i)) := by
  have parts : a.parts n = [(a.pa, n)] := by rw [MemAcc.parts, one]
  rw [State.readAcc, parts]
  dsimp only
  rw [State.readPart, if_neg (Bool.eq_false_iff.mp memory), if_neg (Bool.eq_false_iff.mp device)]
  exact byte_of_bytesVal _ a.pa hi

/-- Settles O12: the four stores by `exec_store`, a byte of an access by `readAcc_byte`, and a store that is read back by `mbRead_mbPut`. -/
theorem stores : Obligations.Stores := by
  unfold Obligations.Stores
  refine ⟨fun s s1 s2 x w a mb => ?_, fun s k n i a => readAcc_byte, fun c mb pa chunk now bs fits older put q => ?_⟩
  · intro n v parts h hr range device normal cached room t
    have val : v = a.data.toNat % 512 ^ n := congrArg (a.data.toNat % ·) (pow_mul 2 9 n)
    have same : parts = storeParts a n v := (storeParts_eq a n v).symm
    rw [same, val] at cached room
    refine ⟨stores_mem .., fun i hi op => ?_⟩
    have he : exec i.2 s = memOp (opcodeOf w) x w s := by
      rw [op]
      refine exec_memOp s x w i ?_
      simp only [List.mem_cons, List.not_mem_nil, or_false] at hi ⊢
      tauto
    have e := exec_store h he rfl range.1 range.2 hr device normal cached room
    rw [← val] at e
    exact e
  · rw [mbByte_eq, mbByte_eq]
    show mbRead (mbPress mb) q = _
    rw [mbRead_mbPress]
    exact mbRead_mbPut fits older put

end Sys2Proof.Machine
end

section
/-!
PROOF. LR, SC and TAS (R153 to R155), PREF (R152) and CMO (R173; O14).
-/
namespace Sys2Proof.Machine

section
variable {s s1 t : State} {x : At} {w : Word} {a : MemAcc} {k n : Nat} {i : Instr}

/-! ## Atomics -/

theorem kindOf_lr : kindOf 29 = .lr := rfl
theorem kindOf_sc : kindOf 30 = .sc := rfl
theorem kindOf_tas : kindOf 31 = .tas := rfl

/-- An atomic with the merging buffer empty and nothing to wait for is performed. -/
theorem exec_atomic (h : Issues s x w 0 s1) (he : exec i s = memOp n x w s) (op : opcodeOf w = n) (low : 29 ≤ n) (high : n ≤ 31)
    (hr : s1.resolve x.core w = (t, .ok a)) (empty : (t.core x.core).mb = []) (one : a.hi = none)
    (ready : (t.modCore x.core Core.drainAll).need x.core (kindOf n) a [(a.pa, 4)] = .ready) :
    exec i s = .next (State.finish x.core x.slot w ((t.modCore x.core Core.drainAll).perform x.core w a)) := by
  subst op
  have atomic : (kindOf (opcodeOf w)).atomic = true := by
    have range : opcodeOf w = 29 ∨ opcodeOf w = 30 ∨ opcodeOf w = 31 := by omega
    rcases range with e | e | e <;> rw [e] <;> rfl
  have parts : a.parts (sizeOf' (opcodeOf w)) = [(a.pa, 4)] := by
    have range : opcodeOf w = 29 ∨ opcodeOf w = 30 ∨ opcodeOf w = 31 := by omega
    rw [MemAcc.parts, one]
    rcases range with e | e | e <;> rw [e] <;> rfl
  rw [exec_mem h he rfl, memBody_atomic hr atomic empty, attempt_ready (by rw [parts]; exact ready)]

/-- A word in its register. -/
theorem wr_toW (w : Word) (v lat : Nat) : wr (dstOf w) (BitVec.ofNat 36 v) lat = toW w v lat := by
  rw [toW, BitVec.ofInt_natCast]
  rfl

/-- LR reads its word and takes the reservation of its line. -/
theorem perform_lr (op : opcodeOf w = 29) (clean : s.poisonAt k a 4 = none) :
    s.perform k w a = .done (((s.clearRes k (a.pa / 64)).markParts k a 4 false).modCore k fun c =>
      { c with reservation := some { line := a.pa / 64, deferUntil := c.ccyc + 64 } }) (toW w (s.readAcc k a 4) 3) .fall := by
  rw [State.perform, op, kindOf_lr]
  dsimp only
  rw [State.lrDo, clean]
  dsimp only
  rw [wr_toW]
  rfl

/-- SC with its reservation stores and sets Z. -/
theorem perform_sc (op : opcodeOf w = 30) (held : s.scHolds k a.pa = true) :
    s.perform k w a = .done (((s.storeItem k a.pa 4 (a.data.toNat % 2 ^ 36)).writeNow k a.pa
      (valBytes (a.data.toNat % 2 ^ 36) 4)).noRes k) [(.fl 0 true, 3)] .fall := by
  rw [State.perform, op, kindOf_sc]
  exact if_pos held

/-- SC without it stores nothing and clears Z. -/
theorem perform_sc_fails (op : opcodeOf w = 30) (held : s.scHolds k a.pa = false) (hr : (s.count k 0x2D 1).replaying k = false)
    (hj : smFind? s.mftc k = none) :
    s.perform k w a = .done ((s.count k 0x2D 1).noRes k) [(.fl 0 false, 3)] .fall := by
  obtain ⟨ctl, counted⟩ := CtlOnly.count s k 0x2D 1
  have quiet : smFind? (s.count k 0x2D 1).mftc k = none := by rw [counted]; exact hj
  rw [State.perform, op, kindOf_sc]
  dsimp only
  rw [State.scDo, if_neg (Bool.eq_false_iff.mp held), nondet_live quiet hr]

/-- TAS reads its word, stores 1, and sets Z when the word was 0. -/
theorem perform_tas (op : opcodeOf w = 31) (clean : s.poisonAt k a 4 = none) :
    s.perform k w a = .done ((((s.markParts k a 4 false).storeItem k a.pa 4 1).writeNow k a.pa (valBytes 1 4)).noRes k)
      (toW w (s.readAcc k a 4) 3 ++ [(.fl 0 (s.readAcc k a 4 == 0), 3)]) .fall := by
  rw [State.perform, op, kindOf_tas]
  dsimp only
  rw [State.tasDo, clean]
  dsimp only
  rw [wr_toW]

/-- An SC whose reservation is gone asks for nothing in normal mode. -/
theorem need_sc_fails (device : a.device = false) (memory : s.isControl a.pa = false) (normal : (s.core k).ft = false)
    (held : s.scHolds k a.pa = false) : s.need k .sc a [(a.pa, 4)] = .ready := by
  have only : s.need1 k .sc a (a.pa, 4) = .ready := by
    simp only [State.need1, memory, device, normal, held, Bool.false_eq_true, Bool.not_false, if_false, if_true, ite_self]
  rw [State.need, only]
  rfl

theorem scHolds_live (hr : s.replaying k = false) (pa : Nat) :
    s.scHolds k pa = match (s.core k).reservation with | some r => r.line == pa / 64 | none => false := by
  rw [State.scHolds, if_neg (Bool.eq_false_iff.mp hr)]
  rfl

/-! ## PREF -/

/-- PREF always completes. -/
theorem exec_pref (h : Issues s x w 0 s1) (op : opcodeOf w = 23) :
    exec (.pref x w) s = .next ((s1.prefDo x.core w).retire x.core x.slot w (newBase w ((s1.core x.core).prefBase w)) .fall) := by
  rw [exec_issued (i := .pref x w) h rfl (beq_iff_eq.mpr op), baseUpd_eq]
  rfl

/-- In fixed-timing mode, or with every miss slot taken, it is dropped. -/
theorem prefDo_dropped (busy : (s.core k).ft = true ∨ 32 ≤ (s.core k).missSlots) : s.prefDo k w = s.count k 0x2E 1 :=
  if_pos (by simpa using busy)

theorem prefDo_mem : (s.prefDo k w).mem = s.mem := by
  unfold State.prefDo
  dsimp only
  split
  · exact State.count_mem
  · split
    · exact State.count_mem
    · rfl

/-! ## CMO -/

/-- The operations of CMO: 1 clean, 2 invalidate, 3 both. -/
theorem exec_cmo (s : State) (x : At) (w : Word) :
    ∀ i ∈ [(1, Instr.cmoClean x w), (2, .cmoInvalidate x w), (3, .cmoCleanAndInvalidate x w)],
      exec i.2 s = s.issue x w (isSys w 11 && argOf w % 4 == i.1) (cmoBody x.core w) := by
  simp only [List.forall_mem_cons]
  exact ⟨rfl, rfl, rfl, List.forall_mem_nil _⟩

/-- Invalidation is privileged. -/
theorem cmoBody_refused (refused : argOf w % 4 ≠ 1 ∧ (s.core k).user = true) : cmoBody k w s = .trap s ⟨2, 1, 0, none⟩ := if_pos refused

section
variable {y : Xl} (allowed : ¬(argOf w % 4 ≠ 1 ∧ (s.core k).user = true))
  (ha : s.access k (if argOf w % 4 = 1 then .cmoClean else .cmoInv) 1 (((s.core k).pairA w).toNat % 2 ^ 48) = (t, .ok y, n))
include allowed ha

/-- On a line that is not cached memory a CMO has no effect. -/
theorem cmoBody_none (other : ((t.freezeFor k n).modCore k Core.drainAll).isDevice y = true ∨
      ¬((t.freezeFor k n).modCore k Core.drainAll).isCached y.pa = true) :
    cmoBody k w s = .done ((t.freezeFor k n).modCore k Core.drainAll) [] .fall := by
  rw [cmoBody, if_neg allowed]
  dsimp only
  rw [ha]
  exact if_pos (by simpa using other)

/-- On a line of cached memory that nothing holds back it acts on every Grove. -/
theorem cmoBody_line (device : ((t.freezeFor k n).modCore k Core.drainAll).isDevice y = false)
    (cached : ((t.freezeFor k n).modCore k Core.drainAll).isCached y.pa = true)
    (empty : (((t.freezeFor k n).modCore k Core.drainAll).core k).mb = [])
    (free : ((t.freezeFor k n).modCore k Core.drainAll).homeFree (lineOf y.pa) = true) :
    cmoBody k w s = .done (((t.freezeFor k n).modCore k Core.drainAll).cmoLine (argOf w % 4) (lineOf y.pa)) [] .fall := by
  rw [cmoBody, if_neg allowed]
  dsimp only
  rw [ha]
  dsimp only
  have none_here : (((t.freezeFor k n).modCore k Core.drainAll).core k).mbHas (lineOf y.pa) = false := by
    rw [Core.mbHas, empty]
    rfl
  rw [if_neg (by simp [device, cached]), if_neg (by rw [empty]; simp), if_neg (by rw [none_here, free]; simp)]

end
end

/-- Settles O14: the atomics by `exec_atomic` and what each operation performs, PREF by the frame of
`prefDo`, CMO by the outcomes of `cmoBody`. -/
theorem atomicsAndLines : Obligations.AtomicsAndLines := by
  unfold Obligations.AtomicsAndLines
  refine ⟨fun s s1 s2 x w a h hr device memory empty => ?_, fun s s1 x w h => ⟨fun op => ⟨?_, prefDo_mem, prefDo_dropped⟩, fun i hi ⟨sys, arg⟩ => ?_⟩⟩
  · intro k s3 live v held
    have holds : s3.scHolds k a.pa = held := scHolds_live live a.pa
    refine ⟨fun op ready one clean => ?_, fun op ready one taken => ?_, fun op one gone normal hr' hj => ?_, fun op ready one clean => ?_⟩
    · rw [exec_atomic (n := 29) h rfl op (by decide) (by decide) hr empty one ready, perform_lr op clean]
      rfl
    · rw [exec_atomic (n := 30) h rfl op (by decide) (by decide) hr empty one ready, perform_sc op (holds.trans taken)]
      rfl
    · have ready := need_sc_fails (s := s3) (k := k) device memory normal (holds.trans gone)
      rw [exec_atomic (n := 30) h rfl op (by decide) (by decide) hr empty one ready, perform_sc_fails op (holds.trans gone) hr' hj]
      rfl
    · rw [exec_atomic (n := 31) h rfl op (by decide) (by decide) hr empty one ready, perform_tas op clean]
      rfl
  · rw [exec_pref h op, Core.prefBase]
    split
    · rfl
    · rfl
  · have he := exec_cmo s x w i hi
    have ok : (isSys w 11 && argOf w % 4 == i.1) = true := by simp [sys, arg]
    rw [← arg]
    refine ⟨fun refused => ?_, fun s2 y n allowed ha => ?_⟩
    · rw [exec_issued h he ok, cmoBody_refused refused]
      rfl
    · refine ⟨fun other => ?_, fun device cached empty free => ?_⟩
      · rw [exec_issued h he ok, cmoBody_none allowed ha other]
        rfl
      · rw [exec_issued h he ok, cmoBody_line allowed ha device cached empty free]
        rfl

end Sys2Proof.Machine
end

section
/-!
PROOF. What core cycles leave alone in a core with no X operation in flight, whether it is frozen or issues nothing; the line a fetch waits
for, and the change of CS.STATUS.FT (R189, R201, R203; O32).
-/
namespace Sys2Proof.Machine

/-! ## Core cycles that pass -/

section
variable {s : State} {k n : Nat}

/-- Where long operations land in their cycle, the core changes by their landings alone, and memory does not. -/
theorem landLong_idle (hx : (s.core k).xops = []) : Core.Lands (s.core k) ((s.landLong k).core k) ∧ (s.landLong k).mem = s.mem := by
  unfold State.landLong
  split
  · exact ⟨.refl, rfl⟩
  · have due : Core.Lands (s.core k) ((s.modCore k Core.landDivDue).core k) := by
      rw [State.core_modCore_self]
      exact .landDivDue _
    rw [landXDue_none (due.xops hx)]
    exact ⟨due, rfl⟩

theorem advance_mem (hx : (s.core k).xops = []) : (s.advance k n).mem = s.mem := by
  have short : Core.Lands ((s.core k).after n) ((s.modCore k fun c => (c.after n).landShort).core k) := by
    rw [State.core_modCore_self]
    exact .landShort _
  exact (landLong_idle (short.xops hx)).2

theorem cycles_ctlOnly (s : State) (k cat n : Nat) : CtlOnly s (s.cycles k cat n) := by
  unfold State.cycles
  split
  · exact .refl
  · exact (CtlOnly.count ..).trans (.count ..)

theorem CtlOnly.mem {s t : State} (h : CtlOnly s t) : t.mem = s.mem := by
  obtain ⟨_, rfl⟩ := h
  rfl

theorem Core.Lands.reservation {c d : Core} (h : Lands c d) (hx : c.xops = []) : d.reservation = c.reservation := by
  obtain ⟨_, _, _, _, _, _, _, _, _, _, rfl⟩ := h hx
  rfl

theorem freezeFor_idle (hx : (s.core k).xops = []) :
    ((s.freezeFor k n).core k).reservation = (s.core k).reservation ∧ (s.freezeFor k n).mem = s.mem := by
  unfold State.freezeFor
  split
  · exact ⟨rfl, rfl⟩
  · have same := cycles_core (s := s) (k := k) (n := n) 0x06
    obtain ⟨lands, mem⟩ := landLong_idle (s := (s.cycles k 0x06 n).modCore k fun c => { c with ccyc := c.ccyc + n }) (k := k)
      (by rw [State.core_modCore_self, same]; exact hx)
    rw [State.core_modCore_self, same] at lands
    exact ⟨lands.reservation hx, mem.trans (cycles_ctlOnly ..).mem⟩

/-- While a core issues nothing, its reservation and memory stay. -/
theorem passCycles_idle (hx : (s.core k).xops = []) :
    ((s.passCycles k n).core k).reservation = (s.core k).reservation ∧ (s.passCycles k n).mem = s.mem := by
  unfold State.passCycles
  split
  · exact freezeFor_idle hx
  · split
    · exact ⟨rfl, rfl⟩
    · have same := cycles_core (s := s) (k := k) (n := n) 0x05
      have lands := lands_advance (s := s.cycles k 0x05 n) (k := k) (n := n) (by rwa [same])
      rw [same] at lands
      exact ⟨lands.reservation hx, (advance_mem (by rwa [same])).trans (cycles_ctlOnly ..).mem⟩

/-- What a replay lands where the core stops changes the core by landings alone. -/
theorem lands_landRest (hx : (s.core k).xops = []) : Core.Lands (s.core k) ((s.landRest k).core k) := by
  have one (t : State) (seq : Nat) (h : Core.Lands (s.core k) (t.core k)) : Core.Lands (s.core k) ((t.landOp k seq).core k) := by
    unfold State.landOp
    rw [h.xops hx]
    split
    · rw [State.core_modCore_self]
      exact h.trans (.landDiv _ _)
    · exact h
  unfold State.landRest
  split
  · exact foldl_keeps (p := fun t : State => Core.Lands (s.core k) (t.core k)) one _ s .refl
  · exact .refl

end

/-! ## A line that arrives (R189, R201) -/

section
variable {s : State} {k a since la : Nat} {p : Xl} {fill : Fill}

/-- FETCH_LINE_FILL of the line for which fetch waits. -/
theorem exec_fetchLineFill (running : (s.core k).run = .running) (settled : (s.core k).ftChange = none)
    (waits : (s.core k).fwait = some (a, since)) (line : a / 64 = la / 64) :
    exec (.fetchLineFill k la fill) s = .next (s.fetchServed k a since fill.cycles fill.reads.syn fill.reads.retry) := by
  show execFetchLineFill k la fill s = _
  simp [execFetchLineFill, running, settled, waits, line]

/-- What has been fetched enters L1I in normal mode, and the line buffer in either. -/
def Core.takesLine (c : Core) (ft : Bool) (la line : Nat) : Core := (if ft then c else c.fillFetch line).bufferLine la line

/-- A line whose address is translated, and whose request nothing blocks, arrives after its bubbles. -/
theorem fetchServed_line {n : Nat} {syn retry : List Nat} (found : (s.translateIn k (s.coreCtx k) .fetch a).2.1 = .ok p)
    (free : (s.offerFor k .fetch p.pa).blocked k .fetch p.pa = false) :
    let s1 := s.offerFor k .fetch p.pa
    let ft := (s1.core k).ft
    let bubbles := if ft then n else s1.within 0 (s1.rowTimes k .fetch p.device p.pa).2 n
    s.fetchServed k a since n syn retry =
      ((((s1.stall k bubbles (s1.padded k p.device p.pa) since true).serve k .fetch true p.pa syn retry).count k 0x21 1).modCore k
        (·.takesLine ft a (p.pa / 64))).modCore k fun c => { c with fwait := none } := by
  unfold State.fetchServed
  dsimp only
  rw [found]
  dsimp only
  rw [if_neg (Bool.eq_false_iff.mp free)]
  rfl

theorem mem_fillFetch {c : Core} {line l : Nat} (h : l ∈ (c.fillFetch line).l1i) : l ∈ c.l1i ∨ l = line := by
  unfold Core.fillFetch at h
  rcases List.mem_append.mp h with kept | new
  · left
    split at kept
    · split at kept
      · exact List.mem_of_mem_filter (List.mem_of_mem_filter kept)
      · exact List.mem_of_mem_filter kept
    · exact List.mem_of_mem_filter kept
  · exact .inr (List.mem_singleton.mp new)

end

/-! ## The change of mode (R203) -/

section
variable {s : State} {k : Nat} {ft : Bool}

/-- The bits of CS.STATUS after a change of FT. -/
theorem changeFt_status (c : Core) (ft : Bool) (i : Nat) :
    (c.changeFt ft).status.getLsbD i = if i = 3 then ft else c.status.getLsbD i := by
  have eight : (8 : Word).getLsbD i = decide (i = 3) := by
    rw [show (8 : Word) = BitVec.twoPow 36 3 from rfl, BitVec.getLsbD_twoPow]
    simp [eq_comm]
  have bit : (if ft then 8 else 0 : Word).getLsbD i = (ft && decide (i = 3)) := by
    cases ft
    · simp
    · simpa using eight
  show ((c.status &&& ~~~8) ||| if ft then 8 else 0).getLsbD i = _
  rw [BitVec.getLsbD_or, BitVec.getLsbD_and, BitVec.getLsbD_not, eight, bit]
  by_cases h : i = 3
  · simp [h]
  · by_cases inside : i < 36
    · simp [h, inside]
    · simp [h, inside, BitVec.getLsbD_of_ge c.status i (by omega)]

/-- FT_MODE_CHANGE of a core at a boundary: the time of the change passes, writes land, and the mode is changed. -/
theorem ftModeChange_core (asked : (s.core k).ftChange = some ft) (running : (s.core k).run = .running) (stored : (s.core k).mb = [])
    (served : (s.core k).prefs = []) (unpaired : (s.core k).pair = none) (thawed : (s.core k).freeze = none) (hx : (s.core k).xops = []) :
    ∃ t n d, exec (.ftModeChange k) s = .next t ∧ ftTime ft ≤ n ∧ Core.Lands ((s.core k).after n) d ∧ t.core k = d.changeFt ft := by
  let n := max (s.core k).longTime (s.core k).drainTime + ftTime ft
  have same := cycles_core (s := s) (k := k) (n := n) 0x07
  have passed := lands_advance (s := s.cycles k 0x07 n) (k := k) (n := n) (by rwa [same])
  have rest := lands_landRest (passed.xops (by rw [same]; exact hx))
  rw [same] at passed
  refine ⟨(((s.cycles k 0x07 n).advance k n).landRest k).modCore k (·.changeFt ft), n, _, ?_, Nat.le_add_left .., passed.trans rest,
    State.core_modCore_self ..⟩
  show execFtModeChange k s = _
  simp only [execFtModeChange, asked]
  rw [if_pos ⟨running, stored, served, unpaired, thawed⟩]

end

/-- Settles O32: the fill by `exec_fetchLineFill` and `fetchServed_line`, the change of mode by `ftModeChange_core`, which says that landings
alone come before it. -/
theorem fetchFillAndModeChange : Obligations.FetchFillAndModeChange := by
  unfold Obligations.FetchFillAndModeChange
  intro s k c
  refine ⟨?_, fun d a line => ⟨?_, fun l => mem_fillFetch, ?_, ?_⟩, fun ft asked running stored served unpaired thawed hx => ?_⟩
  · intro a since la p cycles syn retry running settled waits line found s1 free ft n s2
    rw [exec_fetchLineFill running settled waits line, fetchServed_line found free]
    rfl
  · exact List.mem_append_right _ List.mem_cons_self
  · exact List.mem_cons_self
  · exact List.length_take_le ..
  · obtain ⟨t, n, d, ends, least, lands, core⟩ := ftModeChange_core asked running stored served unpaired thawed hx
    have bits := changeFt_status d ft
    obtain ⟨_, _, _, _, _, _, _, _, _, _, rfl⟩ := lands hx
    refine ⟨t, ends, ?_⟩
    rw [core]
    refine ⟨(bits 3).trans (if_pos rfl), rfl, rfl, rfl, rfl, rfl, rfl, rfl, rfl, rfl, rfl, fun i hi => (bits i).trans (if_neg hi), ?_⟩
    show ftTime ft + c.ccyc ≤ c.ccyc + n
    omega

end Sys2Proof.Machine
end

section
/-!
PROOF. A miss freezes the pipeline and its fill goes on with the access (R187, R200); the merging buffer's entries are asked to drain, and
are accepted (R292 to R294); the end of a reservation's deferral (R157; O15).
-/
namespace Sys2Proof.Machine

/-! ## Requests leave the cores alone -/

section
variable {s : State} {k : Nat}

theorem take_cores (s : State) (ci : Nat) (c : Contract) (q : HeldReq) : (s.take ci c q).cores = s.cores := by
  refine foldl_keeps (p := fun t : State => t.cores = s.cores) (fun _ _ h => ?_) _ s rfl
  exact h

theorem shape_cores (s : State) (q : HeldReq) : (s.shape q).1.cores = s.cores := by
  unfold State.shape
  dsimp only
  split
  · exact take_cores ..
  · split
    · exact take_cores ..
    · rfl

theorem offer_cores (s : State) (q : HeldReq) (cmp now : Nat) : (s.offer q cmp now).cores = s.cores := by
  have shaped := shape_cores s q
  unfold State.offer
  split
  · rfl
  · split
    next e => rwa [e] at shaped
    next e => rwa [e] at shaped

theorem offerFor_core (s : State) (k : Nat) (kind : XKind) (pa j : Nat) : (s.offerFor k kind pa).core j = s.core j := by
  unfold State.offerFor
  split
  · rw [State.core, offer_cores]
    rfl
  · rfl

theorem missCount_core (s : State) (k : Nat) (kind : XKind) (a : MemAcc) (pa j : Nat) : (s.missCount k kind a pa).core j = s.core j := by
  unfold State.missCount
  split
  · exact (CtlOnly.count ..).core j
  · rfl

/-! ## A miss and its fill (R187, R200) -/

variable {w : Word} {a : MemAcc} {slot : Slot} {n : Nat} {syn retry : List Nat}

theorem asDevice_core (s : State) (q : HeldReq) (j : Nat) : (s.asDevice q).core j = s.core j := rfl

/-- The request for a line that an access lacks is offered. -/
def State.asksFor (s : State) (k : Nat) (kind : XKind) (a : MemAcc) (pa : Nat) : State :=
  let t := (s.missCount k kind a pa).offerFor k kind pa
  if a.device then t.asDevice (t.reqFor 1 k pa kind.needsW) else t

theorem asksFor_core (s : State) (k : Nat) (kind : XKind) (a : MemAcc) (pa : Nat) : (s.asksFor k kind a pa).core k = s.core k := by
  have offered : ((s.missCount k kind a pa).offerFor k kind pa).core k = s.core k := by rw [offerFor_core, missCount_core]
  unfold State.asksFor
  dsimp only
  split
  · rw [asDevice_core, offered]
  · exact offered

/-- An access that needs a line from beyond the core freezes the pipeline for it. -/
theorem attempt_fetch {pa : Nat} (beyond : s.need k (kindOf (opcodeOf w)) a (a.parts (sizeOf' (opcodeOf w))) = .fetch pa) :
    ∃ t, s.attempt k w a = .freeze t (.miss (pa / 64)) (some { a with since := (s.core k).ccyc }) := by
  refine ⟨s.asksFor k (kindOf (opcodeOf w)) a pa, ?_⟩
  rw [State.attempt, beyond, ← asksFor_core s k (kindOf (opcodeOf w)) a pa]
  rfl

/-- The access goes on with the line it waited for. -/
def State.goesOn (s : State) (k : Nat) (slot : Slot) (w : Word) (a : MemAcc) : State :=
  State.finish k slot w ((s.modCore k fun c => { c with freeze := none }).attempt k w { a with got := a.pa / 64 :: a.got })

/-- LOAD_MISS_FILL of a core that is frozen for a line. -/
theorem exec_loadMissFill {line : Nat} (frozen : (s.core k).freeze = some ⟨.miss line, slot, w, some a⟩) (running : (s.core k).run = .running) :
    exec (.loadMissFill k (some n) syn retry) s = .next (s.missServed k ⟨.miss line, slot, w, some a⟩ a line n syn retry) := by
  show execLoadMissFill k (some n) syn retry s = _
  simp [execLoadMissFill, running, frozen]

section
variable (one : a.hi = none)
include one

/-- Of an access in one part, the line that it waits for is that of its address. -/
theorem missed_part (size : Nat) : (((a.parts size).find? fun p => lineOf p.1 == a.pa / 64).elim a.pa (·.1)) = a.pa := by
  simp [MemAcc.parts, one, lineOf]

/-- An SC whose reservation is gone takes its time alone. -/
theorem missServed_sc (sc : kindOf (opcodeOf w) = .sc) (gone : s.scHolds k a.pa = false) :
    s.missServed k ⟨.miss (a.pa / 64), slot, w, some a⟩ a (a.pa / 64) n syn retry =
      ((s.missTime k (kindOf (opcodeOf w)) a a.pa n).withdraw 1 k).goesOn k slot w a := by
  unfold State.missServed
  dsimp only
  rw [missed_part one, if_pos ⟨sc, gone⟩]
  rfl

/-- A request that nothing blocks and none outranks is served after its time. -/
theorem missServed_line (asks : ¬(kindOf (opcodeOf w) = .sc ∧ s.scHolds k a.pa = false))
    (free : (s.offerFor k (kindOf (opcodeOf w)) a.pa).blocked k (kindOf (opcodeOf w)) a.pa = false)
    (first : (s.offerFor k (kindOf (opcodeOf w)) a.pa).outranked k (kindOf (opcodeOf w)) a.pa = false) :
    s.missServed k ⟨.miss (a.pa / 64), slot, w, some a⟩ a (a.pa / 64) n syn retry =
      (((((s.offerFor k (kindOf (opcodeOf w)) a.pa).missTime k (kindOf (opcodeOf w)) a a.pa n).serve k (kindOf (opcodeOf w)) a.device a.pa
        syn retry).goesOn k slot w a).finishFill k (a.pa / 64)) := by
  unfold State.missServed
  dsimp only
  rw [missed_part one, if_neg asks, if_neg (Bool.eq_false_iff.mp free), if_neg (Bool.eq_false_iff.mp first)]
  rfl

end

/-! ## The merging buffer (R292 to R294) -/

variable {line : Nat} {e : MbEntry}

/-- The 32 cycles of an entry are over: it is asked to drain. -/
theorem exec_mbIdleTimeout (found : (s.core k).mb.find? (fun e => e.line == line && !e.asked) = some e)
    (elapsed : e.last + 32 ≤ ((s.passTo k (e.last + 32)).core k).ccyc) :
    exec (.mbIdleTimeout k line) s =
      .next ((s.passTo k (e.last + 32)).modCore k fun c => { c with mb := mbAsk (fun d => d == e) c.mb }) := by
  show execMbIdleTimeout k line s = _
  simp only [execMbIdleTimeout, found]
  rw [if_neg (Nat.not_lt.mpr elapsed)]

/-- A draining entry whose request nothing blocks is accepted, and leaves the buffer. -/
theorem exec_drainAccept (found : (s.core k).mb.find? (fun e => e.line == line && e.draining) = some e)
    (free : (s.offerFor k .store (line * 64)).blocked k .store (line * 64) = false) :
    let s1 := s.offerFor k .store (line * 64)
    let s2 := if (s1.core k).waitsDrain then s1.passCycles k (s1.within 1 (s1.rowTimes k .store false (line * 64)).2 n) else s1
    exec (.drainAccept k line n ⟨syn, retry⟩) s =
      .next ((((s2.serve k .store false (line * 64) syn retry).acceptEntry k e).modCore k
        (fun c => { c with mb := mbLeave c.mb e })).finishDrain k line) := by
  show execDrainAccept k line n ⟨syn, retry⟩ s = _
  unfold execDrainAccept
  rw [found]
  dsimp only
  rw [if_neg (Bool.eq_false_iff.mp free)]

/-- An entry that is asked starts to drain when no older entry, listed or before it, is of its line. -/
theorem mbStart_getElem? (mb : List MbEntry) (older : List Nat) (i : Nat) :
    (mbStart older mb)[i]? = mb[i]?.map fun e => { e with
      draining := e.draining || (e.asked && !(older.contains e.line || (mb.take i).any (·.line == e.line))) } := by
  induction mb generalizing older i with
  | nil => rfl
  | cons d r ih =>
    cases i with
    | zero => simp [mbStart]
    | succ i =>
      rw [mbStart, List.getElem?_cons_succ, List.getElem?_cons_succ, ih]
      congr 1
      funext e
      have same : ((d.line :: older).contains e.line || (r.take i).any (·.line == e.line)) =
          (older.contains e.line || ((d :: r).take (i + 1)).any (·.line == e.line)) := by
        rw [List.contains_cons, List.take_succ_cons, List.any_cons, Bool.beq_comm, Bool.or_assoc, Bool.or_left_comm]
      rw [same]

/-- Asking changes nothing else of the buffer. -/
theorem mbAsk_getElem? (p : MbEntry → Bool) {mb : List MbEntry} {i : Nat} (h : mb[i]? = some e) :
    (mbAsk p mb)[i]? = some { e with
      asked := e.asked || p e
      draining := e.draining || ((e.asked || p e) && !((mb.take i).any (·.line == e.line))) } := by
  have lines : ((mb.map fun e => if p e then { e with asked := true } else e).take i).any (·.line == e.line) =
      (mb.take i).any (·.line == e.line) := by
    rw [← List.map_take, List.any_map]
    congr 1
    funext d
    simp only [Function.comp]
    split <;> rfl
  have asks : (if p e then { e with asked := true } else e) = { e with asked := e.asked || p e } := by
    cases p e <;> simp
  rw [mbAsk, mbStart_getElem?, List.getElem?_map, h, Option.map_some, Option.map_some, asks]
  simp only [lines, List.contains_nil, Bool.false_or]

theorem mbAsk_length (p : MbEntry → Bool) (mb : List MbEntry) : (mbAsk p mb).length = mb.length := by
  rw [← List.length_map (·.line), mbAsk_lines, List.length_map]

/-! ## The end of a deferral (R157) -/

/-- The reservation stays, with nobody deferred. -/
theorem exec_reservationDeferralEnd {r : Reservation} (held : (s.core k).reservation = some r) (hx : (s.core k).xops = []) :
    ∃ t, exec (.reservationDeferralEnd k) s = .next t ∧ (t.core k).reservation = some ⟨r.line, 0⟩ ∧ t.mem = s.mem := by
  have passed : ∃ t, (if r.deferUntil = 0 then s else s.passTo k r.deferUntil) = t ∧ (t.core k).reservation = some r ∧ t.mem = s.mem := by
    split
    · exact ⟨s, rfl, held, rfl⟩
    · obtain ⟨stays, mem⟩ := passCycles_idle (n := r.deferUntil - (s.core k).ccyc) hx
      exact ⟨_, rfl, stays.trans held, mem⟩
  obtain ⟨t, e, stays, mem⟩ := passed
  refine ⟨t.modCore k fun c => { c with reservation := c.reservation.map fun r => { r with deferUntil := 0 } }, ?_, ?_, mem⟩
  · show execReservationDeferralEnd k s = _
    simp only [execReservationDeferralEnd, held, e]
  · rw [State.core_modCore_self]
    simp [stays]

end

/-- Settles O15: a miss by `attempt_fetch` and its fill by `missServed_line` and `missServed_sc`, the buffer by `mbAsk_getElem?` and
`exec_drainAccept`, the deferral by `exec_reservationDeferralEnd`. -/
theorem missesAndDrains : Obligations.MissesAndDrains := by
  unfold Obligations.MissesAndDrains
  refine ⟨fun s k w a => ⟨fun pa => attempt_fetch, fun slot n syn retry one frozen running =>
      ⟨fun ⟨sc, gone⟩ => ?_, fun asks free first => ?_⟩⟩,
    fun s k line e => ⟨exec_mbIdleTimeout, fun n syn retry => exec_drainAccept⟩, fun mb p i e h => ⟨mbAsk_length p mb, mbAsk_getElem? p h⟩,
    fun s k r => exec_reservationDeferralEnd⟩
  · rw [exec_loadMissFill frozen running, missServed_sc one sc gone]
    rfl
  · rw [exec_loadMissFill frozen running, missServed_line one asks free first]
    rfl

end Sys2Proof.Machine
end

section
/-!
PROOF. A word issues in a core of which nothing is in flight: nothing comes first, its fetch finds the line, and no hold keeps it (R184, R189,
R276, R595; O27).
-/
namespace Sys2Proof.Machine

section
variable {s t u : State} {k : Nat} {w : Word}

/-! ## A quiet core stands at a boundary -/

theorem wake_quiet (q : Quiet s k) : s.wake k = s := by
  obtain ⟨-, live, -⟩ := q.journal
  simp [State.wake, landRecorded_live live, q.run]

theorem atBoundary_quiet (q : Quiet s k) : s.atBoundary k = true := by
  obtain ⟨-, -, issuing⟩ := q.journal
  obtain ⟨thawed, unpaired, -, -, -, settled, stores⟩ := q.stands
  obtain ⟨free, -, onward, released⟩ := q.debug
  have reached (p : Bcast → Bool) : s.mem.bcasts.any (fun b => b.src == k && p b) = false := by
    rw [List.any_eq_false]
    intro b hb
    simp [q.broadcasts b hb]
  unfold State.atBoundary
  dsimp only
  rw [reached]
  simp [q.run, free, issuing, thawed, unpaired, settled, released, onward, stores]

theorem noneFirst_quiet (q : Quiet s k) : s.noneFirst k = true := by
  obtain ⟨-, live, -⟩ := q.journal
  obtain ⟨faults, checks⟩ := q.owed
  obtain ⟨-, masked, -⟩ := q.mode
  have masked : (s.core k).ie = false := masked
  simp [State.noneFirst, State.mceDue, State.longDue, State.intDue, Core.longDue, live, faults, checks, masked]

theorem slotFits_quiet (q : Quiet s k) (alone : ¬(pairBit w = true ∧ (s.core k).pc % 8 = 0)) : s.slotFits k .single w 0 = true := by
  obtain ⟨idle, -, -⟩ := q.journal
  obtain ⟨-, -, unrepeated, -⟩ := q.stands
  have single : (pairBit w && (s.core k).pc % 8 == 0) = false := by simpa using alone
  simp [State.slotFits, atBoundary_quiet q, noneFirst_quiet q, unrepeated, single, State.chunkRoom, idle]

/-! ## Before the word issues, time and the line buffer alone change -/

/-- Nothing differs but package time and the lines in the core's line buffer; the cores may be listed otherwise. -/
def Idles (k : Nat) (s t : State) : Prop :=
  ∃ cores time lbuf, t = { s with cores := cores, time := time } ∧ t.core k = { s.core k with lbuf := lbuf } ∧ ∀ j ≠ k, t.core j = s.core j

theorem Idles.refl : Idles k s s := ⟨s.cores, s.time, (s.core k).lbuf, rfl, rfl, fun _ _ => rfl⟩

theorem Idles.trans (h : Idles k s t) (h' : Idles k t u) : Idles k s u := by
  obtain ⟨_, _, _, rfl, core, others⟩ := h
  obtain ⟨cores, time, lbuf, rfl, core', others'⟩ := h'
  exact ⟨cores, time, lbuf, rfl, by rw [core', core], fun j hj => (others' j hj).trans (others j hj)⟩

theorem Idles.quiet (h : Idles k s t) (q : Quiet s k) : Quiet t k := by
  obtain ⟨cores, time, lbuf, rfl, core, -⟩ := h
  obtain ⟨run, mode, flight, stands, holds, debug, owed, journal, counters, broadcasts⟩ := q
  exact ⟨by rw [core]; exact run, by rw [core]; exact mode, by rw [core]; exact flight, by rw [core]; exact stands, by rw [core]; exact holds,
    by rw [core]; exact debug, by rw [core]; exact owed, by rw [core]; exact journal, counters, broadcasts⟩

/-- A cycle boundary is reached with nothing to land. -/
theorem idles_advance (q : Quiet s k) : Idles k s (s.advance k 0) := by
  obtain ⟨hp, hd, hx, -⟩ := q.flight
  obtain ⟨-, live, -⟩ := q.journal
  refine ⟨_, _, (s.core k).lbuf, advance_eq live hx, core_advance_idle hp hd hx, fun j hj => ?_⟩
  rw [advance_eq live hx, core_sync, State.core_modCore_other _ _ hj.symm, State.core_modCore_other _ _ hj.symm]

theorem idles_enterLine (s : State) (k la pa : Nat) : Idles k s (s.modCore k fun c => c.enterLine la pa) := by
  have entered (c : Core) : ∃ lbuf, c.enterLine la pa = { c with lbuf := lbuf } := by
    unfold Core.enterLine
    split
    · exact ⟨c.lbuf, rfl⟩
    · exact ⟨_, rfl⟩
  obtain ⟨lbuf, e⟩ := entered (s.core k)
  exact ⟨_, _, lbuf, rfl, by rw [State.core_modCore_self, e], fun j hj => State.core_modCore_other _ _ hj.symm⟩

/-- A group that needs no unit that is busy waits for none. -/
theorem idles_unitHolds (q : Quiet s k) (w : Word) (t0 : Nat) : Idles k s (s.unitHolds k .single w t0) := by
  have first := idles_advance q
  have q1 := first.quiet q
  obtain ⟨-, -, -, -, alone, free⟩ := q1.flight
  refine first.trans ?_
  unfold State.unitHolds
  dsimp only
  rw [alone]
  dsimp only
  rw [Nat.sub_eq_zero_of_le free, ite_self]
  exact idles_advance q1

/-! ## The fetch of a line that the core holds -/

section
variable {pa : Nat}

theorem Idles.region (h : Idles k s t) (pa : Nat) : t.region pa = s.region pa := by
  obtain ⟨_, _, _, rfl, -⟩ := h
  rfl

theorem Idles.mem (h : Idles k s t) : t.mem = s.mem := by
  obtain ⟨_, _, _, rfl, -⟩ := h
  rfl

theorem locFault_dram (dram : s.region pa = .dram) (ft : Bool) : s.locFault .fetch ft false 4 pa = none := by
  rw [State.locFault, dram]
  rfl

theorem isLocal_dram (dram : s.region pa = .dram) : s.isLocal pa = false := by rw [State.isLocal, dram]

end

/-- With TR = 0 an address of DRAM that the compartment owns is its own translation (R242, R244). -/
theorem translate_dram (q : Quiet s k) {la : Nat} (low : la < 2 ^ 36) (dram : s.region la = .dram)
    (owned : s.physFault (s.cmpOf k) false la = none) : s.translate k .fetch la = (s, .ok ⟨la, false, 0⟩, 0) := by
  obtain ⟨super, -, flat, -⟩ := q.mode
  have super : (s.core k).user = false := super
  have flat : (s.core k).tr = false := flat
  have memory : s.isControl la = false := by rw [State.isControl, dram]
  have passes : s.flat (s.coreCtx k) .fetch la = .ok ⟨la, false, 0⟩ := by
    rw [State.flat, if_neg (by omega)]
    simp [State.physFor, XKind.isCmo, State.coreCtx, super, owned, memory]
  rw [State.translate, State.translateIn]
  dsimp only
  rw [if_pos (by rw [State.coreCtx, flat]; rfl), passes]
  rfl

theorem held_line (q : Quiet s k) {line : Nat} (held : line ∈ (s.core k).l1i ∨ line ∈ (s.core k).lbuf.map (·.line)) :
    ((s.core k).lbuf.any (fun l => l.line == line) || !(s.core k).ft && (s.core k).l1i.contains line) = true := by
  obtain ⟨-, -, -, normal⟩ := q.mode
  have normal : (s.core k).ft = false := normal
  rcases held with l1i | lbuf
  · simp [normal, l1i]
  · obtain ⟨l, hl, same⟩ := List.mem_map.mp lbuf
    have buffered : (s.core k).lbuf.any (fun l => l.line == line) = true := List.any_eq_true.mpr ⟨l, hl, beq_iff_eq.mpr same⟩
    rw [buffered, Bool.true_or]

/-- Fetch finds the word of a line that L1I or the line buffer holds. -/
theorem fetch_held (q : Quiet s k) (low : (s.core k).pc < 2 ^ 36) (dram : s.region (s.core k).pc = .dram)
    (owned : s.physFault (s.cmpOf k) false (s.core k).pc = none) (clean : s.mem.poisoned ((s.core k).pc / 64) = false)
    (held : (s.core k).pc / 64 ∈ (s.core k).l1i ∨ (s.core k).pc / 64 ∈ (s.core k).lbuf.map (·.line)) :
    ∃ t, s.fetch k (s.core k).pc = .ok t ∧ Idles k s t := by
  obtain ⟨-, -, -, waitless, -⟩ := q.holds
  obtain ⟨hp, hd, hx, -⟩ := q.flight
  unfold State.fetch
  dsimp only
  split
  -- words fetched under another setting of TR, which the line buffer still holds (R204)
  · exact ⟨s, rfl, .refl⟩
  · rw [waitless, translate_dram q low dram owned]
    dsimp only [Option.any]
    rw [if_neg Bool.false_ne_true, cycles_off q.counters]
    have first := idles_advance q
    obtain ⟨-, live, -⟩ := (first.quiet q).journal
    have same : (s.advance k 0).core k = s.core k := core_advance_idle hp hd hx
    have dram' := (first.region (s.core k).pc).trans dram
    rw [locFault_dram dram']
    dsimp only
    rw [live, if_neg Bool.false_ne_true, first.mem, lineOf, clean, if_neg Bool.false_ne_true, isLocal_dram dram', if_neg Bool.false_ne_true,
      same, if_pos (held_line q held)]
    exact ⟨_, rfl, first.trans (idles_enterLine ..)⟩

/-! ## The holds of Table 7-3, and the issue -/

theorem ordersStores_other (other : opcodeOf w < 16 ∨ 31 < opcodeOf w) : s.ordersStores k w = false := by
  rw [State.ordersStores]
  dsimp only
  rw [if_neg (by omega), if_neg (by omega), if_neg (by omega)]

theorem groupHold_none (stores : (s.core k).mb = [] ∨ opcodeOf w < 16 ∨ 31 < opcodeOf w) (accepted : s.xWaits k w = none) :
    s.groupHold k [w] = none := by
  have unordered : (!(s.core k).mb.isEmpty && [w].any (s.ordersStores k)) = false := by
    rcases stores with empty | other
    · simp [empty]
    · simp [ordersStores_other other]
  rw [State.groupHold, unordered, if_neg Bool.false_ne_true, List.findSome?_singleton, accepted]

theorem Idles.xWaits (h : Idles k s t) (w : Word) : t.xWaits k w = s.xWaits k w := by
  obtain ⟨_, _, _, rfl, core, -⟩ := h
  rw [State.xWaits, core]
  rfl

theorem Idles.mb (h : Idles k s t) : (t.core k).mb = (s.core k).mb := by
  obtain ⟨_, _, _, -, core, -⟩ := h
  rw [core]

/-- A fetched word that no hold keeps issues. -/
theorem ready_quiet (q : Quiet s k) (stores : (s.core k).mb = [] ∨ opcodeOf w < 16 ∨ 31 < opcodeOf w) (accepted : s.xWaits k w = none)
    (t0 : Nat) : ∃ t, Idles k s t ∧ s.ready k .single w t0 = .go (t.begin k .single) := by
  have waited := idles_unitHolds q w t0
  have q' := waited.quiet q
  obtain ⟨idle, -, -⟩ := q'.journal
  have unread : (s.unitHolds k .single w t0).landReaders k .single w = s.unitHolds k .single w t0 := by rw [State.landReaders, idle]
  refine ⟨_, waited, ?_⟩
  rw [State.ready, noneFirst_quiet q', show groupWords .single w = [w] from rfl,
    groupHold_none (by rw [waited.mb]; exact stores) ((waited.xWaits w).trans accepted), unread]
  rfl

/-- The word is decoded in a state that has only idled as it would be in the first. -/
theorem Idles.udOf (h : Idles k s t) (plain : classOf w ≠ .pfx) :
    t.udOf k .single w 0 = udSingle (s.xCauses k) ((s.core k).pc % 8 == 4) w := by
  rw [udOf_single plain]
  obtain ⟨_, _, _, rfl, core, -⟩ := h
  rw [core]
  rfl

/-- A word alone that is fetched, and is not undefined, comes to its holds. -/
theorem prepare_fetched {target : Word} (plain : classOf w ≠ .pfx) (awake : s.wake k = s) (fits : s.slotFits k .single w target = true)
    (fetched : s.fetch k (s.core k).pc = .ok t) (defined : t.udOf k .single w target = none) :
    s.prepare k .single w target = t.ready k .single w (s.core k).pcyc := by
  simp [State.prepare, awake, fits, fetched, plain, defined]

/-- Issuing clears what held the group and notes the cycle; in a quiet core nothing else. -/
theorem begin_core (q : Quiet s k) : (s.begin k .single).core k = { s.core k with opCyc := (s.core k).ccyc } := by
  obtain ⟨-, -, -, unsaved, alone, -⟩ := q.flight
  obtain ⟨-, -, -, -, unparked, -, stores⟩ := q.stands
  obtain ⟨free, present, -⟩ := q.holds
  rw [State.begin]
  dsimp only
  rw [unparked, if_neg Bool.false_ne_true, State.core_modCore_self]
  simp [unparked, alone, stores, free, present, unsaved]

theorem begin_elsewhere (q : Quiet s k) :
    let t := s.begin k .single
    t.mem = s.mem ∧ t.ctl = s.ctl ∧ ∀ j ≠ k, t.core j = s.core j := by
  obtain ⟨-, -, -, -, unparked, -⟩ := q.stands
  rw [State.begin, unparked]
  exact ⟨rfl, rfl, fun j hj => State.core_modCore_other _ _ hj.symm⟩

end

/-- Settles O27: the word is fetched by `fetch_held`, waits for nothing by `ready_quiet`, and up to its issue the core has only idled. -/
theorem quietWordIssues : Obligations.QuietWordIssues := by
  unfold Obligations.QuietWordIssues
  intro s k w c q plain alone low dram owned clean defined held accepted stores
  obtain ⟨t, fetched, idled⟩ := fetch_held q low dram owned clean held
  obtain ⟨u, waited, issues⟩ := ready_quiet (idled.quiet q) (by rw [idled.mb]; exact stores) ((idled.xWaits w).trans accepted) (s.core k).pcyc
  have idle := idled.trans waited
  obtain ⟨mem, ctl, others⟩ := begin_elsewhere (idle.quiet q)
  have core := begin_core (idle.quiet q)
  refine ⟨u.begin k .single, ?_, ?_, mem.trans idle.mem, ctl.trans ?_, fun j hj => (others j hj).trans ?_⟩
  · exact (prepare_fetched plain (wake_quiet q) (slotFits_quiet q alone) fetched ((idled.udOf plain).trans defined)).trans issues
  · obtain ⟨_, _, _, -, same, -⟩ := idle
    rw [core, same]
  · obtain ⟨_, _, _, rfl, -⟩ := idle
    rfl
  · obtain ⟨_, _, _, -, -, same⟩ := idle
    exact same j hj

end Sys2Proof.Machine
end

section
/-!
PROOF. Checks 1 to 5 of Table 9-3 with linear addressing, and the offsets of modulo mode (R230 to R232; O10).
-/
namespace Sys2Proof.Machine

/-! ## seg_add (R230) -/

section
variable {d : SegDesc} {x : Nat}

theorem segAdd_linear (linear : d.mode = 0) (scale x : Nat) (disp : Int) :
    segAdd d scale x disp = some (((x : Int) + disp) % 2 ^ 36).toNat := if_pos linear

theorem segAdd_above (modulo : d.mode = 1) (above : d.limit.toNat < x) (scale : Nat) (disp : Int) : segAdd d scale x disp = none := by
  rw [segAdd, if_neg (by rw [modulo]; decide), if_pos above]

theorem segAdd_modulo (modulo : d.mode = 1) (within : x ≤ d.limit.toNat) (scale : Nat) (disp : Int) :
    segAdd d scale x disp = some (((x : Int) + disp) % ((d.limit.toNat : Int) + 1)).toNat := by
  rw [segAdd, if_neg (by rw [modulo]; decide), if_neg (by omega), if_pos modulo]

/-- The remainder that modulo mode takes lies within 0 to LIMIT, and is congruent to the exact sum. -/
theorem modulo_offset (sum : Int) (lim : Nat) :
    (sum % ((lim : Int) + 1)).toNat ≤ lim ∧ ((lim : Int) + 1) ∣ sum - (sum % ((lim : Int) + 1)).toNat := by
  have low : 0 ≤ sum % ((lim : Int) + 1) := Int.emod_nonneg _ (by omega)
  have high : sum % ((lim : Int) + 1) < lim + 1 := Int.emod_lt_of_pos _ (by omega)
  refine ⟨by omega, ?_⟩
  rw [Int.toNat_of_nonneg low]
  exact Int.dvd_self_sub_emod

end

/-! ## The checks, in their order (Table 9-3) -/

section
variable {c : Core} {w : Word}

/-- With linear addressing the base register is always within reach, so that four checks are left. -/
theorem effAddr_linear (high : opcodeOf w ≤ 28) (linear : (c.seg (segOf w)).mode = 0) (needR needW : Bool) :
    c.effAddr w needR needW =
      let d := c.seg (segOf w)
      let n := sizeOf' (opcodeOf w)
      let sum := ((((c.srcA w).toNat : Int) + dispOf w * scaleOf (opcodeOf w)) % 2 ^ 36).toNat
      let off := if updOf w = 1 then (c.srcA w).toNat else sum
      let la := (d.base.toNat + off) % 2 ^ 48
      if d.v = false then .error ⟨3, 1, off, none⟩
      else if (needR && !d.r || needW && !d.w || c.user && !d.user) = true then .error ⟨3, 2, off, none⟩
      else if d.limit.toNat < off + n - 1 then .error ⟨3, 4, off, none⟩
      else if off % (if n = 8 then 4 else n) ≠ 0 then .error ⟨7, 1, la, none⟩
      else .ok { off := off, la := la, newb := if updOf w = 0 then none else some sum } := by
  have displaced : ¬29 ≤ opcodeOf w := by omega
  simp only [Core.effAddr, if_neg displaced, segAdd_linear linear, Option.getD_some, Bool.not_eq_true']

/-- Check 2 asks a load for R, a store for W, and in user mode for USER. -/
theorem permission_refused (d : SegDesc) (user : Bool) {kind : XKind} (plain : kind = .load ∨ kind = .store) :
    (kind.needsR && !d.r || kind.needsW && !d.w || user && !d.user) = true ↔
      (kind = .load ∧ d.r = false) ∨ (kind = .store ∧ d.w = false) ∨ (user = true ∧ d.user = false) := by
  rcases plain with rfl | rfl <;> simp [XKind.needsR, XKind.needsW]

end

/-- Settles O10: `effAddr_linear` makes the checks one after another; in modulo mode `segAdd_above` and `segAdd_modulo` with `modulo_offset`. -/
theorem addressChecks : Obligations.AddressChecks := by
  unfold Obligations.AddressChecks
  refine ⟨fun c w ⟨_, high⟩ => ?_, fun d scale X disp modulo => ⟨fun above => segAdd_above modulo above scale disp, fun within => ?_⟩⟩
  · intro kind n d X sum off la r refused linear
    have plain : kind = .load ∨ kind = .store := (ite_eq_or_eq (24 ≤ opcodeOf w) XKind.store .load).symm
    have checks := effAddr_linear high linear kind.needsR kind.needsW
    simp only [permission_refused _ _ plain] at checks
    have passed (valid : d.v = true) := checks.trans (if_neg (ne_false_of_eq_true valid))
    have permitted (valid : d.v = true) (good : ¬refused) := (passed valid).trans (if_neg good)
    have fitting (valid : d.v = true) (good : ¬refused) (fits : off + n - 1 ≤ d.limit.toNat) :=
      (permitted valid good).trans (if_neg (not_lt.mpr fits))
    exact ⟨fun invalid => checks.trans (if_pos invalid),
      fun ⟨valid, bad⟩ => (passed valid).trans (if_pos bad),
      fun ⟨valid, good, beyond⟩ => (permitted valid good).trans (if_pos beyond),
      fun ⟨valid, good, fits, misaligned⟩ => (fitting valid good fits).trans (if_pos misaligned),
      fun ⟨valid, good, fits, aligned⟩ => (fitting valid good fits).trans (if_neg (not_not.mpr aligned))⟩
  · exact ⟨_, segAdd_modulo modulo within scale disp, modulo_offset _ _⟩

end Sys2Proof.Machine
end

section
/-!
PROOF. Descriptor images, and LDSG and STSG (Table 9-1, R225 to R228; O13).
-/
namespace Sys2Proof.Machine

/-! ## The words of an image (Table 9-1) -/

/-- Each field of word 3 is found where `SegDesc.image` puts it. -/
theorem flags_fields : ∀ (mode : BitVec 2) (user w r v : Bool),
    let flags := BitVec.ofNat 36 (mode.toNat * 16 + user.toNat * 8 + w.toNat * 4 + r.toNat * 2 + v.toNat)
    (flags.getLsbD 0 = v ∧ flags.getLsbD 1 = r ∧ flags.getLsbD 2 = w ∧ flags.getLsbD 3 = user) ∧
      flags.extractLsb' 4 2 = mode ∧ fld flags 5 4 = mode.toNat ∧ fld flags 35 6 = 0 := by
  decide

section
variable (d : SegDesc)

theorem image_flags : ((d.image 3).getLsbD 0 = d.v ∧ (d.image 3).getLsbD 1 = d.r ∧ (d.image 3).getLsbD 2 = d.w ∧ (d.image 3).getLsbD 3 = d.user) ∧
    (d.image 3).extractLsb' 4 2 = d.mode ∧ fld (d.image 3) 5 4 = d.mode.toNat ∧ fld (d.image 3) 35 6 = 0 := flags_fields ..

theorem image_base_low : fld (d.image 0) 3 0 = d.base.toNat % 16 := by
  rw [fld_low, SegDesc.image, toNat_lowPart]
  exact Nat.mod_mod_of_dvd _ (pow_dvd_pow 2 (by decide : 4 ≤ 36))

theorem image_base_reserved : fld (d.image 1) 35 12 = 0 := by
  have small : (d.image 1).toNat < 2 ^ 12 := by
    rw [SegDesc.image, BitVec.toNat_setWidth_of_le (by decide)]
    exact BitVec.isLt _
  rw [fld, Nat.div_eq_of_lt small, Nat.zero_mod]

theorem image_base : (d.image 1).extractLsb' 0 12 ++ d.image 0 = d.base := by
  have high : (d.image 1).extractLsb' 0 12 = d.base.extractLsb' 36 12 :=
    (BitVec.extractLsb'_setWidth_of_le (by decide)).trans BitVec.extractLsb'_eq_self
  rw [high]
  exact (BitVec.extractLsb'_append_extractLsb'_eq_extractLsb' (start₁ := 0) rfl).trans BitVec.extractLsb'_eq_self

end

/-- R225: with V = 0 an image is the null descriptor. -/
theorem segOfImage_null {d : SegDesc} (invalid : d.v = false) : segOfImage d.image = some SegDesc.null := by
  obtain ⟨⟨v, -⟩, -⟩ := image_flags d
  rw [segOfImage, v, invalid]
  rfl

/-- The image of a well-formed descriptor is read back as that descriptor. -/
theorem segOfImage_image {d : SegDesc} (valid : d.v = true) (aligned : d.base.toNat % 16 = 0) (limit : limitOk d.mode.toNat d.limit.toNat = true) :
    segOfImage d.image = some d := by
  obtain ⟨⟨v, r, w, user⟩, mode, modeNumber, reserved⟩ := image_flags d
  rw [segOfImage, v, if_neg (by simp [valid]),
    if_pos ⟨image_base_reserved d, reserved, (image_base_low d).trans aligned, by rw [modeNumber]; exact limit⟩,
    image_base, mode, user, w, r, ← valid]
  rfl

/-! ## Marks of a recording leave the cores alone (R338) -/

theorem mftEndChunk_core (s : State) (k cause j : Nat) : (s.mftEndChunk k cause).core j = s.core j := by
  unfold State.mftEndChunk
  split
  · refine ((CtlOnly.count ..).core j).trans ?_
    split <;> rfl
  · rfl

theorem mftMark_core (s : State) (k line : Nat) (isWrite : Bool) (j : Nat) : (s.mftMark k line isWrite).core j = s.core j := by
  unfold State.mftMark State.mftMarkAt
  split
  · split
    · rfl
    · extract_lets s1 _ s2
      have conflicts : s1.core j = s.core j := foldl_keeps (p := fun t : State => t.core j = s.core j) (fun t e ht => by
        split
        · exact (mftEndChunk_core ..).trans ht
        · exact ht) _ _ rfl
      have input : s2.core j = s.core j := by
        unfold s2
        split <;> exact conflicts
      split
      · split <;> split <;> exact input
      · exact input
  · rfl

theorem markParts_core (s : State) (k : Nat) (a : MemAcc) (n : Nat) (isWrite : Bool) (j : Nat) : (s.markParts k a n isWrite).core j = s.core j :=
  foldl_keeps (p := fun t : State => t.core j = s.core j) (fun t p ht => by
    split
    · exact ht
    · exact (mftMark_core ..).trans ht) _ _ rfl

/-! ## LDSG (R226) -/

section
variable {s s1 t : State} {x : At} {w : Word} {a : MemAcc} {k : Nat} {mb : List MbEntry}

/-- An image that is not well formed. -/
theorem ldsgDo_illFormed (clean : s.poisonAt k a 16 = none)
    (bad : segOfImage (fun i => BitVec.ofNat 36 (s.readAcc k a 16 / 2 ^ (36 * i))) = none) :
    s.ldsgDo k w a = .trap (s.markParts k a 16 false) ⟨3, 5, a.off, none⟩ := by
  rw [State.ldsgDo, clean]
  dsimp only
  rw [bad]

/-- A well-formed image, which in user mode is null or usable there. -/
theorem ldsgDo_wellFormed {d : SegDesc} (clean : s.poisonAt k a 16 = none)
    (image : segOfImage (fun i => BitVec.ofNat 36 (s.readAcc k a 16 / 2 ^ (36 * i))) = some d)
    (may : (s.core k).user = false ∨ d.v = false ∨ d.user = true) :
    s.ldsgDo k w a = .done (s.markParts k a 16 false) ((.sg (dstOf w) d, 4) :: newBase w a.newb) .fall := by
  have granted : ((s.core k).user && d.v && !d.user) = false := by
    rcases may with h | h | h <;> simp [h]
  rw [State.ldsgDo, clean]
  dsimp only
  rw [image]
  dsimp only
  rw [markParts_core, granted, baseUpd_eq]
  rfl

/-- LDSG that has nothing to wait for performs its access. -/
theorem exec_ldsg (h : Issues s x w 0 s1) (op : opcodeOf w = 22) (hr : s1.resolve x.core w = (t, .ok a)) (device : a.device = false)
    (memory : t.isControl a.pa = false) (ready : t.need x.core .load a (a.parts 16) = .ready) :
    exec (.ldsg x w) s = .next (State.finish x.core x.slot w (t.ldsgDo x.core w a)) := by
  have kind : kindOf (opcodeOf w) = .load := kindOf_load (by omega)
  have size : sizeOf' (opcodeOf w) = 16 := by rw [op]; rfl
  have orders : t.waitsEmpty w a = false := by simp [State.waitsEmpty, device, memory, kind]
  have performed : t.perform x.core w a = t.ldsgDo x.core w a := by
    rw [State.perform, kind]
    exact if_pos op
  rw [exec_mem h (n := 22) rfl op, memBody_attempt hr (by rw [kind]; rfl) orders, attempt_ready (by rw [kind, size]; exact ready), performed]

/-! ## STSG (R228) -/

/-- STSG stores the image of the segment register it names, word 0 lowest. -/
theorem storeVal_stsg (op : opcodeOf w = 28) (c : Core) (a : MemAcc) :
    let d := c.seg (dstOf w)
    storeVal c w a = (d.image 0).toNat + 2 ^ 36 * (d.image 1).toNat + 2 ^ 72 * (d.image 2).toNat + 2 ^ 108 * (d.image 3).toNat := by
  rw [storeVal, if_pos op]
  simp [List.range_succ, Nat.mul_comm]

/-- STSG to cached memory in normal mode joins the merging buffer, and retires. -/
theorem exec_stsg (h : Issues s x w 0 s1) (op : opcodeOf w = 28) (hr : s1.resolve x.core w = (t, .ok a)) (device : a.device = false)
    (normal : (t.core x.core).ft = false) (one : a.hi = none) (cached : t.isCached a.pa = true)
    (room : mbPut (t.core x.core).mb a.pa (valBytes (storeVal (t.core x.core) w a) 16) (t.chunkOf x.core) (t.core x.core).ccyc = some mb) :
    exec (.stsg x w) s = .next ((t.stores x.core a.pa 16 (storeVal (t.core x.core) w a) mb).retire x.core x.slot w (newBase w a.newb) .fall) := by
  have kind : kindOf (opcodeOf w) = .store := kindOf_store (by omega) (by omega)
  have size : sizeOf' (opcodeOf w) = 16 := by rw [op]; rfl
  have orders : t.waitsEmpty w a = false := by simp [State.waitsEmpty, device, isControl_of_isCached cached, kind]
  have parts : a.parts 16 = [(a.pa, 16)] := by rw [MemAcc.parts, one]
  have stored (v : Nat) : storeParts a 16 v = [(a.pa, valBytes v 16)] := by rw [storeParts, one]
  have ready : t.need x.core .store a (a.parts 16) = .ready := need_store normal device (by simpa [parts] using cached)
  have performed : t.perform x.core w a = t.storeDo x.core w a := by rw [State.perform, kind]
  rw [exec_mem h (n := 28) rfl op, memBody_attempt hr (by rw [kind]; rfl) orders, attempt_ready (by rw [kind, size]; exact ready), performed,
    storeDo_cached normal device (mb := mb) (by simpa [size, stored] using cached) (by rw [size, stored, mbPutAll, room]; rfl), size]
  rfl

end

/-- Settles O13: LDSG by `exec_ldsg` and what `ldsgDo` makes of the image, STSG by `exec_stsg` and `storeVal_stsg`, and the images by
`segOfImage_null` and `segOfImage_image`. -/
theorem segmentTransfers : Obligations.SegmentTransfers := by
  unfold Obligations.SegmentTransfers
  refine ⟨fun s s1 s2 x w a h hr device memory => ⟨fun op ready clean => ?_, fun op normal one cached mb room => ?_⟩,
    fun d => ⟨segOfImage_null, segOfImage_image⟩⟩
  · have performed := exec_ldsg h op hr device memory ready
    split
    next bad => rw [performed, ldsgDo_illFormed clean bad]; rfl
    next d image =>
      intro may
      rw [performed, ldsgDo_wellFormed clean image may]
      rfl
  · rw [← storeVal_stsg op _ a] at room ⊢
    exact exec_stsg h op hr device normal one cached room

end Sys2Proof.Machine
end

section
/-!
PROOF. Flat translation, the checks at a leaf and the walk (R242, R244, R249, R252, R257, R259; O17). One clause of the statement needs a
board of Table 15-1: `flat_dram_foreign` proves it there, and `not_translation` refutes it for a board whose DRAM would reach into the
Clearings. What the other clauses say is given by the rules of `flat`, `physFor`, `useLeaf` and `walkFrom`.
-/
namespace Sys2Proof.Machine

/-! ## Ownership (R173, R244) -/

section
variable {s : State} {x : XCtx} {kind : XKind} {pa n : Nat}

theorem physFor_exempt (cmo : kind.isCmo = true) (h : s.isControl pa = true ∨ isClearing pa = true) : s.physFor x kind pa = none :=
  if_pos (by simpa [cmo] using h)

theorem physFor_of_not_cmo (h : kind.isCmo = false) : s.physFor x kind pa = s.physFault x.cmp x.user pa := if_neg (by simp [h])

theorem physFault_dram_foreign (dram : s.region pa = .dram) (foreign : s.owns n pa = false) (user : Bool) :
    s.physFault (some n) user pa = some 6 := by
  rw [State.physFault, dram]
  simp [State.ownsBy, foreign]

/-- With at most 2^28 lines a subchannel, as Table 15-1 has it, DRAM ends below the Clearings. -/
theorem isClearing_dram (board : s.board.log2Lines ≤ 28) (dram : s.region pa = .dram) : isClearing pa = false := by
  have capacity : s.dramBytes ≤ 2 ^ 38 := Nat.pow_le_pow_right (by decide) (by omega)
  have inside : pa < s.dramBytes := by
    by_contra out
    rw [State.region, if_neg out] at dram
    split_ifs at dram
    dsimp only at dram
    split_ifs at dram
  simp only [isClearing, Bool.and_eq_false_iff, decide_eq_false_iff_not]
  omega

theorem physFor_dram_foreign (board : s.board.log2Lines ≤ 28) (dram : s.region pa = .dram) (cmp : x.cmp = some n) (foreign : s.owns n pa = false) :
    s.physFor x kind pa = some 6 := by
  have memory : s.isControl pa = false := by rw [State.isControl, dram]
  rw [State.physFor, memory, isClearing_dram board dram, cmp, if_neg (by simp)]
  exact physFault_dram_foreign dram foreign x.user

end

/-! ## Translation with TR = 0 (R242) -/

section
variable {s : State} {x : XCtx} {kind : XKind} {la n f : Nat}

theorem flat_beyond (high : 2 ^ 42 ≤ la) : s.flat x kind la = .error (4, 6) := if_pos high

theorem flat_owned (low : la < 2 ^ 42) (owned : s.physFor x kind la = none) :
    s.flat x kind la = .ok { pa := la, device := s.isControl la, level := 0 } := by
  rw [State.flat, if_neg (not_le.mpr low), owned]

theorem flat_fault (low : la < 2 ^ 42) (fault : s.physFor x kind la = some f) : s.flat x kind la = .error (4, f) := by
  rw [State.flat, if_neg (not_le.mpr low), fault]

/-- The clause of O17 about DRAM of another compartment, on a board of Table 15-1. -/
theorem flat_dram_foreign (board : s.board.log2Lines ≤ 28) (cmp : x.cmp = some n) (dram : s.region la = .dram) (foreign : s.owns n la = false)
    (low : la < 2 ^ 42) : s.flat x kind la = .error (4, 6) :=
  flat_fault low (physFor_dram_foreign board dram cmp foreign)

end

/-! ## The checks at a leaf, in their order (R257, R259) -/

/-- The physical address that a leaf gives a linear address (R252). -/
def leafPa (e : DWord) (la size : Nat) : Nat := efld e 41 12 * 4096 / 2 ^ size * 2 ^ size + la % 2 ^ size

/-- The leaf is closed to the mode of the access (Table 10-8). -/
@[reducible] def closedToMode (kind : XKind) (user : Bool) (e : DWord) : Prop :=
  (user = true ∧ ebit e 5 = false) ∨ (kind.isFetch = true ∧ user = false ∧ ebit e 5 = true)

/-- Nothing is fetched from DEVICE memory, nor from the control space; the local memories ignore the type (R197, R260). -/
theorem noExec_iff {s : State} {e : DWord} {pa : Nat} :
    s.noExec e pa = true ↔ (efld e 11 9 = 1 ∧ s.isLocal pa = false) ∨ s.isControl pa = true := by
  simp [State.noExec, eMtype, or_comm]

theorem permFault_eq (kind : XKind) (user : Bool) (e : DWord) (noExec : Bool) : permFault kind user e noExec =
    if closedToMode kind user e then some 5
    else if kind.needsR = true ∧ ebit e 2 = false then some 2
    else if kind.needsW = true ∧ ebit e 3 = false then some 3
    else if kind.isFetch = true ∧ (ebit e 4 = false ∨ noExec = true) then some 4 else none := by
  simp [permFault, closedToMode, and_assoc]

theorem markFault_eq (kind : XKind) (e : DWord) : markFault kind e =
    if kind.isCmo = true ∨ kind.ahead = true then none
    else if ebit e 7 = false then some 1
    else if kind.needsD = true ∧ ebit e 8 = false then some 2 else none := by
  simp [markFault]

section
variable {s : State} {x : XCtx} {kind : XKind} {la level size f : Nat} {e : DWord}

theorem useLeaf_permission (h : permFault kind x.user e (s.noExec e (leafPa e la size)) = some f) :
    s.useLeaf x kind la e level size = .error (4, f + 8 * level) := by
  rw [leafPa, ← eAddr] at h
  rw [State.useLeaf, h]

theorem useLeaf_ownership (may : permFault kind x.user e (s.noExec e (leafPa e la size)) = none)
    (h : s.physFor x kind (leafPa e la size) = some f) : s.useLeaf x kind la e level size = .error (4, f + 8 * level) := by
  rw [leafPa, ← eAddr] at may h
  rw [State.useLeaf, may, h]

theorem useLeaf_marks (may : permFault kind x.user e (s.noExec e (leafPa e la size)) = none)
    (owned : s.physFor x kind (leafPa e la size) = none) (h : markFault kind e = some f) :
    s.useLeaf x kind la e level size = .error (6, f + 8 * level) := by
  rw [leafPa, ← eAddr] at may owned
  rw [State.useLeaf, may, owned, h]

theorem useLeaf_ok (may : permFault kind x.user e (s.noExec e (leafPa e la size)) = none)
    (owned : s.physFor x kind (leafPa e la size) = none) (marked : markFault kind e = none) :
    s.useLeaf x kind la e level size =
      .ok { pa := leafPa e la size, device := s.isControl (leafPa e la size) || efld e 11 9 == 1, level := level } := by
  rw [leafPa, ← eAddr] at may owned ⊢
  rw [State.useLeaf, may, owned, marked, eMtype]

end

/-! ## One level of a walk (R249, R252) -/

/-- Where the entry of a level lies, in the table at `t` (R247). -/
def entryAt (la t L : Nat) : Nat := t + 8 * (la / 2 ^ (12 + 9 * (L - 1)) % 512)

theorem walkFrom_cons {s : State} {x : XCtx} {la t L : Nat} (rest : List Nat) (inside : s.tableCheck x.cmp (entryAt la t L) = 0)
    (clean : s.mem.poisoned (entryAt la t L / 64) = false) :
    let e : DWord := BitVec.ofNat 72 (s.mem.read (entryAt la t L) 8)
    s.walkFrom x la (L :: rest) t =
      if ebit e 0 = false then (.fault 4 1 L 0, [entryAt la t L])
      else if malformed x.pow2 L e = true then (.fault 5 4 L 0, [entryAt la t L])
      else if ebit e 1 = true then (.leaf e L, [entryAt la t L])
      else
        let deeper := s.walkFrom x la rest (efld e 41 12 * 4096)
        (deeper.1, entryAt la t L :: deeper.2) := by
  rw [entryAt] at inside clean ⊢
  simp only [State.walkFrom, inside, lineOf, clean, eV, eLeaf, eAddr, Bool.not_eq_true', Bool.false_eq_true, if_false]
  congr

/-! ## The refutation -/

/-- A state whose board has 2^32 lines a subchannel: its DRAM takes the whole physical space, Clearings and all, and no one owns any of it. -/
def oversized : State := { State.reset with board := { Board.largest with log2Lines := 32 } }

/-- Compartment 0, with TR = 0. -/
def flatCtx : XCtx := { tr := false, user := false, root := 0, asid := 0, cmp := some 0, pow2 := false }

theorem oversized_dram : oversized.region 0x3F000000000 = .dram := if_pos (by decide)

theorem oversized_foreign : oversized.owns 0 0x3F000000000 = false := by
  rw [State.owns, oversized_dram]
  rfl

/-- Refutes O17: on a board whose DRAM reaches the Clearings, a CMO names an address that is both DRAM of no one, so that the statement
asks for PGF PHYS, and a Clearing, which `physFor_exempt` leaves unchecked. No board of Table 15-1 has so much DRAM, and there the clause
is `flat_dram_foreign`; the statement, however, is of every state. -/
theorem not_translation : ¬ Obligations.Translation := by
  unfold Obligations.Translation
  rintro ⟨leafChecks, -⟩
  obtain ⟨-, -, dramForeign, -⟩ := leafChecks oversized flatCtx .cmoClean 0x3F000000000 0 0 0
  have fault : oversized.flat flatCtx .cmoClean 0x3F000000000 = .error (4, 6) :=
    dramForeign 0 rfl oversized_dram oversized_foreign (by decide)
  have passes := flat_owned (s := oversized) (x := flatCtx) (la := 0x3F000000000) (by decide)
    (physFor_exempt (kind := .cmoClean) rfl (.inr (by decide)))
  rw [fault] at passes
  cases passes

end Sys2Proof.Machine
end

section
/-!
PROOF. Entries at a boundary, the timer and the inter-core interrupt (R272, R277, R281 to R283, R591, R592; O30).
-/
namespace Sys2Proof.Machine

/-! ## Entries at a boundary, with nothing recorded and nothing replayed -/

section
variable {s : State} {k : Nat}

theorem chunkFull_live (idle : smFind? s.mftc k = none) : s.chunkFull k = s := by
  simp [State.chunkFull, idle]

theorem landFault_live (live : s.replaying k = false) : s.landFault k = s := by
  simp [State.landFault, live]

theorem wake_running (running : (s.core k).run = .running) (live : s.replaying k = false) : s.wake k = s := by
  simp [State.wake, landRecorded_live live, running]

/-- With no operation in flight no cell can fail under one. -/
theorem cellError_idle (idle : (s.core k).xops = []) : s.cellError k = s := by
  simp [State.cellError, idle]

section
variable (running : (s.core k).run = .running) (boundary : s.interruptible k = true) (idle : smFind? s.mftc k = none)
  (live : s.replaying k = false)
include running boundary idle live

theorem exec_interruptEntry (unstepped : (s.core k).dbgStep = false) (noCheck : s.mceDue k = false) (noLong : s.longDue k = false)
    (due : s.intDue k = true) :
    exec (.interruptEntry k) s = .next (s.enter k ⟨0, ((lowestBit (s.pendingSources k)).getD 0) % 32, 0, (s.core k).pc, 0⟩) := by
  show execInterruptEntry k s = _
  simp [execInterruptEntry, wake_running running live, boundary, noCheck, noLong, due, unstepped, chunkFull_live idle, nondet_live idle live]

theorem exec_long {f : LongFault} {rest : List LongFault} (unstepped : (s.core k).dbgStep = false) (noCheck : s.mceDue k = false)
    (due : s.longDue k = true) (oldest : (s.core k).faults = f :: rest) :
    exec (.long k) s =
      .next ((s.modCore k (fun c => { c with faults := rest })).enter k ⟨10, f.sub, f.code, (s.core k).pc, f.addr⟩) := by
  show execLong k s = _
  simp [execLong, wake_running running live, boundary, noCheck, due, unstepped, landFault_live live, oldest, chunkFull_live idle,
    nondet_live idle live]

theorem exec_machineCheckAsync {sub : Nat} (due : sub ∈ (s.core k).mce ∨ (sub = 4 ∧ (s.core k).xops = []) ∨ sub = 5) (low : 3 ≤ sub)
    (high : sub ≤ 5) :
    exec (.machineCheckAsync k sub) s =
      .next ((s.modCore k (fun c => { c with mce := c.mce.erase sub })).enter k ⟨12, sub, 0, (s.core k).pc, 0⟩) := by
  have owed : ((s.core k).mce.contains sub || sub == 4 || sub == 5) = true := by
    rcases due with listed | ⟨found, -⟩ | found <;> simp [*]
  have cells : (if sub = 4 ∧ (!(s.core k).mce.contains 4) = true then s.cellError k else s) = s := by
    split
    case isTrue h =>
      obtain ⟨rfl, fresh⟩ := h
      rcases due with listed | ⟨-, unused⟩ | five
      · simp [listed] at fresh
      · exact cellError_idle unused
      · cases five
    case isFalse => rfl
  show execMachineCheckAsync k sub s = _
  simp only [execMachineCheckAsync, landRecorded_live live, running, reduceCtorEq, if_false, live, Bool.false_eq_true, boundary, owed, low, high,
    decide_true, Bool.and_self, if_true, chunkFull_live idle, nondet_live idle live, cells, State.core_modCore]

end

/-! ## A machine check that cannot be handled (R592) -/

/-- Halting a compartment that is in the Chart leaves it HALTED, whatever its cores are at. -/
theorem haltCmp_cmpState {n : Nat} (live : s.cmpState n ≠ .absent) : (s.haltCmp n).cmpState n = .halted := by
  unfold State.haltCmp
  split
  case isTrue h => simpa [live] using h
  case isFalse =>
    rw [(Steady.event (p := False) .refl).cmpState n, State.cmpState_setCmpState, if_pos rfl]

theorem enter_fatal {n : Nat} {e : Entry} (owned : s.cmpOf k = some n) (live : s.cmpState n ≠ .absent) (check : e.code = 12)
    (fatal : (s.core k).fatalMce e.sub = true) : (s.enter k e).cmpState n = .halted := by
  simp only [State.enter, check, fatal, decide_true, Bool.and_self, if_true, owned]
  refine haltCmp_cmpState ?_
  rwa [(Steady.event (p := False) .refl).cmpState n]

end

/-! ## GRV.IPI_i and TIMER (R282, R283) -/

/-- The place of a slot's IPI register in the control space. -/
theorem ctlLoc_grvIpi {g h : Nat} (hg : g < 12) (hh : h < 20) : ctlLoc (o_grvIpi g h) = some ⟨.grv, 0x1008 + 0x10 * h, false, o_grvIpi g h⟩ := by
  have page : o_grvIpi g h / 0x10000 % 16 = 0 := by unfold o_grvIpi; omega
  have inner : o_grvIpi g h % 0x10000 = 0x1008 + 0x10 * h := by unfold o_grvIpi; omega
  have grove : 0x200000 ≤ o_grvIpi g h ∧ o_grvIpi g h < 0xE00000 := by unfold o_grvIpi; omega
  simp only [ctlLoc, grove, page, halfLoc, inner, and_self, if_true]
  rw [if_pos (by omega)]

theorem resetVal_grvIpi {g h : Nat} (hg : g < 12) (hh : h < 20) : resetVal (o_grvIpi g h) = 0 := by
  have row : ∀ h < 20, ((findRow (blkRows .grv) (0x1008 + 0x10 * h)).map (fun e => e.1.reset)) = some 0 := by decide
  have mine := row h hh
  rw [resetVal, ctlLoc_grvIpi hg hh]
  simp only [rowAt]
  cases found : findRow (blkRows .grv) (0x1008 + 0x10 * h) with
  | none => simp [found] at mine
  | some e =>
    have zero : e.1.reset = 0 := by simpa [found] using mine
    simp [zero, r32]

/-- A register that is read with its reset value for a default. -/
theorem ctlD_resetVal (s : State) {off : Nat} {d : Reg32} (h : resetVal off = d) : s.ctlD off d = s.ctlGet off := by
  subst h
  unfold State.ctlD State.ctlGet
  cases smFind? s.ctl off <;> rfl

section
variable {s : State} {k : Nat}

theorem present_lt (h : s.present k = true) : groveOf k < 12 ∧ slotOf k < 20 := by
  have slots : k < 240 := by
    simp only [State.present, Bool.and_eq_true, decide_eq_true_eq] at h
    exact h.1
  unfold groveOf slotOf
  omega

theorem ipiPend_eq (h : s.present k = true) : s.ipiPend k = fbit (s.ctlGet (o_grvIpi (groveOf k) (slotOf k))) 0 := by
  obtain ⟨grove, slot⟩ := present_lt h
  rw [State.ipiPend, ctlD_resetVal s (resetVal_grvIpi grove slot)]

theorem ipiSet_pend (h : s.present k = true) : (s.ipiSet k).ipiPend k = true := by
  have same : (s.ipiSet k).present k = true := h
  rw [ipiPend_eq same, State.ipiSet, State.ctlMod, State.ctlGet_ctlSet, if_pos rfl, fbit_fone _ _ _ (by decide), if_pos rfl]

/-- One source may be shown late from now on: nothing else differs, and its lag is bounded. -/
theorem lag_unless (c : Prop) [Decidable c] (s : State) (key bound : Nat) (old : Bool) (j : Nat) :
    ∃ lags count, (if c then s else s.lag key bound old) = { s with lags := lags, lagCount := count } ∧
      ∀ e, smFind? lags j = some e → smFind? s.lags j = some e ∨ key = j ∧ e.2 ≤ s.time + bound := by
  split
  · exact ⟨s.lags, s.lagCount, rfl, fun e => .inl⟩
  · refine ⟨_, _, rfl, fun e found => ?_⟩
    rw [smFind?_smSet] at found
    split at found
    case isTrue same =>
      obtain rfl := Option.some.inj found
      exact .inr ⟨same, Nat.add_le_add_left (Nat.le_of_lt_succ (Nat.mod_lt _ bound.succ_pos)) _⟩
    case isFalse => exact .inl found

/-- A write of a slot's interrupt registers changes what is shown of its sources, and nothing else; IPI is shown within 100 ns. -/
theorem slotWritten_lags (s was : State) (k : Nat) :
    ∃ lags count, s.slotWritten was k = { s with lags := lags, lagCount := count } ∧
      ∀ e, smFind? lags (2 * k + 1) = some e → smFind? s.lags (2 * k + 1) = some e ∨ e.2 ≤ s.time + 100 := by
  unfold State.slotWritten
  obtain ⟨lags, count, ipi, shown⟩ := lag_unless (s.ipiPend k = was.ipiPend k) s (2 * k + 1) 100 (was.srcIpi k) (2 * k + 1)
  dsimp only
  rw [ipi]
  obtain ⟨lags', count', timer, shown'⟩ :=
    lag_unless (State.compare { s with lags := lags, lagCount := count } k = was.compare k)
      { s with lags := lags, lagCount := count } (2 * k) 10 (was.srcTimer k) (2 * k + 1)
  refine ⟨lags', count', timer, fun e found => ?_⟩
  rcases shown' e found with first | ⟨other, -⟩
  · exact (shown e first).imp id And.right
  · omega

theorem exec_timer (h : s.present k = true) (ahead : s.time < s.compare k + Config.timerLag k (s.compare k) % 11) :
    exec (.timer k) s = .next { s with time := s.compare k + Config.timerLag k (s.compare k) % 11 } := by
  show execTimer k s = _
  simp [execTimer, h, ahead]

/-- After the lag, and with no other, TIMER is pending (R282). -/
theorem srcTimer_shown {shown : Nat} (at_ : shown = s.compare k + Config.timerLag k (s.compare k) % 11) (small : shown < 2 ^ 64)
    (unlagged : smFind? s.lags (2 * k) = none) : ({ s with time := shown } : State).srcTimer k = true := by
  show State.lagged _ _ (decide (s.compare k ≤ shown % 2 ^ 64) &&
    decide (s.compare k + Config.timerLag k (s.compare k) % 11 ≤ shown % 2 ^ 64)) = _
  simp only [State.lagged, unlagged, Nat.mod_eq_of_lt small, Bool.and_eq_true, decide_eq_true_eq]
  omega

/-- A source whose lag is over is shown as it is. -/
theorem lagged_past {key : Nat} (now : Bool) (past : ∀ e, smFind? s.lags key = some e → e.2 ≤ s.time) : s.lagged key now = now := by
  unfold State.lagged
  split
  next old t found => rw [if_neg (Nat.not_lt.mpr (past _ found))]
  next => rfl

theorem ipiPend_relagged (s : State) (lags : SMap (Bool × Nat)) (count : Nat) :
    ({ s with lags := lags, lagCount := count } : State).ipiPend k = s.ipiPend k := rfl

/-- IPI.SET sets PEND and writes no other register (R283). -/
theorem exec_ipiSet (h : s.present k = true) :
    ∃ t, exec (.ipiSet k) s = .next t ∧ t.ipiPend k = true ∧ t.mem = s.mem ∧ t.cores = s.cores ∧
      (∀ off, off ≠ o_grvIpi (groveOf k) (slotOf k) → t.ctlGet off = s.ctlGet off) ∧
      ∀ e, smFind? t.lags (2 * k + 1) = some e → smFind? s.lags (2 * k + 1) = some e ∨ e.2 ≤ s.time + 100 := by
  obtain ⟨lags, count, written, shown⟩ := slotWritten_lags (s.ipiSet k) s k
  refine ⟨{ s.ipiSet k with lags := lags, lagCount := count }, ?_, (ipiPend_relagged ..).trans (ipiSet_pend h), rfl, rfl,
    fun off other => ?_, shown⟩
  · show execIpiSet k s = _
    rw [execIpiSet, if_pos h, written]
  · show (s.ipiSet k).ctlGet off = _
    rw [State.ipiSet, State.ctlMod, State.ctlGet_ctlSet, if_neg other.symm]

end

/-- Settles O30: the entries by `exec_interruptEntry`, `exec_long` and `exec_machineCheckAsync`, a fatal check by `enter_fatal`, the timer by
`srcTimer_shown`, and IPI.SET by `exec_ipiSet`. -/
theorem boundaryEntries : Obligations.BoundaryEntries := by
  unfold Obligations.BoundaryEntries
  refine ⟨fun s k => ?_, fun s k n e owned live check fatal => enter_fatal owned live check fatal, fun s k h => ?_⟩
  · intro c running unstepped boundary idle live
    exact ⟨exec_interruptEntry running boundary idle live unstepped, fun f rest => exec_long running boundary idle live unstepped,
      fun sub => exec_machineCheckAsync running boundary idle live⟩
  · intro cmp shown
    obtain ⟨t, set, pend, mem, cores, ctl, lags⟩ := exec_ipiSet h
    refine ⟨exec_timer h, srcTimer_shown rfl, t, set, pend, mem, cores, ctl, fun bounded now later => ?_⟩
    show State.lagged { t with time := now } (2 * k + 1) (t.ipiPend k) = true
    rw [lagged_past, pend]
    intro e found
    rcases lags e found with before | soon
    · exact Nat.le_trans (bounded e before) later
    · exact Nat.le_trans soon later

end Sys2Proof.Machine
end

section
/-!
PROOF. The commands of the range maintenance engines (R307 to R311; O60): GO and ABORT, and a visit of an engine, which moves lines between
caches and leaves the list of commands as it is.
-/
namespace Sys2Proof.Machine

/-- A field that has been replaced. -/
theorem fget_fset_same (v : Reg32) {hi lo x : Nat} (inside : hi < 32) (fits : x < 2 ^ (hi + 1 - lo)) : fget (fset v hi lo x) hi lo = x := by
  refine Nat.eq_of_testBit_eq fun i => ?_
  rw [testBit_fget]
  by_cases low : i < hi + 1 - lo
  · rw [fbit_fset _ _ _ _ (by omega), if_pos (by omega), Nat.add_sub_cancel_left]
    simp [low]
  · rw [Nat.testBit_lt_two_pow (Nat.lt_of_lt_of_le fits (Nat.pow_le_pow_right (by decide) (Nat.not_lt.mp low)))]
    simp [low]

/-! ## What a visit of an engine does to the caches leaves the commands as they are -/

section
variable {m : Mem} {s : State} {g line stand op : Nat}

theorem Mem.flushLine_ranges : (m.flushLine line).ranges = m.ranges := rfl

theorem Mem.dirRelease_ranges : (m.dirRelease g line).ranges = m.ranges := by
  unfold Mem.dirRelease
  split
  · rfl
  · split
    · split <;> rfl
    · dsimp only
      split
      · split <;> rfl
      · rfl
    · dsimp only
      split <;> rfl

theorem State.dropGrove_ranges : (s.dropGrove g line).mem.ranges = s.mem.ranges := rfl

theorem State.cleanGrove_ranges : (s.cleanGrove g line).mem.ranges = s.mem.ranges := by
  unfold State.cleanGrove
  split
  · rfl
  · extract_lets _ s1 m1
    have sent : s1.mem.ranges = s.mem.ranges := by unfold s1; split <;> simp
    split
    · exact sent
    · simp only [State.setMem_mem]
      split
      · split <;> exact sent
      · exact sent
    · exact sent

theorem State.groveEvict_ranges : (s.groveEvict g line).mem.ranges = s.mem.ranges := by
  unfold State.groveEvict
  split
  · rfl
  · extract_lets s1 s2
    have sent : s1.mem.ranges = s.mem.ranges := State.dropGrove_ranges.trans (congrArg Mem.ranges State.sendWb_mem)
    split
    · rw [State.setMem_mem, Mem.dirRelease_ranges, Mem.flushLine_ranges, sent]
    · split
      · rfl
      · split
        · rfl
        · rw [State.setMem_mem, Mem.dirRelease_ranges]
          rfl

theorem State.discardGrove_ranges : (s.discardGrove g line).mem.ranges = s.mem.ranges := by
  unfold State.discardGrove
  split
  · dsimp only
    rw [State.setMem_mem, Mem.dirRelease_ranges]
    rfl
  · exact State.groveEvict_ranges

theorem State.l2Evict_ranges : (s.l2Evict stand line).mem.ranges = s.mem.ranges := by
  unfold State.l2Evict
  split
  · rfl
  · dsimp only
    split
    · rfl
    · split
      · exact State.groveEvict_ranges
      · split
        · exact State.cleanGrove_ranges
        · rfl

theorem State.groveAct_ranges : (s.groveAct op g line).mem.ranges = s.mem.ranges := by
  unfold State.groveAct
  split
  · exact State.cleanGrove_ranges
  · exact State.discardGrove_ranges
  · exact State.groveEvict_ranges.trans State.cleanGrove_ranges
  · rfl

theorem State.cleanStand_ranges : (s.cleanStand stand line).mem.ranges = s.mem.ranges := by
  unfold State.cleanStand
  split
  · split
    · exact State.cleanGrove_ranges
    · rfl
  · rfl

theorem State.standAct_ranges : (s.standAct op stand line).mem.ranges = s.mem.ranges := by
  unfold State.standAct
  split
  · rfl
  · split
    · exact State.cleanStand_ranges
    · split
      · exact State.discardGrove_ranges
      · exact State.l2Evict_ranges
    · exact State.l2Evict_ranges
    · rfl

theorem State.asEngine_ranges {act : State → State} (h : ∀ t, (act t).mem.ranges = t.mem.ranges) :
    (s.asEngine g line act).mem.ranges = s.mem.ranges := by
  unfold State.asEngine
  split
  · exact h _
  · exact h s

theorem State.engineAct_ranges (r : RangeCmd) : (s.engineAct r line).mem.ranges = s.mem.ranges :=
  State.asEngine_ranges fun t => by split <;> [exact State.groveAct_ranges; exact State.standAct_ranges]

theorem State.markFills_ranges (r : RangeCmd) (p : Nat → Bool) : (s.markFills r p).mem.ranges = s.mem.ranges := by
  unfold State.markFills
  split <;> rfl

end

/-! ## The command of a register set -/

section
variable {s u : State} {l3 : Bool} {g i : Nat} {r q : RangeCmd}

theorem rangeOf_congr (h : u.mem.ranges = s.mem.ranges) : u.rangeOf l3 g i = s.rangeOf l3 g i := congrArg (List.find? _) h

theorem isSet_iff : r.isSet l3 g i = true ↔ r.l3 = l3 ∧ r.grove = g ∧ r.slot = i := by simp [RangeCmd.isSet, and_assoc]

theorem isSet_of_rangeOf (h : s.rangeOf l3 g i = some r) : r.l3 = l3 ∧ r.grove = g ∧ r.slot = i :=
  isSet_iff.mp (List.find?_some (p := fun x : RangeCmd => x.isSet l3 g i) h)

/-- A command takes the place of that of its register set. -/
theorem rangeOf_setRange (h : s.rangeOf r.l3 r.grove r.slot = some q) : (s.setRange r).rangeOf r.l3 r.grove r.slot = some r := by
  have keeps : (fun x : RangeCmd => x.isSet r.l3 r.grove r.slot) ∘ (fun x => if x.isSet r.l3 r.grove r.slot then r else x) =
      fun x => x.isSet r.l3 r.grove r.slot := by
    funext x
    by_cases mine : x.isSet r.l3 r.grove r.slot = true
    · rw [Function.comp, if_pos mine, mine]
      exact isSet_iff.mpr ⟨rfl, rfl, rfl⟩
    · rw [Function.comp, if_neg mine]
  show List.find? _ (List.map _ _) = _
  rw [List.find?_map, keeps, show List.find? _ s.mem.ranges = some q from h]
  exact congrArg some (if_pos (isSet_iff.mpr (isSet_of_rangeOf h)))

/-- A command that has ended is gone, and RESULT tells how it ended. -/
theorem rangeEnd_result (code : Nat) (fits : code < 16) :
    (s.rangeEnd l3 g i code).rangeOf l3 g i = none ∧ fget ((s.rangeEnd l3 g i code).ctlGet (oMstatus l3 g i)) 27 24 = code := by
  constructor
  · show List.find? _ (List.filter _ _) = none
    rw [List.find?_eq_none]
    intro x kept
    simpa using (List.mem_filter.mp kept).2
  · rw [State.rangeEnd, State.ctlMod, State.ctlGet_ctlSet, if_pos rfl, fget_fset_same _ (by decide) fits]

theorem exec_rangeAbort {who : Sender} (ok : s.setOk who l3 g i = true) (runs : s.rangeOf l3 g i = some r) :
    exec (.rangeAbort who l3 g i) s = .next (s.rangeEnd l3 g i 2) := by
  show execRangeAbort who l3 g i s = _
  rw [execRangeAbort, if_pos ok, State.rangeAbort, runs]

end

/-! ## GO (R308) -/

/-- The first byte that MSTART names. -/
def State.goStart (s : State) (l3 : Bool) (g i : Nat) : Nat :=
  ((s.ctlGet (oMstartLo l3 g i)).toNat + 2 ^ 32 * fget (s.ctlGet (oMstartHi l3 g i)) 15 0) / 64 * 64

/-- The lines that MLENGTH names. -/
def State.goLines (s : State) (l3 : Bool) (g i : Nat) : Nat :=
  let n := (s.ctlGet (oMlength l3 g i)).toNat
  if n = 0 then 2 ^ 32 else n

/-- SPACE as it acts: the host's is taken as 0. -/
def goLinear (space : Bool) : Sender → Bool
  | .core _ => space
  | .host => false

theorem goLinear_eq (space : Bool) (who : Sender) : goLinear space who = (space && who != .host) := by
  cases who <;> simp [goLinear]

/-- The end of the space that a range must lie in. -/
def spaceTop (linear : Bool) : Nat := if linear then 2 ^ 48 else 2 ^ 42

/-- The registers of a set with a command begun: OP and SPACE in MCTRL, nothing done, BUSY. -/
def State.goRegs (s : State) (l3 : Bool) (g i op : Nat) (linear : Bool) : State :=
  (((s.ctlMod (oMctrl l3 g i) (fun v => fone (fset v 27 26 op) 25 linear)).ctlSet (oMdone l3 g i) 0).ctlSet (oMskipped l3 g i) 0).ctlMod
    (oMstatus l3 g i) (fun v => fset (fone (fone v 31 true) 30 false) 27 24 0)

section
variable {s : State} {who : Sender} {l3 : Bool} {g i op : Nat} {space linear : Bool}

theorem goRegs_busy : fbit ((s.goRegs l3 g i op linear).ctlGet (oMstatus l3 g i)) 31 = true := by
  rw [State.goRegs, State.ctlMod, State.ctlGet_ctlSet, if_pos rfl, fbit_fset _ _ _ _ (by decide), if_neg (by decide), fbit_fone _ _ _ (by decide),
    if_neg (by decide), fbit_fone _ _ _ (by decide), if_pos rfl]

/-- Beginning a command leaves MSTART and MLENGTH. -/
theorem goRegs_ctlGet {off : Nat} (other : off = oMctrl l3 g i + 8 ∨ off = oMctrl l3 g i + 0xC ∨ off = oMctrl l3 g i + 0x10) :
    (s.goRegs l3 g i op linear).ctlGet off = s.ctlGet off := by
  have status : oMstatus l3 g i ≠ off := by unfold oMstatus; omega
  have skipped : oMskipped l3 g i ≠ off := by unfold oMskipped; omega
  have done : oMdone l3 g i ≠ off := by unfold oMdone; omega
  have ctrl : oMctrl l3 g i ≠ off := by omega
  simp only [State.goRegs, State.ctlMod, State.ctlGet_ctlSet, if_neg status, if_neg skipped, if_neg done, if_neg ctrl]

theorem goRegs_start : (s.goRegs l3 g i op linear).goStart l3 g i = s.goStart l3 g i := by
  rw [State.goStart, goRegs_ctlGet (off := oMstartLo l3 g i) (.inl rfl), goRegs_ctlGet (off := oMstartHi l3 g i) (.inr (.inl rfl)), State.goStart]

theorem goRegs_lines : (s.goRegs l3 g i op linear).goLines l3 g i = s.goLines l3 g i := by
  rw [State.goLines, goRegs_ctlGet (off := oMlength l3 g i) (.inr (.inr rfl)), State.goLines]

theorem rangeGo_busy (busy : (s.rangeOf l3 g i).isSome = true) :
    s.rangeGo who l3 g i op space = s.ctlMod (oMstatus l3 g i) (fun v => fone v 29 true) := by
  obtain ⟨r, runs⟩ := Option.isSome_iff_exists.mp busy
  unfold State.rangeGo
  rw [runs]

/-- GO at a register set without a command: a range beyond its space ends at once, and any other command is listed. -/
theorem rangeGo_free (free : s.rangeOf l3 g i = none) :
    ∃ r : RangeCmd, r.isSet l3 g i = true ∧ r.op = op ∧ r.linear = goLinear space who ∧ r.start = s.goStart l3 g i ∧
      r.lines = s.goLines l3 g i ∧ r.done = 0 ∧
      s.rangeGo who l3 g i op space =
        let t := s.goRegs l3 g i op (goLinear space who)
        if spaceTop (goLinear space who) < s.goStart l3 g i + 64 * s.goLines l3 g i then t.rangeEnd l3 g i 1
        else t.setMem { t.mem with ranges := t.mem.ranges ++ [r] } := by
  rw [← goRegs_start (op := op) (linear := goLinear space who), ← goRegs_lines (op := op) (linear := goLinear space who)]
  let t := s.goRegs l3 g i op (goLinear space who)
  let c : Core := match who with
    | .core k => t.core k
    | .host => Core.zero
  refine ⟨⟨g, i, l3, op, goLinear space who, t.goStart l3 g i, t.goLines l3 g i, t.cmpOf (g * 20 + i), c.tr, c.ptbase, c.asid, 0, 0⟩,
    isSet_iff.mpr ⟨rfl, rfl, rfl⟩, rfl, rfl, rfl, rfl, rfl, ?_⟩
  unfold State.rangeGo
  rw [free]
  cases who <;> rfl

/-- A command whose range lies in its space begins, with nothing done. -/
theorem rangeGo_begins (free : s.rangeOf l3 g i = none)
    (fits : s.goStart l3 g i + 64 * s.goLines l3 g i ≤ spaceTop (goLinear space who)) :
    ∃ r, (s.rangeGo who l3 g i op space).rangeOf l3 g i = some r ∧ r.op = op ∧ r.linear = goLinear space who ∧ r.start = s.goStart l3 g i ∧
      r.lines = s.goLines l3 g i ∧ r.done = 0 ∧ fbit ((s.rangeGo who l3 g i op space).ctlGet (oMstatus l3 g i)) 31 = true := by
  obtain ⟨r, mine, isOp, linear, start, lines, done, go⟩ := rangeGo_free (who := who) (op := op) (space := space) free
  rw [go]
  dsimp only
  rw [if_neg (Nat.not_lt.mpr fits)]
  refine ⟨r, ?_, isOp, linear, start, lines, done, by rw [ctlGet_of_ctl (State.setMem_ctl ..), goRegs_busy]⟩
  have empty : List.find? (fun q : RangeCmd => q.isSet l3 g i) s.mem.ranges = none := free
  show List.find? _ (s.mem.ranges ++ [r]) = _
  rw [List.find?_append, empty, Option.none_or]
  simp [mine]

theorem rangeGo_beyond (free : s.rangeOf l3 g i = none)
    (beyond : spaceTop (goLinear space who) < s.goStart l3 g i + 64 * s.goLines l3 g i) :
    (s.rangeGo who l3 g i op space).rangeOf l3 g i = none ∧ fget ((s.rangeGo who l3 g i op space).ctlGet (oMstatus l3 g i)) 27 24 = 1 := by
  obtain ⟨_, -, -, -, -, -, -, go⟩ := rangeGo_free (who := who) (op := op) (space := space) free
  rw [go]
  dsimp only
  rw [if_pos beyond]
  exact rangeEnd_result 1 (by decide)

/-- The three commands of GO (Table 12-4). -/
def goCommands (who : Sender) (l3 : Bool) (g i : Nat) (space : Bool) : List (Nat × Instr) :=
  [(1, .rangeClean who l3 g i space), (2, .rangeInvalidate who l3 g i space), (3, .rangeCleanAndInvalidate who l3 g i space)]

theorem exec_go (ok : s.setOk who l3 g i = true) : ∀ c ∈ goCommands who l3 g i space, exec c.2 s = .next (s.rangeGo who l3 g i c.1 space) := by
  have started (op : Nat) : rangeStart who l3 g i op space s = .next (s.rangeGo who l3 g i op space) := by rw [rangeStart, if_pos ok]
  intro c listed
  simp only [goCommands, List.mem_cons, List.not_mem_nil, or_false] at listed
  rcases listed with rfl | rfl | rfl <;> exact started _

end

/-! ## A visit of an engine (R311) -/

/-- The visit that a command is at is its last. -/
def RangeCmd.atLast (r : RangeCmd) : Prop := if r.walks then 2048 ≤ r.done + 1 else r.lines ≤ r.done + 1

section
variable {s : State} {r : RangeCmd}

/-- What one visit comes to: the lines it names have been acted on, in a state `t` with the same commands; the command counts the visit, and
ends with RESULT 0 at its last. -/
theorem rangeStep_visit (s : State) (r : RangeCmd) : ∃ (t : State) (r' : RangeCmd), t.mem.ranges = s.mem.ranges ∧
    r'.l3 = r.l3 ∧ r'.grove = r.grove ∧ r'.slot = r.slot ∧ r'.op = r.op ∧ r'.done = r.done + 1 ∧
    (r.atLast → ∃ u : State, s.rangeStep r = u.rangeEnd r.l3 r.grove r.slot 0) ∧
    (¬r.atLast → (s.rangeStep r).mem = (t.setRange r').mem) := by
  generalize step : s.rangeStep r = v
  unfold State.rangeStep at step
  unfold RangeCmd.atLast
  by_cases walks : r.walks = true
  · rw [if_pos walks] at step
    rw [if_pos walks]
    extract_lets s1 s2 r' s3 at step
    have acted : s2.mem.ranges = s.mem.ranges := by
      refine foldl_keeps (p := fun t : State => t.mem.ranges = s.mem.ranges) (fun t l h => ?_) _ _ (State.markFills_ranges r _)
      split
      · exact (State.engineAct_ranges r).trans h
      · exact h
    refine ⟨s2, r', acted, rfl, rfl, rfl, rfl, rfl, fun last => ⟨_, step.symm.trans (if_pos last)⟩, fun more => ?_⟩
    rw [← step, if_neg more]
  · rw [if_neg walks] at step
    rw [if_neg walks]
    extract_lets x s1 r' s2 s3 at step
    have acted : s1.mem.ranges = s.mem.ranges := by
      unfold s1 x
      split
      · exact (State.engineAct_ranges r).trans (State.markFills_ranges r _)
      · rfl
    refine ⟨s1, r', acted, rfl, rfl, rfl, rfl, rfl, fun last => ⟨_, step.symm.trans (if_pos last)⟩, fun more => ?_⟩
    rw [← step, if_neg more]
    rfl

section
variable {l3 : Bool} {g i : Nat} (runs : s.rangeOf l3 g i = some r) (turn : s.rangeTurn l3 g i = some i)
include runs turn

theorem exec_rangeEngineLine : exec (.rangeEngineLine l3 g i) s =
    .next ((s.setMem { s.mem with engLast := smPut 19 s.mem.engLast (engineOf l3 g i) i }).rangeStep r) := by
  show execRangeEngineLine l3 g i s = _
  simp only [execRangeEngineLine, runs, turn, if_true]

theorem rangeEngineLine_last (last : r.atLast) :
    After (.rangeEngineLine l3 g i) s fun t => t.rangeOf l3 g i = none ∧ fget (t.ctlGet (oMstatus l3 g i)) 27 24 = 0 := by
  obtain ⟨rfl, rfl, rfl⟩ := isSet_of_rangeOf runs
  refine ⟨_, exec_rangeEngineLine runs turn, ?_⟩
  obtain ⟨_, _, -, -, -, -, -, -, ends, -⟩ := rangeStep_visit (s.setMem _) r
  obtain ⟨u, ended⟩ := ends last
  rw [ended]
  exact rangeEnd_result 0 (by decide)

theorem rangeEngineLine_more (more : ¬r.atLast) : After (.rangeEngineLine l3 g i) s fun t =>
    ∃ r', t.rangeOf l3 g i = some r' ∧ r'.done = r.done + 1 ∧ r'.op = r.op := by
  obtain ⟨rfl, rfl, rfl⟩ := isSet_of_rangeOf runs
  refine ⟨_, exec_rangeEngineLine runs turn, ?_⟩
  obtain ⟨t, r', listed, l3, grove, slot, op, done, -, counted⟩ :=
    rangeStep_visit (s.setMem { s.mem with engLast := smPut 19 s.mem.engLast (engineOf r.l3 r.grove r.slot) r.slot }) r
  refine ⟨r', ?_, done, op⟩
  rw [rangeOf_congr (congrArg Mem.ranges (counted more)), ← l3, ← grove, ← slot]
  refine rangeOf_setRange (q := r) ?_
  rw [l3, grove, slot, rangeOf_congr listed]
  exact runs

end
end
end Sys2Proof.Machine
end

section
/-!
PROOF. Frames of the vehicle network (R431, R438, R439, R443; O60): a received frame with a rule, an entry of a NETOUT queue, and the choice of
a port.
-/
namespace Sys2Proof.Machine

section
variable {s : State} {p q c : Nat} {sec : List Nat}

@[simp] theorem State.port_setPort (s : State) (p j : Nat) (x : NetPort) : (s.setPort p x).port j = if p = j then x else s.port j :=
  smGet_smPut _ _ _ _ _

/-! ## Reception (R431) -/

/-- A frame that no stage before its rule drops goes by its rule. -/
theorem exec_frameReceive {octs : List Nat} {busy j : Nat} {r : InRule} (port : p < 16) (up : s.portUp p = true) (room : busy ≤ 9216)
    (long : 60 ≤ octs.length) (short : octs.length ≤ 9212) (section_ : s.netSec p = some sec) (clear : netMacsec sec = false)
    (rule : findRule sec (octs.map (· % 256)) (parseTags (netPvid sec) (netDefPcp sec) (octs.map (· % 256))).vid = some (j, r)) :
    exec (.frameReceive p octs true true busy) s =
      .next (s.ruled p j r (octs.map (· % 256)) (parseTags (netPvid sec) (netDefPcp sec) (octs.map (· % 256))) s.gptp) := by
  have onPort : ¬(16 ≤ p ∨ (!s.portUp p) = true) := by simp [up, port]
  have buffered : ¬18432 < busy + 9216 := by omega
  have notRunt : ¬octs.length + 4 < 64 := by omega
  have notGiant : ¬9216 < octs.length + 4 := by omega
  show execFrameReceive p octs true true busy s = _
  simp only [execFrameReceive, List.length_map, if_neg onPort, if_neg buffered, if_neg notRunt, if_neg notGiant, section_, clear, Bool.not_true,
    Bool.false_and, Bool.false_eq_true, if_false, rule]

/-! ## Transmission selection (R443) -/

/-- A port that sends nothing starts the first frame of the highest class that may start. -/
theorem exec_transmissionSelection {cs : List Nat} {f : NetFrame} {rest : List NetFrame} (port : p < 16) (up : s.portUp p = true)
    (free : (s.port p).curEnd ≤ s.time) (first : smGet [] (s.port p).queues c = f :: rest) :
    let sec := s.netSec p
    let s1 := s.setPort p { s.port p with credit := s.credits p sec, creditAt := s.time }
    s1.eligible p sec = c :: cs →
    exec (.transmissionSelection p) s =
      .next ((s1.setPort p { s1.port p with queues := smPut [] (s1.port p).queues c rest }).putOnWire p c f sec) := by
  intro sec s1 eligible
  have counted : s1.port p = { s.port p with credit := s.credits p sec, creditAt := s.time } := by
    rw [State.port_setPort, if_pos rfl]
  have waiting : smGet [] (s1.port p).queues c = f :: rest := by rw [counted]; exact first
  have selected : s.select p = (s1.setPort p { s1.port p with queues := smPut [] (s1.port p).queues c rest }).putOnWire p c f sec := by
    have unbusy : ¬decide (s1.time < (s.port p).curEnd) = true := by rw [decide_eq_true_iff]; exact Nat.not_lt.mpr free
    unfold State.select
    dsimp only
    rw [if_neg unbusy]
    split
    next c' _ found =>
      obtain ⟨rfl, rfl⟩ := List.cons.inj (eligible.symm.trans found)
      split
      next none_ => exact absurd (waiting.symm.trans none_) (List.cons_ne_nil _ _)
      next f' _ found' =>
        obtain ⟨rfl, rfl⟩ := List.cons.inj (waiting.symm.trans found')
        rfl
    next none_ => exact absurd (eligible.symm.trans none_) (List.cons_ne_nil _ _)
  show execTransmissionSelection p s = _
  rw [execTransmissionSelection, if_pos (by simp [port, up]), selected]

/-! ## Shaping without contracts (R351, R354) -/

section
variable (free : s.live.contracts = [])
include free

/-- With no contract in force every request is accepted in class B, and nothing is counted. -/
theorem shape_uncovered (r : HeldReq) : s.shape r = (s, .accept 2) := by
  simp [State.shape, State.covering, free]

theorem shapeAll_uncovered (l : List HeldReq) : ∃ cls, s.shapeAll l = (s, some cls) := by
  unfold State.shapeAll
  extract_lets r
  have taken : ∃ cls, r = (s, some cls) := by
    refine foldl_keeps (p := fun a : State × Option Nat => ∃ cls, a = (s, some cls)) ?_ l _ ⟨0, rfl⟩
    rintro _ q ⟨cls, rfl⟩
    simp only [shape_uncovered free]
    exact ⟨_, rfl⟩
  obtain ⟨cls, taken⟩ := taken
  rw [taken]
  split
  next => exact ⟨2, rfl⟩
  next => exact ⟨_, rfl⟩
  next none_ => cases none_

end

/-! ## An entry of a NETOUT queue (R438, R439) -/

/-- A line that is neither poisoned, nor of a lost home, nor of a failed subchannel reads as it was written. -/
theorem poisoned_none {m : Mem} (poison : m.poison = []) (lost : m.lost = []) (failed : m.failed = []) (line : Nat) :
    m.poisoned line = false := by
  simp [Mem.poisoned, Mem.lostLine, Mem.onFailed, poison, lost, failed]

theorem entryAt_netout {x : Queue} (kind : x.kind = 6) : x.entryAt = x.base + 64 * ((x.dev + 0) % x.size) := by
  simp [Queue.entryAt, Queue.entrySize, kind]

/-- A frame goes to the end of its class's queue. -/
theorem queues_enqueue (s : State) (p c : Nat) (f : NetFrame) :
    smGet [] ((s.enqueue p c f).port p).queues c = smGet [] (s.port p).queues c ++ [f] := by
  unfold State.enqueue
  dsimp only
  rw [State.port_setPort, if_pos rfl, smGet_smSet, if_pos rfl]

/-- Octets on the wire of a frame of a rule with n octets of data, FCS included, padded to 64. -/
def EgRule.wire (r : EgRule) (n mac : Nat) : Nat := max 64 (n + (if r.untagged then 0 else 4) + (if r.rtag then 6 else 0) + 4 + mac)

/-- A rule with an R-TAG numbers its stream's frames. -/
def State.numbered (s : State) (r : EgRule) (stream : Nat) : State :=
  if r.rtag then s.modNet (fun m => { m with seqs := smSet m.seqs stream ((smGet 0 s.net.seqs stream + 1) % 65536) }) else s

theorem port_numbered (s : State) (r : EgRule) (stream j : Nat) : (s.numbered r stream).port j = s.port j := by
  unfold State.numbered
  split <;> rfl

theorem numbered_mem (s : State) (r : EgRule) (stream : Nat) : (s.numbered r stream).mem = s.mem := by
  unfold State.numbered
  split <;> rfl

/-- The frame of the entry at `pa` of queue `q`, with the octets `o`. -/
def State.outFrame (s : State) (r : EgRule) (q pa stream len mac : Nat) (o : List Nat) : NetFrame :=
  let seq := smGet 0 s.net.seqs stream
  { octs := buildFrame r seq mac o, left := r.wire len mac, ent := some (q, pa, stream, if r.rtag then seq else 0), stream := some stream }

/-- An entry that can be sent, and for whose frame there is room, becomes a frame of its rule's class. -/
theorem exec_egressDequeue {x : Queue} {pa buf len mac n p : Nat} {dense : Bool} {r : EgRule} (hq : q < 65536) (queue : s.queue q = x)
    (enabled : x.st = 1) (kind : x.kind = 6) (next : s.outWaiting q = 0) (waits : x.held ≠ 0) (entry : x.entryAt = pa)
    (packing : (x.pack == 2) = dense) (buffer : s.mem.read pa 4 + 2 ^ 36 * (s.mem.read (pa + 4) 4 % 64) = buf)
    (octets : s.mem.read (pa + 8) 4 = len) (rule : s.egressOf x.other = some (p, sec, r))
    (secured : macExtra (some sec) (buildFrame r 0 0 (s.mem.octets dense buf 0 14)) = mac) (fits : r.wire len mac ≤ 9216) (short : len ≤ 9200)
    (up : s.portUp p = true) (addressed : 12 ≤ len) (aligned : dense = true → buf % 8 = 0) (owner : s.qOwner q = some n)
    (owns : s.ownsRange n buf (packedLen dense len) = true) (clean : ∀ line, s.mem.poisoned line = false)
    (room : s.egressRoom p r.tc (r.wire len mac) = true) (free : s.live.contracts = []) :
    exec (.egressDequeue q) s =
      .next ((s.numbered r x.other).enqueue p r.tc (s.outFrame r q pa x.other len mac (s.mem.octets dense buf 0 len))) := by
  have index : q % 65536 = q := Nat.mod_eq_of_lt hq
  have sends : ¬(x.st ≠ 1 ∨ x.kind ≠ 6 ∨ x.held ≤ 0) := by simp [enabled, kind, waits]
  have here : x.base + 64 * ((x.dev + 0) % x.size) = pa := (entryAt_netout kind).symm.trans entry
  have sized : ¬(9216 < r.wire len mac ∨ 9200 < len) := by omega
  have inBuffer : (decide (12 ≤ len) && (!dense || buf % 8 == 0)) = true := by
    cases dense <;> simp [addressed]
    exact aligned rfl
  have unspoiled (l : List Nat) : (l.any fun _ => false) = false := by simp
  obtain ⟨cls, shaped⟩ := shapeAll_uncovered free ((List.range ((r.wire len mac + 63) / 64)).map fun i =>
    { srcKind := 7, item := q, target := 5, tgtIndex := p, write := false, items := [], line := i })
  unfold EgRule.wire at sized shaped room
  show execEgressDequeue q s = _
  simp only [execEgressDequeue, index, queue, next, if_neg sends, here, clean, rule, buffer, octets, packing, secured, if_neg sized, up, owner,
    owns, inBuffer, Bool.and_true, Bool.not_true, Bool.and_false, unspoiled, room, shaped, Bool.false_eq_true, if_false]
  rw [← numbered_mem s r x.other]
  rfl

end
end Sys2Proof.Machine
end

section
/-!
PROOF. What an entry leaves in the core (R272, Table 11-3), and the commands of events and engines together (O60).
-/
namespace Sys2Proof.Machine

/-! ## An entry with no long operation in flight -/

/-- What a core owes, and its divide unit, are those of another. -/
def Core.SameOwed (c d : Core) : Prop := d.faults = c.faults ∧ d.mce = c.mce ∧ d.div = c.div

theorem Core.SameOwed.land {c d : Core} (h : c.SameOwed d) (l : Land) : c.SameOwed (d.land l) := by
  obtain ⟨_, _, _, _, _, _, landed⟩ := Core.RegsOnly.land d l
  rw [landed]
  exact h

/-- Short writes that land fault nothing and owe no machine check. -/
theorem Core.landShort_owed {c : Core} (idle : c.div = []) : c.SameOwed c.landShort := by
  refine foldl_keeps (p := c.SameOwed) (fun d due same => ?_) _ c ⟨rfl, rfl, rfl⟩
  refine foldl_keeps (p := c.SameOwed) (fun _ _ h => h.land _) _ _ ?_
  obtain ⟨faults, mce, div⟩ := same
  refine ⟨faults, mce, ?_⟩
  show d.div.map _ = c.div
  rw [div, idle, List.map_nil]

section
variable {s : State} {k : Nat} {e : Entry}

/-- With no long operation in flight the short writes alone land. -/
theorem advance_short (noX : (s.core k).xops = []) (noDiv : (s.core k).div = []) (n : Nat) :
    (s.advance k n).core k = ((s.core k).after n).landShort := by
  let t := s.setCore k ((s.core k).after n).landShort
  have now : t.core k = ((s.core k).after n).landShort := by simp [t]
  have unused : (t.core k).xops = [] := by rw [now]; exact (Core.Lands.landShort _).xops noX
  have unit : (t.core k).landDivDue = t.core k := by
    obtain ⟨-, -, div⟩ := Core.landShort_owed (c := (s.core k).after n) noDiv
    have idle : (t.core k).div = [] := by rw [now, div]; exact noDiv
    simp [Core.landDivDue, idle]
  show (t.landLong k).core k = _
  unfold State.landLong
  split
  · exact now
  · rw [landXDue_none] <;> rw [State.core_modCore_self, unit]
    · exact now
    · exact unused

variable (taken : ¬(e.code = 12 ∧ (s.core k).fatalMce e.sub = true)) (noX : (s.core k).xops = [])
include taken noX

/-- The faults and machine checks that a core still owes are those it owed. -/
theorem enter_owed (noDiv : (s.core k).div = []) :
    ((s.enter k e).core k).faults = (s.core k).faults ∧ ((s.enter k e).core k).mce = (s.core k).mce := by
  obtain ⟨t, same, core⟩ := enter_core taken
  obtain ⟨_, _, _, step⟩ := Core.stepEntered_eq (((t.advance k (max (s.core k).drainTime entryTime)).core k).enter e)
  rw [core, step, ← same]
  rw [← same] at noX noDiv
  rw [advance_short noX noDiv]
  obtain ⟨faults, mce, -⟩ := Core.landShort_owed (c := (t.core k).after (max (t.core k).drainTime entryTime)) noDiv
  exact ⟨faults, mce⟩

/-- The cause of an entry, field by field (Table 11-2). -/
theorem enter_ecause (code : e.code < 16) (orig : e.orig < 16) :
    let v := ((s.enter k e).core k).ecause.toNat
    v % 16 = e.code ∧ v / 16 % 4096 = e.sub % 4096 ∧ v / 65536 % 16 = e.orig := by
  obtain ⟨-, entry, -⟩ := exceptionEntry
  obtain ⟨-, -, -, -, -, -, ecause, -⟩ := entry s k e taken noX
  intro v
  have value : v = _ := congrArg BitVec.toNat ecause
  rw [BitVec.toNat_ofNat] at value
  split at value <;> split at value <;> omega

/-- Where an entry with cause `code` and `sub` and return address `epc` leaves a core that was `c` (R272). -/
def Core.EnteredFrom (c d : Core) (code sub epc : Nat) : Prop :=
  d.pc = (c.vbase.toNat / 1024 * 1024 + 64 * code) % 2 ^ 36 ∧ d.epc = BitVec.ofNat 36 epc ∧ d.ecause.toNat % 16 = code ∧
    d.ecause.toNat / 16 % 4096 = sub % 4096 ∧ d.estatus = c.status &&& 0x8F ∧ d.status.getLsbD 0 = false ∧ d.status.getLsbD 1 = false

theorem enter_enteredFrom (code : e.code < 16) (orig : e.orig < 16) : (s.core k).EnteredFrom ((s.enter k e).core k) e.code e.sub e.epc := by
  obtain ⟨-, entry, -⟩ := exceptionEntry
  obtain ⟨epc, -, estatus, mode, ie, -, -, pc, -⟩ := entry s k e taken noX
  obtain ⟨causeCode, causeSub, -⟩ := enter_ecause taken noX code orig
  exact ⟨pc, epc, causeCode, causeSub, estatus, mode, ie⟩

end

/-- What an entry leaves of a core that was `c`, with the cause's two further fields and all that the core still owes. -/
theorem enter_delivered {u : State} {k : Nat} {c : Core} {e : Entry} (delivered : u.core k = c)
    (taken : ¬(e.code = 12 ∧ c.fatalMce e.sub = true)) (noX : c.xops = []) (noDiv : c.div = []) (code : e.code < 16) (orig : e.orig < 16) :
    let d := (u.enter k e).core k
    c.EnteredFrom d e.code e.sub e.epc ∧ d.ecause.toNat / 65536 % 16 = e.orig ∧ d.eaddr = BitVec.ofNat 48 e.addr ∧ d.faults = c.faults ∧
      d.mce = c.mce := by
  subst delivered
  obtain ⟨-, entry, -⟩ := exceptionEntry
  obtain ⟨-, address, -⟩ := entry u k e taken noX
  obtain ⟨-, -, cause⟩ := enter_ecause taken noX code orig
  exact ⟨enter_enteredFrom taken noX code orig, cause, address, enter_owed taken noX noDiv⟩

/-! ## The commands -/

/-- With no X operation in flight, a check found in the cell memory or the register file is as one that is owed. -/
theorem owed_of_found {s : State} {k sub : Nat} (noX : (s.core k).xops = []) (due : sub = 3 ∧ 3 ∈ (s.core k).mce ∨ sub = 4 ∨ sub = 5) :
    sub ∈ (s.core k).mce ∨ (sub = 4 ∧ (s.core k).xops = []) ∨ sub = 5 := by
  rcases due with ⟨rfl, listed⟩ | found | found
  · exact .inl listed
  · exact .inr (.inl ⟨found, noX⟩)
  · exact .inr (.inr found)

section
variable {s : State} {k : Nat} (running : (s.core k).run = .running) (boundary : s.interruptible k = true) (idle : smFind? s.mftc k = none)
  (live : s.replaying k = false) (noX : (s.core k).xops = [])
include running boundary idle live noX

theorem interruptEntry_enters (unstepped : (s.core k).dbgStep = false) (noCheck : s.mceDue k = false) (noLong : s.longDue k = false)
    (due : s.intDue k = true) : After (.interruptEntry k) s fun t =>
      (s.core k).EnteredFrom (t.core k) 0 (((lowestBit (s.pendingSources k)).getD 0) % 32) (s.core k).pc :=
  ⟨_, exec_interruptEntry running boundary idle live unstepped noCheck noLong due,
    enter_enteredFrom (by simp) noX (by simp) (by simp)⟩

theorem long_enters {f : LongFault} {rest : List LongFault} (noDiv : (s.core k).div = []) (unstepped : (s.core k).dbgStep = false)
    (noCheck : s.mceDue k = false) (due : s.longDue k = true) (oldest : (s.core k).faults = f :: rest) (code : f.code < 16) :
    After (.long k) s fun t => (s.core k).EnteredFrom (t.core k) 10 f.sub (s.core k).pc ∧ (t.core k).ecause.toNat / 65536 % 16 = f.code ∧
      (t.core k).eaddr = BitVec.ofNat 48 f.addr ∧ (t.core k).faults = rest := by
  obtain ⟨entered, cause, address, faults, -⟩ := enter_delivered (c := { s.core k with faults := rest })
    (e := ⟨10, f.sub, f.code, (s.core k).pc, f.addr⟩) (State.core_modCore_self s k fun c => { c with faults := rest }) (by simp) noX noDiv
    (by decide : 10 < 16) code
  exact ⟨_, exec_long running boundary idle live unstepped noCheck due oldest, entered, cause, address, faults⟩

theorem machineCheckAsync_enters {sub : Nat} (noDiv : (s.core k).div = []) (due : sub = 3 ∧ 3 ∈ (s.core k).mce ∨ sub = 4)
    (handled : (s.core k).fatalMce sub = false) : After (.machineCheckAsync k sub) s fun t =>
      (s.core k).EnteredFrom (t.core k) 12 sub (s.core k).pc ∧ (t.core k).mce = (s.core k).mce.erase sub := by
  obtain ⟨entered, -, -, -, mce⟩ := enter_delivered (c := { s.core k with mce := (s.core k).mce.erase sub })
    (e := ⟨12, sub, 0, (s.core k).pc, 0⟩) (State.core_modCore_self s k fun c => { c with mce := c.mce.erase sub })
    (fun fatal => Bool.false_ne_true (handled.symm.trans fatal.2)) noX noDiv (by decide : 12 < 16) (by decide : 0 < 16)
  exact ⟨_, exec_machineCheckAsync running boundary idle live (owed_of_found noX (due.imp_right .inl)) (by omega) (by omega), entered, mce⟩

theorem machineCheckAsync_halts {sub n : Nat} (due : sub = 3 ∧ 3 ∈ (s.core k).mce ∨ sub = 4 ∨ sub = 5)
    (fatal : (s.core k).fatalMce sub = true) (owned : s.cmpOf k = some n) (present : s.cmpState n ≠ .absent) :
    After (.machineCheckAsync k sub) s fun t => t.cmpState n = .halted := by
  refine ⟨_, exec_machineCheckAsync running boundary idle live (owed_of_found noX due) (by omega) (by omega),
    enter_fatal owned present rfl ?_⟩
  rw [State.core_modCore_self]
  exact fatal

end

/-- Settles O60: the entries by `enter_enteredFrom` and `enter_owed`, timer and IPI.SET by `exec_timer` and `exec_ipiSet`, the range commands by
`exec_go`, `exec_rangeAbort` and `rangeStep_visit`, and the frames by `exec_frameReceive`, `exec_egressDequeue` and
`exec_transmissionSelection`. -/
theorem eventsAndEngines : Obligations.EventsAndEngines := by
  unfold Obligations.EventsAndEngines
  refine ⟨fun s k => ?entries, fun s k present => ?slot, fun s who l3 g i ok => ?ranges, fun s p octs busy sec j r => ?receive,
    fun s q p sec r => ?netout, fun s p c cs f rest => exec_transmissionSelection⟩
  case entries =>
    intro c enters running unstepped boundary idle live noX noDiv
    exact ⟨interruptEntry_enters running boundary idle live noX unstepped,
      fun f rest => long_enters running boundary idle live noX noDiv unstepped,
      fun sub => machineCheckAsync_enters running boundary idle live noX noDiv,
      fun sub n => machineCheckAsync_halts running boundary idle live noX⟩
  case slot =>
    obtain ⟨t, set, pend, mem, cores, -⟩ := exec_ipiSet present
    exact ⟨fun ahead => ⟨_, exec_timer present ahead, rfl⟩, t, set, pend, mem, cores⟩
  case ranges =>
    intro start n lines result
    refine ⟨fun space c listed => ?go, fun r runs => ⟨⟨_, exec_rangeAbort ok runs, rangeEnd_result 2 (by decide)⟩, fun turn => ?visit⟩⟩
    case go =>
      intro linear top
      have go := exec_go ok c listed
      have space_ : goLinear space who = linear := goLinear_eq space who
      have top_ : spaceTop (goLinear space who) = top := congrArg spaceTop space_
      refine ⟨fun free fits => ⟨_, go, ?_⟩, fun free beyond => ⟨_, go, rangeGo_beyond free (top_.trans_lt beyond)⟩,
        fun busy => ⟨_, go, ?_⟩⟩
      · rw [← space_]
        exact rangeGo_begins free (top_ ▸ fits)
      · rw [rangeGo_busy busy]
        refine ⟨rfl, ?_⟩
        rw [State.ctlMod, State.ctlGet_ctlSet, if_pos rfl, fbit_fone _ _ _ (by decide), if_pos rfl]
    case visit => exact ⟨rangeEngineLine_last runs turn, rangeEngineLine_more runs turn⟩
  case receive =>
    intro o f port up room long short section_ clear rule
    exact exec_frameReceive port up room long short section_ clear rule
  case netout =>
    intro x pa dense buf len mac w hq enabled kind next waits _ rule fits short up addressed aligned ⟨n, owner, owns⟩ poison lost failed room free
    refine ⟨_, exec_egressDequeue hq rfl enabled kind next waits rfl rfl rfl rfl rule rfl fits short up addressed aligned owner owns
      (poisoned_none poison lost failed) room free, s.outFrame r q pa x.other len mac (s.mem.octets dense buf 0 len), ?_, rfl, rfl⟩
    rw [queues_enqueue, port_numbered]

end Sys2Proof.Machine
end

section
/-!
PROOF. Range maintenance commands and line actions (R173, R307 to R310; O35): what the proof of O60 does not say of GO and of an engine's turn,
and what cleaning and invalidating leave of a Grove's copy and of its bytes.
-/
namespace Sys2Proof.Machine

/-! ## The commands -/

section
variable {s : State} {who : Sender} {l3 : Bool} {g i op : Nat} {space : Bool} {r : RangeCmd}

/-- A command that GO begins is that of the owner of its slot (R309). -/
theorem owner_of_rangeGo (free : s.rangeOf l3 g i = none) (begun : (s.rangeGo who l3 g i op space).rangeOf l3 g i = some r) :
    r.owner = s.cmpOf (g * 20 + i) := by
  unfold State.rangeGo at begun
  split at begun
  next busy => cases free.symm.trans busy
  extract_lets linear _ t _ _ _ _ new at begun
  generalize (if linear then 2 ^ 48 else 2 ^ 42) = top at begun
  split at begun
  · rw [(rangeEnd_result 1 (by decide)).1] at begun
    cases begun
  · have empty : List.find? (fun q : RangeCmd => q.isSet l3 g i) t.mem.ranges = none := free
    have listed : List.find? (fun q : RangeCmd => q.isSet l3 g i) (t.mem.ranges ++ [new]) = some r := begun
    rw [List.find?_append, empty, Option.none_or] at listed
    rw [List.mem_singleton.mp (List.mem_of_find?_eq_some listed)]
    rfl

/-- GO touches no data, whether its command begins or ends at once. -/
theorem rangeGo_dirty (free : s.rangeOf l3 g i = none) : (s.rangeGo who l3 g i op space).mem.dirty = s.mem.dirty := by
  obtain ⟨_, -, -, -, -, -, -, go⟩ := rangeGo_free (who := who) (op := op) (space := space) free
  rw [go]
  dsimp only
  split <;> rfl

/-- A register set waits while another has the engine's turn (R307; the order of turns is log entry 90). -/
theorem exec_rangeEngineLine_waits (runs : s.rangeOf l3 g i = some r) (other : s.rangeTurn l3 g i ≠ some i) :
    exec (.rangeEngineLine l3 g i) s = .next s := by
  show execRangeEngineLine l3 g i s = _
  simp only [execRangeEngineLine, runs, if_neg other]

/-- A command that probes line by line is at its last visit when it is at its last line. -/
theorem RangeCmd.atLast_of_probes (probes : r.walks = false) : r.atLast ↔ r.lines ≤ r.done + 1 := by
  simp [RangeCmd.atLast, probes]

end

/-! ## One line (R310) -/

section
variable {m : Mem} {s : State} {g line pa : Nat} {tag : GTag}

theorem Mem.isDirty_flushLine : (m.flushLine line).isDirty line = false := by
  simp [Mem.flushLine, Mem.isDirty, List.partition_eq_filter_filter]

/-- Losing a line's dirty bytes changes no other line. -/
theorem Mem.byte_dropDirty_ne (other : pa / 64 ≠ line) : (m.dropDirty line).byte pa = m.byte pa := by
  simp [Mem.dropDirty, Mem.byte, Mem.dramByte, smFind?_filter (fun a => a / 64 != line), other]

/-- A home that learns of an eviction changes nothing but its directory. -/
theorem Mem.dirRelease_frame : ∃ dir, m.dirRelease g line = { m with dir := dir } := by
  unfold Mem.dirRelease
  split
  · exact ⟨_, rfl⟩
  · split
    · split <;> exact ⟨_, rfl⟩
    · dsimp only
      split
      · split <;> exact ⟨_, rfl⟩
      · exact ⟨_, rfl⟩
    · dsimp only
      split <;> exact ⟨_, rfl⟩

theorem Mem.gtag_dirRelease : (m.dirRelease g line).gtag g line = m.gtag g line := by
  obtain ⟨_, frame⟩ := Mem.dirRelease_frame (m := m) (g := g) (line := line)
  rw [frame]
  rfl

theorem Mem.gtag_flushLine : (m.flushLine line).gtag g line = m.gtag g line := rfl

theorem Mem.gtag_dropDirty : (m.dropDirty line).gtag g line = m.gtag g line := rfl

theorem State.gtag_dropGrove : (s.dropGrove g line).mem.gtag g line = none := by
  refine List.find?_eq_none.mpr fun t kept => ?_
  simpa [imp_iff_not_or] using (List.mem_filter.mp kept).2

/-- Cleaning a Grove's dirty copy flushes the line. -/
theorem State.cleanGrove_dirty (held : s.mem.gtag g line = some tag) (dirty : tag.st = .m ∨ tag.st = .o) :
    (s.cleanGrove g line).mem.dirty = (s.mem.flushLine line).dirty := by
  unfold State.cleanGrove
  rw [held]
  rcases dirty with st | st
  · simp [st, Mem.setTag, Mem.cleanL2]
  · simp only [st, State.setMem_mem]
    split
    · split <;> simp [Mem.setTag, Mem.setDir, Mem.cleanL2]
    · simp [Mem.setTag, Mem.cleanL2]

/-- A Grove that gives a line up has no tag of it, whether it wrote the line back, told the home or dropped it. -/
theorem State.gtag_groveEvict : (s.groveEvict g line).mem.gtag g line = none := by
  unfold State.groveEvict
  split
  next absent => exact absent
  next =>
    dsimp only
    split
    · rw [State.setMem_mem, Mem.gtag_dirRelease, Mem.gtag_flushLine, State.gtag_dropGrove]
    · split
      · exact State.gtag_dropGrove
      · split
        · exact State.gtag_dropGrove
        · rw [State.setMem_mem, Mem.gtag_dirRelease, State.gtag_dropGrove]

theorem State.gtag_discardGrove : (s.discardGrove g line).mem.gtag g line = none := by
  unfold State.discardGrove
  split
  · dsimp only
    rw [State.setMem_mem, Mem.gtag_dirRelease, Mem.gtag_dropDirty, State.gtag_dropGrove]
  · exact State.gtag_groveEvict

section
variable (works : s.mem.failed = []) (form : s.mem.Canonical)
include works form

theorem State.byte_cleanGrove : (s.cleanGrove g line).mem.byte pa = s.mem.byte pa :=
  (Recalls.refl.cleanGrove.bytes works form).2 pa

theorem State.byte_cleanGrove_groveEvict : ((s.cleanGrove g line).groveEvict g line).mem.byte pa = s.mem.byte pa :=
  (Recalls.refl.cleanGrove.groveEvict.bytes works form).2 pa

/-- Only bytes of the line itself can be lost with a Grove's copy. -/
theorem State.byte_discardGrove_ne (other : pa / 64 ≠ line) : (s.discardGrove g line).mem.byte pa = s.mem.byte pa := by
  unfold State.discardGrove
  split
  · obtain ⟨form', dropped⟩ := (Recalls.refl.dropGrove (s := s) (g := g) (line := line)).bytes works form
    have released : Recalls ((s.dropGrove g line).mem.dropDirty line) (((s.dropGrove g line).mem.dropDirty line).dirRelease g line) :=
      Recalls.refl.dirRelease
    calc (((s.dropGrove g line).mem.dropDirty line).dirRelease g line).byte pa
        = ((s.dropGrove g line).mem.dropDirty line).byte pa := (released.bytes works (Mem.canonical_dropDirty form' line)).2 pa
      _ = (s.dropGrove g line).mem.byte pa := Mem.byte_dropDirty_ne other
      _ = s.mem.byte pa := dropped pa
  · exact (Recalls.refl.groveEvict.bytes works form).2 pa

end
end

/-- Settles O35: GO by `rangeGo_begins` and `rangeGo_beyond` with the owner by `owner_of_rangeGo`, ABORT by `exec_rangeAbort`, an engine's line
by `rangeEngineLine_more` and `rangeEngineLine_last`, and the actions on a line by `cleanGrove_dirty`, `gtag_discardGrove`, `gtag_groveEvict`
and `Recalls`. -/
theorem rangeCommands : Obligations.RangeCommands := by
  unfold Obligations.RangeCommands
  refine ⟨fun s who l3 g i ok => ?commands, fun s g line tag works form held => ?actions⟩
  case commands =>
    intro start n lines
    refine ⟨fun c listed free => ?go, fun r runs =>
      ⟨?abort, exec_rangeEngineLine_waits runs, fun turn probes => ?more, fun turn probes => ?last⟩⟩
    case go =>
      have go := exec_go (space := false) ok c listed
      have physical : goLinear false who = false := goLinear_eq false who
      have top : spaceTop (goLinear false who) = 2 ^ 42 := congrArg spaceTop physical
      refine ⟨fun fits => ?_, fun beyond => ⟨_, go, (rangeGo_beyond free (top.trans_lt beyond)).1, rangeGo_dirty free⟩⟩
      obtain ⟨r, begun, op, linear, start_, lines_, done, -⟩ := rangeGo_begins (op := c.1) free (top ▸ fits)
      exact ⟨_, r, go, begun, op, linear.trans physical, start_, lines_, done, owner_of_rangeGo free begun⟩
    case abort => exact ⟨_, exec_rangeAbort ok runs, (rangeEnd_result 2 (by decide)).1⟩
    case more =>
      intro more
      obtain ⟨t, next, r', counted, done, -⟩ :=
        rangeEngineLine_more runs turn (mt (RangeCmd.atLast_of_probes probes).mp (Nat.not_le.mpr more))
      exact ⟨t, r', next, counted, done⟩
    case last =>
      intro last
      obtain ⟨t, next, ended, -⟩ := rangeEngineLine_last runs turn ((RangeCmd.atLast_of_probes probes).mpr last)
      exact ⟨t, next, ended⟩
  case actions =>
    refine ⟨fun dirty => ?clean, fun _ => State.byte_cleanGrove works form, fun _ => State.byte_cleanGrove_groveEvict works form,
      State.gtag_discardGrove, State.gtag_groveEvict, fun _ => State.byte_discardGrove_ne works form⟩
    case clean =>
      have flushed : (s.cleanGrove g line).mem.isDirty line = (s.mem.flushLine line).isDirty line :=
        congrArg (List.any · _) (State.cleanGrove_dirty held dirty)
      exact flushed.trans Mem.isDirty_flushLine

end Sys2Proof.Machine
end

section
/-!
PROOF. Forwards and fills (R315, R341; O34): the switch of the state set also holds requests for the partner's home.
-/
namespace Sys2Proof.Machine

theorem outRequest_switching {s : State} (switching : s.switching = true) (g line kind : Nat) : s.outRequest g line kind = s := by
  simp [State.outRequest, switching]

/-- While the state set switches, a Grove's read of a window line does not leave for the partner. -/
theorem execRds_window_switching {s : State} {g line : Nat} (switching : s.switching = true) (grove : g < 12)
    (window : s.partnerLine line = true) : execRds g line s = .next s := by
  have notCrossing : g ≠ 13 := by omega
  unfold execRds State.askGrove
  simp [notCrossing, window, outRequest_switching switching]

/-- A package in ACTIVE with a span granted, between the first step of a switch of its state set and the last. -/
def switchingSpan : State :=
  { State.reset with ctl := [(o_dirStatus 0, 0x60000000)], links := { Links.reset with pair := 2, span := [(0, 0, 64)] } }

/-- The first line of the partner window. -/
def windowLine : Nat := 0x800000000

/-- Refutes O34: while the state set switches, a Grove's RdS for a line of the partner window stays (R341), and no Grove waits for it. The
clause on the partner window asks for the request without the hypothesis that no switch is under way. -/
theorem not_holderMessages : ¬ Obligations.HolderMessages := by
  unfold Obligations.HolderMessages
  rintro ⟨-, -, window⟩
  have spans : switchingSpan.spanLine windowLine = true := by decide
  obtain ⟨reads, -⟩ := window switchingSpan 0 windowLine (by decide) spans
  obtain ⟨⟨t, leaves, waits, -⟩, -⟩ := reads rfl (by decide) (fun _ listed => nomatch listed)
  have stays : exec (.rds 0 windowLine) switchingSpan = .next switchingSpan :=
    execRds_window_switching (by decide) (by decide) (by decide)
  cases stays.symm.trans leaves
  cases waits

end Sys2Proof.Machine
end

section
/-!
PROOF. Retraining (R341, R395; O37): a request that waited for the switch to MOESI is served by it, and its read keeps the subchannel in
service.
-/
namespace Sys2Proof.Machine

/-- The Keeper's command goes no further than the switch while the subchannel has a read queued. -/
theorem retrainBegin_queued {s : State} {sub : Nat} (queued : ((s.switchSet true).readsAt sub).isEmpty = false) :
    s.retrainBegin sub = s.switchSet true := by
  simp [State.retrainBegin, queued]

/-- A quiet package in MESIF, with the strobes of subchannel 0 adrift, where the Landing's read of line 0 waits for its home. -/
def heldRead : State :=
  { State.reset with
    ctl := [(o_dirStatus 0, 0), (subReg 0, 0x20000000)]
    mem := { Mem.reset with waits := [⟨12, 0, .rdcur, 0, ⟨2, 0, 0, 12⟩, false⟩] }
    dram := { Dram.reset with drift := [0] } }

/-- The switch to MOESI releases the read. -/
theorem heldRead_queued : ((heldRead.switchSet true).readsAt 0).isEmpty = false := by decide +kernel

theorem heldRead_serves : (heldRead.switchSet true).subState 0 = 1 := by decide +kernel

/-- Refutes O37: with no transaction open and a retraining due, the first command of the Keeper leaves the subchannel in service where the
switch to MOESI releases a request whose read the subchannel must perform first (`retrainBegin_queued`). -/
theorem not_dramErrors : ¬ Obligations.DramErrors := by
  unfold Obligations.DramErrors
  rintro ⟨⟨-, retraining⟩, -⟩
  obtain ⟨begins, -⟩ := retraining heldRead 0 (by decide) (by decide)
  obtain ⟨t, retrains, out⟩ := begins (by decide) (by decide)
  have stays : exec (.subchannelRetrain 0 .begin) heldRead = .next (heldRead.switchSet true) :=
    congrArg Host.Outcome.next (retrainBegin_queued heldRead_queued)
  rw [← Host.Outcome.next.inj (stays.symm.trans retrains), heldRead_serves] at out
  exact absurd out (by decide)

end Sys2Proof.Machine
end

section
/-!
PROOF. Messages (R363, R421; O41): the queue manager delivers in the order of R363.
-/
namespace Sys2Proof.Machine

/-- A RUNNING SEND queue with one message in its ring, for queue 0. -/
def sendQueue : Queue := { Queue.reset with st := 1, regs := [(0x20, 0x60000000)], sw := 1 }

/-- Queues 0 and 1 each have a message, of class B. -/
def twoSenders : State := { State.reset with qm := { Qm.reset with queues := [(0, sendQueue), (1, sendQueue)] } }

/-- Refutes O41: a message waits while another queue's message comes before it in the order of R363, here that of the lower port. The
clause on a message that is refused has no hypothesis that its queue is the one to be served. -/
theorem not_messagesAndEngines : ¬ Obligations.MessagesAndEngines := by
  unfold Obligations.MessagesAndEngines
  rintro ⟨messages, -⟩
  obtain ⟨-, -, -, refuses, -⟩ := messages twoSenders 1 (by decide) (by decide) (by decide) (by decide) (by decide) (by decide)
  obtain ⟨t, refused, moved⟩ := refuses 18 (by decide) (by decide)
  have waits : exec (.messageDelivery 1) twoSenders = .next twoSenders := by
    have first : (twoSenders.qm.queues.any fun e => e.1 != 1 && twoSenders.sendReady e.1 &&
      (twoSenders.messageRank e.1).before twoSenders.time (twoSenders.messageRank 1)) = true := by decide
    show execMessageDelivery 1 twoSenders = _
    simp [execMessageDelivery, first]
  rw [← Host.Outcome.next.inj (waits.symm.trans refused)] at moved
  exact absurd moved (by decide)

end Sys2Proof.Machine
end

section
/-!
PROOF. Host writes (R333, R465; O44): a posted write takes its place at the homes of its lines.
-/
namespace Sys2Proof.Machine

/-- A write through an open window waits in its function's holding buffer while the home of one of its lines cannot take it. -/
theorem hostWrite_homeBusy {s : State} {v off w o : Nat} {octs : List Nat} (window : off / 2 ^ 28 % 256 = w) (offset : off % 2 ^ 28 = o)
    (opened : s.winOpen v w o octs.length = true) (writes : (s.win v w).wr = true) (plain : (s.win v w).bell = false)
    (unrecorded : s.winMft v (s.win v w) o octs.length = false)
    (busy : (winLines (s.win v w) o octs.length).all (s.landingReady · true) = false) :
    s.hostWrite v off octs = s.holdWrite v ⟨w, o, octs⟩ := by
  unfold State.hostWrite
  rw [window, offset]
  simp only [opened, writes, plain, unrecorded, busy]
  simp

theorem holdWrite_mem {s : State} {v : Nat} {r : HostWrite} : (s.holdWrite v r).mem = s.mem := by
  simp only [State.holdWrite]
  split <;> rfl

/-- PF1 and the first 2 MiB of DRAM belong to compartment 0, which runs; window 0 of PF1 shows its first 4096 octets, for writes; the link is
up. The state set is between the first step of a switch and the last. -/
def openWindow : State :=
  { State.reset with
    ctl := [(o_dirStatus 0, 0x60000000), (o_hepStatus, 0x60000000)]
    mem := { Mem.reset with dram := [(0, 0)] }
    live := { Chart.empty with res := [⟨2, 0, 0, 0, 0x200000⟩, ⟨6, 0, 0, 0, 1⟩] }
    cmps := [(0, .running)]
    hep := { Hep.reset with cfg := [(cfgKey 1 4, 2)], wins := [(0, ⟨0x99000000, 0⟩)] } }

/-- No compartment records. -/
theorem openWindow_unrecorded (n : Nat) : openWindow.recording n = false := by
  have register (off : Nat) : openWindow.ctlD off 0 = 0x60000000 ∨ openWindow.ctlD off 0 = 0 := by
    simp only [openWindow, State.ctlD, smFind?]
    split_ifs <;> simp
  rcases register (o_mftCstate n) with stands | stands <;> simp only [State.recording, State.mftMode, stands] <;> decide

/-- Refutes O44: a posted write through an open window to a line whose home holds new requests (R341) waits in the holding buffer, and the
memory keeps its bytes. The clause on posted writes has no hypothesis on the homes of the lines. -/
theorem not_hostMemory : ¬ Obligations.HostMemory := by
  unfold Obligations.HostMemory
  intro hostMemory
  obtain ⟨-, writes, -⟩ := hostMemory openWindow 0 0 [1] (by decide) (by decide) (by decide) (by decide)
  obtain ⟨t, written, bytes, -⟩ := writes ⟨by decide, by decide, by decide⟩ (by decide) (by decide) openWindow_unrecorded
  have held : openWindow.hostWrite 0 0 [1] = openWindow.holdWrite 0 ⟨0, 0, [1]⟩ :=
    hostWrite_homeBusy rfl rfl (by decide) (by decide) (by decide) (by decide) (by decide)
  have holds : exec (.hostMemWrite 0 0 [1] .none) openWindow = .next (openWindow.holdWrite 0 ⟨0, 0, [1]⟩) := by
    rw [← held]
    rfl
  have read := bytes 0 (by decide)
  rw [← Host.Outcome.next.inj (holds.symm.trans written), holdWrite_mem] at read
  exact absurd read (by decide)

end Sys2Proof.Machine
end

section
/-!
PROOF. Joining a pair (R497, R568; O49): raising the compartments that waited for the join writes their Manifest registers.
-/
namespace Sys2Proof.Machine

/-- A partner that matches and authenticates itself joins. -/
theorem exec_pairJoin {s : State} {dsn epoch : Nat} {claims : Bool} {span : List (Nat × Nat × Nat)} {pub : List Nat}
    (port : s.anyPortUp = true) (paired : s.pairedChart = true) (notSplit : s.links.pair ≠ 3) (apart : s.links.pair ≠ 2) (cmps : s.live.cmps ≠ []) :
    exec (.pairJoin (1 - s.live.pairIndex) dsn landingStepping ⟨s.pairDigest, pub, Config.hmac384 (octVal (smGet [] s.sec.slots 9)) pub⟩ epoch claims span) s =
      .next (s.join dsn epoch claims (span.filter (fun r => s.spanned r.1)) pub) := by
  show execPairJoin _ _ _ _ _ _ _ s = _
  simp [execPairJoin, port, paired, notSplit, apart, cmps]

/-- The number whose Manifest write index would stand at the offset of XNG.EPOCH. -/
def farCmp : Nat := 0x6DFF8

/-- A package in state TRAINING, whose Chart pairs it and has one compartment, local and recorded, that its boot left unraised. -/
def unraised : State :=
  { State.reset with
    live := { Chart.empty with
      pkg := some ⟨0, true, true, 0xFFF, 0⟩
      cmps := [⟨farCmp, false, true, false, 0, false, false, 0, 0, 0, 0, []⟩] }
    cmps := [(farCmp, .stopped)]
    links := { Links.reset with ports := [(0, { XngPort.reset with st := 2 })], unraised := [farCmp] } }

theorem unraised_epoch : (unraised.join 0 0 false [] []).ctlGet o_xngEpoch = 0 := by decide +kernel

/-- Refutes O49: a join raises the compartments that waited for it, and the start of a recorded one's session clears MFT.WIDX of that
compartment; no hypothesis of the statement bounds a compartment's number, and of number 0x6DFF8 that register stands where XNG.EPOCH
stands. -/
theorem not_crossing : ¬ Obligations.Crossing := by
  unfold Obligations.Crossing
  rintro ⟨ports, -⟩
  obtain ⟨-, -, joins, -⟩ := ports unraised 0 (by decide)
  obtain ⟨-, -, joined⟩ := joins (1 - unraised.live.pairIndex) 0 landingStepping unraised.pairDigest 0 false [] []
    (Config.hmac384 (octVal (smGet [] unraised.sec.slots 9)) []) (by decide) (by decide) (by decide) (by decide)
  obtain ⟨t, joins, -, -, epoch⟩ := joined ⟨rfl, rfl, rfl⟩ (by decide) rfl
  have join := exec_pairJoin (s := unraised) (dsn := 0) (epoch := 0) (claims := false) (span := []) (pub := []) (by decide) (by decide)
    (by decide) (by decide) (by decide)
  rw [← Host.Outcome.next.inj (join.symm.trans joins)] at epoch
  simp only [List.filter_nil, unraised_epoch] at epoch
  exact absurd epoch (by decide)

end Sys2Proof.Machine
end

section
/-!
PROOF. The step (O56).
-/
namespace Sys2Proof.Machine

/-- Settles O56, by the two branches of `step`. -/
theorem stepRunsFrontCommand : Obligations.StepRunsFrontCommand := by
  unfold Obligations.StepRunsFrontCommand
  intro s c rest
  exact ⟨rfl, rfl⟩

end Sys2Proof.Machine
end


section
/-!
PROOF. Shapers: a request that its shaper holds waits until its buckets have refilled, and takes a unit from each (R351, R354, R356; O38).
-/
namespace Sys2Proof.Machine

section
variable {s : State} {ci n : Nat} {c : Contract} {q : HeldReq}

/-! ## Buckets -/

theorem unitTokens_le_depth (burst : 1 ≤ c.burst q.write) (sp : Option Nat) : unitTokens ≤ s.depth c q.write sp := by
  cases sp with
  | none => exact Nat.le_mul_of_pos_left _ burst
  | some i => exact Nat.le_mul_of_pos_left _ (Nat.le_max_left ..)

theorem tokens_le_depth (item : Nat) (write : Bool) (sp : Option Nat) : s.tokens ci c item write sp ≤ s.depth c write sp := by
  unfold State.tokens
  split
  · exact Nat.min_le_left ..
  · exact Nat.le_refl _

/-- A bucket that lacks a unit has been taken from, and fills at its rate as time passes. -/
theorem tokens_later (past : ∀ b ∈ s.buckets, b.at_ ≤ s.time) (sp : Option Nat) (lacks : s.tokens ci c q.item q.write sp < s.depth c q.write sp) :
    ({ s with time := s.time + n } : State).tokens ci c q.item q.write sp =
      min (s.depth c q.write sp) (s.tokens ci c q.item q.write sp + s.refill c q.write sp * n) := by
  unfold State.tokens at lacks ⊢
  show (match s.buckets.find? _ with | some b => _ | none => _) = _
  cases found : s.buckets.find? (·.isFor ci q.item q.write sp) with
  | none =>
    rw [found] at lacks
    exact absurd lacks (Nat.lt_irrefl _)
  | some b =>
    have before := past b (List.mem_of_find?_eq_some found)
    rw [found] at lacks
    have later : s.time + n - b.at_ = (s.time - b.at_) + n := by omega
    simp only [later, Nat.mul_add]
    show min (s.depth c q.write sp) (b.tokens + (s.refill c q.write sp * (s.time - b.at_) + s.refill c q.write sp * n)) = _
    simp only at lacks
    omega

/-- What one bucket adds to the wait for all of them. -/
def State.waitMore (s : State) (ci : Nat) (c : Contract) (q : HeldReq) (a : Option Nat) (sp : Option Nat) : Option Nat :=
  match a with
  | none => none
  | some n =>
    let t := s.tokens ci c q.item q.write sp
    if unitTokens ≤ t then some n
    else
      let r := s.refill c q.write sp
      if r = 0 then none else some (max n ((unitTokens - t + r - 1) / r))

theorem waitMore_some {a : Option Nat} {sp : Option Nat} (h : s.waitMore ci c q a sp = some n) :
    ∃ m, a = some m ∧ m ≤ n ∧ unitTokens ≤ s.tokens ci c q.item q.write sp + s.refill c q.write sp * n := by
  cases a with
  | none => cases h
  | some m =>
    simp only [State.waitMore] at h
    by_cases full : unitTokens ≤ s.tokens ci c q.item q.write sp
    · rw [if_pos full] at h
      cases h
      exact ⟨_, rfl, Nat.le_refl _, Nat.le_add_right_of_le full⟩
    · rw [if_neg full] at h
      by_cases dry : s.refill c q.write sp = 0
      · rw [if_pos dry] at h
        cases h
      · rw [if_neg dry] at h
        cases h
        refine ⟨_, rfl, Nat.le_max_left .., ?_⟩
        generalize s.refill c q.write sp = r at dry ⊢
        generalize s.tokens ci c q.item q.write sp = t at full ⊢
        have rounded := Nat.lt_mul_div_succ (unitTokens - t + r - 1) (Nat.pos_of_ne_zero dry)
        have enough : r * ((unitTokens - t + r - 1) / r) ≤ r * max m ((unitTokens - t + r - 1) / r) :=
          Nat.mul_le_mul_left _ (Nat.le_max_right ..)
        rw [Nat.mul_add, Nat.mul_one] at rounded
        omega

/-- After the wait of a request each of its buckets that lacked a unit has gained it. -/
theorem waitFor_some (h : s.waitFor ci c q = some n) :
    ∀ sp ∈ q.buckets, unitTokens ≤ s.tokens ci c q.item q.write sp + s.refill c q.write sp * n := by
  have folded (l : List (Option Nat)) (a : Option Nat) (h : l.foldl (s.waitMore ci c q) a = some n) :
      (∃ m, a = some m ∧ m ≤ n) ∧ ∀ sp ∈ l, unitTokens ≤ s.tokens ci c q.item q.write sp + s.refill c q.write sp * n := by
    induction l generalizing a with
    | nil => exact ⟨⟨n, h, Nat.le_refl _⟩, by simp⟩
    | cons sp r ih =>
      obtain ⟨⟨m, more, le⟩, rest⟩ := ih _ h
      obtain ⟨k, start, le', gained⟩ := waitMore_some more
      refine ⟨⟨k, start, le'.trans le⟩, List.forall_mem_cons.mpr ⟨?_, rest⟩⟩
      exact gained.trans (Nat.add_le_add_left (Nat.mul_le_mul_left _ le) _)
  exact (folded q.buckets (some 0) h).2

/-- When the wait is over every bucket of the request holds a unit. -/
theorem waited_holds (wait : s.waitFor ci c q = some n) (past : ∀ b ∈ s.buckets, b.at_ ≤ s.time) (burst : 1 ≤ c.burst q.write) :
    ∀ sp ∈ q.buckets, unitTokens ≤ ({ s with time := s.time + n } : State).tokens ci c q.item q.write sp := by
  intro sp listed
  have deep := unitTokens_le_depth (s := s) burst sp
  have gained := waitFor_some wait sp listed
  by_cases lacks : s.tokens ci c q.item q.write sp < s.depth c q.write sp
  · rw [tokens_later past sp lacks]
    omega
  · unfold State.tokens at lacks ⊢
    show unitTokens ≤ (match s.buckets.find? _ with | some b => _ | none => _)
    split
    next b found =>
      have before := past b (List.mem_of_find?_eq_some found)
      rw [found] at lacks
      have later : s.time + n - b.at_ = (s.time - b.at_) + n := by omega
      simp only [later, Nat.mul_add] at lacks ⊢
      show unitTokens ≤ min (s.depth c q.write sp) (b.tokens + (s.refill c q.write sp * (s.time - b.at_) + s.refill c q.write sp * n))
      omega
    next => exact deep

/-! ## Units taken -/

/-- A unit is taken from one bucket. -/
def State.draw (s : State) (ci : Nat) (c : Contract) (q : HeldReq) (sp : Option Nat) : State :=
  { s with buckets := s.buckets.filter (fun x => !x.isFor ci q.item q.write sp) ++
      [⟨ci, q.item, q.write, sp, s.tokens ci c q.item q.write sp - unitTokens, s.time⟩] }

theorem tokens_draw_same (s : State) (sp : Option Nat) :
    (s.draw ci c q sp).tokens ci c q.item q.write sp = s.tokens ci c q.item q.write sp - unitTokens := by
  have found : (s.draw ci c q sp).buckets.find? (·.isFor ci q.item q.write sp) =
      some ⟨ci, q.item, q.write, sp, s.tokens ci c q.item q.write sp - unitTokens, s.time⟩ := by
    rw [State.draw, List.find?_append, List.find?_eq_none.mpr (by simp)]
    simp [Bucket.isFor]
  rw [State.tokens, found]
  show min (s.depth c q.write sp) (_ + s.refill c q.write sp * (s.time - s.time)) = _
  have le : s.tokens ci c q.item q.write sp ≤ s.depth c q.write sp := tokens_le_depth ..
  simp only [Nat.sub_self, Nat.mul_zero]
  omega

theorem tokens_draw_ne (s : State) {sp other : Option Nat} (ne : other ≠ sp) :
    (s.draw ci c q sp).tokens ci c q.item q.write other = s.tokens ci c q.item q.write other := by
  have kept : (s.draw ci c q sp).buckets.find? (·.isFor ci q.item q.write other) =
      s.buckets.find? (·.isFor ci q.item q.write other) := by
    have apart (b : Bucket) (theirs : b.isFor ci q.item q.write other = true) : b.isFor ci q.item q.write sp = false := by
      simp only [Bucket.isFor, Bool.and_eq_true, beq_iff_eq] at theirs ⊢
      simp [theirs.2, ne]
    have fresh : Bucket.isFor ⟨ci, q.item, q.write, sp, s.tokens ci c q.item q.write sp - unitTokens, s.time⟩ ci q.item q.write other = false := by
      simp [Bucket.isFor, ne.symm]
    rw [State.draw, List.find?_append, List.find?_filter, List.find?_cons_of_neg (by simp [fresh]), List.find?_nil, Option.or_none]
    congr 1
    funext b
    cases theirs : b.isFor ci q.item q.write other <;> simp [apart, theirs]
  simp only [State.tokens, kept]
  rfl

/-- Acceptance takes a unit from every bucket of the request, and from no other. -/
theorem tokens_take (distinct : q.items.Nodup) :
    ∀ sp ∈ q.buckets, (s.take ci c q).tokens ci c q.item q.write sp = s.tokens ci c q.item q.write sp - unitTokens := by
  have folded (l : List (Option Nat)) (distinct : l.Nodup) (s : State) :
      (∀ sp ∈ l, (l.foldl (fun s sp => s.draw ci c q sp) s).tokens ci c q.item q.write sp = s.tokens ci c q.item q.write sp - unitTokens) ∧
      ∀ sp ∉ l, (l.foldl (fun s sp => s.draw ci c q sp) s).tokens ci c q.item q.write sp = s.tokens ci c q.item q.write sp := by
    induction l generalizing s with
    | nil => exact ⟨nofun, fun _ _ => rfl⟩
    | cons x r ih =>
      obtain ⟨fresh, rest⟩ := List.nodup_cons.mp distinct
      obtain ⟨taken, kept⟩ := ih rest (s.draw ci c q x)
      refine ⟨List.forall_mem_cons.mpr ⟨(kept x fresh).trans (tokens_draw_same s x), fun sp listed => ?_⟩, fun sp unlisted => ?_⟩
      · exact (taken sp listed).trans (congrArg (· - unitTokens) (tokens_draw_ne s (ne_of_mem_of_not_mem listed fresh)))
      · exact (kept sp (List.not_mem_of_not_mem_cons unlisted)).trans (tokens_draw_ne s (List.ne_of_not_mem_cons unlisted))
  have once : q.buckets.Nodup :=
    List.nodup_cons.mpr ⟨by simp, distinct.map (Option.some_injective _)⟩
  exact (folded q.buckets once s).1

/-- Taking units changes the buckets alone. -/
theorem take_buckets : ∃ bs, s.take ci c q = { s with buckets := bs } := by
  refine foldl_keeps (p := fun t : State => ∃ bs, t = { s with buckets := bs }) (fun t sp kept => ?_) _ s ⟨s.buckets, rfl⟩
  obtain ⟨bs, rfl⟩ := kept
  exact ⟨_, rfl⟩

/-! ## Acceptance of a held request -/

theorem heldOf_srcKind {k i : Nat} (held : s.heldOf k i = some q) : q.srcKind = k := by
  have matched := List.find?_some held
  simp only [Bool.and_eq_true, beq_iff_eq] at matched
  exact matched.1

/-- Without a contract a held request is accepted at once, in class B, and no bucket gives a unit. -/
theorem releaseHeld_uncovered (noHard : s.covering q true = none) (noSoft : s.covering q false = none) :
    s.releaseHeld q = { s with held := s.held.erase q, flight := s.flight ++ [⟨2, (s.cmpOf q.item).getD 0, q, s.time, 0⟩] } := by
  have pick : s.pickFor q = some (0, none, 2) := by simp [State.pickFor, noHard, noSoft]
  unfold State.releaseHeld State.releaseOther
  rw [pick]
  exact ite_self _

/-- Under an H contract alone it is accepted in class H, when its buckets have refilled. -/
theorem releaseHeld_hard (other : q.srcKind ≠ 1) (hard : s.covering q true = some (ci, c)) (noSoft : s.covering q false = none)
    (wait : s.waitFor ci c q = some n) :
    s.releaseHeld q = ({ ({ s with time := s.time + n } : State).take ci c q with held := s.held.erase q }).accepted q c.cmp 0 (s.time + n) := by
  have pick : s.pickFor q = some (n, some (ci, c), 0) := by simp [State.pickFor, hard, noSoft, wait]
  unfold State.releaseHeld State.releaseOther
  rw [if_pos other, pick]

/-- The deadline of R369, in the terms of the contract that covers the request. -/
theorem hDeadline_covered (hard : s.covering q true = some (ci, c)) (now : Nat) : s.hDeadline q (s.deviceReq q) now =
    if s.detour q = 0 then now + s.pathBound q else if c.reroute then now + s.pathBound q + 100 * s.detour q else 0 := by
  simp only [State.hDeadline, hard, State.pathBound]

end

/-- Settles O38: `releaseHeld_uncovered` is the clause without a contract; under an H contract the buckets hold a unit once the wait is over
(`waited_holds`), each gives one (`tokens_take`), and the deadline is `hDeadline_covered`. -/
theorem shaperAcceptance : Obligations.ShaperAcceptance := by
  unfold Obligations.ShaperAcceptance
  intro s k i q notHost held
  have accepts : exec (.shaperAccept k i) s = .next (s.releaseHeld q) := by
    show execShaperAccept k i s = _
    simp [execShaperAccept, notHost, held]
  refine ⟨fun noHard noSoft => ⟨_, accepts, ?_⟩, fun ci c n notCore hard noSoft wait distinct past burst => ?_⟩
  · rw [releaseHeld_uncovered noHard noSoft]
    exact ⟨rfl, rfl, _, rfl⟩
  · intro now
    have other : q.srcKind ≠ 1 := fun core => notCore ((heldOf_srcKind held).symm.trans core)
    obtain ⟨bs, taken⟩ := take_buckets (s := now) (ci := ci) (c := c) (q := q)
    have tokens := tokens_take (s := now) (ci := ci) (c := c) distinct
    have deadline := hDeadline_covered hard (s.time + n)
    refine ⟨_, accepts, ?_⟩
    rw [releaseHeld_hard other hard noSoft wait]
    refine ⟨?time, ?held, ?flight, fun sp listed => ⟨waited_holds wait past burst sp listed, tokens sp listed⟩⟩
    all_goals rw [taken]
    · rfl
    · rfl
    · exact congrArg (fun d => s.flight ++ [⟨0, c.cmp, q, s.time + n, d⟩]) deadline

end Sys2Proof.Machine
end


section
/-!
PROOF. The DRAM controllers' own commands: refresh and its companions, batches, corrections, scrubbing, initialisation (R384, R385, R389,
R391, R392; O36).
-/
namespace Sys2Proof.Machine

theorem smGet_smSet_self {α : Type} (d : α) (m : SMap α) (n : Nat) (x : α) : smGet d (smSet m n x) n = x :=
  (smGet_smSet ..).trans (if_pos rfl)

theorem smGet_smPut_self {α : Type} [DecidableEq α] (d : α) (m : SMap α) (n : Nat) (x : α) : smGet d (smPut d m n x) n = x :=
  (smGet_smPut ..).trans (if_pos rfl)

section
variable {s : State} {sub rank : Nat}

/-- A line that carries no poison and reads clean changes nothing, whether it comes from the array or from a queued write. -/
theorem dramRead_clean {line : Nat} {retry : List Nat} {scrub : Bool} (whole : s.mem.poisoned line = false) :
    s.dramRead line [] retry scrub = s := by
  have clean : lineClass [] = .clean := by decide
  simp only [State.dramRead, whole, clean]
  simp

/-! ## Commands to a rank in service -/

theorem exec_refresh (due : s.rankDue sub rank = true) : exec (.refresh sub rank) s = .next (s.modDram fun d =>
    { d with refAt := smSet d.refAt (2 * sub + rank) s.time, rows := d.rows.filter (fun e => e.1 / 32 != 2 * sub + rank) }) :=
  if_pos due

theorem exec_zqCalibration (ok : s.rankOk sub rank = true) (window : s.inWindow (2 * sub + rank) = true)
    (due : smGet 0 s.dram.zqAt (2 * sub + rank) + 128000000 ≤ s.time) : exec (.zqCalibration sub rank) s =
    .next (s.modDram fun d => { d with zqAt := smSet d.zqAt (2 * sub + rank) s.time }) :=
  if_pos (by simp [ok, window, due])

theorem exec_dqsOscillatorRead {drift : Bool} (ok : s.rankOk sub rank = true) (window : s.inWindow (2 * sub + rank) = true)
    (due : smGet 0 s.dram.oscAt (2 * sub + rank) + 16000000 ≤ s.time) : exec (.dqsOscillatorRead sub rank drift) s =
    .next (s.modDram fun d => { d with oscAt := smSet d.oscAt (2 * sub + rank) s.time
                                       drift := if drift then sub :: d.drift.filter (· != sub) else d.drift }) :=
  if_pos (by simp [ok, window, due])

/-- A rank's temperature after MR4 has been read. -/
def Dram.withMr4 (d : Dram) (key now : Nat) (hot : Bool) : Dram :=
  { d with mr4At := smSet d.mr4At key now, hot := if hot then d.hot.filter (· != key) ++ [key] else d.hot.filter (· != key) }

theorem exec_mr4Read {hot : Bool} (ok : s.rankOk sub rank = true) (due : smGet 0 s.dram.mr4At (2 * sub + rank) + 16000000 ≤ s.time) :
    let t := s.modDram (Dram.withMr4 · (2 * sub + rank) s.time hot)
    exec (.mr4Read sub rank hot) s = .next (t.ctlMod (subReg sub) (fun v => fone v 28 (t.dram.hot.any (fun k => k / 2 == sub)))) :=
  if_pos (by simp [ok, due])

/-- At or above 85 degrees the interval halves. -/
theorem refreshInterval_withMr4 {key now : Nat} {hot : Bool} :
    (s.modDram (Dram.withMr4 · key now hot)).refreshInterval key = if hot then 1950 else 3900 := by
  have listed : ((s.modDram (Dram.withMr4 · key now hot)).dram.hot.contains key) = hot := by
    show (if hot then s.dram.hot.filter (· != key) ++ [key] else s.dram.hot.filter (· != key)).contains key = hot
    cases hot <;> simp
  rw [State.refreshInterval, listed]

/-! ## Commands of class B, and batches of writes -/

theorem exec_writeBatch {n : Nat} (small : sub < 16) (service : s.subState sub = 1) (due : s.batchDue sub = true)
    (fits : s.batchFits sub n = true) (refreshed : s.refreshDue sub = false) : exec (.writeBatch sub n) s =
    .next (s.modDram fun d => { d with wq := smPut [] d.wq sub (batchRest s.time n (smGet [] d.wq sub)) }) :=
  if_pos ⟨small, .inr ⟨service, due, fits, refreshed⟩⟩

theorem exec_writeBatch_refreshDue {n : Nat} (service : s.subState sub = 1) (due : s.refreshDue sub = true) :
    exec (.writeBatch sub n) s = .next s :=
  if_neg (by simp [service, due])

theorem mayIssueB_refreshDue (due : s.refreshDue sub = true) : s.mayIssueB sub = false := by simp [State.mayIssueB, due]

theorem exec_correctionWrite (small : sub < 16) (service : s.subState sub = 1) (may : s.mayIssueB sub = true) :
    exec (.correctionWrite sub) s = .next (s.modDram fun d => { d with corr := smPut [] d.corr sub ((smGet [] d.corr sub).drop 1) }) :=
  if_pos ⟨small, service, may⟩

theorem exec_correctionWrite_refreshDue (due : s.refreshDue sub = true) : exec (.correctionWrite sub) s = .next s :=
  if_neg (by simp [mayIssueB_refreshDue due])

/-- The scrubber's place once it has read its line. -/
def Dram.scrubbed (d : Dram) (sub lines now line : Nat) : Dram :=
  { d with scrubY := smSet d.scrubY sub ((smGet 0 d.scrubY sub + 1) % lines), scrubAt := smSet d.scrubAt sub now
           corr := smSet d.corr sub ((smGet [] d.corr sub).filter (· != line)) }

theorem exec_scrubRead {retry : List Nat} (small : sub < 16) (service : s.subState sub = 1) (may : s.mayIssueB sub = true)
    (due : smGet 0 s.dram.scrubAt sub + s.scrubPeriod sub / 2 ^ s.board.log2Lines ≤ s.time)
    (whole : s.mem.poisoned (subLine sub (smGet 0 s.dram.scrubY sub)) = false) :
    exec (.scrubRead sub [] retry) s =
      .next (s.modDram (Dram.scrubbed · sub (2 ^ s.board.log2Lines) s.time (subLine sub (smGet 0 s.dram.scrubY sub)))) := by
  show execScrubRead sub [] retry s = _
  unfold execScrubRead
  rw [if_pos ⟨small, service, may, due⟩]
  simp only [dramRead_clean whole]
  rfl

/-- The place of an initialiser that has passed a line is behind it. -/
theorem initialiser_passes {channel line retry granule} (known : channel < 8) (stands : s.initGranule channel = some granule)
    (next : ((List.range 32).map (max (smGet 0 s.dram.initAt channel) (granule * 32768) + ·)).find? (fun y => subchannelOf y / 2 == channel) = some line)
    (service : s.subState (subchannelOf line) = 1) (may : s.mayIssueB (subchannelOf line) = true) (whole : s.mem.poisoned line = false) :
    ∃ t, exec (.initialiserLine channel [] retry) s = .next t ∧ t.mem = s.mem ∧ line < smGet 0 t.dram.initAt channel := by
  show ∃ t, execInitialiserLine channel [] retry s = .next t ∧ _
  unfold execInitialiserLine
  rw [if_pos known, stands]
  simp only [next, service, may, dramRead_clean whole]
  refine ⟨_, rfl, rfl, ?_⟩
  show line < smGet 0 (smSet s.dram.initAt channel _) channel
  rw [smGet_smSet_self]
  split
  next x found =>
    obtain ⟨i, -, rfl⟩ := List.mem_map.mp (List.mem_of_find?_eq_some found)
    exact Nat.lt_of_lt_of_le (Nat.lt_succ_self line) (Nat.le_add_right ..)
  next => exact Nat.lt_succ_self line

end

/-- Settles O36: each command of a controller changes its own queues and times alone. -/
theorem dramMaintenance : Obligations.DramMaintenance := by
  unfold Obligations.DramMaintenance
  intro s sub rank key keeps service small
  refine ⟨fun ok => ⟨fun due => ?refresh, fun due hot => ?mr4, fun window due => ?zq, fun window due drift => ?osc⟩, fun n due fits refreshed => ?batch,
    fun due => ⟨fun n => exec_writeBatch_refreshDue service due, exec_correctionWrite_refreshDue due⟩, fun may => ?correction,
    fun retry may due whole => ?scrub, fun ch granule line retry known stands next inService may whole =>
      initialiser_passes known stands next inService may whole⟩
  case refresh =>
    exact ⟨_, exec_refresh (by simp only [State.rankDue, ok, Bool.true_and, decide_eq_true_eq]; exact due), smGet_smSet_self .., rfl⟩
  case mr4 => exact ⟨_, exec_mr4Read ok due, smGet_smSet_self .., refreshInterval_withMr4, rfl⟩
  case zq => exact ⟨_, exec_zqCalibration ok window due, smGet_smSet_self .., rfl⟩
  case osc =>
    refine ⟨_, exec_dqsOscillatorRead ok window due, smGet_smSet_self .., fun drifts => ?_, rfl⟩
    simp [State.modDram, drifts]
  case batch => exact ⟨_, exec_writeBatch small service due fits refreshed, smGet_smPut_self .., rfl⟩
  case correction => exact ⟨_, exec_correctionWrite small service may, smGet_smPut_self .., rfl⟩
  case scrub => exact ⟨_, exec_scrubRead small service may due whole, rfl, smGet_smSet_self .., smGet_smSet_self ..⟩

end Sys2Proof.Machine
end


section
/-!
PROOF. The network's gates, clock, associations and links (R429, R444 to R448, R451; O43).
-/
namespace Sys2Proof.Machine

section
variable {s : State} {port : Nat}

/-! ## Gates -/

/-- With no new list waiting, an entry whose interval is over gives way to the next. -/
theorem exec_gateEntry {g : Gate} (known : port < 16) (noNew : (s.port port).next = none) (listed : (s.port port).list ≠ [])
    (done : (s.port port).gateEnd ≤ s.gptp) (succ : (s.port port).list[(s.port port).succ]? = some g) :
    exec (.gateEntry port) s =
      .next (s.setPort port ((s.port port).setGate (s.port port).succ ((s.port port).gateEnd + g.interval))) := by
  have stays : ¬((s.port port).list.isEmpty = true ∨ s.gptp < (s.port port).gateEnd) := by simp [listed, done]
  show execGateEntry port s = _
  unfold execGateEntry
  simp only [if_neg (Nat.not_le.mpr known), noNew, if_neg stays, succ]

theorem setGate_hold {x : NetPort} {i : Nat} {g : Gate} {until_ : Int} (entry : x.list[i]? = some g) :
    (x.setGate i until_).hold = (g.op == 1 || (g.op != 2 && x.hold)) := by
  show (match x.list[i]? with | some g => if g.op = 1 then true else if g.op = 2 then false else x.hold | none => x.hold) = _
  rw [entry]
  by_cases sets : g.op = 1
  · simp [sets]
  · by_cases frees : g.op = 2 <;> simp [sets, frees, beq_eq_false_iff_ne.mpr sets, bne]

/-! ## The clock -/

/-- NETTIME is pending on the cores on which it was, and on those whose compartment owns a stream. -/
theorem mem_netTime {k : Nat} : k ∈ s.netTime.nettime ↔ k < 240 ∧ (k ∈ s.nettime ∨ ∃ n, s.cmpOf k = some n ∧ s.ownsAny n 5 = true) := by
  simp only [State.netTime, List.mem_filter, List.mem_range, Bool.or_eq_true, List.contains_iff_mem]
  cases s.cmpOf k <;> simp

/-- One port's cycle after a write of TOFFSET. -/
def State.retime (s : State) (p : Nat) : State :=
  let x := s.port p
  let x := { x with next := x.next.map (fun e => (e.1, e.2.1, nextCycle e.1 e.2.1 s.gptp, e.2.2.2)) }
  if x.list.isEmpty then s.setPort p x
  else s.setPort p { x with gateEnd := nextCycle x.base x.cycle s.gptp, last := true }

theorem retime_net (s : State) (p : Nat) : ∃ net, s.retime p = { s with net := net } := by
  unfold State.retime
  dsimp only
  split <;> exact ⟨_, rfl⟩

/-- A write of TOFFSET changes the two halves of the offset, the ports' cycles, and NETTIME. -/
theorem exec_toffsetWrite (v : Nat) : ∃ net, exec (.toffsetWrite v) s =
    .next { (s.ctlSet o_nswToffsetLo (r32 v)).ctlSet o_nswToffsetHi (r32 (v / 2 ^ 32)) with net := net }.netTime := by
  have retimed : ∃ net, (List.range 16).foldl State.retime ((s.ctlSet o_nswToffsetLo (r32 v)).ctlSet o_nswToffsetHi (r32 (v / 2 ^ 32))) =
      { (s.ctlSet o_nswToffsetLo (r32 v)).ctlSet o_nswToffsetHi (r32 (v / 2 ^ 32)) with net := net } := by
    refine foldl_keeps (p := fun t => ∃ net, t = { (s.ctlSet o_nswToffsetLo (r32 v)).ctlSet o_nswToffsetHi (r32 (v / 2 ^ 32)) with net := net })
      (fun t p kept => ?_) _ _ ⟨s.net, rfl⟩
    obtain ⟨net, rfl⟩ := kept
    exact retime_net _ p
  obtain ⟨net, retimed⟩ := retimed
  exact ⟨net, congrArg (fun t : State => Host.Outcome.next t.netTime) retimed⟩

theorem gptp_toffset (v : Nat) : ((s.ctlSet o_nswToffsetLo (r32 v)).ctlSet o_nswToffsetHi (r32 (v / 2 ^ 32))).gptp =
    s.time + signed64 (v % 2 ^ 64) := by
  have halves : (r32 v).toNat + 2 ^ 32 * (r32 (v / 2 ^ 32)).toNat = v % 2 ^ 64 := by
    simp only [r32, BitVec.toNat_ofNat]
    omega
  have apart : o_nswToffsetHi ≠ o_nswToffsetLo := by decide
  simp only [State.gptp, State.ctlGet_ctlSet, apart, if_true, if_false, halves]
  rfl

/-! ## Security associations -/

/-- Words of 32 bits side by side, as INSTALL puts a key together. -/
def wordsVal (f : Nat → Nat) (n : Nat) : Nat := (List.range n).foldl (fun v i => v + f i * 2 ^ (32 * i)) 0

theorem wordsVal_succ (f : Nat → Nat) (n : Nat) : wordsVal f (n + 1) = wordsVal f n + f n * 2 ^ (32 * n) := by
  simp [wordsVal, List.range_succ]

/-- Each word can be read off. -/
theorem wordsVal_digit {f : Nat → Nat} (small : ∀ i, f i < 2 ^ 32) (n : Nat) :
    wordsVal f n < 2 ^ (32 * n) ∧ ∀ i < n, wordsVal f n / 2 ^ (32 * i) % 2 ^ 32 = f i := by
  induction n with
  | zero => exact ⟨by simp [wordsVal], nofun⟩
  | succ n ih =>
    obtain ⟨bound, digits⟩ := ih
    rw [wordsVal_succ]
    have whole : 2 ^ (32 * (n + 1)) = 2 ^ 32 * 2 ^ (32 * n) := by ring
    have top : (f n + 1) * 2 ^ (32 * n) ≤ 2 ^ 32 * 2 ^ (32 * n) := Nat.mul_le_mul_right _ (small n)
    rw [Nat.succ_mul] at top
    refine ⟨by omega, fun i below => ?_⟩
    rcases Nat.lt_succ_iff_lt_or_eq.mp below with lower | rfl
    · have split : f n * 2 ^ (32 * n) = 2 ^ (32 * i) * (2 ^ 32 * (f n * 2 ^ (32 * (n - i - 1)))) := by
        have sum : 32 * n = 32 * i + (32 + 32 * (n - i - 1)) := by omega
        rw [sum]
        ring
      rw [split, Nat.add_mul_div_left _ _ (Nat.two_pow_pos _), Nat.add_mul_mod_self_left]
      exact digits i lower
    · rw [Nat.add_mul_div_right _ _ (Nat.two_pow_pos _), Nat.div_eq_of_lt bound, Nat.zero_add, Nat.mod_eq_of_lt (small _)]

/-- The association that INSTALL takes from the staged registers. -/
def State.macSa (s : State) (p : Nat) (cmd : Reg32) : MacSa :=
  { port := p, rx := fbit cmd 29, sc := if fbit cmd 29 then fget cmd 28 27 else 0, an := fget cmd 26 25, xpn := fbit cmd 30
    key := wordsVal (fun i => (s.ctlGet (o_nswMskey p i)).toNat) 8, salt := wordsVal (fun i => (s.ctlGet (o_nswMssalt p i)).toNat) 3
    pn := (s.ctlGet (o_nswMspn p)).toNat, active := !fbit cmd 29 && fbit cmd 24 }

theorem macSa_key (cmd : Reg32) (i : Nat) (below : i < 8) :
    (s.macSa port cmd).key / 2 ^ (32 * i) % 2 ^ 32 = (s.ctlGet (o_nswMskey port i)).toNat := by
  have staged : (s.macSa port cmd).key = wordsVal (fun i => (s.ctlGet (o_nswMskey port i)).toNat) 8 := rfl
  rw [staged]
  exact (wordsVal_digit (fun _ => BitVec.isLt _) 8).2 i below

/-- Writing zero into registers clears them, and no write of a zero undoes that. -/
theorem ctlGet_clears (off : Nat → Nat) (l : List Nat) (o : Nat) :
    (l.foldl (fun s i => s.ctlSet (off i) 0) s).ctlGet o = if ∃ i ∈ l, off i = o then 0 else s.ctlGet o := by
  induction l generalizing s with
  | nil => simp
  | cons i r ih =>
    rw [List.foldl_cons, ih, State.ctlGet_ctlSet]
    by_cases later : ∃ j ∈ r, off j = o
    · have listed : ∃ j ∈ i :: r, off j = o := later.imp fun j h => ⟨List.mem_cons_of_mem _ h.1, h.2⟩
      rw [if_pos later, if_pos listed]
    · rw [if_neg later]
      by_cases this : off i = o
      · rw [if_pos this, if_pos ⟨i, List.mem_cons_self, this⟩]
      · have unlisted : ¬∃ j ∈ i :: r, off j = o := by
          rintro ⟨j, listed, at_⟩
          rcases List.mem_cons.mp listed with rfl | rest
          · exact this at_
          · exact later ⟨j, rest, at_⟩
        rw [if_neg this, if_neg unlisted]

theorem clears_net (off : Nat → Nat) (l : List Nat) : (l.foldl (fun s i => s.ctlSet (off i) 0) s).net = s.net :=
  foldl_keeps (p := fun t => t.net = s.net) (f := fun s i => s.ctlSet (off i) 0) (fun _ _ kept => kept) l s rfl

theorem macSa_installed (cmd : Reg32) :
    s.macSa port cmd ∈ ((s.macInstall port cmd).ctlSet (o_nswMscmd port) (cmd &&& 0x7F000000)).net.sas := by
  rw [State.ctlSet_net]
  unfold State.macInstall
  dsimp only
  rw [State.ctlSet_net, clears_net, clears_net]
  exact List.mem_append_right _ (List.mem_singleton_self (s.macSa port cmd))

theorem macInstall_staged (cmd : Reg32) : ∀ i < 8, ((s.macInstall port cmd).ctlSet (o_nswMscmd port) (cmd &&& 0x7F000000)).ctlGet (o_nswMskey port i) = 0 := by
  intro i below
  have key : ∃ j ∈ List.range 8, o_nswMskey port j = o_nswMskey port i := ⟨i, List.mem_range.mpr below, rfl⟩
  have command : o_nswMscmd port ≠ o_nswMskey port i := by unfold o_nswMscmd o_nswMskey; omega
  have number : o_nswMspn port ≠ o_nswMskey port i := by unfold o_nswMspn o_nswMskey; omega
  rw [State.ctlGet_ctlSet, if_neg command]
  unfold State.macInstall
  dsimp only
  rw [State.ctlGet_ctlSet, if_neg number, ctlGet_clears, ctlGet_clears, if_pos key, ite_self]

theorem exec_macsecInstall {who : Sender} {cmd : Reg32} (known : port < 16) (reach : s.reach who (o_nswMscmd port) = true) :
    exec (.macsecInstall who port cmd) s = .next ((s.macInstall port cmd).ctlSet (o_nswMscmd port) (cmd &&& 0x7F000000)) :=
  if_pos (by simp [known, reach])

/-! ## Fields of a register -/

theorem fget_fset_apart (v : Reg32) {hi lo a b x : Nat} (inside : hi < 32) (apart : hi < b ∨ a < lo) : fget (fset v a b x) hi lo = fget v hi lo :=
  fget_congr fun j above below => by rw [fbit_fset _ _ _ _ (by omega), if_neg (by omega)]

theorem fget_fone_apart (v : Reg32) {hi lo i : Nat} {b : Bool} (inside : hi < 32) (apart : hi < i ∨ i < lo) : fget (fone v i b) hi lo = fget v hi lo :=
  fget_fset_apart v inside apart

/-! ## Links -/

/-- A port that comes up at its declared rate is UP. -/
theorem portLinkChange_up (known : port < 16) (fitted : s.portRate port ≠ 0) (down : s.portState port = 1) :
    ∃ t, exec (.portLinkChange port true (s.portRate port)) s = .next t ∧ t.portState port = 2 := by
  have stays : ¬(16 ≤ port ∨ s.portRate port = 0) := by simp [fitted, known]
  have pending : o_nswPortstat port ≠ o_hepP0Intpend := by unfold o_nswPortstat o_hepP0Intpend; omega
  show ∃ t, execPortLinkChange port true (s.portRate port) s = .next t ∧ _
  unfold execPortLinkChange
  simp only [if_neg stays, down, beq_self_eq_true, Bool.and_self, if_true]
  refine ⟨_, rfl, ?_⟩
  simp only [OfNat.one_ne_ofNat, false_and, if_false]
  rw [State.portState, event_ctlGet _ _ _ _ _ _ pending, State.ctlMod, State.ctlGet_ctlSet, if_pos rfl, fget_fone_apart _ (by decide) (by decide),
    fget_fone_apart _ (by decide) (by decide), fget_fset_same _ (by decide) (by decide)]

theorem exec_phyWake_run (known : port < 16) (run : s.pwr.phase = .run) :
    exec (.phyWake port) s = .next (s.ctlMod (o_nswPortstat port) (fun v => fone v 27 true)) := by
  show execPhyWake port s = _
  unfold execPhyWake
  simp [Nat.not_le.mpr known, run]

end

/-- Settles O43, a command at a time. -/
theorem networkControl : Obligations.NetworkControl := by
  unfold Obligations.NetworkControl
  intro s port known x timed
  refine ⟨fun noNew listed done g succ => ?gate, fun v => ?offset, fun b changes => ?synced, fun k reach => ?tevent, fun who cmd reach => ?install,
    fun fitted down => portLinkChange_up known fitted down, fun run => ?wake⟩
  case gate =>
    refine ⟨_, exec_gateEntry known noNew listed done succ, ?_⟩
    simp only [State.port_setPort, if_true]
    exact ⟨rfl, rfl, setGate_hold succ, rfl, rfl⟩
  case offset =>
    obtain ⟨net, next⟩ := exec_toffsetWrite (s := s) v
    exact ⟨_, next, gptp_toffset (s := s) v, fun k => mem_netTime, rfl⟩
  case synced =>
    have next : exec (.syncedChange b) s = .next (s.ctlMod o_nswStatus (fun v => fone v 30 b)).netTime := if_neg changes
    refine ⟨_, next, ?_, fun k => mem_netTime⟩
    show fbit ((s.ctlMod o_nswStatus (fun v => fone v 30 b)).ctlGet o_nswStatus) 30 = b
    rw [State.ctlMod, State.ctlGet_ctlSet, if_pos rfl, fbit_fone _ _ _ (by decide), if_pos rfl]
  case tevent => exact ⟨_, if_pos (.inl reach), rfl⟩
  case install =>
    refine ⟨_, exec_macsecInstall known reach, ⟨s.macSa port cmd, macSa_installed cmd, ?_⟩, macInstall_staged cmd⟩
    exact ⟨rfl, rfl, rfl, rfl, macSa_key cmd⟩
  case wake =>
    refine ⟨_, exec_phyWake_run known run, ?_, rfl⟩
    rw [State.ctlMod, State.ctlGet_ctlSet, if_pos rfl, fbit_fone _ _ _ (by decide), if_pos rfl]

end Sys2Proof.Machine
end

section
/-!
PROOF. Reads that clear (R10, R325; O55): the peak of the open transactions begins again at those that are open.
-/
namespace Sys2Proof.Machine

/-- A running package with one transaction open, of line 0, whose home is Grove 0. -/
def oneOpen : State :=
  { State.reset with
    pwr := { Pwr.reset with phase := .run }
    mem := { Mem.reset with txns := [Txn.idle 0 0 .rds] } }

/-- DIR.OPEN of Grove 0, with PEAK in bits 31:16. -/
def openRow : RegRow := ⟨.dir, 0x8, [], 0x0, [fr 31 16 .rc .hid, fr 15 12 .ro .hid, fr 11 0 .ro .hid]⟩

theorem oneOpen_reach : oneOpen.reach .host (o_dirOpen 0) = true := by decide

/-- The peak after the read. -/
theorem oneOpen_peak : (oneOpen.regRead .host (o_dirOpen 0)).ctlGet (o_dirOpen 0) &&& openRow.mask false (· == .rc) = 0x10000 := by decide +kernel

/-- Refutes O55: a read of DIR.OPEN clears PEAK and then begins it again at the transactions that are open (R325), so that with one open the
field does not read as zero after the read. -/
theorem not_debugAndRegisters : ¬ Obligations.DebugAndRegisters := by
  unfold Obligations.DebugAndRegisters
  rintro ⟨-, registers, -⟩
  have located : ctlLoc (o_dirOpen 0) = some ⟨.dir, 8, false, o_dirOpen 0⟩ := by decide
  obtain ⟨-, reads⟩ := registers oneOpen (o_dirOpen 0) ⟨.dir, 8, false, o_dirOpen 0⟩ openRow [] (by decide) (by decide) located (by decide)
    oneOpen_reach
  obtain ⟨t, read, -, cleared, -⟩ := reads (by decide)
  have next : exec (.rcRead .host (o_dirOpen 0)) oneOpen = .next (oneOpen.regRead .host (o_dirOpen 0)) := rfl
  rw [← Host.Outcome.next.inj (next.symm.trans read)] at cleared
  exact absurd (oneOpen_peak.symm.trans cleared) (by decide)

end Sys2Proof.Machine
end


section
/-!
PROOF. What a write to memory and an event leave as they were.

The caches, the directory, the homes, the recording sessions, the event log and the counters change; the queues and their engines, the
network, the host endpoint's functions, the links, power, the security block and the shaper do not. `Beside s₀ s` says so of a state `s`
reached from `s₀` by such work, and that the registers which no counter shares its place with are as they were. As for `Steady`, there
is one closure rule for each function of the model.
-/
namespace Sys2Proof.Machine

-- One theorem after another: elaborated at once, they wait for one another in as many threads, and the stacks alone are gigabytes.
set_option Elab.async false

/-! ## The relation -/

/-- A state without what such work changes. Of the host's pending interrupts those of PF0 are left out. -/
def State.beside (s : State) : State :=
  { s with cores := [], mem := Mem.reset, ctl := [], evl := EvLog.reset, usts := [], mft := [], mftc := [], dram := Dram.reset, sent := [],
           hep := { s.hep with pend := smErase s.hep.pend 0, fint := 0, cnt := [] }, links := { s.links with countedAt := 0 } }

/-- Registers that no counter, notice or pending interrupt of the host lies at, whatever its indices: CRST, and what lies below the event
log and ends in 8 (MFT.WIDX). -/
def Settled (o : Nat) : Prop := (o % 16 = 12 ∧ o % 0x100000 ≠ 0x3000C ∧ 0x200000 ≤ o) ∨ (o % 16 = 8 ∧ o < 0x50000)

/-- No settled register. -/
def Unsettled (off : Nat) : Prop := ∀ o, Settled o → off ≠ o

structure Beside (s₀ s : State) : Prop where
  beside : s.beside = s₀.beside
  reg : ∀ o, Settled o → smFind? s.ctl o = smFind? s₀.ctl o
  run : ∀ k, (s.core k).run = (s₀.core k).run
  rep : ∀ k, (s.core k).rep = (s₀.core k).rep

inductive BesidePair (s₀ : State) {α : Type} : State × α → Prop
  | mk {s a} (h : Beside s₀ s) : BesidePair s₀ (s, a)

/-! ## Registers that are not settled -/

section
variable (g i j : Nat)

@[simp] theorem unsettled_hepP0Intpend : Unsettled o_hepP0Intpend := fun o so => by unfold Settled at so; unfold o_hepP0Intpend; omega
@[simp] theorem unsettled_evlCnote : Unsettled (o_evlCnote g) := fun o so => by unfold Settled at so; unfold o_evlCnote; omega
@[simp] theorem unsettled_evlClast : Unsettled (o_evlClast g) := fun o so => by unfold Settled at so; unfold o_evlClast; omega
@[simp] theorem unsettled_pmuCcntl : Unsettled (o_pmuCcntl g i j) := fun o so => by unfold Settled at so; unfold o_pmuCcntl; omega
@[simp] theorem unsettled_pmuCcnth : Unsettled (o_pmuCcnth g i j) := fun o so => by unfold Settled at so; unfold o_pmuCcnth; omega
@[simp] theorem unsettled_pmuCovf : Unsettled (o_pmuCovf g i) := fun o so => by unfold Settled at so; unfold o_pmuCovf; omega
@[simp] theorem unsettled_pmuUcntl : Unsettled (o_pmuUcntl g i) := fun o so => by unfold Settled at so; unfold o_pmuUcntl; omega
@[simp] theorem unsettled_pmuUcnth : Unsettled (o_pmuUcnth g i) := fun o so => by unfold Settled at so; unfold o_pmuUcnth; omega
@[simp] theorem unsettled_pmuUovf : Unsettled (o_pmuUovf g) := fun o so => by unfold Settled at so; unfold o_pmuUovf; omega
@[simp] theorem unsettled_dirOpen : Unsettled (o_dirOpen g) := fun o so => by unfold Settled at so; unfold o_dirOpen; omega
@[simp] theorem unsettled_dirBackinv : Unsettled (o_dirBackinv g) := fun o so => by unfold Settled at so; unfold o_dirBackinv; omega
@[simp] theorem unsettled_dirVicwait : Unsettled (o_dirVicwait g) := fun o so => by unfold Settled at so; unfold o_dirVicwait; omega
@[simp] theorem unsettled_mftChunks : Unsettled (o_mftChunks g) := fun o so => by unfold Settled at so; unfold o_mftChunks; omega
end

/-! ## The rules -/

section
variable {s₀ s t : State}

theorem Beside.refl : Beside s s := ⟨rfl, fun _ _ => rfl, fun _ => rfl, fun _ => rfl⟩

theorem Beside.trans {s₁} (h : Beside s₀ s₁) (h' : Beside s₁ s) : Beside s₀ s :=
  ⟨h'.beside.trans h.beside, fun o so => (h'.reg o so).trans (h.reg o so), fun k => (h'.run k).trans (h.run k), fun k => (h'.rep k).trans (h.rep k)⟩

/-- The constructor is spelled out, so that unification reads the fields off any record update of the model. -/
theorem Beside.frameCtl (h : Beside s₀ s) {mem ctl evl usts mft mftc dram sent} (reg : ∀ o, Settled o → smFind? ctl o = smFind? s.ctl o) :
    Beside s₀ ⟨s.pending, s.time, s.draws, s.fuses, s.board, s.cores, mem, ctl, s.ulatch, s.live, s.store, s.cmps, s.generation, s.cht, evl,
      s.buckets, s.held, s.flight, usts, s.lags, s.lagCount, s.halts, mft, mftc, s.nettime, dram, s.qm, s.hep, s.net, s.links, s.pwr, s.sec,
      sent, s.logOff⟩ :=
  ⟨h.beside, fun o so => (reg o so).trans (h.reg o so), h.run, h.rep⟩

theorem Beside.frame (h : Beside s₀ s) {mem evl usts mft mftc dram sent} :
    Beside s₀ ⟨s.pending, s.time, s.draws, s.fuses, s.board, s.cores, mem, s.ctl, s.ulatch, s.live, s.store, s.cmps, s.generation, s.cht, evl,
      s.buckets, s.held, s.flight, usts, s.lags, s.lagCount, s.halts, mft, mftc, s.nettime, dram, s.qm, s.hep, s.net, s.links, s.pwr, s.sec,
      sent, s.logOff⟩ := .frameCtl h fun _ _ => rfl

theorem Beside.countedAt {c} (h : Beside s₀ s) : Beside s₀ { s with links := { s.links with countedAt := c } } := ⟨h.beside, h.reg, h.run, h.rep⟩

theorem Beside.setMem {m} (h : Beside s₀ s) : Beside s₀ (s.setMem m) := .frame h

theorem Beside.foldl {α : Type} {f : State → α → State} {l : List α} (hf : ∀ s a, Beside s₀ s → Beside s₀ (f s a)) (h : Beside s₀ s) :
    Beside s₀ (l.foldl f s) := foldl_keeps hf l s h

theorem Beside.ite {c : Prop} [Decidable c] (h : Beside s₀ s) (h' : Beside s₀ t) : Beside s₀ (if c then s else t) := by
  split <;> assumption

theorem BesidePair.ite {α : Type} {c : Prop} [Decidable c] {a b : State × α} (h : BesidePair s₀ a) (h' : BesidePair s₀ b) :
    BesidePair s₀ (if c then a else b) := by
  split <;> assumption

theorem Beside.ofPair {α : Type} {x : State × α} {a} (h : BesidePair s₀ x) (e : x = (s, a)) : Beside s₀ s := by
  subst e; cases h; assumption

theorem Beside.ctlSet {off v} (h : Beside s₀ s) (ne : Unsettled off := by simp) :
    Beside s₀ (s.ctlSet off v) := by
  refine .frameCtl h fun o so => ?_
  unfold smPut
  split
  · rw [smFind?_smErase, if_neg (ne o so)]
  · rw [smFind?_smSet, if_neg (ne o so)]

/-- One function of the cores that leaves their run state and their repetition. -/
theorem Beside.modCores {f : Nat → Core → Core} (h : Beside s₀ s)
    (run : ∀ k c, (f k c).run = c.run := by intro k c; split <;> rfl) (rep : ∀ k c, (f k c).rep = c.rep := by intro k c; split <;> rfl) :
    Beside s₀ (s.modCores f) := by
  have mapped {α : Type} (v : Core → α) (keep : ∀ k c, v (f k c) = v c) (k : Nat) : v ((s.modCores f).core k) = v (s.core k) := by
    unfold State.modCores State.core
    induction s.cores with
    | nil => rfl
    | cons e r ih =>
      simp only [List.map_cons, smGet]
      split
      · rw [keep]
      · exact ih
  exact ⟨h.beside, h.reg, fun k => (mapped Core.run run k).trans (h.run k), fun k => (mapped Core.rep rep k).trans (h.rep k)⟩

theorem Beside.modCore {k} {f : Core → Core} (h : Beside s₀ s)
    (run : (f (s.core k)).run = (s.core k).run := by rfl) (rep : (f (s.core k)).rep = (s.core k).rep := by rfl) :
    Beside s₀ (s.modCore k f) := by
  refine ⟨h.beside, h.reg, fun j => ?_, fun j => ?_⟩
  · rw [State.core_modCore, ← h.run]
    split
    next same => rw [run, same]
    next => rfl
  · rw [State.core_modCore, ← h.rep]
    split
    next same => rw [rep, same]
    next => rfl

/-! ### The control space, the host's interrupts, the event log and the counters -/

theorem Beside.emit {x} (h : Beside s₀ s) : Beside s₀ (s.emit x) := .frame h

theorem smErase_smSet {α : Type} (m : SMap α) (n : Nat) (x : α) : smErase (smSet m n x) n = smErase m n := by
  induction m with
  | nil => simp [smSet, smErase]
  | cons e r ih =>
    obtain ⟨k, v⟩ := e
    by_cases same : k = n
    · simp [smSet, smErase, same]
    · by_cases before : n < k <;> simp [smSet, smErase, same, before, ih]

theorem smErase_smErase {α : Type} (m : SMap α) (n : Nat) : smErase (smErase m n) n = smErase m n := by
  induction m with
  | nil => rfl
  | cons e r ih =>
    obtain ⟨k, v⟩ := e
    by_cases same : k = n <;> simp [smErase, same, ih]

theorem smErase_smPut {α : Type} [DecidableEq α] (d : α) (m : SMap α) (n : Nat) (x : α) : smErase (smPut d m n x) n = smErase m n := by
  unfold smPut
  split
  · exact smErase_smErase m n
  · exact smErase_smSet m n x

/-- PF0's pending interrupts. -/
theorem Beside.pend {l} (h : Beside s₀ s) (same : smErase l 0 = smErase s.hep.pend 0) : Beside s₀ (s.modHep fun x => { x with pend := l }) := by
  refine ⟨Eq.trans ?_ h.beside, h.reg, h.run, h.rep⟩
  show ({ s.beside with hep := { s.hep with pend := smErase l 0, fint := 0, cnt := [] } } : State) = s.beside
  rw [same]
  rfl

theorem Beside.sendInts (h : Beside s₀ s) : Beside s₀ (s.sendInts 0) := by
  unfold State.sendInts
  refine .foldl (fun t _ h1 => ?_) h
  split
  · exact .pend (.emit h1) (smErase_smPut ..)
  · exact h1

theorem Beside.intaSync {before} (h : Beside s₀ s) : Beside s₀ (s.intaSync before) := .foldl (fun _ _ h1 => .ite h1 (.emit h1)) h

theorem Beside.ctlMod {off f} (h : Beside s₀ s) (ne : Unsettled off := by simp) :
    Beside s₀ (s.ctlMod off f) := .ctlSet h ne

theorem Beside.ctlInc {off} (h : Beside s₀ s) (ne : Unsettled off := by simp) :
    Beside s₀ (s.ctlInc off) := .ctlMod h ne

theorem Beside.irq {vec} (h : Beside s₀ s) : Beside s₀ (s.irq 0 vec) :=
  .ite (.intaSync (s := s.ctlMod o_hepP0Intpend fun v => fone v vec true) (.ctlMod h)) (.sendInts (.pend h (smErase_smSet ..)))

theorem Beside.notice {cmp cls code} (h : Beside s₀ s) : Beside s₀ (s.notice cmp cls code) := by
  unfold State.notice
  split
  · exact h
  · exact .ctlSet (.ite (.ctlInc h) h)

theorem Beside.recordOne {cls code die cmp addr info aux} (h : Beside s₀ s) : Beside s₀ (s.recordOne cls code die cmp addr info aux) := by
  unfold State.recordOne
  extract_lets s1
  have h1 : Beside s₀ s1 := .notice h
  refine .ite h1 (.ite (.frame h1) ?_)
  split
  · exact .frame h1
  · exact .ite (.frame h1) (.frame h1)

theorem Beside.record {cls code die cmp addr info aux} (h : Beside s₀ s) : Beside s₀ (s.record cls code die cmp addr info aux) :=
  .ite (.recordOne h) (.recordOne (.recordOne h))

theorem Beside.event {cls code die cmp addr info aux} (h : Beside s₀ s) : Beside s₀ (s.event cls code die cmp addr info aux) :=
  .ite (.irq (.record h)) (.record h)

theorem Beside.setCnt48 {lo hi v} (h : Beside s₀ s) (hlo : Unsettled lo := by simp) (hhi : Unsettled hi := by simp) :
    Beside s₀ (s.setCnt48 lo hi v) := .ctlSet (.ctlSet h hlo) hhi

theorem Beside.bump48 {lo hi ovf j n} (h : Beside s₀ s) (hlo : Unsettled lo := by simp)
    (hhi : Unsettled hi := by simp) (hovf : Unsettled ovf := by simp) : Beside s₀ (s.bump48 lo hi ovf j n) :=
  .ite (.ctlMod (.setCnt48 h hlo hhi) hovf) (.setCnt48 h hlo hhi)

theorem Beside.count {k ev n} (h : Beside s₀ s) : Beside s₀ (s.count k ev n) := by
  unfold State.count
  split
  · exact h
  · exact .ite (.foldl (fun _ _ h1 => .ite (.bump48 h1) h1) h) h

theorem Beside.ucount {g ev unit n cmp cls} (h : Beside s₀ s) : Beside s₀ (s.ucount g ev unit n cmp cls) := by
  unfold State.ucount
  split
  · exact h
  · exact .foldl (fun _ _ h1 => .ite (.bump48 h1) h1) h

/-! ### The caches and the directory -/

theorem Beside.dropStand {stand line} (h : Beside s₀ s) : Beside s₀ (s.dropStand stand line) := .setMem (.modCores h)

theorem Beside.dropGrove {g line} (h : Beside s₀ s) : Beside s₀ (s.dropGrove g line) := .setMem (.modCores h)

theorem Beside.putTag {g line st data} (h : Beside s₀ s) : Beside s₀ (s.putTag g line st data) := by
  unfold State.putTag
  split <;> exact .setMem h

theorem Beside.mirrorOut {line cls} (h : Beside s₀ s) : Beside s₀ (s.mirrorOut line cls) := by
  unfold State.mirrorOut
  split
  · exact .ite (.emit h) h
  · exact h

theorem Beside.modDram {f} (h : Beside s₀ s) : Beside s₀ (s.modDram f) := .frame h

theorem Beside.queueWrite {line r} (h : Beside s₀ s) : Beside s₀ (s.queueWrite line r) := by
  unfold State.queueWrite
  exact .modDram (.mirrorOut h)

theorem Beside.acceptWrite {line r} (h : Beside s₀ s) : Beside s₀ (s.acceptWrite line r) := by
  unfold State.acceptWrite
  split
  · exact .queueWrite (.ite h (.modDram h))
  · exact h

theorem Beside.sendWb {g line keep} (h : Beside s₀ s) : Beside s₀ (s.sendWb g line keep) := by
  unfold State.sendWb
  exact .ite (.emit (.ucount h)) (.acceptWrite (.ucount h))

theorem Beside.dropAll {line gs} (h : Beside s₀ s) : Beside s₀ (s.dropAll line gs) := .foldl (fun _ _ h1 => .dropGrove h1) h

theorem Beside.mergeHolders {line} (h : Beside s₀ s) : Beside s₀ (s.mergeHolders line) :=
  .setMem (.dropAll h)

theorem Beside.backInvalidate {line} (h : Beside s₀ s) : Beside s₀ (s.backInvalidate line) := .mergeHolders (.ite (.acceptWrite h) h)

theorem Beside.countBinv {h' n line} (h : Beside s₀ s) : Beside s₀ (s.countBinv h' n line) := by
  unfold State.countBinv
  exact .ucount (.ctlMod h)

theorem Beside.roomDir {line} (h : Beside s₀ s) : Beside s₀ (s.roomDir line) := by
  unfold State.roomDir
  refine .ite h ?_
  split
  · exact .backInvalidate (.countBinv h)
  · exact h

theorem Beside.homeOwn {g line} (h : Beside s₀ s) : Beside s₀ (s.homeOwn g line) := by
  unfold State.homeOwn
  refine .ite (.dropAll h) ?_
  extract_lets s1
  have h1 : Beside s₀ s1 := by
    unfold s1
    split
    · exact .roomDir h
    · exact .dropAll h
  exact .setMem h1

theorem Beside.cleanGrove {g line} (h : Beside s₀ s) : Beside s₀ (s.cleanGrove g line) := by
  unfold State.cleanGrove
  split
  · exact h
  · extract_lets
    split
    · exact .setMem (.ite (.sendWb h) h)
    · exact .setMem (.ite (.sendWb h) h)
    · exact .ite (.sendWb h) h

theorem Beside.groveEvict {g line} (h : Beside s₀ s) : Beside s₀ (s.groveEvict g line) := by
  unfold State.groveEvict
  split
  · exact h
  · exact .ite (.setMem (.dropGrove (.sendWb h)))
        (.ite (.dropGrove h) (.ite (.setMem (.dropGrove h)) (.setMem (.dropGrove h))))

theorem Beside.l2Evict {stand line} (h : Beside s₀ s) : Beside s₀ (s.l2Evict stand line) := by
  unfold State.l2Evict
  split
  · exact h
  · extract_lets _ s1
    have h1 : Beside s₀ s1 := .dropStand h
    split
    · exact h1
    · exact .ite (.groveEvict h1) (.ite (.cleanGrove h1) h1)

theorem Beside.roomL2 {stand line} (h : Beside s₀ s) : Beside s₀ (s.roomL2 stand line) := by
  unfold State.roomL2
  refine .ite h ?_
  split
  · exact .l2Evict h
  · exact h

theorem Beside.roomGrove {g line} (h : Beside s₀ s) : Beside s₀ (s.roomGrove g line) := by
  unfold State.roomGrove
  refine .ite h ?_
  split
  · exact .groveEvict h
  · exact h

theorem Beside.gainOwn {stand line} (h : Beside s₀ s) : Beside s₀ (s.gainOwn stand line) := by
  unfold State.gainOwn
  extract_lets _ _ _ _ _ _ s1 s2
  have h1 : Beside s₀ s1 := by
    unfold s1
    split
    · exact .ite (.setMem h) (.putTag (.homeOwn h))
    · exact .putTag (.homeOwn (.roomGrove h))
  have h2 : Beside s₀ s2 := .foldl (fun _ _ h3 => .dropStand h3) h1
  exact .setMem (.ite h2 (.roomL2 h2))

theorem Beside.ownedWrite {stand pa bytes} (h : Beside s₀ s) : Beside s₀ (s.ownedWrite stand pa bytes) := by
  unfold State.ownedWrite
  exact .setMem h

theorem Beside.clearRes {except line} (h : Beside s₀ s) : Beside s₀ (s.clearRes except line) := .modCores h

/-! ### The homes and writes of memory -/

theorem Beside.countUpGrove {n g} (h : Beside s₀ s) : Beside s₀ (s.countUpGrove n g) :=
  .ite h (.foldl (fun _ _ h1 => .ite (.ucount h1) h1) (.foldl (fun _ _ h2 => .ucount h2) h))

theorem Beside.countUp (h : Beside s₀ s) : Beside s₀ s.countUp :=
  .countedAt (.ite h (.foldl (fun _ _ h1 => .countUpGrove h1) h))

theorem Beside.setTxn {t} (h : Beside s₀ s) : Beside s₀ (s.setTxn t) := .setMem h

theorem Beside.closeTxn {line} (h : Beside s₀ s) : Beside s₀ (s.closeTxn line) := .setMem (.countUp h)

theorem Beside.send {l} (h : Beside s₀ s) : Beside s₀ (s.send l) := .setMem h

theorem Beside.openT {t l} (h : Beside s₀ s) : Beside s₀ (s.openT t l) := by
  unfold State.openT
  exact .ucount (.ctlMod (.send (.setMem (.countUp h))))

theorem BesidePair.victimStart {line} (h : Beside s₀ s) : BesidePair s₀ (s.victimStart line) := by
  unfold State.victimStart
  refine .ite (.mk h) ?_
  split
  · exact .mk (.ucount (.ctlInc h))
  · exact .mk (.countBinv (.openT h))

theorem Beside.serveRds {g line} (h : Beside s₀ s) : Beside s₀ (s.serveRds g line) := by
  unfold State.serveRds
  extract_lets
  split
  · exact .openT (.setMem h)
  · extract_lets
    split
    · exact .ite (.openT (.setMem h)) (.openT (.setMem h))
    · exact .ite (.openT h) (.openT (.setMem h))
    · exact .openT (.setMem h)

theorem Beside.serveRdx {g line k} (h : Beside s₀ s) : Beside s₀ (s.serveRdx g line k) := by
  unfold State.serveRdx
  dsimp only
  split
  · exact .openT (.setMem h)
  · split <;> exact .openT (.setMem h)

theorem Beside.serveUpg {g line} (h : Beside s₀ s) : Beside s₀ (s.serveUpg g line) := by
  unfold State.serveUpg
  split
  · exact .serveRdx h
  · exact .ite (.serveRdx h) (.openT (.setMem h))

theorem Beside.serveRdcur {port line} (h : Beside s₀ s) : Beside s₀ (s.serveRdcur port line) := by
  unfold State.serveRdcur
  extract_lets
  split
  · exact .ite (.openT h) (.openT h)
  · exact .openT h

theorem Beside.progress {line} (h : Beside s₀ s) : Beside s₀ (s.progress line) := by
  unfold State.progress
  split
  · exact h
  · refine .ite h ?_
    split
    · exact .send (.setTxn h)
    · exact .ite (.setMem (.closeTxn h)) h

theorem Beside.serveWrinv {port line bytes} (h : Beside s₀ s) : Beside s₀ (s.serveWrinv port line bytes) := by
  unfold State.serveWrinv
  extract_lets
  split
  · exact .progress (.openT h)
  · refine .ite (.progress (.openT h)) ?_
    split <;> exact .openT h

theorem Beside.serveReq {w} (h : Beside s₀ s) : Beside s₀ (s.serveReq w) := by
  unfold State.serveReq
  split
  · exact .serveRds h
  · exact .serveRdx h
  · exact .serveUpg h
  · exact .serveRdcur h
  · exact .serveWrinv h
  · exact .setMem h
  · exact h

theorem BesidePair.startReq {w} (h : Beside s₀ s) : BesidePair s₀ (s.startReq w) := by
  unfold State.startReq
  refine .ite (.mk h) (.ite (.ite (.mk h) ?_) (.mk (.serveReq h)))
  split
  next e1 => exact .mk (.serveReq (.ofPair (.victimStart h) e1))
  next e1 => exact .mk (.ofPair (.victimStart h) e1)

theorem Beside.request {port line k} (h : Beside s₀ s) : Beside s₀ (s.request port line k) := by
  unfold State.request
  refine .ite (.setMem h) ?_
  split
  next e1 => exact .ofPair (.startReq h) e1
  next e1 => exact .setMem (.ofPair (.startReq h) e1)

theorem Beside.agePromoted {w} (h : Beside s₀ s) : Beside s₀ (s.agePromoted w) := .ite (.ucount h) h

theorem Beside.serveWaits (h : Beside s₀ s) : Beside s₀ s.serveWaits := by
  unfold State.serveWaits
  refine .foldl (fun _ _ h1 => .ite ?_ h1) h
  split
  next e1 => exact .agePromoted (.setMem (.ofPair (.startReq h1) e1))
  next e1 => exact .ofPair (.startReq h1) e1

theorem Beside.wrNow {port pa bytes} (h : Beside s₀ s) : Beside s₀ (s.wrNow port pa bytes) :=
  .setMem (.acceptWrite (.clearRes (.ite (.ite (.emit h) h) (.mergeHolders (.ite (.emit h) h)))))

theorem Beside.wrInvFrom {port pa bytes} (h : Beside s₀ s) : Beside s₀ (s.wrInvFrom port pa bytes) := by
  unfold State.wrInvFrom
  exact .ite (.request h) (.wrNow h)

theorem Beside.wrInv {pa bytes} (h : Beside s₀ s) : Beside s₀ (s.wrInv pa bytes) := .wrInvFrom h

theorem Beside.wrDev {pa bs} (h : Beside s₀ s) : Beside s₀ (s.wrDev pa bs) := .foldl (fun _ _ h1 => .wrInv h1) h

theorem Beside.wrOctets {dense base o octs} (h : Beside s₀ s) : Beside s₀ (s.wrOctets dense base o octs) := .wrDev h

theorem Beside.freeLines {lines} (h : Beside s₀ s) : Beside s₀ (s.freeLines lines) := .ite h (.setMem (.countUp h))

/-! ### The recording sessions, the operations of a core, the queues' words -/

theorem Beside.setSess {n m} (h : Beside s₀ s) : Beside s₀ (s.setSess n m) := .frame h

theorem Beside.mftPut {n r} (h : Beside s₀ s) : Beside s₀ (s.mftPut n r) := .setSess h

theorem Beside.setMftc {k m} (h : Beside s₀ s) : Beside s₀ (s.setMftc k m) := .frame h

theorem Beside.mftRelease {k} (h : Beside s₀ s) : Beside s₀ (s.mftRelease k) := by
  unfold State.mftRelease
  split
  · exact .ite h (.foldl (fun _ _ h1 => .mftPut h1) (.setMftc h))
  · exact h

theorem Beside.mftEndChunk {k cause} (h : Beside s₀ s) : Beside s₀ (s.mftEndChunk k cause) := by
  unfold State.mftEndChunk
  split
  · exact .count (.setMftc (.ctlInc (.ite h (.mftPut h))))
  · exact h

theorem Beside.mftEndInput {n} (h : Beside s₀ s) : Beside s₀ (s.mftEndInput n) := .setSess h

theorem Beside.mftOrder {n ea ec la lc} (h : Beside s₀ s) : Beside s₀ (s.mftOrder n ea ec la lc) := .mftPut h

theorem Beside.mftMarkAt {k lc line isWrite} (h : Beside s₀ s) : Beside s₀ (s.mftMarkAt k lc line isWrite) := by
  unfold State.mftMarkAt
  split
  · refine .ite h ?_
    extract_lets s1 _ s2
    have h1 : Beside s₀ s1 := .foldl (fun _ _ h2 => .ite (.mftOrder (.mftEndChunk h2)) h2) h
    have h3 : Beside s₀ s2 := .ite (.mftOrder (.mftEndInput h1)) h1
    split
    · exact .ite (.ite h3 (.setMftc h3)) (.ite h3 (.setMftc h3))
    · exact h3
  · exact h

theorem Beside.mftInput {n line mask source hash} (h : Beside s₀ s) : Beside s₀ (s.mftInput n line mask source hash) := by
  unfold State.mftInput
  refine .ite h ?_
  extract_lets s1
  have h1 : Beside s₀ s1 := .foldl (fun _ _ h2 => .ite (.mftOrder (.mftEndChunk h2)) h2) h
  exact .ite (.mftEndInput (.setSess (.mftPut h1))) (.setSess (.mftPut h1))

theorem Beside.setUst {g u} (h : Beside s₀ s) : Beside s₀ (s.setUst g u) := .frame h

theorem Beside.setDropped {k} (h : Beside s₀ s) : Beside s₀ (s.setDropped k) := .setUst h

theorem Beside.discardParked {k} (h : Beside s₀ s) : Beside s₀ (s.discardParked k) :=
  .ite (.modCore (.setDropped (.serveWaits (.freeLines h)))) h

theorem Beside.discardAll {k} (h : Beside s₀ s) : Beside s₀ (s.discardAll k) := by
  unfold State.discardAll
  exact .modCore (.serveWaits (.freeLines (.discardParked h)))

theorem Beside.acceptEntry {k e} (h : Beside s₀ s) : Beside s₀ (s.acceptEntry k e) := by
  unfold State.acceptEntry
  extract_lets _ _ _ s1
  have h1 : Beside s₀ s1 := .ite (.ucount (.foldl (fun _ _ h2 => .setMem h2) (.clearRes h)))
      (.foldl (fun _ _ h3 => .ownedWrite h3) (.gainOwn (.clearRes h)))
  exact .mftMarkAt (.ite (.setMem h1) h1)

theorem Beside.drainNow {k} (h : Beside s₀ s) : Beside s₀ (s.drainNow k) := .mftRelease (.modCore (.foldl (fun _ _ h1 => .acceptEntry h1) h))

theorem Beside.inWrite {cmp pa bs source hash} (h : Beside s₀ s) : Beside s₀ (s.inWrite cmp pa bs source hash) := by
  unfold State.inWrite
  refine .foldl (fun _ _ h1 => ?_) h
  extract_lets
  split
  · exact .mftInput (.wrInv h1)
  · exact .wrInv h1

theorem Beside.qmWord {cmp pa v} (h : Beside s₀ s) : Beside s₀ (s.qmWord cmp pa v) := .inWrite h

end
end Sys2Proof.Machine
end


section
/-!
PROOF. What the end of an engine's work leaves as it was.

A request that passes its shaper, a completion record and a queue's index change the shaper, the queues and the engines; of the engines they
leave every one as it was or idle. `Beyond s₀ s` says so of a state `s` reached from `s₀` by such work.
-/
namespace Sys2Proof.Machine

-- One theorem after another: elaborated at once, they wait for one another in as many threads, and the stacks alone are gigabytes.
set_option Elab.async false

/-! ## The relation -/

/-- A state without what such work changes. -/
def State.beyond (s : State) : State :=
  { s.beside with time := 0, buckets := [], held := [], flight := [], qm := Qm.reset, hep := { s.beside.hep with reads := [] } }

structure Beyond (s₀ s : State) : Prop where
  beyond : s.beyond = s₀.beyond
  engine : ∀ e, s.engine e = s₀.engine e ∨ (s.engine e).st = 0

inductive BeyondPair (s₀ : State) {α : Type} : State × α → Prop
  | mk {s a} (h : Beyond s₀ s) : BeyondPair s₀ (s, a)

section
variable {s₀ s t : State}

theorem Beyond.refl : Beyond s s := ⟨rfl, fun _ => .inl rfl⟩

theorem Beyond.trans {s₁} (h : Beyond s₀ s₁) (h' : Beyond s₁ s) : Beyond s₀ s := by
  refine ⟨h'.beyond.trans h.beyond, fun e => ?_⟩
  rcases h'.engine e with same | idle
  · rw [same]
    exact h.engine e
  · exact .inr idle

theorem Beside.qm (h : Beside s₀ s) : s.qm = s₀.qm := (congrArg State.qm h.beside :)

theorem Beside.toBeyond (h : Beside s₀ s) : Beyond s₀ s :=
  ⟨congrArg (fun t : State => { t with time := 0, buckets := [], held := [], flight := [], qm := Qm.reset, hep := { t.hep with reads := [] } }) h.beside,
    fun e => .inl (congrArg (fun m : Qm => smGet Engine.reset m.engines e) h.qm)⟩

/-- Work that leaves more follows. -/
theorem Beyond.work (h : Beyond s₀ s) (w : Beside s t) : Beyond s₀ t := h.trans w.toBeyond

theorem Beyond.foldl {α : Type} {f : State → α → State} {l : List α} (hf : ∀ s a, Beyond s₀ s → Beyond s₀ (f s a)) (h : Beyond s₀ s) :
    Beyond s₀ (l.foldl f s) := foldl_keeps hf l s h

theorem Beyond.ite {c : Prop} [Decidable c] (h : Beyond s₀ s) (h' : Beyond s₀ t) : Beyond s₀ (if c then s else t) := by
  split <;> assumption

theorem BeyondPair.ite {α : Type} {c : Prop} [Decidable c] {a b : State × α} (h : BeyondPair s₀ a) (h' : BeyondPair s₀ b) :
    BeyondPair s₀ (if c then a else b) := by
  split <;> assumption

theorem Beyond.fst {α : Type} {x : State × α} (h : BeyondPair s₀ x) : Beyond s₀ x.1 := by
  cases h; assumption

theorem Beyond.ofPair {α : Type} {x : State × α} {a} (h : BeyondPair s₀ x) (e : x = (s, a)) : Beyond s₀ s := by
  subst e; cases h; assumption

theorem Beyond.idle {e} (h : Beyond s₀ s) (idle : (s₀.engine e).st = 0) : (s.engine e).st = 0 := by
  rcases h.engine e with same | idles
  · rw [same, idle]
  · exact idles

/-- The constructor is spelled out, so that unification reads the fields off any record update of the model. -/
theorem Beyond.frame (h : Beyond s₀ s) {time mem ctl evl buckets held flight usts mft mftc dram queues recs sent} :
    Beyond s₀ ⟨s.pending, time, s.draws, s.fuses, s.board, s.cores, mem, ctl, s.ulatch, s.live, s.store, s.cmps, s.generation, s.cht, evl,
      buckets, held, flight, usts, s.lags, s.lagCount, s.halts, mft, mftc, s.nettime, dram,
      { s.qm with queues := queues, recs := recs }, s.hep, s.net, s.links, s.pwr, s.sec, sent, s.logOff⟩ := ⟨h.beyond, h.engine⟩

theorem Beyond.ctlMod {off f} (h : Beyond s₀ s) : Beyond s₀ (s.ctlMod off f) := .frame h

theorem Beyond.ctlInc {off} (h : Beyond s₀ s) : Beyond s₀ (s.ctlInc off) := .ctlMod h

/-! ## The shaper -/

theorem Beyond.take {ci c q} (h : Beyond s₀ s) : Beyond s₀ (s.take ci c q) := .foldl (fun _ _ h1 => .frame h1) h

theorem BeyondPair.shape {q} (h : Beyond s₀ s) : BeyondPair s₀ (s.shape q) := by
  unfold State.shape
  extract_lets
  split
  · exact .mk (.take h)
  · split
    · exact .mk (.take h)
    · exact .mk h

theorem Beyond.accepted {q cmp cls now} (h : Beyond s₀ s) : Beyond s₀ (s.accepted q cmp cls now) := .frame h

theorem Beyond.offer {q cmp now} (h : Beyond s₀ s) : Beyond s₀ (s.offer q cmp now) := by
  unfold State.offer
  refine .ite h ?_
  split
  next e1 => exact .accepted (.ofPair (.shape h) e1)
  next e1 => exact .frame (.ofPair (.shape h) e1)

theorem BeyondPair.complete {q now} (h : Beyond s₀ s) : BeyondPair s₀ (s.complete q now) := by
  unfold State.complete
  split
  · exact .mk h
  · refine .ite (.mk (.frame h)) (.ite ?_ (.mk (.ctlInc (.frame h))))
    extract_lets s1 _ s2
    have h1 : Beyond s₀ s1 := .ctlInc (.frame h)
    have h2 : Beyond s₀ s2 := by
      unfold s2
      split
      · exact .work (.ite (.work h1 (.count .refl)) h1) (.ucount .refl)
      · exact .ite (.work h1 (.count .refl)) h1
    exact .mk (.work h2 (.event .refl))

theorem Beyond.withdraw {srcKind item} (h : Beyond s₀ s) : Beyond s₀ (s.withdraw srcKind item) := .frame h

theorem Beyond.releaseOther {q} (h : Beyond s₀ s) : Beyond s₀ (s.releaseOther q) := by
  unfold State.releaseOther
  split
  · exact h
  · exact .accepted (.frame h)
  · exact .accepted (.frame (.take (.frame h)))

theorem BeyondPair.passWait {q cmp} (h : Beyond s₀ s) : BeyondPair s₀ (s.passWait q cmp) :=
  .complete (.frame (.ite (.releaseOther (.offer h)) (.offer h)))

/-! ## Queues, completion records and engines -/

theorem Beyond.setQueue {q x} (h : Beyond s₀ s) : Beyond s₀ (s.setQueue q x) := .frame h

theorem Beyond.modQueue {q f} (h : Beyond s₀ s) : Beyond s₀ (s.modQueue q f) := .setQueue h

theorem Beyond.notify {q} (h : Beyond s₀ s) : Beyond s₀ (s.notify q) := .ctlMod h

theorem Beyond.moveDev {q v} (h : Beyond s₀ s) : Beyond s₀ (s.moveDev q v) :=
  .ite (.notify (.modQueue (.work (.setQueue h) (.qmWord .refl)))) (.work (.setQueue h) (.qmWord .refl))

theorem Beyond.ringPass {engine pa write} (h : Beyond s₀ s) : Beyond s₀ (s.ringPass engine pa write) := by
  unfold State.ringPass
  split
  · split
    · exact .fst (.passWait h)
    · exact h
  · exact h

theorem Beyond.putRecord {r} (h : Beyond s₀ s) : Beyond s₀ (s.putRecord r) := .moveDev (.work (.ringPass (.ringPass h)) (.inWrite .refl))

theorem Beyond.dropRecords (h : Beyond s₀ s) : Beyond s₀ s.dropRecords := .foldl (fun _ _ h1 => .ctlInc h1) (.frame h)

theorem Beyond.record1 {r} (h : Beyond s₀ s) : Beyond s₀ (s.record1 r) := .ite (.ctlInc h) (.ite (.frame h) (.putRecord h))

theorem Beyond.killReads {e} (h : Beyond s₀ s) : Beyond s₀ (s.killReads e) := ⟨h.beyond, h.engine⟩

theorem Beyond.dmaRecord {e status sub faddr} (h : Beyond s₀ s) : Beyond s₀ (s.dmaRecord e status sub faddr) := .record1 h

/-- An engine that becomes idle. -/
theorem Beyond.idles {e} {f : Engine → Engine} (h : Beyond s₀ s) (idle : (f (s.engine e)).st = 0) : Beyond s₀ (s.modEngine e f) := by
  refine ⟨h.beyond, fun j => ?_⟩
  unfold State.modEngine
  rw [State.engine_setEngine]
  split
  · exact .inr idle
  · exact h.engine j

/-- The part of `dmaEnd` that comes before its engine is idle. -/
theorem dmaEnd_idles (e status : Nat) : ∃ t, Beyond s t ∧ s.dmaEnd e status = t.modEngine e fun y => { y with st := 0, desc := [], issued := 0 } :=
  ⟨_, .ite (.modQueue (.withdraw (.ite (.dmaRecord (.killReads .refl)) (.killReads .refl))))
    (.withdraw (.ite (.dmaRecord (.killReads .refl)) (.killReads .refl))), rfl⟩

theorem Beyond.dmaEnd {e status} (h : Beyond s₀ s) : Beyond s₀ (s.dmaEnd e status) := by
  obtain ⟨t, before, ends⟩ := dmaEnd_idles (s := s) e status
  rw [ends]
  exact .idles (h.trans before) rfl

theorem dmaEnd_engine (e status : Nat) : ((s.dmaEnd e status).engine e).st = 0 := by
  obtain ⟨t, -, ends⟩ := dmaEnd_idles (s := s) e status
  rw [ends, State.modEngine, State.engine_setEngine, if_pos rfl]

/-- The engines that a test selects end what they do. -/
def State.dmaEnds (s : State) (test : Engine → Bool) (status : Nat) : State :=
  (List.range 64).foldl (fun s e => if test (s.engine e) then s.dmaEnd e status else s) s

theorem Beyond.dmaEnds {test status} (h : Beyond s₀ s) : Beyond s₀ (s.dmaEnds test status) := .foldl (fun _ _ h1 => .ite (.dmaEnd h1) h1) h

/-- An engine that was selected is idle then. -/
theorem dmaEnds_engine {test : Engine → Bool} {status e : Nat} (below : e < 64) (selected : test (s.engine e) = true) :
    ((s.dmaEnds test status).engine e).st = 0 := by
  unfold State.dmaEnds
  have listed := List.mem_range.mpr below
  suffices ∀ (l : List Nat) (t : State), Beyond s t → (e ∈ l ∨ (t.engine e).st = 0) →
      ((l.foldl (fun s e => if test (s.engine e) then s.dmaEnd e status else s) t).engine e).st = 0 from this _ s .refl (.inl listed)
  intro l
  induction l with
  | nil => exact fun t _ done => done.resolve_left List.not_mem_nil
  | cons j r ih =>
    intro t kept done
    refine ih _ (.ite (.dmaEnd kept) kept) ?_
    have stays (idle : (t.engine e).st = 0) : ((if test (t.engine j) then t.dmaEnd j status else t).engine e).st = 0 := by
      split
      · exact (Beyond.dmaEnd (e := j) (status := status) .refl).idle idle
      · exact idle
    rcases done with member | idle
    · rcases List.mem_cons.mp member with rfl | later
      · rcases kept.engine e with same | idle
        · have runs : (if test (t.engine e) then t.dmaEnd e status else t) = t.dmaEnd e status := if_pos (same ▸ selected)
          refine .inr (Eq.trans (congrArg (fun u : State => (u.engine e).st) runs) (dmaEnd_engine e status))
        · exact .inr (stays idle)
      · exact .inl later
    · exact .inr (stays idle)

theorem dmaAbort_ends (v status : Nat) : s.dmaAbort v status = s.dmaEnds (fun x => x.st ≠ 0 && x.d.host && x.d.func == v) status := by
  unfold State.dmaAbort State.dmaEnds
  dsimp only

theorem Beyond.dmaAbort {v status} (h : Beyond s₀ s) : Beyond s₀ (s.dmaAbort v status) := by
  rw [dmaAbort_ends]
  exact .dmaEnds h

end
end Sys2Proof.Machine
end


section
/-!
PROOF. The security block: fuse operations, the generator, debug authentication (R559 to R575; O54).
-/
namespace Sys2Proof.Machine

section
variable {s : State} {slot : Nat}

/-! ## Operations of SEC.CMD (Table 22-5) -/

theorem provdata_clears {t : State} : ∀ i < 24, ((List.range 24).foldl (fun s i => s.ctlSet (o_secProvdata i) 0) t).ctlGet (o_secProvdata i) = 0 := by
  intro i below
  rw [ctlGet_clears o_secProvdata, if_pos ⟨i, List.mem_range.mpr below, rfl⟩]

theorem provdata_clears_result {t : State} :
    ((List.range 24).foldl (fun s i => s.ctlSet (o_secProvdata i) 0) t).ctlGet o_secResult = t.ctlGet o_secResult := by
  rw [ctlGet_clears o_secProvdata, if_neg]
  rintro ⟨i, -, same⟩
  revert same
  unfold o_secProvdata o_secResult
  omega

theorem ctlSets_frame (off : Nat → Nat) (v : Nat → Reg32) (l : List Nat) (t : State) :
    ∃ ctl, l.foldl (fun s i => s.ctlSet (off i) (v i)) t = { t with ctl := ctl } := by
  refine foldl_keeps (p := fun u : State => ∃ ctl, u = { t with ctl := ctl }) (f := fun s i => s.ctlSet (off i) (v i)) (fun u i kept => ?_) l t ⟨_, rfl⟩
  obtain ⟨ctl, rfl⟩ := kept
  exact ⟨_, rfl⟩

/-- An operation has ended: RESULT shows its code, PROVDATA reads as zero, and memory is as it was. -/
def SecEnds (s : State) (code : Nat) (t : State) : Prop :=
  fget (t.ctlGet o_secResult) 31 28 = code ∧ (∀ i < 24, t.ctlGet (o_secProvdata i) = 0) ∧ t.mem = s.mem

theorem fget_code {code : Nat} (small : code < 16) : fget (r32 (code * 2 ^ 28)) 31 28 = code := by
  simp only [fget, r32, BitVec.toNat_ofNat]
  omega

/-- An operation's code and fuses depend on the fuses and the staged data alone. -/
theorem fuseOp_congr {t : State} {op : Nat} {fused : Bool} (sec : t.sec = s.sec) (data : ∀ n, t.provData n = s.provData n) :
    t.fuseOp op slot fused = s.fuseOp op slot fused := by
  unfold State.fuseOp
  rw [sec, data]

theorem provData_ctlSet {off : Nat} {v : Reg32} (apart : ∀ i, off ≠ o_secProvdata i) (n : Nat) : (s.ctlSet off v).provData n = s.provData n := by
  simp only [State.provData, State.ctlGet_ctlSet, apart, if_false]

/-- PROVDATA is cleared. -/
def State.clearProvdata (s : State) : State := (List.range 24).foldl (fun s i => s.ctlSet (o_secProvdata i) 0) s

theorem clearProvdata_ends {t : State} {code : Nat} (result : t.ctlGet o_secResult = r32 (code * 2 ^ 28)) (small : code < 16) (mem : t.mem = s.mem) :
    SecEnds s code t.clearProvdata ∧ t.clearProvdata.sec = t.sec := by
  obtain ⟨ctl, cleared⟩ := ctlSets_frame o_secProvdata (fun _ => 0) (List.range 24) t
  refine ⟨⟨?_, provdata_clears, ?_⟩, ?_⟩
  · rw [State.clearProvdata, provdata_clears_result, result, fget_code small]
  · exact (congrArg State.mem cleared).trans mem
  · exact (congrArg State.sec cleared :)

/-- With no operation busy, one that is not RAISE_SVN ends with the code and the fuses of `fuseOp`. -/
theorem secOp_ends {op code : Nat} {fused : Bool} {x : Sec} (idle : fbit (s.ctlGet o_secStatus) 27 = false) (other : op ≠ 3)
    (result : s.fuseOp op slot fused = (code, x)) (small : code < 16) :
    SecEnds s code (s.secOp op slot fused) ∧ (s.secOp op slot fused).sec = x := by
  have runs : s.secOp op slot fused = (({ s.ctlSet o_secCmd (r32 (op * 2 ^ 20 + slot * 2 ^ 16)) with sec := x } : State).ctlSet o_secResult
      (r32 (code * 2 ^ 28))).clearProvdata := by
    have unread : (s.ctlSet o_secCmd (r32 (op * 2 ^ 20 + slot * 2 ^ 16))).fuseOp op slot fused = s.fuseOp op slot fused :=
      fuseOp_congr (State.ctlSet_sec ..) (provData_ctlSet fun i => by unfold o_secCmd o_secProvdata; omega)
    unfold State.secOp
    simp only [idle, Bool.false_eq_true, if_false, other, unread, result]
    rfl
  rw [runs]
  have commanded := State.ctlSet_mem (s := s) (o := o_secCmd) (v := r32 (op * 2 ^ 20 + slot * 2 ^ 16))
  generalize s.ctlSet o_secCmd (r32 (op * 2 ^ 20 + slot * 2 ^ 16)) = u at commanded ⊢
  exact clearProvdata_ends (by rw [State.ctlGet_ctlSet, if_pos rfl]) small ((State.ctlSet_mem ..).trans commanded)

/-- RAISE_SVN without an operation of the Chart in progress. -/
theorem raiseSvn_ends (idle : fbit (s.ctlGet o_secStatus) 27 = false) (free : s.cht = none) :
    SecEnds s 0 (s.secOp 3 slot true) ∧ (s.secOp 3 slot true).sec.svnFloor = max s.sec.svnFloor (min 64 s.live.svn) := by
  unfold State.secOp
  simp only [idle, Bool.false_eq_true, if_false, if_true, State.ctlSet_cht, free]
  have result : o_secStatus ≠ o_secResult := by decide
  obtain ⟨ends, sec⟩ := clearProvdata_ends (s := s) (code := 0) (t := (({ s.ctlSet o_secCmd (r32 (3 * 2 ^ 20 + slot * 2 ^ 16)) with
    sec := { s.sec with svnFloor := max s.sec.svnFloor (min 64 s.live.svn) } } : State).ctlSet o_secResult 0).ctlMod o_secStatus (fun v => fone v 27 false))
    (by rw [State.ctlMod, State.ctlGet_ctlSet, if_neg result, State.ctlGet_ctlSet, if_pos rfl]; rfl) (by decide) rfl
  exact ⟨ends, congrArg Sec.svnFloor sec⟩

/-- A key that is out of use leaves a slot that a container can still be signed under. -/
theorem fuseOp_revoke (low : slot < 4) (other : ∃ i < 4, i ≠ slot ∧ slotSet s.sec i = true ∧ i ∉ s.sec.revoked) :
    s.fuseOp 2 slot true =
      (0, { s.sec with revoked := if s.sec.revoked.contains slot then s.sec.revoked else s.sec.revoked ++ [slot] }) := by
  obtain ⟨i, below, ne, held, unrevoked⟩ := other
  have usable : ({ s.sec with revoked := if s.sec.revoked.contains slot then s.sec.revoked else s.sec.revoked ++ [slot] } : Sec).usable ≠ [] := by
    refine List.ne_nil_of_mem (a := i) (List.mem_filter.mpr ⟨List.mem_range.mpr below, ?_⟩)
    have kept : slotSet ({ s.sec with revoked := if s.sec.revoked.contains slot then s.sec.revoked else s.sec.revoked ++ [slot] } : Sec) i = true := held
    rw [kept, Bool.true_and, Bool.not_eq_true', List.contains_eq_mem, decide_eq_false_iff_not]
    show i ∉ if s.sec.revoked.contains slot then s.sec.revoked else s.sec.revoked ++ [slot]
    split
    · exact unrevoked
    · simp [unrevoked, ne]
  have stays : ¬(4 ≤ slot ∨ ({ s.sec with revoked := if s.sec.revoked.contains slot then s.sec.revoked else s.sec.revoked ++ [slot] } : Sec).usable = []) :=
    not_or.mpr ⟨Nat.not_le.mpr low, usable⟩
  exact if_neg stays

theorem mem_revoked : slot ∈ if s.sec.revoked.contains slot then s.sec.revoked else s.sec.revoked ++ [slot] := by
  split
  next listed => exact List.contains_iff_mem.mp listed
  next => exact List.mem_append_right _ (List.mem_singleton_self slot)

/-- A row of SEC.CMD that PF0 reaches, for a slot of Table 22-2. -/
theorem secRow_runs {op : Nat} {fused : Bool} (reach : s.reach .host o_secCmd = true) (known : slot < 11) :
    s.secRow op slot fused = s.secOp op slot fused := by
  simp [State.secRow, reach, Nat.not_le.mpr known]

/-! ## Debug authentication -/

/-- Each bit of a mask that is put together bit by bit. -/
def maskOf (p : Nat → Bool) (n : Nat) : Nat := (List.range n).foldl (fun a i => if p i then a + 2 ^ i else a) 0

theorem testBit_maskOf (p : Nat → Bool) (n : Nat) : maskOf p n < 2 ^ n ∧ ∀ i, (maskOf p n).testBit i = (decide (i < n) && p i) := by
  induction n with
  | zero => exact ⟨by simp [maskOf], fun i => by simp [maskOf]⟩
  | succ n ih =>
    obtain ⟨bound, bits⟩ := ih
    have step : maskOf p (n + 1) = if p n then maskOf p n + 2 ^ n else maskOf p n := by simp [maskOf, List.range_succ]
    have wider : 2 ^ (n + 1) = 2 ^ n + 2 ^ n := by ring
    rw [step]
    by_cases set : p n = true
    · rw [if_pos set]
      refine ⟨by omega, fun i => ?_⟩
      rcases Nat.lt_trichotomy i n with below | rfl | above
      · rw [Nat.add_comm, Nat.testBit_two_pow_add_gt below, bits]
        simp [below, Nat.lt_succ_of_lt below]
      · rw [Nat.add_comm, Nat.testBit_two_pow_add_eq, bits]
        simp [set]
      · have small : maskOf p n + 2 ^ n < 2 ^ i := by
          have := Nat.pow_le_pow_right (n := 2) (by decide) above
          omega
        rw [Nat.testBit_lt_two_pow small]
        have far : ¬i < n + 1 := by omega
        simp [far]
    · rw [if_neg set]
      refine ⟨by omega, fun i => ?_⟩
      rw [bits]
      by_cases last : i = n
      · subst last
        simp [set]
      · have same : i < n + 1 ↔ i < n := by omega
        simp [same]

theorem ctlSets_get_ne {off : Nat → Nat} {v : Nat → Reg32} {l : List Nat} {o : Nat} (apart : ∀ i ∈ l, off i ≠ o) :
    (l.foldl (fun s i => s.ctlSet (off i) (v i)) s).ctlGet o = s.ctlGet o := by
  induction l generalizing s with
  | nil => rfl
  | cons i r ih =>
    rw [List.foldl_cons, ih fun j listed => apart j (List.mem_cons_of_mem _ listed), State.ctlGet_ctlSet, if_neg (apart i List.mem_cons_self)]

theorem ctlSets_get {off : Nat → Nat} {v : Nat → Reg32} {l : List Nat} {i : Nat} (distinct : l.Nodup) (inj : ∀ a b, off a = off b → a = b)
    (listed : i ∈ l) : (l.foldl (fun s i => s.ctlSet (off i) (v i)) s).ctlGet (off i) = v i := by
  induction l generalizing s with
  | nil => cases listed
  | cons j r ih =>
    obtain ⟨fresh, rest⟩ := List.nodup_cons.mp distinct
    rw [List.foldl_cons]
    rcases List.mem_cons.mp listed with rfl | later
    · rw [ctlSets_get_ne fun k later same => fresh (inj k i same ▸ later), State.ctlGet_ctlSet, if_pos rfl]
    · exact ih rest later

/-- Drawing a challenge writes the eight words of CHALLENGE. -/
theorem newChallenge_word {i : Nat} (below : i < 8) :
    s.newChallenge.ctlGet (o_dbgChallenge i) = (Config.rngDraw (s.draws + i)).setWidth 32 :=
  ctlSets_get (off := o_dbgChallenge) (v := fun i => (Config.rngDraw (s.draws + i)).setWidth 32) List.nodup_range
    (fun a b same => by unfold o_dbgChallenge at same; omega) (List.mem_range.mpr below)

/-- The registers of the DBG frame before CHALLENGE keep their values. -/
theorem newChallenge_ctlGet {off : Nat} (before : off < 0xF00020) : s.newChallenge.ctlGet off = s.ctlGet off :=
  ctlSets_get_ne (off := o_dbgChallenge) fun i _ => by unfold o_dbgChallenge; omega

theorem newChallenge_draws : s.newChallenge.draws = s.draws + 8 := by
  obtain ⟨ctl, drawn⟩ := ctlSets_frame o_dbgChallenge (fun i => (Config.rngDraw (s.draws + i)).setWidth 32) (List.range 8) { s with draws := s.draws + 8 }
  exact (congrArg State.draws drawn :)

/-- A level-1 grant: its level, and the asked compartments that do not record. -/
theorem grant_one : fget ((s.grant 1).ctlGet o_dbgStatus) 31 30 = 1 ∧
    ∀ n < 32, fbit ((s.grant 1).ctlGet o_dbgMask) n = (fbit (s.ctlGet o_dbgReqmask) n && !s.recording n) := by
  have stands : s.grant 1 =
      (((s.ctlSet o_dbgStatus (r32 (1 * 2 ^ 30))).ctlSet o_dbgMask (r32 (maskOf (fun n => (s.ctlGet o_dbgReqmask).toNat.testBit n ∧ !s.recording n) 32))).event
        0 0x082 landing none 0
        (1 * 2 ^ 30 + maskOf (fun n => (s.ctlGet o_dbgReqmask).toNat.testBit n ∧ !s.recording n) 32 % 2 ^ 30) 0).newChallenge := by
    simp [State.grant, maskOf]
  have apart : o_dbgMask ≠ o_dbgStatus := by decide
  rw [stands]
  refine ⟨?_, fun n below => ?_⟩
  · rw [newChallenge_ctlGet (by decide), event_ctlGet _ _ _ _ _ _ (by decide), State.ctlGet_ctlSet, if_neg apart, State.ctlGet_ctlSet, if_pos rfl]
    decide
  · obtain ⟨bound, bits⟩ := testBit_maskOf (fun n => (s.ctlGet o_dbgReqmask).toNat.testBit n ∧ !s.recording n) 32
    rw [newChallenge_ctlGet (by decide), event_ctlGet _ _ _ _ _ _ (by decide), State.ctlGet_ctlSet, if_pos rfl]
    simp only [fbit, r32, BitVec.getLsbD_ofNat, bits, below]
    simp [BitVec.getLsbD]

/-- A token is good when slot 8 is programmed and its key verifies it. -/
def State.tokenGood (s : State) (level : Nat) : Prop :=
  slotSet s.sec 8 = true ∧ Config.ecdsaVerify (smGet [] s.sec.slots 8) (s.tokenMessage level) s.token = true

theorem submit_granted (waited : s.sec.holdOff ≤ s.time) (level : fget (s.ctlGet o_dbgReq) 31 30 = 1) (good : s.tokenGood 1) :
    s.submit = s.grant 1 := by
  obtain ⟨programmed, verifies⟩ := good
  simp only [State.submit, if_neg (Nat.not_lt.mpr waited), level, programmed, verifies]
  simp

/-- A token that does not verify is counted, and closes SUBMIT for a second. -/
theorem submit_failed (waited : s.sec.holdOff ≤ s.time)
    (bad : ¬((fget (s.ctlGet o_dbgReq) 31 30 = 1 ∨ fget (s.ctlGet o_dbgReq) 31 30 = 2) ∧ s.tokenGood (fget (s.ctlGet o_dbgReq) 31 30))) :
    s.submit = (((s.ctlInc o_dbgFails).modSec (fun x => { x with holdOff := s.time + 1000000000 })).event 8 0x083 landing none 0
      (((s.ctlInc o_dbgFails).modSec (fun x => { x with holdOff := s.time + 1000000000 })).ctlGet o_dbgFails).toNat 0) := by
  unfold State.submit
  rw [if_neg (Nat.not_lt.mpr waited)]
  exact if_neg bad

theorem dbgResume_dbg (j k : Nat) : ((s.dbgResume j).core k).dbg = if j = k then false else (s.core k).dbg := by
  unfold State.dbgResume
  by_cases halted : (s.core j).dbg = true
  · rw [if_pos halted, State.core_modCore]
    by_cases same : j = k
    · rw [if_pos same, if_pos same]
    · rw [if_neg same, if_neg same]
  · rw [if_neg halted]
    by_cases same : j = k
    · rw [if_pos same, ← same]
      exact eq_false_of_ne_true halted
    · rw [if_neg same]

/-- Resuming a list of cores leaves none of them halted by debug. -/
theorem dbgResumes_dbg {l : List Nat} {k : Nat} (listed : k ∈ l ∨ (s.core k).dbg = false) : ((l.foldl State.dbgResume s).core k).dbg = false := by
  induction l generalizing s with
  | nil => exact listed.resolve_left List.not_mem_nil
  | cons j r ih =>
    refine ih ?_
    rw [dbgResume_dbg]
    by_cases same : j = k
    · exact .inr (if_pos same)
    · rw [if_neg same]
      exact listed.imp_left fun member => (List.mem_cons.mp member).resolve_left (Ne.symm same)

theorem dbgResumes_frame (l : List Nat) : (l.foldl State.dbgResume s).ctl = s.ctl ∧ (l.foldl State.dbgResume s).halts = s.halts := by
  refine foldl_keeps (p := fun t : State => t.ctl = s.ctl ∧ t.halts = s.halts) (fun t k kept => ?_) l s ⟨rfl, rfl⟩
  unfold State.dbgResume
  split <;> exact kept

/-- CLOSE ends the grant, and no core stays halted by debug. -/
theorem dbgClose_ends : s.dbgClose.ctlGet o_dbgStatus = 0 ∧ s.dbgClose.halts = [] ∧ ∀ k < 240, (s.dbgClose.core k).dbg = false := by
  have apart : o_dbgMask ≠ o_dbgStatus := by decide
  obtain ⟨ctl, halts⟩ := dbgResumes_frame (s := (({ s with halts := [] } : State).ctlSet o_dbgStatus 0).ctlSet o_dbgMask 0) (List.range 240)
  unfold State.dbgClose
  refine ⟨?_, halts, fun k below => dbgResumes_dbg (.inl (List.mem_range.mpr below))⟩
  rw [ctlGet_of_ctl ctl, State.ctlGet_ctlSet, if_neg apart, State.ctlGet_ctlSet, if_pos rfl]

/-! ## The generator -/

/-- A reseed comes a millisecond after the last at the earliest. -/
theorem exec_drbgReseed_healthy (on : s.keeperOn = true) : exec (.drbgReseed true) s =
    .next (({ s with time := max s.time (s.sec.seedAt + 1000000) } : State).modSec fun x => { x with seedAt := max s.time (s.sec.seedAt + 1000000) }) := by
  show execDrbgReseed true s = _
  simp [execDrbgReseed, on]

/-- A third failure within a second is a tamper event. -/
theorem drbgReseed_third (on : s.keeperOn = true) (before : 2 ≤ (s.sec.failAt.filter (fun t => decide (s.time < t + 1000000000))).length) :
    ∃ t, exec (.drbgReseed false) s = .next t ∧ t.pwr.phase = .tamper := by
  have third : 3 ≤ (s.sec.failAt.filter (fun t => decide (s.time < t + 1000000000)) ++ [s.time]).length := by
    rw [List.length_append, List.length_singleton]
    omega
  show ∃ t, execDrbgReseed false s = .next t ∧ _
  unfold execDrbgReseed
  simp only [on, Bool.not_true, Bool.false_eq_true, if_false]
  rw [if_pos third]
  exact ⟨_, rfl, rfl⟩

end

/-- Settles O54: the operations of SEC.CMD by `secOp_ends`, the rest command by command. -/
theorem security : Obligations.Security := by
  unfold Obligations.Security
  refine ⟨fun s slot known reach idle => ?operations, fun s jtag reach => ?debug⟩
  case operations =>
    intro ends key
    have runs (op : Nat) (fused : Bool) : s.secRow op slot fused = s.secOp op slot fused := secRow_runs reach known
    refine ⟨fun field f => ?inField, fun open_ set f => ?set, fun open_ unset valid => ?program, fun other low => ?revoke, fun high => ?unrevokable,
      fun free => ?raise, fun open_ => ?lock, ?firmware, fun on => ⟨⟨_, exec_drbgReseed_healthy on, rfl, rfl⟩, drbgReseed_third on⟩⟩
    case inField => exact ⟨_, rfl, by rw [runs]; exact secOp_ends idle (by decide) (by simp [State.fuseOp, field]) (by decide)⟩
    case set => exact ⟨_, rfl, by rw [runs]; exact secOp_ends idle (by decide) (by simp [State.fuseOp, open_, set]) (by decide)⟩
    case program =>
      have accepts : ¬(publicSlot slot && !Config.validPublicKey (s.provData (if publicSlot slot then 96 else 32))) = true := by
        rcases valid with own | valid
        · simp [own]
        · simp [key] at valid
          simp [valid]
      obtain ⟨programmed, sec⟩ := secOp_ends (slot := slot) (op := 1) (fused := true) (code := 0) idle (by decide)
        (by simp only [State.fuseOp, open_, unset, accepts, Bool.false_eq_true, Bool.not_true, if_false]; rfl) (by decide)
      refine ⟨_, rfl, ?_⟩
      rw [runs]
      exact ⟨programmed, by rw [sec]; exact (smFind?_smSet ..).trans (if_pos rfl)⟩
    case revoke =>
      obtain ⟨revoked, sec⟩ := secOp_ends (fused := true) idle (by decide) (fuseOp_revoke low other) (by decide)
      refine ⟨_, rfl, ?_⟩
      rw [runs]
      exact ⟨revoked, by rw [sec]; exact mem_revoked, by rw [sec]⟩
    case unrevokable => exact ⟨_, rfl, by rw [runs]; exact secOp_ends idle (by decide) (by simp [State.fuseOp, high]) (by decide)⟩
    case raise =>
      refine ⟨_, rfl, ?_⟩
      rw [secRow_runs reach (by decide)]
      exact raiseSvn_ends idle free
    case lock =>
      obtain ⟨locked, sec⟩ := secOp_ends (slot := 0) (op := 4) (fused := true) (code := 0) idle (by decide)
        (by simp only [State.fuseOp, open_, Bool.false_eq_true, Bool.not_true, if_false]; rfl) (by decide)
      refine ⟨_, rfl, ?_⟩
      rw [secRow_runs reach (by decide)]
      exact ⟨locked, by rw [sec]⟩
    case firmware =>
      obtain ⟨raised, sec⟩ := secOp_ends (slot := 0) (op := 5) (fused := true) (code := 0) idle (by decide)
        (by simp only [State.fuseOp, Bool.false_eq_true, Bool.not_true, if_false]; rfl) (by decide)
      refine ⟨_, rfl, ?_⟩
      rw [secRow_runs reach (by decide)]
      exact ⟨raised, by rw [sec]⟩
  case debug =>
    intro level good
    have reads : exec (.challengeRead jtag) s = .next s.newChallenge := congrArg Host.Outcome.next (if_pos reach)
    have submits : exec (.submit jtag) s = .next s.submit := congrArg Host.Outcome.next (if_pos reach)
    have closes : exec (.close jtag) s = .next s.dbgClose := congrArg Host.Outcome.next (if_pos reach)
    refine ⟨⟨_, reads, newChallenge_draws, fun i below => newChallenge_word below⟩, fun waited bad => ⟨_, submits, ?failed⟩,
      fun waited one => ⟨_, submits, fun verifies => ?granted⟩, fun closed => ⟨_, submits, if_pos closed⟩, ⟨_, closes, dbgClose_ends⟩⟩
    case failed =>
      rw [submit_failed waited bad]
      have fails : o_dbgFails ≠ o_dbgStatus := by decide
      have sec {t : State} : (t.event 8 0x083 landing none 0 (t.ctlGet o_dbgFails).toNat 0).sec = t.sec := (congrArg State.sec (Beside.event .refl).beside :)
      refine ⟨by rw [sec]; rfl, ?_, ?_⟩
      · rw [event_ctlGet _ _ _ _ _ _ (by decide)]
        exact (State.ctlGet_ctlSet ..).trans (if_pos rfl)
      · rw [event_ctlGet _ _ _ _ _ _ (by decide)]
        exact (State.ctlGet_ctlSet ..).trans (if_neg fails)
    case granted =>
      rw [submit_granted waited one (one ▸ verifies)]
      exact grant_one

end Sys2Proof.Machine
end


section
/-!
PROOF. Grove and core resets, HOLD and supply targets (R544 to R546; O53).
-/
namespace Sys2Proof.Machine

section
variable {s t : State} {k g : Nat}

/-! ## Grove resets -/

/-- Counting up to now changes counters and the time to which they have been counted. -/
theorem countUp_counted (s : State) : ∃ ctl c, s.countUp = { s with ctl := ctl, links := { s.links with countedAt := c } } := by
  have counted : CtlOnly s (if s.time - s.links.countedAt = 0 then s
      else (List.range 12).foldl (fun t g => t.countUpGrove (s.time - s.links.countedAt) g) s) := by
    split
    · exact .refl
    · exact foldl_keeps (p := CtlOnly s) (fun t g ht => ht.trans (.countUpGrove ..)) _ s .refl
  obtain ⟨ctl, e⟩ := counted
  exact ⟨ctl, _, by simp only [State.countUp, e]; rfl⟩

/-- A module's record enters the links; a change of its state counts up first. -/
theorem setFerry_frame (s : State) (m : Nat) (x : FryModule) : ∃ ctl c, s.setFerry m x =
    { s with ctl := ctl, links := { s.links with modules := smPut FryModule.reset s.links.modules m x, countedAt := c } } := by
  obtain ⟨ctl, c, counted⟩ := countUp_counted s
  unfold State.setFerry
  split
  · exact ⟨_, _, rfl⟩
  · rw [counted]
    exact ⟨_, _, rfl⟩

theorem State.ferry_setFerry (m j : Nat) (x : FryModule) : (s.setFerry m x).ferry j = if m = j then x else s.ferry j := by
  obtain ⟨ctl, c, set⟩ := setFerry_frame s m x
  rw [set]
  exact smGet_smPut ..

theorem State.ferry_modFerry (m j : Nat) (f : FryModule → FryModule) : (s.modFerry m f).ferry j = if m = j then f (s.ferry m) else s.ferry j :=
  State.ferry_setFerry ..

/-- Every module of a list is set to the same. -/
theorem foldl_modFerry {x : FryModule} {f : Nat → Nat} {l : List Nat} {m : Nat} (listed : (∃ i ∈ l, f i = m) ∨ s.ferry m = x) :
    (l.foldl (fun s i => s.modFerry (f i) fun _ => x) s).ferry m = x := by
  induction l generalizing s with
  | nil => exact listed.resolve_left (by simp)
  | cons i r ih =>
    refine ih ?_
    rw [State.ferry_modFerry]
    by_cases same : f i = m
    · exact .inr (if_pos same)
    · rw [if_neg same]
      refine listed.imp_left fun ⟨j, member, at_⟩ => ⟨j, (List.mem_cons.mp member).resolve_left ?_, at_⟩
      rintro rfl
      exact same at_

theorem foldl_modFerry_cores (f : Nat → Nat) (x : FryModule) (l : List Nat) (s : State) :
    (l.foldl (fun s i => s.modFerry (f i) fun _ => x) s).cores = s.cores :=
  foldl_keeps (p := fun t : State => t.cores = s.cores) (fun t i same => by
    obtain ⟨ctl, c, set⟩ := setFerry_frame t (f i) x
    exact (congrArg State.cores set).trans same) l s rfl

/-- A reset Grove's modules train afresh, and each of its cores is at its state after reset. -/
theorem groveDown_resets : (∀ l < 4, ((s.groveDown g).ferry (localModule g l)).st = .bist) ∧
    ∀ e ∈ (s.groveDown g).cores, groveOf e.1 = g → e.2.run = .absent ∨ e.2 = Core.zero := by
  unfold State.groveDown
  refine ⟨fun l below => ?_, fun e listed at_ => ?_⟩
  · exact (congrArg FryModule.st (foldl_modFerry (f := localModule g) (.inl ⟨l, List.mem_range.mpr below, rfl⟩)) :)
  · dsimp only at listed
    rw [foldl_modFerry_cores (localModule g)] at listed
    obtain ⟨old, -, same⟩ := List.mem_map.mp listed
    by_cases down : groveOf old.1 = g ∧ old.2.run ≠ .absent
    · rw [if_pos down] at same
      exact .inr (same ▸ rfl)
    · rw [if_neg down] at same
      exact .inl (not_not.mp fun present => down (same ▸ ⟨at_, present⟩))

/-! ## CRST: HOLD and RESET -/

theorem fbit_hold_mask (v : Reg32) : fbit (fone (v &&& 0x40000000) 31 true) 31 = true := by rw [fbit_fone _ _ _ (by decide), if_pos rfl]

/-- The write of RESET that is refused. -/
theorem crstWrite_refused {v : Reg32} (asked : fbit v 31 = true) (refused : s.crstRefused k = true) :
    s.crstWrite k v = s.ctlMod (o_grvCrst (groveOf k) (slotOf k)) (fun r => fone r 28 true) := by
  simp [State.crstWrite, asked, refused]

/-- One that is not notes the core, whether or not HOLD starts it. -/
theorem crstWrite_noted {v : Reg32} (asked : fbit v 31 = true) (taken : s.crstRefused k = false) :
    k ∈ (s.crstWrite k v).pwr.crst ∧ (s.crstWrite k v).mem = s.mem := by
  have noted (l : List Nat) : k ∈ if l.contains k then l else l ++ [k] := by
    split
    next listed => exact List.contains_iff_mem.mp listed
    next => exact List.mem_append_right _ (List.mem_singleton_self k)
  unfold State.crstWrite
  rw [if_neg (by simp [taken])]
  refine ⟨?_, ?_⟩
  · simp only [asked, Bool.not_true, Bool.false_eq_true, if_false]
    exact noted _
  · simp only [asked, Bool.not_true, Bool.false_eq_true, if_false]
    generalize written : s.ctlMod (o_grvCrst (groveOf k) (slotOf k)) _ = u
    have mem : u.mem = s.mem := by rw [← written]; exact State.ctlSet_mem ..
    split <;> exact mem

/-- HOLD 0 lets a core that it keeps from starting go on. -/
theorem crstWrite_releases (held : (s.core k).run = .held) : ((s.crstWrite k 0).core k).run = s.afterHold k ∧
    fbit ((s.crstWrite k 0).ctlGet (o_grvCrst (groveOf k) (slotOf k))) 30 = false := by
  have zero (i : Nat) : fbit 0 i = false := by simp [fbit]
  have runs : s.crstWrite k 0 = (s.ctlMod (o_grvCrst (groveOf k) (slotOf k)) (fun r => fone (fone (fone r 30 false) 29 (fbit r 29)) 28 (fbit r 28))).modCore k
      (fun c => { s.clockFrom c with run := s.afterHold k }) := by
    have held' (o : Nat) (f : Reg32 → Reg32) : ((s.ctlMod o f).core k).run = .held := held
    simp only [State.crstWrite, zero, Bool.false_and, Bool.false_eq_true, if_false, Bool.not_false, Bool.and_true, held', and_self, if_true]
    rfl
  rw [runs]
  refine ⟨by rw [State.core_modCore_self], ?_⟩
  rw [show ∀ (t : State) (f : Core → Core) (o : Nat), (t.modCore k f).ctlGet o = t.ctlGet o from fun _ _ _ => rfl, State.ctlMod, State.ctlGet_ctlSet, if_pos rfl,
    fbit_fone _ _ _ (by decide), if_neg (by decide), fbit_fone _ _ _ (by decide), if_neg (by decide), fbit_fone _ _ _ (by decide), if_pos rfl]

/-! ## A core reset at the core's boundary -/

theorem settled_crst (below : k < 240) : Settled (o_grvCrst (groveOf k) (slotOf k)) := by
  have slot : slotOf k < 20 := Nat.mod_lt _ (by decide)
  unfold Settled o_grvCrst
  omega

theorem Beside.time (h : Beside s t) : t.time = s.time := (congrArg State.time h.beside :)

theorem Beside.ctlGet {o : Nat} (h : Beside s t) (settled : Settled o) : t.ctlGet o = s.ctlGet o := by
  unfold State.ctlGet
  rw [h.reg o settled]

/-- The timer and the interrupts of a slot that starts afresh lie at other registers. -/
theorem slotReset_hold : (s.slotReset k).hold k = s.hold k := by
  have lo : o_grvTcmpl (groveOf k) (slotOf k) ≠ o_grvCrst (groveOf k) (slotOf k) := by unfold o_grvTcmpl o_grvCrst; omega
  have hi : o_grvTcmph (groveOf k) (slotOf k) ≠ o_grvCrst (groveOf k) (slotOf k) := by unfold o_grvTcmph o_grvCrst; omega
  have ipi : o_grvIpi (groveOf k) (slotOf k) ≠ o_grvCrst (groveOf k) (slotOf k) := by unfold o_grvIpi o_grvCrst; omega
  simp only [State.slotReset, State.hold, State.ctlGet, smFind?_smErase, lo, hi, ipi, if_false]

/-- A core that starts afresh. -/
theorem coldCore_core (below : k < 240) (entry : Nat) (ft : Bool) : (s.coldCore k entry ft).core k =
    { Core.initial entry ft with t0 := s.time, run := if s.hold k then .held else .running } := by
  have rest : Beside ((s.slotReset k).withdraw 1 k) (((s.slotReset k).withdraw 1 k).discardAll k) := .discardAll .refl
  have time : (((s.slotReset k).withdraw 1 k).discardAll k).time = s.time := rest.time
  have hold : (((s.slotReset k).withdraw 1 k).discardAll k).hold k = s.hold k :=
    (congrArg (fun v => fbit v 30) (rest.ctlGet (settled_crst below))).trans slotReset_hold
  unfold State.coldCore
  generalize ((s.slotReset k).withdraw 1 k).discardAll k = u at time hold ⊢
  rw [← time, ← hold]
  exact smGet_smSet_self ..

/-- The reset of a running core that repeats no group. -/
theorem coreReset_running {n : Nat} {m : CmpSec} (below : k < 240) (owner : s.cmpOf k = some n) (sec : s.cmpSec n = some m)
    (running : (s.core k).run = .running) (single : (s.core k).rep = none) :
    k ∉ (s.coreReset k).pwr.crst ∧ (s.coreReset k).core k =
      { Core.initial m.entry m.ftStart with t0 := s.time, run := if s.hold k then .held else .running } := by
  have drained : Beside s (s.drainNow k) := .drainNow .refl
  have hold : (s.drainNow k).hold k = s.hold k := congrArg (fun v => fbit v 30) (drained.ctlGet (settled_crst below))
  have member : (s.cmpOf k).bind s.cmpSec = some m := by rw [owner]; exact sec
  have run := (drained.run k).trans running
  have rep := (drained.rep k).trans single
  unfold State.coreReset
  rw [member]
  dsimp only
  rw [run, rep]
  generalize hu : (s.drainNow k).setMem { (s.drainNow k).mem with bcasts := (s.drainNow k).mem.bcasts.filter (fun b => b.src != k) } = u
  have time : u.time = s.time := by rw [← hu]; exact drained.time
  have holds : u.hold k = s.hold k := by rw [← hu]; exact hold
  refine ⟨?_, ?_⟩
  · simp [State.modPwr]
  · have cold := coldCore_core (s := u) below m.entry m.ftStart
    rw [time, holds] at cold
    generalize u.coldCore k m.entry m.ftStart = w at cold ⊢
    refine (smGet_smSet_self ..).trans ?_
    rw [cold]
    rfl

end

/-- Settles O53: a Grove's reset by `groveDown_resets`, the writes of CRST by what `crstWrite` does, a core's by `coreReset_running`. -/
theorem groveAndCoreReset : Obligations.GroveAndCoreReset := by
  unfold Obligations.GroveAndCoreReset
  intro s g k grove core
  refine ⟨fun reach => ⟨fun cut => ?down, fun linked => ?refused⟩, fun resets up => ?up, fun who reach => ⟨fun refused => ?notTaken, fun taken => ?taken, fun held => ?release⟩,
    fun n m who owner sec asked boundary single running => ?restart, fun target low high step run => ?avs⟩
  case down =>
    refine ⟨_, congrArg Host.Outcome.next (if_pos ⟨grove, reach⟩), ?_⟩
    rw [State.grvrst, if_pos cut]
    have resets := groveDown_resets (s := s.ctlMod o_pwrGrvrst (fun v => fset v 3 0 g)) (g := g)
    generalize (s.ctlMod o_pwrGrvrst (fun v => fset v 3 0 g)).groveDown g = u at resets ⊢
    exact ⟨rfl, resets⟩
  case refused =>
    refine ⟨_, congrArg Host.Outcome.next (if_pos ⟨grove, reach⟩), ?_⟩
    rw [State.grvrst, if_neg (by rw [linked]; decide)]
    refine ⟨State.ctlSet_mem .., rfl, ?_⟩
    rw [State.ctlMod, State.ctlGet_ctlSet, if_pos rfl, fbit_fone _ _ _ (by decide), if_pos rfl]
  case up =>
    have trained : (List.range 4).all (fun l => (s.ferry (localModule g l)).up || (s.ferry (localModule g l)).st == .disabled) = true :=
      List.all_eq_true.mpr fun l listed => by rw [up l (List.mem_range.mp listed), Bool.true_or]
    refine ⟨_, congrArg Host.Outcome.next (if_pos ⟨resets, trained⟩), rfl, ?_⟩
    show fbit ((s.ctlMod o_pwrGrvrst (fun v => fone v 30 true)).ctlGet o_pwrGrvrst) 30 = true
    rw [State.ctlMod, State.ctlGet_ctlSet, if_pos rfl, fbit_fone _ _ _ (by decide), if_pos rfl]
  case notTaken =>
    have runs : exec (.coreReset who k false) s = .next (s.ctlMod (o_grvCrst (groveOf k) (slotOf k)) (fun r => fone r 28 true)) := by
      show execCoreReset who k false s = _
      simp only [execCoreReset, Nat.not_le.mpr core, if_false, Bool.false_eq_true, reach, if_true, crstWrite_refused (fbit_hold_mask _) refused]
    refine ⟨_, runs, rfl, ?_⟩
    rw [State.ctlMod, State.ctlGet_ctlSet, if_pos rfl, fbit_fone _ _ _ (by decide), if_pos rfl]
  case taken =>
    refine ⟨_, ?_, crstWrite_noted (fbit_hold_mask (s.ctlGet (o_grvCrst (groveOf k) (slotOf k)))) taken⟩
    show execCoreReset who k false s = _
    simp only [execCoreReset, Nat.not_le.mpr core, if_false, Bool.false_eq_true, reach, if_true]
  case release => exact ⟨_, congrArg Host.Outcome.next (if_pos ⟨core, reach⟩), crstWrite_releases held⟩
  case restart =>
    refine ⟨_, ?_, coreReset_running core owner sec running single⟩
    have now : s.pwr.crst.contains k = true ∧ s.resettable k = true := ⟨List.contains_iff_mem.mpr asked, boundary⟩
    show execCoreReset who k true s = _
    simp only [execCoreReset, Nat.not_le.mpr core, if_false, if_true, if_pos now]
  case avs =>
    refine ⟨s.emit (.avs g target), ?_, rfl⟩
    show execAvsTargetSet g target s = _
    simp [execAvsTargetSet, run, grove, low, high, step]

end Sys2Proof.Machine
end


section
/-!
PROOF. What an event changes.
-/
namespace Sys2Proof.Machine

-- One theorem after another: elaborated at once, they wait for one another in as many threads, and the stacks alone are gigabytes.
set_option Elab.async false

section
variable {s t u : State}

/-- `t` differs from `s` in the registers, the event log, what leaves the package and the host's interrupts alone. -/
def Noted (s t : State) : Prop :=
  ∃ ctl evl sent pend fint, t = { s with ctl := ctl, evl := evl, sent := sent, hep := { s.hep with pend := pend, fint := fint } }

theorem Noted.refl : Noted s s := ⟨_, _, _, _, _, rfl⟩

theorem Noted.trans (h : Noted s t) (h' : Noted t u) : Noted s u := by
  obtain ⟨_, _, _, _, _, rfl⟩ := h
  obtain ⟨_, _, _, _, _, rfl⟩ := h'
  exact ⟨_, _, _, _, _, rfl⟩

theorem Noted.ite {c : Prop} [Decidable c] (h : Noted s t) (h' : Noted s u) : Noted s (if c then t else u) := by
  split <;> assumption

theorem Noted.ctlSet {o v} (h : Noted s t) : Noted s (t.ctlSet o v) := h.trans ⟨_, _, _, _, _, rfl⟩
theorem Noted.ctlMod {o f} (h : Noted s t) : Noted s (t.ctlMod o f) := .ctlSet h
theorem Noted.ctlInc {o} (h : Noted s t) : Noted s (t.ctlInc o) := .ctlMod h
theorem Noted.emit {x} (h : Noted s t) : Noted s (t.emit x) := h.trans ⟨_, _, _, _, _, rfl⟩
theorem Noted.log {l} (h : Noted s t) : Noted s { t with evl := l } := h.trans ⟨_, _, _, _, _, rfl⟩
theorem Noted.pending {l} (h : Noted s t) : Noted s (t.modHep fun x => { x with pend := l }) := h.trans ⟨_, _, _, _, _, rfl⟩
theorem Noted.fint {n} (h : Noted s t) : Noted s (t.modHep fun x => { x with fint := n }) := h.trans ⟨_, _, _, _, _, rfl⟩

theorem Noted.foldl {α : Type} {f : State → α → State} {l : List α} (hf : ∀ t a, Noted s t → Noted s (f t a)) (h : Noted s t) :
    Noted s (l.foldl f t) := foldl_keeps hf l t h

theorem Noted.intaSync {before} (h : Noted s t) : Noted s (t.intaSync before) := .foldl (fun _ _ h1 => .ite h1 (.emit h1)) h

theorem Noted.sendInts {fn} (h : Noted s t) : Noted s (t.sendInts fn) := by
  unfold State.sendInts
  refine .foldl (fun _ _ h1 => ?_) h
  split
  · exact .pending (.emit h1)
  · exact h1

theorem Noted.irq {fn vec} (h : Noted s t) : Noted s (t.irq fn vec) := .ite (.intaSync (.ite (.ctlMod h) (.fint h))) (.sendInts (.pending h))

theorem Noted.notice {cmp cls code} (h : Noted s t) : Noted s (t.notice cmp cls code) := by
  unfold State.notice
  split
  · exact h
  · exact .ctlSet (.ite (.ctlInc h) h)

theorem Noted.recordOne {cls code die cmp addr info aux} (h : Noted s t) : Noted s (t.recordOne cls code die cmp addr info aux) := by
  unfold State.recordOne
  extract_lets s1
  have h1 : Noted s s1 := .notice h
  refine .ite h1 (.ite (.log h1) ?_)
  split
  · exact .log h1
  · exact .ite (.log h1) (.log h1)

theorem Noted.record {cls code die cmp addr info aux} (h : Noted s t) : Noted s (t.record cls code die cmp addr info aux) :=
  .ite (.recordOne h) (.recordOne (.recordOne h))

theorem Noted.event {cls code die cmp addr info aux} (h : Noted s t) : Noted s (t.event cls code die cmp addr info aux) :=
  .ite (.irq (.record h)) (.record h)

theorem Noted.mem (h : Noted s t) : t.mem = s.mem := by obtain ⟨_, _, _, _, _, rfl⟩ := h; rfl
theorem Noted.cores (h : Noted s t) : t.cores = s.cores := by obtain ⟨_, _, _, _, _, rfl⟩ := h; rfl
theorem Noted.links (h : Noted s t) : t.links = s.links := by obtain ⟨_, _, _, _, _, rfl⟩ := h; rfl
theorem Noted.pwr (h : Noted s t) : t.pwr = s.pwr := by obtain ⟨_, _, _, _, _, rfl⟩ := h; rfl
theorem Noted.qm (h : Noted s t) : t.qm = s.qm := by obtain ⟨_, _, _, _, _, rfl⟩ := h; rfl
theorem Noted.live (h : Noted s t) : t.live = s.live := by obtain ⟨_, _, _, _, _, rfl⟩ := h; rfl

/-! ## The registers an event writes -/

theorem notice_ctlGet {cmp : Option Nat} {cls code off : Nat} (count : 1 ≤ cls ∧ cls ≤ 3 → ∀ n, o_evlCnote n ≠ off) (last : ∀ n, o_evlClast n ≠ off) :
    (s.notice cmp cls code).ctlGet off = s.ctlGet off := by
  unfold State.notice
  split
  · rfl
  · rw [State.ctlGet_ctlSet, if_neg (last _)]
    split
    next counted => rw [State.ctlInc, State.ctlMod, State.ctlGet_ctlSet, if_neg (count counted _)]
    next => rfl

theorem recordOne_ctlGet {cmp : Option Nat} {cls code die addr info aux off : Nat} (count : 1 ≤ cls ∧ cls ≤ 3 → ∀ n, o_evlCnote n ≠ off)
    (last : ∀ n, o_evlClast n ≠ off) : (s.recordOne cls code die cmp addr info aux).ctlGet off = s.ctlGet off := by
  have noticed := notice_ctlGet (s := s) (cmp := cmp) (cls := cls) (code := code) count last
  unfold State.recordOne
  dsimp only
  generalize s.notice cmp cls code = u at noticed ⊢
  have kept {t : State} (same : t.ctl = u.ctl) : t.ctlGet off = s.ctlGet off := (ctlGet_of_ctl same).trans noticed
  refine kept (ite_ctl rfl (ite_ctl rfl ?_))
  split
  · rfl
  · exact ite_ctl rfl rfl

/-- An event writes the notices of its compartment and the host's pending interrupts. -/
theorem event_ctlGet_of {cmp : Option Nat} {cls code die addr info aux off : Nat} (intpend : off ≠ o_hepP0Intpend)
    (count : 1 ≤ cls ∧ cls ≤ 3 → ∀ n, o_evlCnote n ≠ off) (last : ∀ n, o_evlClast n ≠ off) :
    (s.event cls code die cmp addr info aux).ctlGet off = s.ctlGet off := by
  have record : (s.record cls code die cmp addr info aux).ctlGet off = s.ctlGet off := by
    unfold State.record
    dsimp only
    split
    · exact recordOne_ctlGet count last
    · exact (recordOne_ctlGet (fun counted => absurd counted.2 (by decide)) last).trans (recordOne_ctlGet count last)
  unfold State.event
  dsimp only
  split
  · exact (irq_ctlGet _ _ intpend).trans record
  · exact record

end
end Sys2Proof.Machine
end


section
/-!
PROOF. Ferry training, lanes and routes (R483 to R490, R20 to R23, R594; O48).
-/
namespace Sys2Proof.Machine

section
variable {s t : State} {m : Nat}

/-! ## A module's record -/

theorem setFerry_mem (x : FryModule) : (s.setFerry m x).mem = s.mem := by
  obtain ⟨ctl, c, set⟩ := setFerry_frame s m x
  exact (congrArg State.mem set :)

theorem setFerry_pwr (x : FryModule) : (s.setFerry m x).pwr = s.pwr := by
  obtain ⟨ctl, c, set⟩ := setFerry_frame s m x
  exact (congrArg State.pwr set :)

theorem ferry_modFerry_self (f : FryModule → FryModule) : (s.modFerry m f).ferry m = f (s.ferry m) := by
  rw [State.ferry_modFerry, if_pos rfl]

theorem Noted.ferry (h : Noted s t) : t.ferry m = s.ferry m := by
  unfold State.ferry
  rw [h.links]

theorem FryModule.dir_setDir (x : FryModule) (d : Nat) (y : LinkDir) : (x.setDir d y).dir d = y := by
  by_cases zero : d = 0 <;> simp [FryModule.dir, FryModule.setDir, zero]

theorem FryModule.setDir_st (x : FryModule) (d : Nat) (y : LinkDir) : (x.setDir d y).st = x.st := by
  unfold FryModule.setDir
  split <;> rfl

/-! ## Lanes -/

theorem testBit_or_two_pow {n i j : Nat} : (n ||| 2 ^ i).testBit j = (n.testBit j || decide (i = j)) := by
  rw [Nat.testBit_or, Nat.testBit_two_pow]

theorem fail_keeps (x : LinkDir) (lanes : List Nat) {l : Nat} (marked : x.failed.testBit l = true) : (x.fail lanes).failed.testBit l = true := by
  refine foldl_keeps (p := fun y : LinkDir => y.failed.testBit l = true) (fun y j kept => ?_) lanes x marked
  split
  · exact kept
  · rw [testBit_or_two_pow, kept, Bool.true_or]

/-- Each lane below 65 of a list is marked. -/
theorem fail_marks (x : LinkDir) {lanes : List Nat} (small : ∀ l ∈ lanes, l < 65) : ∀ l ∈ lanes, (x.fail lanes).failed.testBit l = true := by
  induction lanes generalizing x with
  | nil => exact fun l listed => absurd listed List.not_mem_nil
  | cons j r ih =>
    intro l listed
    have below := small j List.mem_cons_self
    have first : x.fail (j :: r) = ({ x with failed := x.failed ||| 2 ^ j } : LinkDir).fail r := by
      simp only [LinkDir.fail, List.foldl_cons, show ¬100 ≤ j from by omega, if_false, Nat.mod_eq_of_lt below]
    rw [first]
    rcases List.mem_cons.mp listed with rfl | later
    · exact fail_keeps _ r (by rw [testBit_or_two_pow]; simp)
    · exact ih _ (fun k member => small k (List.mem_cons_of_mem _ member)) l later

/-- Lanes of a module at full width are marked, and it stays up. -/
theorem markLanes_full {d : Nat} {lanes : List Nat} (full : (s.ferry m).st = .full) :
    (s.markLanes m d lanes).ferry m = (s.ferry m).setDir d (((s.ferry m).dir d).fail lanes) := by
  have marked := ferry_modFerry_self (s := s) (m := m) fun x => x.setDir d ((x.dir d).fail lanes)
  unfold State.markLanes State.laneFailed
  rw [if_neg]
  · exact marked
  · rw [marked, FryModule.setDir_st, full]
    simp

theorem countRemap_noted : Noted s (s.countRemap m) := .foldl (fun _ _ h => .ctlInc h) .refl

/-! ## Training -/

theorem tested_failed (x : LinkDir) (lanes : BitVec 68) {i : Nat} (below : i < 64) :
    (x.tested lanes).failed.testBit i = !lanes.getLsbD i := by
  have small : lanes.toNat % 2 ^ 64 < 2 ^ 64 := Nat.mod_lt _ (by decide)
  show (2 ^ 64 - 1 - lanes.toNat % 2 ^ 64).testBit i = _
  have inverse : 2 ^ 64 - 1 - lanes.toNat % 2 ^ 64 = 2 ^ 64 - (lanes.toNat % 2 ^ 64 + 1) := by omega
  rw [inverse, Nat.testBit_two_pow_sub_succ small, Nat.testBit_mod_two_pow]
  simp [below, BitVec.getLsbD]

/-- The steps of training, each from the state it starts in. -/
theorem ferryTrainingStep_runs (below : m < 36) (trains : s.trains = true) (a b : BitVec 68) :
    ((s.ferry m).st = .off → exec (.ferryTrainingStep m a b) s = .next (s.modFerry m fun x => { x with st := .bist, half := false })) ∧
    ((s.ferry m).st = .bist → exec (.ferryTrainingStep m a b) s =
      .next (s.modFerry m fun x => { x with st := .map, d0 := x.d0.tested a, d1 := x.d1.tested b })) ∧
    ((s.ferry m).st = .map → exec (.ferryTrainingStep m a b) s = .next (s.fryMap m)) ∧
    ((s.ferry m).st = .deskew → exec (.ferryTrainingStep m a b) s = .next (s.modFerry m fun x => { x with st := .version })) ∧
    ((s.ferry m).st = .version → exec (.ferryTrainingStep m a b) s = .next (s.fryUp m)) := by
  have gate : ¬(36 ≤ m ∨ (!s.trains) = true) := by simp [below, trains]
  have runs : exec (.ferryTrainingStep m a b) s = execFerryTrainingStep m a b s := rfl
  rw [runs, execFerryTrainingStep, if_neg gate]
  refine ⟨fun st => ?_, fun st => ?_, fun st => ?_, fun st => ?_, fun st => ?_⟩ <;> simp only [st]

/-- Two ends that found the same lanes, none of them bare, come up at full width. -/
theorem fryMap_agreed (failed : (s.ferry m).d0.failed = (s.ferry m).d1.failed) (spares : (s.ferry m).d0.spfail = (s.ferry m).d1.spfail)
    (whole : (s.ferry m).d1.bare = []) (full : (s.ferry m).half = false) :
    ((s.fryMap m).ferry m).st = .deskew ∧ ((s.fryMap m).ferry m).half = false := by
  have width : (s.ferry m).d1.width = 2 := by simp [LinkDir.width, whole]
  have runs : s.fryMap m = s.modFerry m (fun x => { x with
      st := .deskew, half := false, upper := false, d0 := { x.d0 with assign := (s.ferry m).d1.assign }, d1 := { x.d1 with assign := (s.ferry m).d1.assign } }) := by
    simp [State.fryMap, failed, spares, full, width]
  rw [runs, ferry_modFerry_self]
  exact ⟨rfl, rfl⟩

/-- In boot a module that goes down retrains, and nothing else follows. -/
theorem fryDown_boot {fromBist half : Bool} (boot : s.pwr.phase = .boot) : ((s.fryDown m fromBist half).ferry m).st = .retrain := by
  unfold State.fryDown
  generalize down : s.modFerry m _ = u
  have phase : (u.event 8 0x042 (fryDie m) none 0 m 0).pwr.phase = .boot := by
    rw [(Noted.event .refl : Noted u _).pwr, ← down, State.modFerry, setFerry_pwr, boot]
  rw [State.afterDown, if_pos (by rw [phase]; decide), (Noted.event .refl : Noted u _).ferry, ← down, ferry_modFerry_self]

/-! ## Routes -/

theorem mem_wayOf {route : List Nat} {line j : Nat} : j ∈ wayOf route line ↔
    j ∈ route ∧ (24 ≤ j ∨ j % 2 = lineParity line ∨ 4 * (j / 2) + 1 - j ∉ route) := by
  simp [wayOf, List.mem_filter, List.contains_eq_mem, or_assoc]

/-- A ring link carries all traffic of its route. -/
theorem mem_wayOf_ring {route : List Nat} {line j : Nat} (ring : 24 ≤ j) : j ∈ wayOf route line ↔ j ∈ route := by
  simp [mem_wayOf, ring]

/-- Of a spoke's two modules the one of the line's parity carries it where a route has both, otherwise the one that the route has. -/
theorem mem_wayOf_spoke (route : List Nat) (line : Nat) {g : Nat} (below : g < 12) :
    (∀ i < 2, 2 * g + i ∈ route ↔ 2 * g + i ∈ wayOf route line) ∨
    (2 * g ∈ route ∧ 2 * g + 1 ∈ route ∧ ∀ i < 2, 2 * g + i ∈ wayOf route line ↔ i = lineParity line) := by
  have other {i : Nat} (bit : i < 2) : 2 * g + i ∈ wayOf route line ↔ 2 * g + i ∈ route ∧ (i = lineParity line ∨ 2 * g + (1 - i) ∉ route) := by
    have spoke : ¬24 ≤ 2 * g + i := by omega
    have parity : (2 * g + i) % 2 = i := by omega
    have sibling : 4 * ((2 * g + i) / 2) + 1 - (2 * g + i) = 2 * g + (1 - i) := by omega
    simp only [mem_wayOf, spoke, false_or, parity, sibling]
  by_cases both : 2 * g ∈ route ∧ 2 * g + 1 ∈ route
  · have listed {i : Nat} (bit : i < 2) : 2 * g + i ∈ route := by
      rcases Nat.le_one_iff_eq_zero_or_eq_one.mp (Nat.lt_succ_iff.mp bit) with rfl | rfl
      · exact both.1
      · exact both.2
    refine .inr ⟨both.1, both.2, fun i bit => ?_⟩
    rw [other bit]
    simp [listed bit, listed (show 1 - i < 2 by omega)]
  · refine .inl fun i bit => ⟨fun member => (other bit).mpr ⟨member, .inr fun second => both ?_⟩, fun member => ((other bit).mp member).1⟩
    rcases Nat.le_one_iff_eq_zero_or_eq_one.mp (Nat.lt_succ_iff.mp bit) with rfl | rfl
    · exact ⟨member, second⟩
    · exact ⟨second, member⟩

/-- Traffic whose route is not the one in force moves to it. -/
theorem smGet_routes (a b : Nat) (r : List Nat) : (s.modLinks fun l => { l with routes := smPut (firstRoute a b) l.routes (16 * a + b) r }).routeInForce a b = r := by
  unfold State.routeInForce
  show (smFind? (smPut (firstRoute a b) s.links.routes (16 * a + b) r) (16 * a + b)).getD (firstRoute a b) = r
  unfold smPut
  split
  next first => rw [smFind?_smErase, if_pos rfl, first]; rfl
  next => rw [smFind?_smSet, if_pos rfl]; rfl

theorem spokeUp_gateway {g : Nat} (up : s.spokeUp g = true) : s.toLanding g = some (s.spokeModules g) := by
  simp [State.toLanding, State.gateway, up]

/-- A Grove without a spoke goes over the next one round the ring, where that link and that spoke are up. -/
theorem toLanding_ring {a : Nat} (grove : a < 12) (own : s.spokeUp a = false) (link : s.ferryUp (24 + a) = true) (next : s.spokeUp ((a + 1) % 12) = true) :
    s.toLanding a = some ((24 + a) :: s.spokeModules ((a + 1) % 12)) := by
  have hop : ringPath a 1 true = [24 + a] := by simp [ringPath, Nat.mod_eq_of_lt grove]
  have first : s.gateway a = some ([24 + a], (a + 1) % 12) := by
    unfold State.gateway
    rw [if_neg (by rw [own]; decide), show List.range 11 = 0 :: (List.range 10).map (· + 1) from by decide, List.findSome?_cons]
    simp [hop, link, next]
  rw [State.toLanding, first]
  rfl

/-! ## A transaction without its reply -/

theorem dropAll_home (line : Nat) (gs : List Nat) : (s.dropAll line gs).mem.txns = s.mem.txns ∧ (s.dropAll line gs).mem.waits = s.mem.waits :=
  foldl_keeps (p := fun t : State => t.mem.txns = s.mem.txns ∧ t.mem.waits = s.mem.waits) (f := fun s g => s.dropGrove g line)
    (fun _ _ kept => kept) gs s ⟨rfl, rfl⟩

theorem mirrorOut_mem (line cls : Nat) : (s.mirrorOut line cls).mem = s.mem := by
  unfold State.mirrorOut
  split
  · split <;> rfl
  · rfl

theorem acceptWrite_mem (line : Nat) (r : Rank) : (s.acceptWrite line r).mem = s.mem := by
  unfold State.acceptWrite
  split
  · unfold State.queueWrite
    dsimp only [State.modDram]
    rw [mirrorOut_mem]
    split <;> rfl
  · rfl

theorem backInvalidate_home (line : Nat) :
    (s.backInvalidate line).mem.txns = s.mem.txns ∧ (s.backInvalidate line).mem.waits = s.mem.waits := by
  unfold State.backInvalidate
  have written : (if s.mem.isDirty line then s.acceptWrite line (s.ownerRank line) else s).mem = s.mem := by
    split
    · exact acceptWrite_mem ..
    · rfl
  generalize (if s.mem.isDirty line then s.acceptWrite line (s.ownerRank line) else s) = u at written ⊢
  have dropped := dropAll_home (s := u) line (List.range 12)
  rw [written] at dropped
  unfold State.mergeHolders
  generalize u.dropAll line (List.range 12) = w at dropped ⊢
  have told : (w.mem.tellPartner line).txns = w.mem.txns ∧ (w.mem.tellPartner line).waits = w.mem.waits := by
    unfold Mem.tellPartner
    split
    · split <;> exact ⟨rfl, rfl⟩
    · exact ⟨rfl, rfl⟩
  exact ⟨told.1.trans dropped.1, told.2.trans dropped.2⟩

theorem setPoison_poisoned (x : Mem) (line : Nat) : (x.setPoison line true).poisoned line = true := by
  have listed : (x.setPoison line true).poison.contains line = true := by
    show (if x.poison.contains line then x.poison else (x.poison.filter (· < line)) ++ [line] ++ (x.poison.filter (line < ·))).contains line = true
    split
    next member => exact member
    next => simp
  rw [Mem.poisoned, listed, Bool.true_or, Bool.true_or]

/-- A transaction that times out is closed, and its line is poison. -/
theorem txnTimeout_closes {line port : Nat} {txn : Txn} (idle : s.mem.waits = [])
    (found : s.mem.txns.find? (fun t => t.line == line && t.port == port) = some txn) :
    ∃ t, exec (.txnTimeout line port) s = .next t ∧ t.mem.poisoned line = true ∧ t.mem.txns = s.mem.txns.erase txn := by
  show ∃ t, execTxnTimeout line port s = .next t ∧ _
  unfold execTxnTimeout
  rw [found]
  dsimp only
  generalize closed : s.countUp.setMem _ = u
  obtain ⟨txns, waits⟩ := backInvalidate_home (s := u) line
  have memory : u.mem.txns = s.mem.txns.erase txn ∧ u.mem.waits = s.mem.waits := by
    rw [← closed]
    exact ⟨rfl, rfl⟩
  rw [memory.1] at txns
  rw [memory.2, idle] at waits
  generalize u.backInvalidate line = w at txns waits ⊢
  have event (owner : Option Nat) : ((w.setMem (w.mem.setPoison line true)).event 7 0x03B landing owner (line * 64) (port % 16) 0).mem =
      w.mem.setPoison line true := (Noted.event .refl : Noted _ _).mem
  refine ⟨_, rfl, ?_⟩
  rw [serveWaits_none (by rw [event]; exact waits), event]
  exact ⟨setPoison_poisoned .., txns⟩

/-- While the route to its home changes, a Grove's requests and write-backs are held (R23). -/
theorem moving_holds {a line : Nat} (grove : a < 12) (homed : s.homed line = true) (moving : s.moving a (s.homeFor line) = true) :
    (∀ i ∈ [Instr.rds a line, .rdx a line, .upg a line, .evc a line], exec i s = .next s) ∧
    ∀ keep bytes, exec (.wb a line keep bytes) s = .next s := by
  have here : a ≠ 13 := by omega
  have own : s.partnerLine line = false := by
    unfold State.homed at homed
    unfold State.partnerLine
    cases region : s.region (line * 64) with
    | window => simp [region] at homed
    | _ => rfl
  have asks (k : ReqKind) (kind : Nat) : s.askGrove a line k kind = .next s := by
    simp [State.askGrove, here, own, moving]
  refine ⟨fun i listed => ?_, fun keep bytes => ?_⟩
  · simp only [List.mem_cons, List.not_mem_nil, or_false] at listed
    rcases listed with rfl | rfl | rfl | rfl
    · show execRds a line s = _
      unfold execRds
      rw [asks]
      exact ite_self _
    · show execRdx a line s = _
      unfold execRdx
      rw [asks]
      exact ite_self _
    · show execUpg a line s = _
      unfold execUpg
      dsimp only
      rw [asks]
      exact ite_self _
    · show execEvc a line s = _
      simp [execEvc, moving]
  · show execWb a line keep bytes s = _
    unfold execWb
    simp [moving, grove, State.spanLine, own]

/-- The commands of lanes at full width. -/
theorem full_lanes (below : m < 36) (full : (s.ferry m).st = .full) :
    (∀ d lanes, d < 2 → (∀ l ∈ lanes, l < 65) → ∃ t, exec (.eyeMonitorSample m d lanes) s = .next t ∧
      (∀ l ∈ lanes, ((t.ferry m).dir d).failed.testBit l = true) ∧ (t.ferry m).st = .full) ∧
    (∀ d, d < 2 → ∃ t, exec (.laneLossOfLock m d 2) s = .next t ∧ ((t.ferry m).dir d).failed.testBit 64 = true) := by
  have up : s.ferryUp m = true := by simp [State.ferryUp, FryModule.up, full]
  refine ⟨fun d lanes dir small => ⟨_, congrArg Host.Outcome.next (if_pos ⟨below, dir, up⟩), ?_⟩,
    fun d dir => ⟨_, congrArg Host.Outcome.next (if_pos ⟨below, dir, by decide, up⟩), ?_⟩⟩
  · rw [markLanes_full full, FryModule.dir_setDir, FryModule.setDir_st]
    exact ⟨fail_marks _ small, full⟩
  · rw [markLanes_full full, FryModule.dir_setDir]
    exact fail_marks _ (by decide) 64 (by decide)

/-- A quiet window puts the first free spare in the place of the first bare lane. -/
theorem remap_assigns {d lane sp : Nat} {rest : List Nat} (below : m < 36) (dir : d < 2) (full : (s.ferry m).st = .full)
    (window : (s.ferry m).bistWindow = false) (bare : ((s.ferry m).dir d).bare = lane :: rest) (free : ((s.ferry m).dir d).freeSpare = some sp) :
    ∃ t, exec (.remap m d []) s = .next t ∧ smFind? ((t.ferry m).dir d).assign sp = some lane ∧ (t.ferry m).st = .full := by
  have runs : exec (.remap m d []) s = .next (((s.modFerry m (fun x => { x.setDir d (((s.ferry m).dir d).remap sp lane) with st := .full })).countRemap m).event
      0 0x040 (fryDie m) none 0 m 0) := by
    show execRemap m d [] s = _
    have shut : ¬(36 ≤ m ∨ 2 ≤ d ∨ (!((s.ferry m).st == .full || (s.ferry m).st == .remap)) = true) := by simp [full, below, dir]
    have up : (FryState.full == FryState.remap) = false := rfl
    unfold execRemap
    dsimp only
    rw [if_neg shut]
    simp only [window, full, up, Bool.false_and, Bool.and_false, Bool.false_eq_true, if_false, bare, free]
  refine ⟨_, runs, ?_⟩
  rw [((countRemap_noted).trans (.event .refl) : Noted _ _).ferry, ferry_modFerry_self]
  refine ⟨?_, rfl⟩
  show smFind? (((s.ferry m).setDir d (((s.ferry m).dir d).remap sp lane)).dir d).assign sp = some lane
  rw [FryModule.dir_setDir]
  exact (smFind?_smSet ..).trans (if_pos rfl)

/-- With none left, the module retrains to come up at its lower half. -/
theorem halfWidth_lower (below : m < 36) (full : (s.ferry m).st = .full)
    (stuck : ∃ d < 2, ((s.ferry m).dir d).bare ≠ [] ∧ ((s.ferry m).dir d).freeSpare = none)
    (first : (s.ferry m).d0.halfOk false = true) (second : (s.ferry m).d1.halfOk false = true) (boot : s.pwr.phase = .boot) :
    ∃ t, exec (.halfWidth m) s = .next t ∧ (t.ferry m).st = .retrain ∧ (t.ferry m).half = true ∧ (t.ferry m).upper = false := by
  have some_ : (!(s.ferry m).d0.bare.isEmpty && (s.ferry m).d0.freeSpare.isNone || !(s.ferry m).d1.bare.isEmpty && (s.ferry m).d1.freeSpare.isNone) = true := by
    obtain ⟨d, dir, bare, none_⟩ := stuck
    rcases Nat.le_one_iff_eq_zero_or_eq_one.mp (Nat.lt_succ_iff.mp dir) with rfl | rfl
    · simp [FryModule.dir] at bare none_
      simp [bare, none_]
    · simp [FryModule.dir] at bare none_
      simp [bare, none_]
  have runs : exec (.halfWidth m) s = .next ((((s.modFerry m
      (fun x => { x with st := .retrain, half := true, upper := false, fromBist := x.version != 20 })).countRemap m).event
        0 0x041 (fryDie m) none 0 m 0).afterDown) := by
    show execHalfWidth m s = _
    have on : ¬(36 ≤ m ∨ (s.ferry m).st ≠ .full ∨ (!(!(s.ferry m).d0.bare.isEmpty && (s.ferry m).d0.freeSpare.isNone ||
        !(s.ferry m).d1.bare.isEmpty && (s.ferry m).d1.freeSpare.isNone)) = true) := by
      rw [some_]
      simp [below, full]
    unfold execHalfWidth
    dsimp only
    rw [if_neg on]
    simp only [first, second, Bool.and_self, Bool.true_or, if_true, Bool.not_true]
  refine ⟨_, runs, ?_⟩
  generalize down : s.modFerry m _ = u
  have noted : Noted u ((u.countRemap m).event 0 0x041 (fryDie m) none 0 m 0) := countRemap_noted.trans (.event .refl)
  have phase : u.pwr.phase = .boot := by rw [← down, State.modFerry, setFerry_pwr, boot]
  rw [State.afterDown, if_pos (by rw [noted.pwr, phase]; decide), noted.ferry, ← down, ferry_modFerry_self]
  exact ⟨rfl, rfl, rfl⟩

end

/-- Settles O48: training step by step, lanes by `full_lanes`, `remap_assigns` and `halfWidth_lower`, routes by `mem_wayOf_spoke`. -/
theorem ferryLanes : Obligations.FerryLanes := by
  unfold Obligations.FerryLanes
  refine ⟨fun s m below => ?modules, fun s a b grove grove' apart => ?routes⟩
  case modules =>
    refine ⟨fun a b trains => ?training,
      fun d lanes dir full small => (full_lanes below full).1 d lanes dir small, fun d dir full => (full_lanes below full).2 d dir,
      fun d lane rest sp dir full window bare free => remap_assigns below dir full window bare free,
      fun full stuck first second boot => halfWidth_lower below full stuck first second boot,
      fun g loc grove loc4 at_ reach => ⟨fun up boot => ⟨_, congrArg Host.Outcome.next (if_pos ⟨grove, loc4, reach⟩), ?retrain⟩,
        fun disabled => ⟨_, congrArg Host.Outcome.next (if_pos ⟨grove, loc4, reach⟩), ?enable⟩⟩⟩
    case training =>
      obtain ⟨off, bist, map, deskew, version⟩ := ferryTrainingStep_runs below trains a b
      refine ⟨fun st => ⟨_, off st, ?_⟩, fun st => ⟨_, bist st, ?_⟩, fun st failed spares whole full => ⟨_, map st, fryMap_agreed failed spares whole full⟩,
        fun st => ⟨_, deskew st, ?_⟩, fun st => ⟨_, version st, ?_⟩⟩
      · dsimp only
        rw [ferry_modFerry_self]
      · dsimp only
        rw [ferry_modFerry_self]
        exact ⟨rfl, fun i lane => ⟨tested_failed _ a lane, tested_failed _ b lane⟩⟩
      · dsimp only
        rw [ferry_modFerry_self]
      · dsimp only
        rw [State.fryUp, ferry_modFerry_self]
        exact ⟨rfl, rfl, rfl⟩
    case retrain =>
      rw [at_, State.fryRetrain, if_pos (.inl up)]
      exact fryDown_boot boot
    case enable =>
      dsimp only
      rw [at_, State.fryEnable, if_pos disabled, ferry_modFerry_self]
      exact ⟨rfl, rfl⟩
  case routes =>
    refine ⟨fun r best new flushed => ?change, fun next up => ?ring, fun far up up' => ?spokes, fun own link next => toLanding_ring grove own link next,
      fun route line g below => mem_wayOf_spoke route line below, fun route line m ring => mem_wayOf_ring ring,
      fun line homed moving => moving_holds grove homed moving,
      fun line port txn idle found => txnTimeout_closes idle found⟩
    case change =>
      have dies : ¬(12 < a ∨ 12 < b ∨ a = b) := by omega
      have idle : ¬(r = s.routeInForce a b ∨ (!(s.routeInForce a b).all s.flushed) = true) := by
        simp [new, List.all_eq_true.mpr flushed]
      have runs : exec (.routeChange a b) s =
          .next ((s.modLinks fun l => { l with routes := smPut (firstRoute a b) l.routes (16 * a + b) r }).event 0 0x045 a none 0 b 0) := by
        show execRouteChange a b s = _
        rw [execRouteChange, if_neg dies, best]
        exact if_neg idle
      refine ⟨_, runs, ?_, (Noted.event .refl : Noted _ _).mem⟩
      rw [State.routeInForce, (Noted.event .refl : Noted _ _).links]
      exact smGet_routes a b r
    case ring =>
      have between : ringBetween a b = some (24 + a) := if_pos next
      have a12 : a ≠ 12 := by omega
      have b12 : b ≠ 12 := by omega
      simp [State.routeFor, a12, b12, between, up]
    case spokes =>
      have between : ringBetween a b = none := by simp [ringBetween, far.1, far.2]
      have a12 : a ≠ 12 := by omega
      have b12 : b ≠ 12 := by omega
      simp [State.routeFor, a12, b12, between, spokeUp_gateway up, spokeUp_gateway up']

end Sys2Proof.Machine
end


section
/-!
PROOF. Flits: their CRC, their receiver and their replay (R479 to R482; O47).
-/
namespace Sys2Proof.Machine

/-! ## The CRC (Table 19-2) -/

/-- One bit of a flit enters the CRC. -/
def crcNext (bit : Bool) (crc : Nat) : Nat :=
  if crc.testBit 31 != bit then crc * 2 % 2 ^ 32 ^^^ 0x1EDC6F41 else crc * 2 % 2 ^ 32

theorem crcBits_succ (v n i crc : Nat) : crcBits v (n + 1) i crc = crcBits v n (i + 1) (crcNext (v.testBit i) crc) := rfl

theorem crcNext_lt (bit : Bool) (crc : Nat) : crcNext bit crc < 2 ^ 32 := by
  have shifted : crc * 2 % 2 ^ 32 < 2 ^ 32 := Nat.mod_lt _ (by decide)
  unfold crcNext
  split
  · exact Nat.xor_lt_two_pow shifted (by decide)
  · exact shifted

theorem xor_poly_ne (n : Nat) : n ^^^ 0x1EDC6F41 ≠ n := by
  intro same
  have bit := congrArg (fun m => Nat.testBit m 0) same
  simp at bit
  omega

/-- The two values of a bit leave different CRCs. -/
theorem crcNext_bit {bit bit' : Bool} (ne : bit ≠ bit') (crc : Nat) : crcNext bit crc ≠ crcNext bit' crc := by
  have flips : (crc.testBit 31 != bit') = !(crc.testBit 31 != bit) := by
    cases bit <;> cases bit' <;> simp at ne ⊢
  unfold crcNext
  rw [flips]
  by_cases fb : (crc.testBit 31 != bit) = true
  · rw [if_pos fb, fb]
    exact xor_poly_ne _
  · rw [if_neg fb, eq_false_of_ne_true fb]
    exact (xor_poly_ne _).symm

theorem testBit_31 {c : Nat} (small : c < 2 ^ 32) : c.testBit 31 = decide (2 ^ 31 ≤ c) := by
  rw [Nat.testBit_eq_decide_div_mod_eq]
  congr 1
  rw [eq_iff_iff]
  omega

/-- The polynomial is odd, so a bit loses nothing of the CRC that it enters. -/
theorem crcNext_inj {bit : Bool} {a b : Nat} (ha : a < 2 ^ 32) (hb : b < 2 ^ 32) (same : crcNext bit a = crcNext bit b) : a = b := by
  have even (c : Nat) : (c * 2 % 2 ^ 32).testBit 0 = false := by
    rw [Nat.testBit_zero]
    simp
  have odd (c : Nat) : (c * 2 % 2 ^ 32 ^^^ 0x1EDC6F41).testBit 0 = true := by
    rw [Nat.testBit_xor, even]
    decide
  have doubled : a.testBit 31 = b.testBit 31 → a * 2 % 2 ^ 32 = b * 2 % 2 ^ 32 → a = b := by
    rw [testBit_31 ha, testBit_31 hb, decide_eq_decide]
    omega
  unfold crcNext at same
  by_cases first : (a.testBit 31 != bit) = true <;> by_cases second : (b.testBit 31 != bit) = true
  · rw [if_pos first, if_pos second] at same
    exact doubled (by revert first second; cases a.testBit 31 <;> cases b.testBit 31 <;> cases bit <;> decide) (Nat.xor_right_injective.eq_iff.mp
      (by rw [Nat.xor_comm, same, Nat.xor_comm]))
  · rw [if_pos first, if_neg second] at same
    exact absurd ((odd a).symm.trans ((congrArg (Nat.testBit · 0) same).trans (even b))) (by decide)
  · rw [if_neg first, if_pos second] at same
    exact absurd ((odd b).symm.trans ((congrArg (Nat.testBit · 0) same.symm).trans (even a))) (by decide)
  · rw [if_neg first, if_neg second] at same
    exact doubled (by revert first second; cases a.testBit 31 <;> cases b.testBit 31 <;> cases bit <;> decide) same

/-- CRCs that differ stay different over the same bits. -/
theorem crcBits_ne {v w : Nat} : ∀ {n i a b : Nat}, a < 2 ^ 32 → b < 2 ^ 32 → a ≠ b →
    (∀ j, i ≤ j → j < i + n → v.testBit j = w.testBit j) → crcBits v n i a ≠ crcBits w n i b
  | 0, _, _, _, _, _, ne, _ => ne
  | n + 1, i, a, b, ha, hb, ne, same => by
    rw [crcBits_succ, crcBits_succ, same i (Nat.le_refl i) (by omega)]
    exact crcBits_ne (crcNext_lt ..) (crcNext_lt ..) (fun e => ne (crcNext_inj ha hb e)) fun j after before => same j (by omega) (by omega)

/-- One bit that differs makes the CRCs different. -/
theorem crcBits_flip {v w k : Nat} (differ : v.testBit k ≠ w.testBit k) (same : ∀ j, j ≠ k → v.testBit j = w.testBit j) :
    ∀ {n i c : Nat}, i ≤ k → k < i + n → crcBits v n i c ≠ crcBits w n i c
  | 0, _, _, after, before => absurd before (by omega)
  | n + 1, i, c, after, before => by
    rw [crcBits_succ, crcBits_succ]
    by_cases here : i = k
    · subst here
      exact crcBits_ne (crcNext_lt ..) (crcNext_lt ..) (crcNext_bit differ c) fun j later _ => same j (by omega)
    · rw [same i here]
      exact crcBits_flip differ same (by omega) (by omega)

/-- A flit with one bit inverted has a wrong CRC. -/
theorem flitCrc_flip (f : BitVec 640) {i : Nat} (below : i < 640) (ok : flitCrc (f.toNat % 2 ^ 608) = f.toNat / 2 ^ 608) :
    flitCrc ((f ^^^ BitVec.twoPow 640 i).toNat % 2 ^ 608) ≠ (f ^^^ BitVec.twoPow 640 i).toNat / 2 ^ 608 := by
  have bits : (f ^^^ BitVec.twoPow 640 i).toNat = f.toNat ^^^ 2 ^ i := by
    rw [BitVec.toNat_xor, BitVec.toNat_twoPow, Nat.mod_eq_of_lt (Nat.pow_lt_pow_right (by decide) below)]
  have bit (j : Nat) : (f.toNat ^^^ 2 ^ i).testBit j = (f.toNat.testBit j ^^ decide (i = j)) := by
    rw [Nat.testBit_xor, Nat.testBit_two_pow]
  rw [bits]
  by_cases payload : i < 608
  · have high : (f.toNat ^^^ 2 ^ i) / 2 ^ 608 = f.toNat / 2 ^ 608 := by
      refine Nat.eq_of_testBit_eq fun j => ?_
      have apart : i ≠ 608 + j := by omega
      rw [Nat.testBit_div_two_pow, Nat.testBit_div_two_pow, bit, Nat.add_comm]
      simp [apart]
    rw [high, ← ok]
    refine crcBits_flip (k := i) ?_ (fun j other => ?_) (Nat.zero_le i) (by omega)
    · rw [Nat.testBit_mod_two_pow, Nat.testBit_mod_two_pow, bit]
      simp [payload]
    · rw [Nat.testBit_mod_two_pow, Nat.testBit_mod_two_pow, bit]
      simp [Ne.symm other]
  · have low : (f.toNat ^^^ 2 ^ i) % 2 ^ 608 = f.toNat % 2 ^ 608 := by
      refine Nat.eq_of_testBit_eq fun j => ?_
      rw [Nat.testBit_mod_two_pow, Nat.testBit_mod_two_pow, bit]
      by_cases inside : j < 608
      · have apart : i ≠ j := by omega
        simp [apart]
      · simp [inside]
    rw [low, ok]
    intro same
    have top := congrArg (fun n => Nat.testBit n (i - 608)) same
    simp only [Nat.testBit_div_two_pow, bit] at top
    rw [Nat.sub_add_cancel (Nat.not_lt.mp payload)] at top
    simp at top

/-! ## A direction of a link -/

section
variable {s t : State} {l d : Nat}

/-- A direction's record changes the links alone. -/
theorem setLinkDir_links (x : LinkDir) : ∃ links, s.setLinkDir l d x = { s with links := links } := by
  unfold State.setLinkDir
  split
  · unfold State.modFerry State.setFerry
    rw [if_pos (FryModule.setDir_st ..).symm]
    exact ⟨_, rfl⟩
  · exact ⟨_, rfl⟩

theorem linkDir_setLinkDir (dir : d < 2) (x : LinkDir) : (s.setLinkDir l d x).linkDir l d = x := by
  unfold State.setLinkDir State.linkDir
  by_cases ferry : l < 36
  · rw [if_pos ferry, if_pos ferry, ferry_modFerry_self, FryModule.dir_setDir]
  · rw [if_neg ferry, if_neg ferry]
    have port (f : XngPort → XngPort) : (s.modXport (l - 36) f).xport (l - 36) = f (s.xport (l - 36)) := smGet_smPut_self ..
    rw [port]
    rcases Nat.le_one_iff_eq_zero_or_eq_one.mp (Nat.lt_succ_iff.mp dir) with rfl | rfl
    · simp
    · simp

theorem linkDir_of_links (same : t.links = s.links) : t.linkDir l d = s.linkDir l d := by
  unfold State.linkDir State.ferry State.xport
  rw [same]

theorem CtlOnly.fryCount (s : State) (e : Option (Nat × Nat)) (ev : Nat) : CtlOnly s (s.fryCount e ev) := by
  unfold State.fryCount
  split
  · exact .ucount ..
  · exact .refl

/-- Where no uncore counter runs, an event of a module counts nothing. -/
theorem fryCount_idle (none_ : ∀ g, smFind? s.ctl (o_pmuUctl g) = none) (e : Option (Nat × Nat)) (ev : Nat) : s.fryCount e ev = s := by
  unfold State.fryCount
  split
  · unfold State.ucount
    rw [none_]
  · rfl

theorem sentNew_receiver (x : LinkDir) (v now : Nat) : (x.sentNew v now).expect = x.expect ∧ (x.sentNew v now).asked = x.asked := by
  unfold LinkDir.sentNew
  split <;> exact ⟨rfl, rfl⟩

/-- `t` has the direction's record `x`, the memory of `s`, and its registers where no uncore counter runs. -/
structure LinkIs (s t : State) (l d : Nat) (x : LinkDir) : Prop where
  dir : t.linkDir l d = x
  mem : t.mem = s.mem
  ctl : (∀ g, smFind? s.ctl (o_pmuUctl g) = none) → t.ctl = s.ctl

theorem LinkIs.refl : LinkIs s s l d (s.linkDir l d) := ⟨rfl, rfl, fun _ => rfl⟩

theorem LinkIs.setLinkDir {x y : LinkDir} (h : LinkIs s t l d x) (dir : d < 2) : LinkIs s (t.setLinkDir l d y) l d y := by
  obtain ⟨links, set⟩ := setLinkDir_links (s := t) (l := l) (d := d) y
  exact ⟨linkDir_setLinkDir dir y, by rw [set]; exact h.mem, fun none_ => by rw [set]; exact h.ctl none_⟩

theorem LinkIs.fryCount {x : LinkDir} {e ev} (h : LinkIs s t l d x) : LinkIs s (t.fryCount e ev) l d x := by
  obtain ⟨ctl, counted⟩ := CtlOnly.fryCount t e ev
  refine ⟨?_, by rw [counted]; exact h.mem, fun none_ => ?_⟩
  · rw [← h.dir]
    exact linkDir_of_links (by rw [counted])
  · rw [fryCount_idle fun g => by rw [h.ctl none_]; exact none_ g]
    exact h.ctl none_

theorem LinkIs.ite {c : Prop} [Decidable c] {u : State} {x : LinkDir} (h : LinkIs s t l d x) (h' : LinkIs s u l d x) :
    LinkIs s (if c then t else u) l d x := by
  split <;> assumption

/-- A flit has been put on a Ferry link: its transmitter keeps it, and counts it. -/
def State.flitOut (s : State) (l d v : Nat) : State :=
  let t := s.setLinkDir l d ((s.linkDir l d).sentNew v s.time)
  if flitKind v ≠ 0 then t.fryCount (fryRx l (1 - d)) 0x10 else t

theorem flitOut_is (v : Nat) (dir : d < 2) : LinkIs s (s.flitOut l d v) l d ((s.linkDir l d).sentNew v s.time) :=
  .ite (.fryCount (.setLinkDir .refl dir)) (.setLinkDir .refl dir)

/-- What the receiver of a flit of this package does on a Ferry link. -/
theorem flitReceive_runs {f e : BitVec 640} {msgs : List (Nat × Nat × Nat)} (below : l < 36) (dir : d < 2) (up : s.linkUp l = true)
    (sends : (s.linkDir l d).sendable l f.toNat = true) (may : s.maySend l d f.toNat = true)
    (fits : f.toNat ∈ (s.linkDir l d).buf ∨ (msgs.length ≤ flitHolds f.toNat ∧ s.takesLink l msgs = true)) :
    exec (.flitReceive l d f e ⟨false, msgs⟩) s =
      (let u := s.flitOut l d f.toNat
      let x := u.linkDir l d
      let got := (f ^^^ e).toNat
      let crcOk : Bool := flitCrc (got % 2 ^ 608) == got / 2 ^ 608
      if flitKind got = 0 ∧ crcOk then .next (u.flitIn l d got false)
      else if crcOk && flitSeq got == x.expect then
        .next (((u.setLinkDir l d { x with expect := (x.expect + 1) % 1024, asked := false, replaying := false, replays := 0 }).fryCount
          (fryRx l d) 0x11).flitIn l d got false)
      else .next (u.discard l d)) := by
  have gate : ¬(38 ≤ l ∨ 2 ≤ d ∨ (!s.linkUp l) = true) := by
    rw [up]
    simp
    omega
  have here : (!(decide (l ≥ 36) && d == 0)) = true := by simp [below]
  have holds : ((s.linkDir l d).buf.contains f.toNat || (decide (msgs.length ≤ flitHolds f.toNat) && s.takesLink l msgs)) = true := by
    simpa using fits
  show execFlitReceive l d f e ⟨false, msgs⟩ s = _
  unfold execFlitReceive
  rw [if_neg gate]
  dsimp only
  simp only [here, holds, sends, may, below, Bool.and_self, Bool.not_true, Bool.and_false, Bool.false_eq_true, if_false, if_true, decide_true,
    State.flitText, State.linkCipher, State.countFlit, true_and]
  rfl

/-- A change of a Ferry module that leaves its directions. -/
theorem linkDir_modFerry {f : FryModule → FryModule} (below : l < 36) (dirs : ∀ x, (f x).dir d = x.dir d) :
    (s.modFerry l f).linkDir l d = s.linkDir l d ∧ (s.modFerry l f).mem = s.mem := by
  unfold State.linkDir
  rw [if_pos below, if_pos below, ferry_modFerry_self, dirs]
  exact ⟨rfl, setFerry_mem _⟩

/-- The limits of retries change a module's state and its times alone. -/
theorem retryLimit_dir (below : l < 36) : (s.retryLimit l d).linkDir l d = s.linkDir l d ∧ (s.retryLimit l d).mem = s.mem := by
  unfold State.retryLimit
  rw [if_pos below]
  have noted := linkDir_modFerry (s := s) (d := d) (f := fun m => { m with retryAt := (m.retryAt ++ [s.time]).filter (fun x => decide (s.time ≤ x + 10000)) })
    below fun _ => rfl
  dsimp only
  generalize s.modFerry l _ = u at noted ⊢
  split
  · have window := linkDir_modFerry (s := u) (d := d) (f := fun m => { m with bistWindow := true, st := .remap, retryAt := [] }) below fun _ => rfl
    exact ⟨window.1.trans noted.1, window.2.trans noted.2⟩
  · exact noted

/-- A discarded flit leaves what the receiver expects, and is asked for again. -/
theorem discard_asks (dir : d < 2) (below : l < 36) :
    ((s.discard l d).linkDir l d).expect = (s.linkDir l d).expect ∧ ((s.discard l d).linkDir l d).asked = true ∧ (s.discard l d).mem = s.mem := by
  unfold State.discard
  dsimp only
  split
  next waits =>
    simp only [Bool.and_eq_true] at waits
    exact ⟨rfl, waits.1, rfl⟩
  next =>
    have asked : LinkIs s (s.setLinkDir l d { s.linkDir l d with asked := true, replaying := false }) l d
      { s.linkDir l d with asked := true, replaying := false } := .setLinkDir .refl dir
    generalize s.setLinkDir l d { s.linkDir l d with asked := true, replaying := false } = u at asked ⊢
    have kept {w : State} (links : w.links = u.links) (mem : w.mem = u.mem) : ((w.retryLimit l d).linkDir l d).expect = (s.linkDir l d).expect ∧
        ((w.retryLimit l d).linkDir l d).asked = true ∧ (w.retryLimit l d).mem = s.mem := by
      obtain ⟨dirs, memory⟩ := retryLimit_dir (s := w) (d := d) below
      rw [dirs, memory, linkDir_of_links links, mem, asked.dir, asked.mem]
      exact ⟨rfl, rfl, rfl⟩
    cases fryRx l d with
    | none => exact kept rfl rfl
    | some end_ => exact kept (State.ctlSet_links ..) (State.ctlSet_mem ..)

/-- A data flit that is no violation changes nothing else. -/
theorem flitIn_data {v : Nat} (data : flitKind v = 2) : s.flitIn l d v false = s := by
  simp [State.flitIn, data]

end

/-- Settles O47: the receiver by `flitReceive_runs`, the CRC by `flitCrc_flip`. -/
theorem flitRetry_settled : Obligations.FlitRetry := by
  unfold Obligations.FlitRetry
  refine ⟨fun s l d f e msgs below dir up => ?receive, fun s l d below dir up => ?transmit, fun f i below ok => flitCrc_flip f below ok⟩
  case receive =>
    intro x got crcOk sends may fits
    have runs := flitReceive_runs (e := e) below dir up sends may fits
    have sent := flitOut_is (s := s) (l := l) f.toNat dir
    obtain ⟨expects, asks⟩ := sentNew_receiver x f.toNat s.time
    generalize s.flitOut l d f.toNat = u at runs sent
    dsimp only at runs
    refine ⟨fun whole ok data seq => ?accepted, fun wrong => ?discarded⟩
    case accepted =>
      have same : (f ^^^ e).toNat = f.toNat := by simp [whole]
      have crc : (flitCrc (f.toNat % 2 ^ 608) == f.toNat / 2 ^ 608) = true := by
        rw [beq_iff_eq]
        exact same ▸ ok
      have order : flitSeq f.toNat = (u.linkDir l d).expect := by rw [sent.dir, expects, seq]
      have other : ¬(flitKind f.toNat = 0 ∧ true = true) := by rw [data]; decide
      rw [same, crc, if_neg other, Bool.true_and, beq_iff_eq.mpr order, if_pos rfl, flitIn_data data] at runs
      have moved : LinkIs s ((u.setLinkDir l d { u.linkDir l d with
          expect := ((u.linkDir l d).expect + 1) % 1024, asked := false, replaying := false, replays := 0 }).fryCount (fryRx l d) 0x11) l d _ :=
        .fryCount (.setLinkDir sent dir)
      refine ⟨_, runs, ?_, ?_, moved.mem, moved.ctl⟩
      · rw [moved.dir, ← order, seq]
      · rw [moved.dir]
    case discarded =>
      have crc : (flitCrc ((f ^^^ e).toNat % 2 ^ 608) == (f ^^^ e).toNat / 2 ^ 608) = false := beq_eq_false_iff_ne.mpr wrong
      have other : ¬(flitKind (f ^^^ e).toNat = 0 ∧ false = true) := fun both => Bool.false_ne_true both.2
      rw [crc, if_neg other, Bool.false_and, if_neg Bool.false_ne_true] at runs
      obtain ⟨expect, asked, mem⟩ := discard_asks (s := u) dir below
      exact ⟨_, runs, by rw [expect, sent.dir, expects], asked, mem.trans sent.mem⟩
  case transmit =>
    intro x
    refine ⟨fun asked idle => ?replay, fun due => ?control⟩
    case replay =>
      have replays : LinkIs s (s.setLinkDir l d { x with replaying := true, replays := x.replays + 1 }) l d _ := .setLinkDir .refl dir
      have taken : LinkIs s (if l < 36 then (s.setLinkDir l d { x with replaying := true, replays := x.replays + 1 }).fryCount (fryRx l (1 - d)) 0x12
          else s.setLinkDir l d { x with replaying := true, replays := x.replays + 1 }) l d _ := .ite (.fryCount replays) replays
      refine ⟨_, congrArg Host.Outcome.next (if_pos ⟨below, dir, up, asked, by rw [idle]; rfl⟩), ?_, ?_⟩
      · exact (congrArg LinkDir.replaying taken.dir :)
      · exact (congrArg LinkDir.replays taken.dir :)
    case control =>
      refine ⟨_, congrArg Host.Outcome.next (if_pos ⟨below, dir, up, due⟩), ?_, ?_⟩
      · obtain ⟨links, set⟩ := setLinkDir_links (s := s) (l := l) (d := d) { x with headerAt := s.time }
        exact (congrArg (fun t : State => Sent.flit l :: t.sent) set :)
      · exact (congrArg LinkDir.headerAt (linkDir_setLinkDir dir _) :)

end Sys2Proof.Machine
end


section
/-!
PROOF. Queue commands and doorbells (R402, R406, R408 to R411; O40).
-/
namespace Sys2Proof.Machine

section
variable {s t u : State}

/-! ## Requests that pass the shaper -/

/-- `t` differs from `s` in the shaper and the time alone. -/
def Shaped (s t : State) : Prop := ∃ time buckets held flight, t = { s with time := time, buckets := buckets, held := held, flight := flight }

theorem Shaped.refl : Shaped s s := ⟨_, _, _, _, rfl⟩

theorem Shaped.trans (h : Shaped s t) (h' : Shaped t u) : Shaped s u := by
  obtain ⟨_, _, _, _, rfl⟩ := h
  obtain ⟨_, _, _, _, rfl⟩ := h'
  exact ⟨_, _, _, _, rfl⟩

theorem Shaped.frame {time buckets held flight} (h : Shaped s t) :
    Shaped s { t with time := time, buckets := buckets, held := held, flight := flight } := h.trans ⟨_, _, _, _, rfl⟩

theorem Shaped.take {ci c q} (h : Shaped s t) : Shaped s (t.take ci c q) := foldl_keeps (p := Shaped s) (fun _ _ h1 => .frame h1) _ t h

theorem Shaped.accepted {q cmp cls now} (h : Shaped s t) : Shaped s (t.accepted q cmp cls now) := .frame h

theorem Shaped.shape {q} (h : Shaped s t) : Shaped s (t.shape q).1 := by
  unfold State.shape
  extract_lets
  split
  · exact .take h
  · split
    · exact .take h
    · exact h

theorem Shaped.offer {q cmp now} (h : Shaped s t) : Shaped s (t.offer q cmp now) := by
  have shaped : Shaped s (t.shape q).1 := .shape h
  unfold State.offer
  split
  · exact h
  · split
    next e => exact .accepted (by rw [e] at shaped; exact shaped)
    next e => exact .frame (by rw [e] at shaped; exact shaped)

theorem Shaped.releaseOther {q} (h : Shaped s t) : Shaped s (t.releaseOther q) := by
  unfold State.releaseOther
  split
  · exact h
  · exact .accepted (.frame h)
  · exact .accepted (.frame (.take (.frame h)))

/-- The reads of a SEND queue's new entries pass the shaper one after another. -/
theorem Shaped.passMessages {q n first f} (h : Shaped s t) : Shaped s (t.passMessages q n first f) := by
  induction f generalizing t with
  | zero => exact h
  | succ f ih =>
    unfold State.passMessages
    extract_lets r s1 s2
    have offered : Shaped s s1 := .offer h
    refine ih ?_
    unfold s2
    split
    · unfold State.releaseHeld
      rw [if_pos (show r.srcKind ≠ 1 from (by decide : 4 ≠ 1))]
      exact .releaseOther offered
    · exact offered

theorem Shaped.qm (h : Shaped s t) : t.qm = s.qm := by obtain ⟨_, _, _, _, rfl⟩ := h; rfl
theorem Shaped.mem (h : Shaped s t) : t.mem = s.mem := by obtain ⟨_, _, _, _, rfl⟩ := h; rfl

/-! ## One queue changes -/

/-- Queue `q` of `t` is `y`; memory and the other queues are those of `s`. -/
def QueueIs (s t : State) (q : Nat) (y : Queue) : Prop := t.queue q = y ∧ t.mem = s.mem ∧ ∀ p ≠ q, t.queue p = s.queue p

theorem queue_modQueue (q p : Nat) (f : Queue → Queue) : (s.modQueue q f).queue p = if q = p then f (s.queue q) else s.queue p :=
  State.queue_setQueue ..

theorem QueueIs.modQueue {q : Nat} {f : Queue → Queue} {y : Queue} (h : QueueIs s t q y) : QueueIs s (t.modQueue q f) q (f y) := by
  obtain ⟨self, mem, others⟩ := h
  refine ⟨by rw [queue_modQueue, if_pos rfl, self], mem, fun p other => ?_⟩
  rw [queue_modQueue, if_neg (Ne.symm other), others p other]

theorem QueueIs.refl {q : Nat} : QueueIs s s q (s.queue q) := ⟨rfl, rfl, fun _ _ => rfl⟩

theorem Shaped.queueIs {q : Nat} (h : Shaped s t) : QueueIs s t q (s.queue q) := by
  have same (p : Nat) : t.queue p = s.queue p := by unfold State.queue; rw [h.qm]
  exact ⟨same q, h.mem, fun p _ => same p⟩

/-- DISABLE ends what the queue's engines do. -/
theorem qDisable_ends (q : Nat) : s.qDisable q =
    ((s.dmaEnds (fun x => decide (x.st ≠ 0 ∧ x.queue = q)) 9).modQueue q (fun x => { x with st := 0, cause := 0 })).dropRecords := by
  unfold State.qDisable State.dmaEnds
  simp only [decide_eq_true_eq]

theorem dropRecords_queue (q : Nat) : s.dropRecords.queue q = s.queue q :=
  foldl_keeps (p := fun t : State => t.queue q = s.queue q) (f := fun s _ => s.ctlInc o_qmLostrec) (fun _ _ same => same) _ _ rfl

/-! ## Doorbells -/

/-- The compartment that rings may: it is PF0, or it owns the queue. -/
def State.mayRing (s : State) (cmp : Option Nat) (q : Nat) : Bool := match cmp with
  | none => true
  | some n => s.qOwner q == some n

/-- The sender of a doorbell that reaches the queue manager is PF0, or a core of a compartment. -/
theorem mayRing_sender {who : Sender} {off q : Nat} (reach : s.reach who off = true) :
    s.mayRing (s.senderCmp who) q = decide (who = .host ∨ s.qOwner q = s.senderCmp who) := by
  cases who with
  | host => simp [State.mayRing, State.senderCmp]
  | core k =>
    unfold State.reach at reach
    cases owner : s.cmpOf k with
    | none => simp [owner] at reach
    | some n =>
      simp only [State.mayRing, State.senderCmp, owner, reduceCtorEq, false_or]
      rw [Bool.eq_iff_iff, beq_iff_eq, decide_eq_true_eq]

/-- A doorbell by what it finds: a queue of its sender, and an index of the ring. -/
theorem doorbell_cases (cmp : Option Nat) (off q idx : Nat) (arm : Bool) : s.doorbell cmp off q idx arm =
    if !s.mayRing cmp q || (s.queue q).st = 0 then s.bellRefused cmp off
    else if decide ((s.queue q).size < (s.queue q).heldAt idx) || decide ((s.queue q).size < (idx + 65536 - (s.queue q).sw) % 65536) then s.haltQueue q 6
    else
      let t := (if (s.queue q).kind = 3 then
          s.passMessages q ((idx + 65536 - (s.queue q).sw) % 65536) (s.queue q).sw ((idx + 65536 - (s.queue q).sw) % 65536)
        else s).modQueue q (fun y => { y with sw := idx % 65536 })
      let t := if (s.queue q).kind = 2 then t.flushRecords q (t.qm.recs.length + 1) else t
      if !arm then t
      else if !(t.queue q).produced && (t.queue q).held != 0 && (t.queue q).nEn then (t.modQueue q (fun z => { z with armed := false })).notify (t.queue q)
      else t.modQueue q (fun z => { z with armed := true }) := by
  cases cmp <;> rfl

/-- One that is refused is counted, and changes no queue. -/
theorem bellRefused_counts (cmp : Option Nat) (off : Nat) :
    (s.bellRefused cmp off).qm = s.qm ∧ (s.bellRefused cmp off).mem = s.mem ∧
    (s.bellRefused cmp off).ctlGet o_qmOwnerr = satInc (s.ctlGet o_qmOwnerr) := by
  have noted : Noted s (s.bellRefused cmp off) := .event (.ctlInc .refl)
  refine ⟨noted.qm, noted.mem, ?_⟩
  unfold State.bellRefused
  rw [event_ctlGet_of (by decide) (fun counted => absurd counted.2 (by decide)) (fun n => by unfold o_evlClast o_qmOwnerr; omega)]
  exact (State.ctlGet_ctlSet ..).trans (if_pos rfl)

/-- A doorbell whose index the ring has: the queue's software index, then what DBARM does besides. -/
theorem doorbell_moves {cmp : Option Nat} {off q index : Nat} {arm : Bool} (below : index < 65536)
    (mine : s.mayRing cmp q = true) (on : (s.queue q).st ≠ 0)
    (size : (s.queue q).heldAt index ≤ (s.queue q).size) (step : (index + 65536 - (s.queue q).sw) % 65536 ≤ (s.queue q).size) (other : (s.queue q).kind ≠ 2) :
    ∃ u, QueueIs s u q { s.queue q with sw := index } ∧ s.doorbell cmp off q index arm =
      if !arm then u
      else if !(s.queue q).produced && (s.queue q).heldAt index != 0 && (s.queue q).nEn then
        (u.modQueue q (fun z => { z with armed := false })).notify { s.queue q with sw := index }
      else u.modQueue q (fun z => { z with armed := true }) := by
  have passed : Shaped s (if (s.queue q).kind = 3 then s.passMessages q ((index + 65536 - (s.queue q).sw) % 65536) (s.queue q).sw
      ((index + 65536 - (s.queue q).sw) % 65536) else s) := by
    split
    · exact .passMessages .refl
    · exact .refl
  have moved := passed.queueIs (q := q).modQueue (f := fun y => { y with sw := index })
  refine ⟨_, moved, ?_⟩
  rw [doorbell_cases]
  simp only [mine, on, other, Nat.not_lt.mpr size, Nat.not_lt.mpr step, Bool.not_true, Bool.false_or, Bool.or_self, Bool.false_eq_true, decide_false,
    if_false, Nat.mod_eq_of_lt below]
  rw [moved.1]
  rfl

/-- An index that the ring does not have halts the queue. -/
theorem doorbell_halts {cmp : Option Nat} {off q index : Nat} {arm : Bool}
    (mine : s.mayRing cmp q = true) (on : (s.queue q).st ≠ 0)
    (outside : ¬((s.queue q).heldAt index ≤ (s.queue q).size ∧ (index + 65536 - (s.queue q).sw) % 65536 ≤ (s.queue q).size)) :
    s.doorbell cmp off q index arm = s.haltQueue q 6 := by
  have out : (decide ((s.queue q).size < (s.queue q).heldAt index) || decide ((s.queue q).size < (index + 65536 - (s.queue q).sw) % 65536)) = true := by
    rw [Bool.or_eq_true, decide_eq_true_eq, decide_eq_true_eq]
    omega
  rw [doorbell_cases]
  simp only [mine, on, out, Bool.not_true, Bool.or_self, Bool.false_eq_true, decide_false, if_false, if_true]

theorem doorbell_refuses {cmp : Option Nat} {off q index : Nat} {arm : Bool}
    (refused : s.mayRing cmp q = false ∨ (s.queue q).st = 0) :
    s.doorbell cmp off q index arm = s.bellRefused cmp off := by
  rw [doorbell_cases]
  rcases refused with other | off_
  · simp only [other, Bool.not_false, Bool.true_or, if_true]
  · simp only [off_, decide_true, Bool.or_true, if_true]

end

/-- Settles O40: the commands of the queue that a register set selects, then the doorbells by `doorbell_refuses`, `doorbell_halts` and
`doorbell_moves`. -/
theorem queues : Obligations.Queues := by
  unfold Obligations.Queues
  refine ⟨fun s who q selected => ?commands, fun s who q index reach reachArm qBelow below => ?bells⟩
  case commands =>
    have enable : exec (.qmEnable who) s = .next (s.qEnable q) := by show execQmEnable who s = _; rw [execQmEnable, selected]
    have disable : exec (.qmDisable who) s = .next (s.qDisable q) := by show execQmDisable who s = _; rw [execQmDisable, selected]
    have rearm : exec (.qmRearm who) s = .next (s.qRearm q) := by show execQmRearm who s = _; rw [execQmRearm, selected]
    have halt : exec (.qmHalt who) s = .next (s.qHalt q) := by show execQmHalt who s = _; rw [execQmHalt, selected]
    refine ⟨fun off ok => ⟨_, enable, ?enabled⟩, fun off bad => ⟨_, enable, ?refused⟩, ⟨_, disable, ?disabled⟩, fun halted gone => ⟨_, rearm, ?rearmed⟩,
      fun running => ⟨_, halt, ?halted⟩⟩
    case enabled =>
      dsimp only
      rw [State.qEnable, if_neg (not_not.mpr off), if_pos ok]
      have set := QueueIs.refl (s := s) (q := q).modQueue (f := fun x => { x with st := 1, cause := 0, armed := false, sw := 0, dev := 0 })
      obtain ⟨self, mem, others⟩ := set
      rw [self]
      exact ⟨rfl, rfl, rfl, rfl, mem, others⟩
    case refused =>
      rw [State.qEnable, if_neg (not_not.mpr off), if_neg (by rw [bad]; decide)]
      exact QueueIs.refl.modQueue
    case disabled =>
      dsimp only
      rw [qDisable_ends, dropRecords_queue, queue_modQueue, if_pos rfl]
      refine ⟨rfl, rfl, fun e engine busy at_ => ?_⟩
      refine Beyond.idle (s₀ := s.dmaEnds (fun x => decide (x.st ≠ 0 ∧ x.queue = q)) 9) (.dropRecords (.modQueue .refl)) ?_
      exact dmaEnds_engine engine (decide_eq_true ⟨busy, at_⟩)
    case rearmed =>
      rw [State.qRearm, if_pos (by rw [halted, gone]; rfl)]
      exact QueueIs.refl.modQueue
    case halted =>
      rw [State.qHalt, if_pos running]
      exact QueueIs.refl.modQueue
  case bells =>
    intro x mine inside refused becomes
    have ring : exec (.dbRing who q index) s = .next (s.doorbell (s.senderCmp who) o_qmDb q index false) := by
      show execDbRing who q index s = _
      rw [execDbRing, if_pos (.inl reach), Nat.mod_eq_of_lt qBelow, Nat.mod_eq_of_lt below]
    have arms : exec (.dbarm who q index) s = .next (s.doorbell (s.senderCmp who) o_qmDbarm q index true) := by
      show execDbarm who q index s = _
      rw [execDbarm, if_pos (.inl reachArm), Nat.mod_eq_of_lt qBelow, Nat.mod_eq_of_lt below]
    have owner := mayRing_sender (s := s) (q := q) reach
    refine ⟨fun closed => ?refuse, fun ⟨own, on, outside⟩ => ?halt, fun ⟨own, on, ⟨size, step⟩, other⟩ => ?move⟩
    case refuse =>
      have no (off : Nat) (arm : Bool) : s.doorbell (s.senderCmp who) off q index arm = s.bellRefused (s.senderCmp who) off :=
        doorbell_refuses (closed.imp_left fun other => by rw [owner, decide_eq_false other])
      exact ⟨⟨_, ring, by rw [no]; exact bellRefused_counts ..⟩, ⟨_, arms, by rw [no]; exact bellRefused_counts ..⟩⟩
    case halt =>
      have out (off : Nat) (arm : Bool) : s.doorbell (s.senderCmp who) off q index arm = s.haltQueue q 6 :=
        doorbell_halts (by rw [owner, decide_eq_true own]) on outside
      exact ⟨⟨_, ring, by rw [out]; exact QueueIs.refl.modQueue⟩, ⟨_, arms, by rw [out]; exact QueueIs.refl.modQueue⟩⟩
    case move =>
      have moves (off : Nat) (arm : Bool) := doorbell_moves (s := s) (cmp := s.senderCmp who) (off := off) (arm := arm) below
        (by rw [owner, decide_eq_true own]) on size step other
      refine ⟨?_, fun full => ?_, fun waits => ?_⟩
      · obtain ⟨u, is, runs⟩ := moves o_qmDb false
        exact ⟨_, ring, by rw [runs]; exact is⟩
      · obtain ⟨u, is, runs⟩ := moves o_qmDbarm true
        have none_ : (!x.produced && x.heldAt index != 0 && x.nEn) = false := by
          rcases full with produced | empty
          · rw [produced]; rfl
          · rw [empty]; simp
        refine ⟨_, arms, ?_⟩
        rw [runs, none_]
        exact is.modQueue (f := fun z => { z with armed := true })
      · obtain ⟨u, is, runs⟩ := moves o_qmDbarm true
        obtain ⟨produced, held, notifies⟩ := waits
        have due : (!x.produced && x.heldAt index != 0 && x.nEn) = true := by rw [produced, notifies]; simpa using held
        refine ⟨_, arms, ?_⟩
        rw [runs, due]
        obtain ⟨self, mem, others⟩ := is.modQueue (f := fun z => { z with armed := false })
        refine ⟨⟨self, (State.ctlSet_mem ..).trans mem, others⟩, ?_⟩
        show fbit (((u.modQueue q _).ctlMod (o_qmNpend x.nCore) (fun v => fone v x.nVec true)).ctlGet (o_qmNpend x.nCore)) x.nVec = true
        have vec : x.nVec < 32 := Nat.mod_lt _ (by decide)
        rw [State.ctlMod, State.ctlGet_ctlSet, if_pos rfl, fbit_fone _ _ _ vec, if_pos rfl]

end Sys2Proof.Machine
end


section
/-!
PROOF. Frames received, entries of NETOUT queues and transmission selection (R431, R432, R438, R439, R443; O42).
-/
namespace Sys2Proof.Machine

section
variable {s : State} {p q c : Nat}

/-! ## Reception (Table 17-4) -/

/-- A frame that is dropped is counted by its port and cause, and reaches no queue. -/
theorem netDrop_counts (cause : Nat) : (s.netDrop p cause none).net.ports = s.net.ports ∧ (s.netDrop p cause none).mem = s.mem ∧
    smGet 0 (s.netDrop p cause none).net.drops (p * 32 + cause) = min (smGet 0 s.net.drops (p * 32 + cause) + 1) (2 ^ 32 - 1) := by
  have counted : smGet 0 (smSet s.net.drops (p * 32 + cause) (min (smGet 0 s.net.drops (p * 32 + cause) + 1) (2 ^ 32 - 1))) (p * 32 + cause) =
    min (smGet 0 s.net.drops (p * 32 + cause) + 1) (2 ^ 32 - 1) := smGet_smSet_self ..
  have noted : Noted (s.modNet fun n => { n with drops := smSet n.drops (p * 32 + cause) (min (smGet 0 n.drops (p * 32 + cause) + 1) (2 ^ 32 - 1)) })
      (s.netDrop p cause none) := .ite (.event .refl) .refl
  obtain ⟨_, _, _, _, _, same⟩ := noted
  rw [same]
  exact ⟨rfl, rfl, counted⟩

/-- The stages before a frame's rule, in their order. -/
theorem exec_frameReceive_stages {octs : List Nat} {fcs frag : Bool} {busy : Nat} (port : p < 16) (up : s.portUp p = true) :
    exec (.frameReceive p octs fcs frag busy) s =
      if 9216 < busy then .next (s.netDrop p 15 none)
      else if !fcs then .next (s.netDrop p 1 none)
      else if octs.length + 4 < 64 then .next (s.netDrop p 2 none)
      else if 9216 < octs.length + 4 then .next (s.netDrop p 3 none)
      else if !frag then .next (s.netDrop p 4 none)
      else match s.netSec p with
        | none => .next (s.netDrop p 6 none)
        | some sec =>
          match (if netMacsec sec && !macClear (octs.map (· % 256)) then s.macReceive p (octs.map (· % 256)) else (s, some (octs.map (· % 256)))) with
          | (s, none) => .next (s.netDrop p 5 none)
          | (t, some o) => match findRule sec o (parseTags (netPvid sec) (netDefPcp sec) o).vid with
            | none => .next (t.netDrop p 6 none)
            | some (i, r) => .next (t.ruled p i r o (parseTags (netPvid sec) (netDefPcp sec) o) s.gptp) := by
  have gate : ¬(16 ≤ p ∨ (!s.portUp p) = true) := by simp [port, up]
  have buffer : 18432 < busy + 9216 ↔ 9216 < busy := by omega
  show execFrameReceive p octs fcs frag busy s = _
  unfold execFrameReceive
  rw [if_neg gate]
  simp only [List.length_map, buffer] <;> rfl

/-- A frame that its rule sends to one other port, without a stream. -/
theorem ruled_one {r : InRule} {i : Nat} {o : List Nat} {f : Parsed} {ts : Int} (plain : r.stream = 0xFFFF) (port : q < 16) (other : q ≠ p)
    (one : r.ports = 2 ^ q) : s.ruled p i r o f ts = s.forward q f.pcp o none := by
  have ports : (List.range 16).filter (fun j => j != p && bitOf r.ports j) = [q] := by
    have bits (j : Nat) : bitOf r.ports j = decide (j = q) := by
      have tested : bitOf (2 ^ q) j = (2 ^ q).testBit j := by
        rw [Nat.testBit_eq_decide_div_mod_eq, bitOf, Bool.eq_iff_iff, beq_iff_eq, decide_eq_true_eq]
      rw [one, tested, Nat.testBit_two_pow]
      exact decide_eq_decide.mpr eq_comm
    simp only [bits]
    have only : (fun j => j != p && decide (j = q)) = fun j => j == q := by
      funext j
      by_cases same : j = q
      · simp [same, other]
      · simp [same]
    rw [only]
    exact (List.filter_beq q).trans (by rw [List.count_eq_one_of_mem List.nodup_range (List.mem_range.mpr port)]; rfl)
  unfold State.ruled
  simp only [plain, if_true, ports]
  rfl

/-! ## An entry of a NETOUT queue -/

theorem Beside.queue {t : State} (h : Beside s t) (j : Nat) : t.queue j = s.queue j := congrArg (fun m : Qm => smGet Queue.reset m.queues j) h.qm

theorem moveDev_dev (v : Nat) : ((s.moveDev q v).queue q).dev = v % 65536 := by
  have written : Beside (s.setQueue q { s.queue q with dev := v % 65536 })
      ((s.setQueue q { s.queue q with dev := v % 65536 }).qmWord ((s.setQueue q { s.queue q with dev := v % 65536 }).qOwner q) (s.queue q).shadow (v % 65536)) :=
    .qmWord .refl
  have queue := written.queue q
  rw [State.queue_setQueue, if_pos rfl] at queue
  unfold State.moveDev
  dsimp only
  split
  · generalize State.qmWord _ _ _ _ = u at queue ⊢
    have disarmed := queue_modQueue (s := u) q q fun y => { y with armed := false }
    rw [if_pos rfl, queue] at disarmed
    exact (congrArg Queue.dev disarmed :)
  · rw [queue]

/-- An entry that ends moves the queue's device index on, and leaves the network. -/
theorem outEnd_moves (pa status seq : Nat) : ((s.outEnd q pa status seq).queue q).dev = ((s.queue q).dev + 1) % 65536 ∧
    (s.outEnd q pa status seq).net = s.net := by
  have done : Beside s (s.entryDone (s.qOwner q) pa status 0 s.gptp 0 seq) := .inWrite .refl
  have ended : Beyond s (s.outEnd q pa status seq) := .moveDev (.work .refl done)
  exact ⟨moveDev_dev _, (congrArg State.net ended.beyond :)⟩

/-- An entry whose port is not up ends at once. -/
theorem exec_egressDequeue_down {sec : List Nat} {r : EgRule} {len : Nat} (small : q < 65536) (running : (s.queue q).st = 1) (kind : (s.queue q).kind = 6)
    (next : s.outWaiting q = 0) (waits : (s.queue q).held ≠ 0) (clean : s.mem.poisoned (lineOf (s.queue q).entryAt) = false)
    (rule : s.egressOf (s.queue q).other = some (p, sec, r)) (octets : s.mem.read ((s.queue q).entryAt + 8) 4 = len)
    (fits : r.wire len (macExtra (some sec) (buildFrame r 0 0 (s.mem.octets ((s.queue q).pack == 2)
      (s.mem.read (s.queue q).entryAt 4 + 2 ^ 36 * (s.mem.read ((s.queue q).entryAt + 4) 4 % 64)) 0 14))) ≤ 9216)
    (short : len ≤ 9200) (down : s.portUp p = false) : exec (.egressDequeue q) s = .next (s.outEnd q (s.queue q).entryAt 3 0) := by
  have index : q % 65536 = q := Nat.mod_eq_of_lt small
  have sends : ¬((s.queue q).st ≠ 1 ∨ (s.queue q).kind ≠ 6 ∨ (s.queue q).held ≤ 0) := by simp [running, kind, waits]
  have here : (s.queue q).base + 64 * (((s.queue q).dev + 0) % (s.queue q).size) = (s.queue q).entryAt := (entryAt_netout kind).symm
  have sized : ¬(9216 < r.wire len (macExtra (some sec) (buildFrame r 0 0 (s.mem.octets ((s.queue q).pack == 2)
      (s.mem.read (s.queue q).entryAt 4 + 2 ^ 36 * (s.mem.read ((s.queue q).entryAt + 4) 4 % 64)) 0 14))) ∨ 9200 < len) := by omega
  unfold EgRule.wire at sized
  show execEgressDequeue q s = _
  simp only [execEgressDequeue, index, next, if_neg sends, here, clean, rule, octets, if_neg sized, down, Bool.not_false, Bool.false_eq_true, if_false,
    if_true]

/-! ## Transmission selection -/

/-- Of the classes below `n`, taken from the highest, the first that satisfies `P` leads. -/
theorem filter_highest {P : Nat → Bool} {n : Nat} (below : c < n) (holds : P c = true) (above : ∀ d, c < d → d < n → P d = false) :
    ∃ cs, (List.range n).reverse.filter P = c :: cs := by
  induction n with
  | zero => exact absurd below (Nat.not_lt_zero c)
  | succ n ih =>
    rw [List.range_succ, List.reverse_append, List.reverse_singleton, List.singleton_append, List.filter_cons]
    rcases Nat.lt_succ_iff_lt_or_eq.mp below with lower | rfl
    · rw [if_neg (by rw [above n lower (Nat.lt_succ_self n)]; decide)]
      exact ih lower fun d more less => above d more (Nat.lt_succ_of_lt less)
    · rw [if_pos holds]
      exact ⟨_, rfl⟩

/-- With every gate open, no shaper and no frame cut short, the highest class with a frame may start. -/
theorem eligible_highest {f : NetFrame} {rest : List NetFrame} (open_ : (s.port p).list = []) (below : c < 8)
    (first : smGet [] (s.port p).queues c = f :: rest) (above : ∀ d, c < d → d < 8 → smGet [] (s.port p).queues d = []) :
    ∃ cs, s.eligible p none = c :: cs := by
  refine filter_highest below ?_ fun d more less => ?_
  · simp [first, NetPort.isOpen, NetPort.untilClose, open_]
  · simp [above d more less]

/-- A frame of no queue's entry, on a port without a section, starts on the wire. -/
theorem putOnWire_plain {f : NetFrame} (entry : f.ent = none) :
    .frame p f.octs ∈ (s.putOnWire p c f none).sent ∧ ((s.putOnWire p c f none).port p).queues = (s.port p).queues ∧
    ((s.putOnWire p c f none).port p).curEnd = s.time + s.wireTime p (max 64 (f.octs.length + 4)) := by
  have runs : s.putOnWire p c f none = (s.setPort p { s.port p with
      cur := some (c, { f with left := max 64 (f.octs.length + 4) }), curStart := s.time, curEnd := s.time + s.wireTime p (max 64 (f.octs.length + 4)),
      credit := (s.port p).credit }).emit (.frame p f.octs) := by
    simp [State.putOnWire, State.outSent, entry]
  rw [runs]
  have port (x : NetPort) : ((s.setPort p x).emit (.frame p f.octs)).port p = x := (State.port_setPort ..).trans (if_pos rfl)
  exact ⟨List.mem_cons_self, by rw [port], by rw [port]⟩

end

/-- Settles O42: the stages of reception by `exec_frameReceive_stages`, entries by `exec_egressDequeue` and `outEnd_moves`, and the choice of a
frame by `eligible_highest`. -/
theorem networkFrames : Obligations.NetworkFrames := by
  unfold Obligations.NetworkFrames
  refine ⟨fun s port octs fcs frag busy below up => ?receive, fun s q p sec r => ?netout, fun s p c f rest => ?select⟩
  case receive =>
    intro o len dropped i good
    have stages := exec_frameReceive_stages (octs := octs) (fcs := fcs) (frag := frag) (busy := busy) below up
    have passes (fine : good) : exec i s = match s.netSec port with
        | none => .next (s.netDrop port 6 none)
        | some sec =>
          match (if netMacsec sec && !macClear (octs.map (· % 256)) then s.macReceive port (octs.map (· % 256)) else (s, some (octs.map (· % 256)))) with
          | (s, none) => .next (s.netDrop port 5 none)
          | (t, some o) => match findRule sec o (parseTags (netPvid sec) (netDefPcp sec) o).vid with
            | none => .next (t.netDrop port 6 none)
            | some (i, r) => .next (t.ruled port i r o (parseTags (netPvid sec) (netDefPcp sec) o) s.gptp) := by
      obtain ⟨room, checked, long, short, whole⟩ := fine
      refine stages.trans ?_
      rw [if_neg (Nat.not_lt.mpr room), if_neg (by rw [checked]; decide), if_neg (Nat.not_lt.mpr long), if_neg (Nat.not_lt.mpr short),
        if_neg (by rw [whole]; decide)]
    refine ⟨fun full => ⟨_, stages.trans (if_pos full), netDrop_counts 15⟩, fun ⟨room, bad⟩ => ⟨_, stages.trans ?crc, netDrop_counts 1⟩,
      fun ⟨room, checked, runt⟩ => ⟨_, stages.trans ?runt, netDrop_counts 2⟩, fun ⟨room, checked, giant⟩ => ⟨_, stages.trans ?giant, netDrop_counts 3⟩,
      fun ⟨room, checked, long, short, cut⟩ => ⟨_, stages.trans ?cut, netDrop_counts 4⟩,
      fun fine none_ => ⟨_, (passes fine).trans (by rw [none_]), netDrop_counts 6⟩, fun sec fine section_ clear => ⟨fun none_ => ?noRule, ?rule⟩⟩
    case crc => rw [if_neg (Nat.not_lt.mpr room), if_pos (by rw [bad]; rfl)]
    case runt => rw [if_neg (Nat.not_lt.mpr room), if_neg (by rw [checked]; decide), if_pos runt]
    case giant =>
      have long : ¬octs.length + 4 < 64 := by omega
      rw [if_neg (Nat.not_lt.mpr room), if_neg (by rw [checked]; decide), if_neg long, if_pos giant]
    case cut =>
      rw [if_neg (Nat.not_lt.mpr room), if_neg (by rw [checked]; decide), if_neg (Nat.not_lt.mpr long), if_neg (Nat.not_lt.mpr short),
        if_pos (by rw [cut]; rfl)]
    case noRule =>
      refine ⟨_, (passes fine).trans ?_, netDrop_counts 6⟩
      have ruleless : findRule sec (octs.map (· % 256)) (parseTags (netPvid sec) (netDefPcp sec) (octs.map (· % 256))).vid = none := none_
      simp only [section_, clear, Bool.false_and, Bool.false_eq_true, if_false, ruleless]
    case rule =>
      intro j r q rule plain qBelow other one qUp room
      have matched : findRule sec (octs.map (· % 256)) (parseTags (netPvid sec) (netDefPcp sec) (octs.map (· % 256))).vid = some (j, r) := rule
      refine ⟨_, (passes fine).trans ?_, queues_enqueue s q _ ⟨o, s.wireOn q o, none, none⟩⟩
      simp only [section_, clear, Bool.false_and, Bool.false_eq_true, if_false, matched]
      rw [ruled_one plain qBelow other one]
      have enters : s.egressRoom q (parseTags (netPvid sec) (netDefPcp sec) o).pcp (s.wireOn q o) = true := room
      simp only [State.forward, qUp, Bool.not_true, Bool.false_eq_true, if_false]
      exact congrArg Host.Outcome.next (if_pos enters)
  case netout =>
    intro x pa buf len mac w small running kind next waits clean rule fits short
    refine ⟨fun down => ⟨_, exec_egressDequeue_down small running kind next waits clean rule rfl fits short down, outEnd_moves ..⟩,
      fun up octets addressed ⟨n, owner, owns⟩ poison lost failed room free => ?sent⟩
    case sent =>
      have dense : (x.pack == 2) = false := beq_eq_false_iff_ne.mpr octets
      have runs := exec_egressDequeue (n := n) small rfl running kind next waits rfl dense rfl rfl rule (mac := mac) (by rw [← dense]) fits short up addressed
        (fun d => absurd d Bool.false_ne_true) owner owns (poisoned_none poison lost failed) room free
      refine ⟨_, runs, s.outFrame r q pa x.other len mac (s.mem.octets false buf 0 len), ?_, rfl, rfl⟩
      rw [queues_enqueue, port_numbered]
  case select =>
    intro x below up unset open_ whole free classes first above entry
    have counted : (s.setPort p { s.port p with credit := s.credits p none, creditAt := s.time }).port p =
      { s.port p with credit := s.credits p none, creditAt := s.time } := by rw [State.port_setPort, if_pos rfl]
    obtain ⟨cs, eligible⟩ := eligible_highest (s := s.setPort p { s.port p with credit := s.credits p none, creditAt := s.time }) (p := p) (c := c)
      (f := f) (rest := rest) (by rw [counted]; exact open_) classes (by rw [counted]; exact first) (by rw [counted]; exact above)
    have runs := exec_transmissionSelection (cs := cs) below up free first
    rw [unset] at runs
    refine ⟨_, runs eligible, ?_⟩
    generalize started : (s.setPort p { s.port p with credit := s.credits p none, creditAt := s.time } : State) = u
    have clock : u.time = s.time ∧ u.board = s.board := by
      rw [← started]
      exact ⟨rfl, rfl⟩
    obtain ⟨sent, queues, ends⟩ := putOnWire_plain (s := u.setPort p { u.port p with queues := smPut [] (u.port p).queues c rest }) (p := p) (c := c) entry
    refine ⟨sent, ?_, ?_⟩
    · rw [queues, State.port_setPort, if_pos rfl]
      exact smGet_smPut_self ..
    · rw [ends]
      show u.time + _ = s.time + _
      rw [clock.1]
      unfold State.wireTime State.portRate
      rw [← clock.2]
      rfl

end Sys2Proof.Machine
end


section
/-!
PROOF. What a reset of host functions leaves as it was (R472 to R475).
-/
namespace Sys2Proof.Machine

-- One theorem after another: elaborated at once, they wait for one another in as many threads, and the stacks alone are gigabytes.
set_option Elab.async false

/-- A state without what function-level resets change. -/
def State.afar (s : State) : State := { s.beyond with hep := { s.beyond.hep with flr := [], pend := [], hold := [] } }

/-- `s` is reached from `s₀` by function-level resets: the configuration space, the link's state and all that no host request changes are as
they were, functions in reset stay in it, and engines end or go on. -/
structure Afar (s₀ s : State) : Prop where
  afar : s.afar = s₀.afar
  flr : ∀ fn, s₀.inFlr fn = true → s.inFlr fn = true
  engine : ∀ e, (s₀.engine e).st = 0 → (s.engine e).st = 0

section
variable {s₀ s t : State} {fn : Nat}

theorem Afar.refl : Afar s s := ⟨rfl, fun _ => id, fun _ => id⟩

theorem Afar.trans {s₁} (h : Afar s₀ s₁) (h' : Afar s₁ s) : Afar s₀ s :=
  ⟨h'.afar.trans h.afar, fun fn on => h'.flr fn (h.flr fn on), fun e idle => h'.engine e (h.engine e idle)⟩

theorem Beyond.toAfar (h : Beyond s t) : Afar s t := by
  refine ⟨congrArg (fun u : State => { u with hep := { u.hep with flr := [], pend := [], hold := [] } }) h.beyond, fun fn on => ?_, fun e => h.idle⟩
  have flr : t.hep.flr = s.hep.flr := (congrArg (fun u : State => u.hep.flr) h.beyond :)
  unfold State.inFlr
  rw [flr]
  exact on

theorem Afar.beyond (h : Afar s₀ s) (w : Beyond s t) : Afar s₀ t := h.trans w.toAfar

theorem Afar.work (h : Afar s₀ s) (w : Beside s t) : Afar s₀ t := h.beyond w.toBeyond

theorem Afar.ctlMod {o f} (h : Afar s₀ s) : Afar s₀ (s.ctlMod o f) := ⟨h.afar, h.flr, h.engine⟩

theorem Afar.foldl {α : Type} {f : State → α → State} {l : List α} (hf : ∀ s a, Afar s₀ s → Afar s₀ (f s a)) (h : Afar s₀ s) :
    Afar s₀ (l.foldl f s) := foldl_keeps hf l s h

/-- The function is in reset, and nothing is pending of it; what it was doing has not ended yet. -/
def State.silence (s : State) (fn : Nat) : State :=
  s.modHep (fun h => { h with flr := fn :: h.flr, pend := smErase h.pend fn, hold := if fn = 0 then h.hold else smErase h.hold (fn - 1) })

theorem silence_inFlr : (s.silence fn).inFlr fn = true := by
  show (fn :: s.hep.flr).contains fn = true
  simp

theorem Afar.silence : Afar s (s.silence fn) := by
  refine ⟨?_, fun f on => ?_, fun _ => id⟩
  · rfl
  · show (fn :: s.hep.flr).contains f = true
    have listed : s.hep.flr.contains f = true := on
    rw [List.contains_cons, listed, Bool.or_true]

/-- A reset of a data function, from the state in which it is silent. -/
theorem flrBegin_data (out : s.inFlr fn = false) (data : fn ≠ 0) : ∃ u, Beyond (s.silence fn) u ∧
    (s.flrBegin fn) = ((u.ctlMod (o_hepFnstate (fn - 1)) (fun v => fone v 26 true)).event 0 0x071 landing
      ((u.ctlMod (o_hepFnstate (fn - 1)) (fun v => fone v 26 true)).fOwner (fn - 1)) 0 fn 0) := by
  unfold State.flrBegin
  rw [if_neg (by rw [out]; decide)]
  simp only [data, if_false]
  have rule : Beyond (s.silence fn) (if fn = 1 then (s.silence fn).modHep (fun h => { h with fint := 0 }) else s.silence fn) := by
    split
    · exact ⟨rfl, fun _ => .inl rfl⟩
    · exact .refl
  have aborted := rule.dmaAbort (v := fn - 1) (status := 7)
  refine ⟨_, aborted, ?_⟩
  simp only [State.silence, data, if_false]

theorem flrBegin_pf0 (out : s.inFlr 0 = false) : s.flrBegin 0 = (s.silence 0).ctlSet o_hepP0Intpend 0 := by
  unfold State.flrBegin
  rw [if_neg (by rw [out]; decide)]
  rfl

theorem Afar.flrBegin (h : Afar s₀ s) : Afar s₀ (s.flrBegin fn) := by
  by_cases on : s.inFlr fn = true
  · rw [State.flrBegin, if_pos on]
    exact h
  · by_cases data : fn = 0
    · subst data
      rw [flrBegin_pf0 (eq_false_of_ne_true on)]
      exact .ctlMod (f := fun _ => 0) (h.trans .silence)
    · obtain ⟨u, silent, runs⟩ := flrBegin_data (eq_false_of_ne_true on) data
      rw [runs]
      exact .work (.ctlMod ((h.trans .silence).beyond silent)) (.event .refl)

theorem flrBegin_inFlr : (s.flrBegin fn).inFlr fn = true := by
  by_cases on : s.inFlr fn = true
  · rw [State.flrBegin, if_pos on]
    exact on
  · by_cases data : fn = 0
    · subst data
      rw [flrBegin_pf0 (eq_false_of_ne_true on)]
      exact silence_inFlr
    · obtain ⟨u, silent, runs⟩ := flrBegin_data (eq_false_of_ne_true on) data
      rw [runs]
      exact ((Afar.ctlMod (Afar.refl.beyond silent)).work (.event .refl)).flr fn silence_inFlr

theorem Afar.flrBegins {l : List Nat} (h : Afar s₀ s) : Afar s₀ (l.foldl State.flrBegin s) := .foldl (fun _ _ h1 => .flrBegin h1) h

/-- Every function of a list is in reset. -/
theorem flrBegins_inFlr {l : List Nat} (listed : fn ∈ l) : (l.foldl State.flrBegin s).inFlr fn = true := by
  induction l generalizing s with
  | nil => exact absurd listed List.not_mem_nil
  | cons f r ih =>
    rw [List.foldl_cons]
    rcases List.mem_cons.mp listed with rfl | later
    · exact (Afar.flrBegins .refl).flr fn flrBegin_inFlr
    · exact ih later

theorem Afar.flrStart (h : Afar s₀ s) : Afar s₀ (s.flrStart fn) := .flrBegins h

theorem Afar.cfg (h : Afar s t) (off : Nat) : t.cfg fn off = s.cfg fn off := by
  have cfg : t.hep.cfg = s.hep.cfg := (congrArg (fun u : State => u.hep.cfg) h.afar :)
  have fuses : t.fuses = s.fuses := (congrArg State.fuses h.afar :)
  have board : t.board = s.board := (congrArg State.board h.afar :)
  unfold State.cfg State.cfgReset
  rw [cfg, fuses, board]

/-- The state of a link that is lost, before anything follows from it. -/
def State.downLink (s : State) : State := s.modHep fun h => { h with ready := false }

theorem Afar.downLink (h : Afar s t) : Afar s.downLink t.downLink :=
  ⟨congrArg (fun u : State => { u with hep := { u.hep with ready := false } }) h.afar, h.flr, h.engine⟩

theorem fbit_fset_zero (v : Reg32) {i : Nat} (low : 22 ≤ i) (high : i ≤ 30) : fbit (fset v 30 22 0) i = false := by
  rw [fbit_fset _ _ _ _ (by omega), if_pos ⟨low, high⟩, Nat.zero_testBit]

/-- A link that is lost resets every function, and shows no link. -/
theorem linkLost_resets : Afar s.downLink s.linkLost ∧ fbit (s.linkLost.ctlGet o_hepStatus) 30 = false ∧ ∀ fn < 33, s.linkLost.inFlr fn = true := by
  have resets : Afar s (((List.range 33).foldl State.flrBegin s).intaSync s) := .work (.flrBegins .refl) (.intaSync .refl)
  have all (fn : Nat) (below : fn < 33) : (((List.range 33).foldl State.flrBegin s).intaSync s).inFlr fn = true :=
    (Beside.intaSync .refl : Beside _ _).toBeyond.toAfar.flr fn (flrBegins_inFlr (List.mem_range.mpr below))
  unfold State.linkLost
  generalize ((List.range 33).foldl State.flrBegin s).intaSync s = u at resets all
  dsimp only
  have shut : fbit ((u.ctlMod o_hepStatus (fun v => fset v 30 22 0)).downLink.ctlGet o_hepStatus) 30 = false := by
    have written : (u.ctlMod o_hepStatus (fun v => fset v 30 22 0)).downLink.ctlGet o_hepStatus = fset (u.ctlGet o_hepStatus) 30 22 0 :=
      (State.ctlGet_ctlSet ..).trans (if_pos rfl)
    rw [written]
    exact fbit_fset_zero _ (by decide) (by decide)
  have down : Afar s.downLink (u.ctlMod o_hepStatus (fun v => fset v 30 22 0)).downLink := .downLink (.ctlMod resets)
  have kept (fn : Nat) (below : fn < 33) : (u.ctlMod o_hepStatus (fun v => fset v 30 22 0)).downLink.inFlr fn = true := all fn below
  have same : (u.ctlMod o_hepStatus (fun v => fset v 30 22 0)).modHep (fun h => { h with ready := false }) =
    (u.ctlMod o_hepStatus (fun v => fset v 30 22 0)).downLink := rfl
  rw [same]
  generalize (u.ctlMod o_hepStatus (fun v => fset v 30 22 0)).downLink = w at shut down kept ⊢
  split
  · have event : Beside w (w.event 0 0x070 landing none 0 (w.ctlGet o_hepStatus).toNat 0) := .event .refl
    refine ⟨down.work event, ?_, fun fn below => (Afar.refl.work event).flr fn (kept fn below)⟩
    rw [event_ctlGet _ _ _ _ _ _ (by decide)]
    exact shut
  · exact ⟨down, shut, kept⟩

end
end Sys2Proof.Machine
end


section
/-!
PROOF. Configuration requests, BAR0, windows and the interrupts of functions (R455, R458, R460, R461, R469 to R471; O45).
-/
namespace Sys2Proof.Machine

section
variable {s t u : State} {fn off : Nat}

/-! ## Error messages -/

/-- `t` differs from `s` in configuration space, the headers logged there and error messages of `fn`. -/
def Told (fn : Nat) (s t : State) : Prop :=
  ∃ cfg hdr l, t = { s with hep := { s.hep with cfg := cfg, hdr := hdr }, sent := l ++ s.sent } ∧ ∀ e ∈ l, ∃ sev, e = .err fn sev

theorem Told.refl : Told fn s s := ⟨_, _, [], rfl, by simp⟩

theorem Told.trans (h : Told fn s t) (h' : Told fn t u) : Told fn s u := by
  obtain ⟨_, _, l, rfl, msgs⟩ := h
  obtain ⟨_, _, l', rfl, msgs'⟩ := h'
  refine ⟨_, _, l' ++ l, by rw [List.append_assoc], fun e listed => ?_⟩
  exact (List.mem_append.mp listed).elim (msgs' e) (msgs e)

theorem Told.setCfg {f o v} (h : Told fn s t) : Told fn s (t.setCfg f o v) := h.trans ⟨_, _, [], rfl, by simp⟩

theorem Told.hdr {n} (h : Told fn s t) : Told fn s (t.modHep fun x => { x with hdr := n }) := h.trans ⟨_, _, [], rfl, by simp⟩

theorem Told.ite {c : Prop} [Decidable c] (h : Told fn s t) (h' : Told fn s u) : Told fn s (if c then t else u) := by
  split <;> assumption

theorem Told.cfgOne {f o bit} (h : Told fn s t) : Told fn s (t.cfgOne f o bit) := .ite h (.setCfg h)

theorem Told.err {sev} (h : Told fn s t) : Told fn s (t.emit (.err fn sev)) :=
  h.trans ⟨_, _, [.err fn sev], rfl, fun _ listed => ⟨sev, List.mem_singleton.mp listed⟩⟩

theorem Told.errMsg {sev ur} (h : Told fn s t) : Told fn s (t.errMsg fn sev ur) := .ite (.err (.ite (.cfgOne h) h)) h

theorem Told.aerFirst {f bit} (h : Told fn s t) : Told fn s (t.aerFirst f bit) :=
  .ite (.setCfg h) (.hdr (foldl_keeps (p := Told fn s) (fun _ _ h1 => .setCfg h1) _ _ (.setCfg h)))

/-- An error of a function changes what the endpoint holds, and sends error messages of that function alone. -/
theorem Told.aer {advisory bit} (h : Told fn s t) : Told fn s (t.aer fn advisory bit) := by
  unfold State.aer
  extract_lets _ _ _ s1 _ s2
  have h1 : Told fn s s1 := .cfgOne h
  have h2 : Told fn s s2 := .ite (.cfgOne (.ite h1 (.aerFirst h1))) (.ite h1 (.aerFirst h1))
  exact .ite (.ite (.cfgOne h2) (.errMsg (.cfgOne h2))) (.ite
    (.ite (.cfgOne (.cfgOne h2)) (.ite (.cfgOne (.cfgOne h2)) (.errMsg (.cfgOne (.cfgOne h2))))) (.ite (.cfgOne h2) (.errMsg (.cfgOne h2))))

/-- The answer to a request, after the error messages it gave rise to. -/
theorem Told.answers {c : Sent} (h : Told fn s t) : (∃ l, (t.emit c).sent = c :: (l ++ s.sent) ∧ ∀ e ∈ l, ∃ sev, e = .err fn sev) ∧
    (t.emit c).mem = s.mem ∧ (t.emit c).ctl = s.ctl := by
  obtain ⟨_, _, l, rfl, msgs⟩ := h
  exact ⟨⟨l, rfl, msgs⟩, rfl, rfl⟩

/-! ## Configuration writes -/

theorem cfg_setCfg (v : Nat) : (s.setCfg fn off v).cfg fn off = v := by
  have found : smFind? (smSet s.hep.cfg (cfgKey fn off) v) (cfgKey fn off) = some v := by rw [smFind?_smSet, if_pos rfl]
  unfold State.cfg
  rw [show (s.setCfg fn off v).hep.cfg = smSet s.hep.cfg (cfgKey fn off) v from rfl, found]

theorem Noted.cfg (h : Noted s t) : t.cfg fn off = s.cfg fn off := by
  obtain ⟨_, _, _, _, _, rfl⟩ := h
  rfl

/-- A write of a configuration register sets the bits that can be written and clears those that a 1 clears. -/
theorem cfgWrite_cfg (other : off ≠ 0x270) (v : Nat) : (s.cfgWrite fn off v).cfg fn off =
    (((BitVec.ofNat 32 (s.cfg fn off) &&& ~~~(BitVec.ofNat 32 (cfgMask fn off).1)) ||| (BitVec.ofNat 32 v &&& BitVec.ofNat 32 (cfgMask fn off).1)) &&&
      ~~~(BitVec.ofNat 32 v &&& BitVec.ofNat 32 (cfgMask fn off).2)).toNat := by
  unfold State.cfgWrite
  extract_lets old m rw_ new wasBme wasVf t0 t1 t2 t3
  have first : Afar t0 t1 := by
    unfold t1
    split
    · exact .flrStart .refl
    · exact .refl
  have second : Afar t0 t2 := by
    unfold t2
    split
    · exact first.beyond (.dmaAbort .refl)
    · exact first
  have third : Afar t0 t3 := by
    unfold t3
    split
    · exact .flrBegins second
    · exact second
  have sent : Noted t3 ((t3.sendInts fn).intaSync s) := .intaSync (.sendInts .refl)
  have mask : rw_ = m.1 := if_neg fun both => other both.1
  rw [sent.cfg, third.cfg, cfg_setCfg]
  unfold new
  rw [mask]

/-- A write of all four octets writes the dword. -/
theorem bytes_merge {v : Nat} (small : v < 2 ^ 32) (w1c old : Nat) : (List.range 4).foldl (fun a i =>
    a + (if bitOf 15 i then v / 2 ^ (8 * i) % 256 else (if bitOf w1c (8 * i) then 0 else old / 2 ^ (8 * i) % 256)) * 2 ^ (8 * i)) 0 = v := by
  have range : List.range 4 = [0, 1, 2, 3] := rfl
  have zero : bitOf 15 0 = true := rfl
  have one : bitOf 15 1 = true := rfl
  have two : bitOf 15 2 = true := rfl
  have three : bitOf 15 3 = true := rfl
  rw [range, List.foldl_cons, List.foldl_cons, List.foldl_cons, List.foldl_cons, List.foldl_nil, if_pos zero, if_pos one, if_pos two, if_pos three]
  norm_num
  omega

/-! ## Interrupts of functions -/

theorem msgOf_hep {s t : State} {hep : Hep} {pend : SMap (List Nat)} {sent : List Sent} (same : t = { s with hep := { hep with pend := pend }, sent := sent })
    (whole : hep = s.hep) (vec : Nat) : t.msgOf fn vec = s.msgOf fn vec := by
  subst whole
  subst same
  rfl

/-- Of the pending vectors a fold has passed those that can be sent have gone out, and those that cannot are still pending. -/
theorem sendInts_vec {vec : Nat} (pending : vec ∈ smGet [] s.hep.pend fn) :
    (∀ m, s.msgOf fn vec = some m → m ∈ (s.sendInts fn).sent) ∧ (s.msgOf fn vec = none → vec ∈ smGet [] (s.sendInts fn).hep.pend fn) := by
  let send := fun (t : State) (v : Nat) => match t.msgOf fn v with
    | some m => (t.emit m).modHep (fun h => { h with pend := smPut [] h.pend fn ((smGet [] h.pend fn).filter (· != v)) })
    | none => t
  have frame (t : State) (v : Nat) : (∀ w, (send t v).msgOf fn w = t.msgOf fn w) ∧ (∀ m ∈ t.sent, m ∈ (send t v).sent) ∧
      (t.msgOf fn v = none ∨ vec ≠ v → vec ∈ smGet [] t.hep.pend fn → vec ∈ smGet [] (send t v).hep.pend fn) := by
    unfold send
    split
    next m found =>
      refine ⟨fun w => msgOf_hep rfl rfl w, fun m listed => List.mem_cons_of_mem _ listed, fun other listed => ?_⟩
      have ne : vec ≠ v := other.resolve_left fun none_ => by rw [none_] at found; cases found
      show vec ∈ smGet [] (smPut [] t.hep.pend fn _) fn
      rw [smGet_smPut_self]
      exact List.mem_filter.mpr ⟨listed, by simpa using ne⟩
    next => exact ⟨fun _ => rfl, fun _ => id, fun _ => id⟩
  suffices ∀ (l : List Nat) (t : State), (∀ w, t.msgOf fn w = s.msgOf fn w) →
      (∀ m, s.msgOf fn vec = some m → (vec ∈ l ∨ m ∈ t.sent) → m ∈ (l.foldl send t).sent) ∧
      (s.msgOf fn vec = none → vec ∈ smGet [] t.hep.pend fn → vec ∈ smGet [] (l.foldl send t).hep.pend fn) by
    obtain ⟨goes, stays⟩ := this (smGet [] s.hep.pend fn) s fun _ => rfl
    exact ⟨fun m found => goes m found (.inl pending), fun none_ => stays none_ pending⟩
  intro l
  induction l with
  | nil => exact fun t _ => ⟨fun m _ out => out.resolve_left List.not_mem_nil, fun _ listed => listed⟩
  | cons v r ih =>
    intro t same
    obtain ⟨msgs, keeps, pends⟩ := frame t v
    obtain ⟨goes, stays⟩ := ih (send t v) fun w => (msgs w).trans (same w)
    refine ⟨fun m found out => goes m found ?_, fun none_ listed => stays none_ (pends ?_ listed)⟩
    · rcases out with member | sent
      · rcases List.mem_cons.mp member with rfl | later
        · refine .inr ?_
          have here : t.msgOf fn vec = some m := (same vec).trans found
          unfold send
          rw [here]
          exact List.mem_cons_self
        · exact .inl later
      · exact .inr (keeps m sent)
    · by_cases here : vec = v
      · exact .inl (here ▸ (same vec).trans none_)
      · exact .inr here

/-- A vector that is requested outside INTx mode: it goes out where the function may send it, and is pending otherwise. -/
theorem irq_vec {vec : Nat} (mode : s.intMode fn ≠ 0) :
    (∀ m, s.msgOf fn vec = some m → m ∈ (s.irq fn vec).sent) ∧ (s.msgOf fn vec = none → vec ∈ smGet [] (s.irq fn vec).hep.pend fn) := by
  have asked : vec ∈ if (smGet [] s.hep.pend fn).contains vec then smGet [] s.hep.pend fn else smGet [] s.hep.pend fn ++ [vec] := by
    split
    next listed => exact List.contains_iff_mem.mp listed
    next => exact List.mem_append_right _ (List.mem_singleton_self vec)
  unfold State.irq
  rw [if_neg fun both => mode both.2]
  dsimp only
  generalize requested : s.modHep _ = u
  have pending : vec ∈ smGet [] u.hep.pend fn := by
    rw [← requested]
    show vec ∈ smGet [] (smSet s.hep.pend fn _) fn
    rw [smGet_smSet_self]
    exact asked
  have same : u.msgOf fn vec = s.msgOf fn vec := by
    rw [← requested]
    rfl
  rw [← same]
  exact sendInts_vec pending

/-! ## Requests to BAR0 of PF0 -/

theorem hold_empty (empty : ∀ e ∈ s.hep.hold, e.2 = []) : s.readTurn = (s, true) ∧ s.credited = true := by
  have idle : s.hep.hold.any (fun e => !e.2.isEmpty) = false := by
    rw [List.any_eq_false]
    intro e listed
    simp [empty e listed]
  refine ⟨by simp [State.readTurn, idle], List.all_eq_true.mpr fun e listed => ?_⟩
  simp [empty e listed]

/-- A read of BAR0 of PF0 with no write held before it. -/
theorem exec_bar0_read {a dws be : Nat} (small : a < 0x1000000) (aligned : a % 4 = 0) (linked : fbit (s.ctlGet o_hepStatus) 30 = true)
    (empty : ∀ e ∈ s.hep.hold, e.2 = []) : exec (.hostBar0Access 0 a dws be none .none) s =
      if !s.bar0Open 0 a then .next ((s.aer 0 true 20).emit (.completion 1 [] false))
      else if !(dws == 1 && be == 15) then .next (((s.cfgOne 0 0x04 27).aer 0 true 15).emit (.completion 4 [] false))
      else .next ((s.bar0Read 0 a).1.emit (.completion 0 (valOct (s.bar0Read 0 a).2 4) false)) := by
  have gate : ¬(33 ≤ 0 ∨ (!fbit (s.ctlGet o_hepStatus) 30) = true) := by simp [linked]
  have seen : ¬s.seen 0 .none ≠ .none := by simp [State.seen]
  have whole : (a % 4 == 0) = true := by simp [aligned]
  show execHostBar0Access 0 a dws be none .none s = _
  unfold execHostBar0Access
  dsimp only
  rw [if_pos (rfl : (0 : Nat) = 0), Nat.mod_eq_of_lt small, if_neg gate, if_neg seen, (hold_empty empty).1, whole, Bool.and_true]
  rfl

/-- A write of one dword there. -/
theorem exec_bar0_write {a v : Nat} (small : a < 0x1000000) (aligned : a % 4 = 0) (linked : fbit (s.ctlGet o_hepStatus) 30 = true)
    (empty : ∀ e ∈ s.hep.hold, e.2 = []) (opened : s.bar0Open 0 a = true) : exec (.hostBar0Access 0 a 1 15 (some v) .none) s = .next (s.bar0Write 0 a v) := by
  have gate : ¬(33 ≤ 0 ∨ (!fbit (s.ctlGet o_hepStatus) 30) = true) := by simp [linked]
  have seen : ¬s.seen 0 .none ≠ .none := by simp [State.seen]
  show execHostBar0Access 0 a 1 15 (some v) .none s = _
  unfold execHostBar0Access
  dsimp only
  rw [if_pos (rfl : (0 : Nat) = 0), Nat.mod_eq_of_lt small, if_neg gate, if_neg seen, (hold_empty empty).2, opened, aligned]
  rfl

/-! ## Doorbells of the host (R471) -/

theorem mem_of_smGet {α : Type} {d x : α} {m : SMap α} {n : Nat} (held : smGet d m n = x) (ne : x ≠ d) : ∃ e ∈ m, e.2 = x := by
  induction m with
  | nil => exact absurd held.symm ne
  | cons e r ih =>
    by_cases here : e.1 = n
    · exact ⟨e, List.mem_cons_self, by rw [← held]; simp [smGet, here]⟩
    · obtain ⟨f, listed, same⟩ := ih (by rw [← held]; simp [smGet, here])
      exact ⟨f, List.mem_cons_of_mem _ listed, same⟩

/-- HDBSET behind no held write sets bits of HDB. -/
theorem fnWrite_hdb {v : Nat} {bits : Reg32} (open_ : s.fnOpen v = true) (empty : smGet [] s.hep.hold v = []) :
    (s.fnWrite v 0xC004 bits.toNat).ctlGet (o_hepHdb v) = s.ctlGet (o_hepHdb v) ||| bits := by
  have written : (s.ctlMod (o_hepHdb v) (fun r => r ||| bits)).ctlGet (o_hepHdb v) = s.ctlGet (o_hepHdb v) ||| bits :=
    (State.ctlGet_ctlSet ..).trans (if_pos rfl)
  have value : r32 bits.toNat = bits := by simp [r32]
  have direct : s.fnWrite v 0xC004 bits.toNat = s.hdbSet v bits := by
    rw [State.fnWrite, empty]
    simp [State.fWrite, value]
  rw [direct, State.hdbSet, if_pos open_]
  dsimp only
  split <;> exact written

/-- Behind held writes it waits its turn. -/
theorem fnWrite_held {v : Nat} {bits : Reg32} (credited : s.credited = true) (held : smGet [] s.hep.hold v ≠ []) :
    (s.fnWrite v 0xC004 bits.toNat).ctl = s.ctl ∧
    smGet [] (s.fnWrite v 0xC004 bits.toNat).hep.hold v = smGet [] s.hep.hold v ++ [⟨256, 0xC004, valOct bits.toNat 4⟩] := by
  obtain ⟨e, listed, same⟩ := mem_of_smGet rfl held
  have room : (smGet [] s.hep.hold v).length < 16 := by
    have short := List.all_eq_true.mp credited e listed
    rw [same] at short
    exact of_decide_eq_true short
  have waits : s.fnWrite v 0xC004 bits.toNat = s.modHep (fun h => { h with hold := smSet h.hold v (smGet [] s.hep.hold v ++ [⟨256, 0xC004, valOct bits.toNat 4⟩]) }) := by
    rw [State.fnWrite, if_neg (by simpa using held), State.holdWrite]
    exact if_pos room
  rw [waits]
  exact ⟨rfl, smGet_smSet_self ..⟩

/-- A write that is refused leaves the table and sets WREJ. -/
theorem hepWrej_shows : s.hepWrej.hep = s.hep ∧ fbit (s.hepWrej.ctlGet o_hepStatus) 31 = true := by
  refine ⟨State.ctlSet_hep .., ?_⟩
  rw [State.hepWrej, State.ctlMod, State.ctlGet_ctlSet, if_pos rfl, fbit_fone _ _ _ (by decide), if_pos rfl]

end

/-- Settles O45: configuration requests by `cfgWrite_cfg` and `Told.aer`, BAR0 by `exec_bar0_read`, interrupts by `irq_vec`, doorbells by `fnWrite_hdb`. -/
theorem hostRegisters : Obligations.HostRegisters := by
  unfold Obligations.HostRegisters
  refine ⟨fun s fn off below small aligned linked => ?requests, fun s who v win vBelow winBelow => ?windows⟩
  case requests =>
    intro answers there bits m
    have index : off % 4096 / 4 * 4 = off := by omega
    have config (wr : Option Nat) (be : Nat) : exec (.hostConfigRequest fn off wr be) s =
        if !s.hep.ready || s.inFlr fn then .next (s.emit (.completion 2 [] false))
        else if 33 ≤ fn ∨ (2 ≤ fn ∧ !s.vfOn fn) then .next ((s.aer 0 true 20).emit (.completion 1 [] false))
        else match wr with
          | none => .next (s.emit (.completion 0 (valOct (s.cfgRead fn off) 4) false))
          | some v => .next ((s.cfgWrite fn off ((List.range 4).foldl (fun a i => a + (if bitOf be i then v / 2 ^ (8 * i) % 256
              else (if bitOf (cfgMask fn off).2 (8 * i) then 0 else s.cfg fn off / 2 ^ (8 * i) % 256)) * 2 ^ (8 * i)) 0)).emit (.completion 0 [] false)) := by
      show execHostConfigRequest fn off wr be s = _
      unfold execHostConfigRequest
      dsimp only
      rw [index, linked] <;> cases wr <;> rfl
    have told {f : Nat} (pf : f = fn ∨ f = 0) {t : State} {c : Sent} (h : Told f s t) : answers c (t.emit c) := by
      obtain ⟨⟨l, sent, msgs⟩, mem, ctl⟩ := h.answers (c := c)
      refine ⟨⟨l, sent, fun e listed => ?_⟩, mem, ctl⟩
      obtain ⟨sev, same⟩ := msgs e listed
      rcases pf with rfl | rfl
      · exact ⟨sev, .inl same⟩
      · exact ⟨sev, .inr same⟩
    have live (ready : s.hep.ready = true) (out : s.inFlr fn = false) : (!s.hep.ready || s.inFlr fn) = false := by rw [ready, out]; rfl
    have present (here : there) : ¬(33 ≤ fn ∨ (2 ≤ fn ∧ (!s.vfOn fn) = true)) := by
      rintro (beyond | ⟨data, off_⟩)
      · omega
      · rcases here with pf | on
        · omega
        · rw [on] at off_
          exact absurd off_ (by decide)
    refine ⟨fun resets wr be => ⟨_, (config wr be).trans (if_pos ?retry), told (.inr rfl) .refl⟩,
      fun ⟨ready, out⟩ absent wr be => ⟨_, (config wr be).trans ?absent, told (t := s.aer 0 true 20) (.inr rfl) (.aer .refl)⟩,
      fun ⟨ready, out⟩ here be => ⟨_, (config none be).trans ?read, told (.inr rfl) .refl⟩,
      fun ⟨ready, out⟩ here other v small =>
        ⟨(s.cfgWrite fn off v).emit (.completion 0 [] false), (config (some v) 15).trans ?write, rfl, cfgWrite_cfg other v⟩,
      fun a dws be small aligned empty => ⟨fun shut => ⟨_, (exec_bar0_read small aligned linked empty).trans ?shut, told (t := s.aer 0 true 20) (.inr rfl) (.aer .refl)⟩,
        fun opened bad => ⟨_, (exec_bar0_read small aligned linked empty).trans ?abort, told (t := (s.cfgOne 0 0x04 27).aer 0 true 15) (.inr rfl) (.aer (.cfgOne .refl))⟩⟩,
      fun a small aligned msix pba empty opened => ⟨(exec_bar0_read small aligned linked empty).trans ?register,
        fun v => (exec_bar0_write small aligned linked empty opened).trans ?store⟩⟩
    case retry =>
      rcases resets with unready | flr
      · rw [unready]; rfl
      · rw [flr, Bool.or_true]
    case absent =>
      have gone : 33 ≤ fn ∨ (2 ≤ fn ∧ (!s.vfOn fn) = true) := by
        refine .inr ⟨Nat.not_lt.mp fun pf => absent (.inl pf), ?_⟩
        rw [Bool.not_eq_true', ← Bool.not_eq_true]
        exact fun on => absent (.inr on)
      rw [live ready out, if_neg Bool.false_ne_true, if_pos gone]
    case read => rw [live ready out, if_neg Bool.false_ne_true, if_neg (present here)]
    case write =>
      rw [live ready out, if_neg Bool.false_ne_true, if_neg (present here)]
      dsimp only
      rw [bytes_merge small]
    case shut => rw [shut]; rfl
    case abort =>
      have odd : (dws == 1 && be == 15) = false := by
        rw [← Bool.not_eq_true, Bool.and_eq_true, beq_iff_eq, beq_iff_eq]
        exact bad
      rw [opened, odd]
      rfl
    case register =>
      have plain : s.bar0Read 0 a = ((s.ctlRead .host a).1, (s.ctlRead .host a).2.toNat) := by simp [State.bar0Read, msix, pba]
      rw [opened, plain]
      rfl
    case store => simp [State.bar0Write, msix, pba]
  case windows =>
    intro w key tgt refused
    have wsel (reach : s.reach who o_hepWsel = true) : exec (.hepWselWrite who v win) s = .next (s.wselWrite w v win) := by
      show execHepWselWrite who v win s = _
      rw [execHepWselWrite, if_pos reach, Nat.mod_eq_of_lt vBelow, Nat.mod_eq_of_lt winBelow]
    refine ⟨fun reach own => ⟨_, wsel reach, ?select⟩, fun reach foreign => ⟨_, wsel reach, ?unselect⟩, fun cfg reach => ?commit,
      fun vec small reach mode => ?interrupt, fun bits linked credited open_ => ?bell⟩
    case select =>
      have may : (w = 32 || s.fOwner v == some w) = true := by
        rcases own with host | owner
        · simp [host]
        · simp [owner]
      rw [State.wselWrite, if_pos may, Nat.mod_eq_of_lt vBelow, Nat.mod_eq_of_lt winBelow]
      exact ⟨smGet_smSet_self .., rfl⟩
    case unselect =>
      have not_ : ¬(w = 32 || s.fOwner v == some w) = true := by
        rw [Bool.or_eq_true, decide_eq_true_eq, beq_iff_eq]
        exact foreign
      rw [State.wselWrite, if_neg not_]
      exact hepWrej_shows
    case commit =>
      intro ok
      have commits : exec (.hepWcfgWrite who cfg) s = .next (s.wcfgWrite w cfg) := by
        show execHepWcfgWrite who cfg s = _
        rw [execHepWcfgWrite, if_pos reach]
      have gate : ((w = 32 || s.fOwner (key / 256) == some w) && s.winOk (key / 256) tgt (cfg &&& 0xFF00FFFF)) = true ↔ ok := by
        rw [Bool.and_eq_true, Bool.or_eq_true, decide_eq_true_eq, beq_iff_eq]
      refine ⟨fun good => ⟨_, commits, ?_⟩, fun bad => ⟨_, commits, ?_⟩⟩
      · rw [State.wcfgWrite, if_pos (gate.mpr good)]
        have entry : winKey (key / 256) (key % 256) = key := by unfold winKey; omega
        show smGet ⟨0, 0⟩ (smPut ⟨0, 0⟩ s.hep.wins key ⟨cfg &&& 0xFF00FFFF, tgt⟩) (winKey (key / 256) (key % 256)) = _
        rw [entry]
        exact smGet_smPut_self ..
      · rw [State.wcfgWrite, if_neg (fun passes => bad (gate.mp passes))]
        exact hepWrej_shows
    case interrupt =>
      have asks : exec (.msisend who v vec) s = .next (s.irq (1 + v) vec) := by
        show execMsisend who v vec s = _
        rw [execMsisend, if_pos (by rw [reach]; simp [vBelow]), Nat.mod_eq_of_lt small]
      obtain ⟨goes, waits⟩ := irq_vec (vec := vec) mode
      exact ⟨fun m found => ⟨_, asks, goes m found⟩, fun none_ => ⟨_, asks, waits none_⟩⟩
    case bell =>
      have rings : exec (.hdbset v bits) s = .next (s.fnWrite v 0xC004 bits.toNat) := by
        show execHdbset v bits s = _
        rw [execHdbset, if_pos (by rw [linked, credited]; simp [vBelow])]
      exact ⟨fun empty => ⟨_, rings, fnWrite_hdb open_ empty⟩, fun held => ⟨_, rings, fnWrite_held credited held⟩⟩

end Sys2Proof.Machine
end


section
/-!
PROOF. Completions of the engines' reads, resets of functions, and the link (R467, R472 to R476; O46).
-/
namespace Sys2Proof.Machine

section
variable {s t : State} {fn off : Nat}

/-! ## Configuration space bit by bit -/

theorem cfg_setCfg_other {o : Nat} (other : off ≠ o) (v : Nat) : (s.setCfg fn o v).cfg fn off = s.cfg fn off := by
  have key : cfgKey fn o ≠ cfgKey fn off := by unfold cfgKey; omega
  have found : smFind? (smSet s.hep.cfg (cfgKey fn o) v) (cfgKey fn off) = smFind? s.hep.cfg (cfgKey fn off) := by rw [smFind?_smSet, if_neg key]
  unfold State.cfg
  rw [show (s.setCfg fn o v).hep.cfg = smSet s.hep.cfg (cfgKey fn o) v from rfl, found]
  rfl

theorem cfgOne_sets (bit : Nat) : (s.cfgOne fn off bit).cfgBit fn off bit = true := by
  unfold State.cfgOne
  split
  next set => exact set
  next unset =>
    have clear : s.cfg fn off / 2 ^ bit % 2 ≠ 1 := fun one => unset (beq_iff_eq.mpr one)
    rw [State.cfgBit, cfg_setCfg, bitOf, beq_iff_eq, Nat.add_div_right _ (Nat.two_pow_pos bit)]
    omega

theorem cfgOne_other {o : Nat} (other : off ≠ o) (bit : Nat) : (s.cfgOne fn o bit).cfg fn off = s.cfg fn off := by
  unfold State.cfgOne
  split
  · rfl
  · exact cfg_setCfg_other other _

/-- A correctable error sets its bit in the status register of its function. -/
theorem aerCor_sets (bit : Nat) : (s.aerCor fn bit).cfgBit fn 0x110 bit = true := by
  have status : 0x110 ≠ 0x78 := by decide
  have command : 0x110 ≠ 0x04 := by decide
  have set : ((s.cfgOne fn 0x110 bit).cfgOne fn 0x78 16).cfgBit fn 0x110 bit = true := by
    rw [State.cfgBit, cfgOne_other status]
    exact cfgOne_sets bit
  unfold State.aerCor
  dsimp only
  generalize (s.cfgOne fn 0x110 bit).cfgOne fn 0x78 16 = u at set ⊢
  have noted (b : Nat) : (u.cfgOne fn 0x04 b).cfgBit fn 0x110 bit = true := by
    rw [State.cfgBit, cfgOne_other command]
    exact set
  split
  · exact set
  · unfold State.errMsg
    dsimp only
    split
    · split
      · exact noted 30
      · exact set
    · exact set

/-! ## Counts of the endpoint (Table 18-8) -/

/-- A count enters, before the interrupt and the event that follow. -/
def State.tally (s : State) (cause fn : Nat) : State :=
  s.modHep (fun h => { h with cnt := smSet h.cnt (cause * 64 + fn) (min (smGet 0 h.cnt (cause * 64 + fn) + 1) (2 ^ 32 - 1)) })

theorem hepCount_noted (cause fn : Nat) : Noted (s.tally cause fn) (s.hepCount cause fn) := .ite (.irq .refl) (.event (.irq .refl))

theorem Noted.reads (h : Noted s t) : t.hep.reads = s.hep.reads := by obtain ⟨_, _, _, _, _, rfl⟩ := h; rfl
theorem Noted.cnt (h : Noted s t) : t.hep.cnt = s.hep.cnt := by obtain ⟨_, _, _, _, _, rfl⟩ := h; rfl

/-- A completion that answers no read is counted. -/
theorem unanswered_counts (f : Nat) (below : fn < 32) : ((s.aer f true 16).hepCount 6 (1 + fn)).hep.reads = s.hep.reads ∧
    ((s.aer f true 16).hepCount 6 (1 + fn)).mem = s.mem ∧
    smGet 0 ((s.aer f true 16).hepCount 6 (1 + fn)).hep.cnt (6 * 64 + 1 + fn) = min (smGet 0 s.hep.cnt (6 * 64 + 1 + fn) + 1) (2 ^ 32 - 1) := by
  have told : Told f s (s.aer f true 16) := .aer .refl
  obtain ⟨_, _, l, same, -⟩ := told
  rw [same]
  generalize hu : ({ s with hep := _, sent := _ } : State) = u
  have kept : u.hep.reads = s.hep.reads ∧ u.mem = s.mem ∧ u.hep.cnt = s.hep.cnt := by
    rw [← hu]
    exact ⟨rfl, rfl, rfl⟩
  obtain ⟨reads, mem, cnt⟩ := kept
  have noted := hepCount_noted (s := u) 6 (1 + fn)
  rw [noted.reads, noted.mem, noted.cnt]
  refine ⟨reads, mem, ?_⟩
  rw [← cnt, Nat.add_assoc]
  exact smGet_smSet_self ..

/-- A read that fails ends its engine's descriptor. -/
theorem readFails_idles {r : HostRead} (live : r.dead = false) : ((s.readFails r).engine r.engine).st = 0 := by
  unfold State.readFails
  dsimp only
  rw [if_neg (by rw [live]; decide)]
  exact dmaEnd_engine ..

/-! ## Function-level resets -/

theorem smFind?_filter_none {α : Type} {m : SMap α} {p : Nat → Bool} {k : Nat} (out : p k = false) : smFind? (m.filter fun e => p e.1) k = none := by
  induction m with
  | nil => rfl
  | cons e r ih =>
    rw [List.filter_cons]
    split
    next kept =>
      have ne : e.1 ≠ k := fun same => by rw [same, out] at kept; cases kept
      simp only [smFind?, ne, if_false]
      exact ih
    next => exact ih

/-- At its end the function's registers hold their reset values, and it answers again. -/
theorem flrEnd_clears (on : s.inFlr fn = true) : (s.flrEnd fn).inFlr fn = false ∧ ∀ off < 4096, (s.flrEnd fn).cfg fn off = s.cfgReset fn off := by
  unfold State.flrEnd
  rw [if_neg (by rw [on]; decide)]
  refine ⟨?_, fun off small => ?_⟩
  · show (s.hep.flr.filter (· != fn)).contains fn = false
    simp
  · have key : (cfgKey fn off / 4096 != fn) = false := by
      have own : cfgKey fn off / 4096 = fn := by unfold cfgKey; omega
      rw [own, bne_self_eq_false]
    have cleared : smFind? (s.hep.cfg.filter fun e => e.1 / 4096 != fn) (cfgKey fn off) = none := smFind?_filter_none (p := fun k => k / 4096 != fn) key
    generalize ended : s.modHep _ = u
    have cfg : u.hep.cfg = s.hep.cfg.filter fun e => e.1 / 4096 != fn := by rw [← ended]; rfl
    have reset : u.cfgReset fn off = s.cfgReset fn off := by rw [← ended]; rfl
    rw [State.cfg, cfg, cleared, reset]

/-- What a reset of one function leaves to be seen. -/
theorem flrStart_one (other : fn ≠ 1) (out : s.inFlr fn = false) : ((s.flrStart fn).intaSync s).inFlr fn = true ∧
    smGet [] ((s.flrStart fn).intaSync s).hep.pend fn = [] ∧
    (fn ≠ 0 → fbit (((s.flrStart fn).intaSync s).ctlGet (o_hepFnstate (fn - 1))) 26 = true) := by
  have start : s.flrStart fn = s.flrBegin fn := by rw [State.flrStart, flrScope, if_neg other, List.foldl_cons, List.foldl_nil]
  rw [start]
  have sync : Noted (s.flrBegin fn) ((s.flrBegin fn).intaSync s) := .intaSync .refl
  have flr : ((s.flrBegin fn).intaSync s).inFlr fn = true := (Beside.intaSync .refl : Beside _ _).toBeyond.toAfar.flr fn flrBegin_inFlr
  have ctl : ((s.flrBegin fn).intaSync s).ctlGet (o_hepFnstate (fn - 1)) = (s.flrBegin fn).ctlGet (o_hepFnstate (fn - 1)) :=
    ctlGet_of_ctl (intaSync_ctl _)
  have pend : ((s.flrBegin fn).intaSync s).hep.pend = (s.flrBegin fn).hep.pend :=
    foldl_keeps (p := fun t : State => t.hep.pend = (s.flrBegin fn).hep.pend) (fun t f same => by split <;> exact same) _ _ rfl
  have erased : smGet [] (smErase s.hep.pend fn) fn = [] := by rw [smGet_smErase, if_pos rfl]
  refine ⟨flr, ?_, fun data => ?_⟩
  · rw [pend]
    by_cases pf0 : fn = 0
    · subst pf0
      rw [flrBegin_pf0 out]
      exact erased
    · obtain ⟨u, silent, runs⟩ := flrBegin_data out pf0
      rw [runs]
      have rest : Beyond (s.silence fn) ((u.ctlMod (o_hepFnstate (fn - 1)) (fun v => fone v 26 true)).event 0 0x071 landing
          ((u.ctlMod (o_hepFnstate (fn - 1)) (fun v => fone v 26 true)).fOwner (fn - 1)) 0 fn 0) := .work (.ctlMod silent) (.event .refl)
      have same := congrArg (fun t : State => smGet [] t.hep.pend fn) rest.beyond
      have other (m : SMap (List Nat)) : smGet [] (smErase m 0) fn = smGet [] m fn := by rw [smGet_smErase, if_neg (Ne.symm pf0)]
      exact (other _).symm.trans (Eq.trans same ((other _).trans erased))
  · obtain ⟨u, silent, runs⟩ := flrBegin_data out data
    have pending : o_hepFnstate (fn - 1) ≠ o_hepP0Intpend := by unfold o_hepFnstate o_hepP0Intpend; omega
    have last (n : Nat) : o_evlClast n ≠ o_hepFnstate (fn - 1) := by unfold o_evlClast o_hepFnstate; omega
    rw [ctl, runs, event_ctlGet_of pending (fun counted => absurd counted.1 (by decide)) last, State.ctlMod, State.ctlGet_ctlSet, if_pos rfl,
      fbit_fone _ _ _ (by decide), if_pos rfl]

/-! ## Bus Master Enable and VF Enable -/

/-- A bit of a dword written to be `on`. -/
def withBit (old bit : Nat) (on : Bool) : Nat := if bitOf old bit = on then old else if on then old + 2 ^ bit else old - 2 ^ bit

theorem bitOf_withBit (old bit : Nat) (on : Bool) : bitOf (withBit old bit on) bit = on := by
  unfold withBit
  split
  next same => exact same
  next differ =>
    cases on with
    | true =>
      have clear : old / 2 ^ bit % 2 ≠ 1 := fun one => differ (beq_iff_eq.mpr one)
      rw [if_pos rfl, bitOf, beq_iff_eq, Nat.add_div_right _ (Nat.two_pow_pos bit)]
      omega
    | false =>
      have set : old / 2 ^ bit % 2 = 1 := by
        by_contra clear
        exact differ (beq_eq_false_iff_ne.mpr clear)
      have enough : 2 ^ bit ≤ old := by
        by_contra small
        rw [Nat.div_eq_of_lt (Nat.not_le.mp small)] at set
        cases set
      have less : (old - 2 ^ bit) / 2 ^ bit = old / 2 ^ bit - 1 := by
        rw [Nat.sub_eq_iff_eq_add (Nat.div_pos enough (Nat.two_pow_pos bit)) |>.mpr]
        rw [← Nat.add_div_right _ (Nat.two_pow_pos bit), Nat.sub_add_cancel enough]
      rw [if_neg Bool.false_ne_true, bitOf, beq_eq_false_iff_ne, less]
      omega

/-- Bus Master Enable as it is written; 0 ends the function's DMA. -/
theorem bmeWrite_writes (on : Bool) : (s.bmeWrite fn on).cfgBit fn 4 2 = on ∧
    (on = false → fn ≠ 0 → ∀ e < 64, (s.engine e).st ≠ 0 → (s.engine e).d.host = true → (s.engine e).d.func = fn - 1 → ((s.bmeWrite fn on).engine e).st = 0) := by
  have written : (s.setCfg fn 4 (withBit (s.cfg fn 4) 2 on)).cfgBit fn 4 2 = on := by
    rw [State.cfgBit, cfg_setCfg]
    exact bitOf_withBit ..
  have same : s.bmeWrite fn on = if on then (s.setCfg fn 4 (withBit (s.cfg fn 4) 2 on)).sendInts fn
      else if fn = 0 then s.setCfg fn 4 (withBit (s.cfg fn 4) 2 on) else (s.setCfg fn 4 (withBit (s.cfg fn 4) 2 on)).dmaAbort (fn - 1) 6 := rfl
  have engines (e : Nat) : (s.setCfg fn 4 (withBit (s.cfg fn 4) 2 on)).engine e = s.engine e := rfl
  rw [same]
  generalize s.setCfg fn 4 (withBit (s.cfg fn 4) 2 on) = u at written engines
  refine ⟨?_, fun off_ data e below busy host own => ?_⟩
  · split
    · rw [State.cfgBit, (Noted.sendInts .refl : Noted _ _).cfg]
      exact written
    · split
      · exact written
      · rw [State.cfgBit, (Beyond.dmaAbort .refl : Beyond _ _).toAfar.cfg]
        exact written
  · rw [off_, if_neg Bool.false_ne_true, if_neg data, dmaAbort_ends]
    refine dmaEnds_engine below ?_
    rw [engines]
    simp [busy, host, own]

/-- VF Enable as it is written; when it falls every VF is reset. -/
theorem vfWrite_writes (on : Bool) : (s.vfWrite on).cfgBit 1 0x268 0 = on ∧
    (s.cfgBit 1 0x268 0 = true → on = false → ∀ fn, 2 ≤ fn → fn < 33 → (s.vfWrite on).inFlr fn = true) := by
  have chosen : (if s.cfgBit 1 0x268 0 = on then s else s.setCfg 1 0x268 (if on then s.cfg 1 0x268 + 1 else s.cfg 1 0x268 - 1)).cfgBit 1 0x268 0 = on := by
    have value := bitOf_withBit (s.cfg 1 0x268) 0 on
    unfold withBit at value
    split
    next same => exact same
    next differ =>
      have unequal : ¬bitOf (s.cfg 1 0x268) 0 = on := differ
      rw [if_neg unequal] at value
      rw [State.cfgBit, cfg_setCfg]
      exact value
  unfold State.vfWrite
  dsimp only
  generalize (if s.cfgBit 1 0x268 0 = on then s else s.setCfg 1 0x268 (if on then s.cfg 1 0x268 + 1 else s.cfg 1 0x268 - 1)) = u at chosen ⊢
  refine ⟨?_, fun was off_ fn data below => ?_⟩
  · split
    · rw [State.cfgBit, (Afar.flrBegins .refl : Afar _ _).cfg]
      exact chosen
    · exact chosen
  · rw [if_pos (by rw [was, off_]; rfl)]
    exact flrBegins_inFlr (List.mem_map.mpr ⟨fn - 2, List.mem_range.mpr (by omega), by omega⟩)

/-! ## The link -/

theorem flrEnd_inFlr_self : (s.flrEnd fn).inFlr fn = false := by
  by_cases on : s.inFlr fn = true
  · exact (flrEnd_clears on).1
  · rw [State.flrEnd, if_pos (by rw [eq_false_of_ne_true on]; rfl)]
    exact eq_false_of_ne_true on

theorem flrEnd_inFlr {f : Nat} (out : s.inFlr f = false) : (s.flrEnd fn).inFlr f = false := by
  unfold State.flrEnd
  split
  · exact out
  · have absent : f ∉ s.hep.flr := fun listed => by
      rw [State.inFlr, List.contains_iff_mem.mpr listed] at out
      cases out
    show (s.hep.flr.filter (· != fn)).contains f = false
    simp [absent]

/-- Every function of a list is out of reset. -/
theorem flrEnds_inFlr {l : List Nat} (listed : fn ∈ l ∨ s.inFlr fn = false) : (l.foldl State.flrEnd s).inFlr fn = false := by
  induction l generalizing s with
  | nil => exact listed.resolve_left List.not_mem_nil
  | cons f r ih =>
    refine ih ?_
    by_cases here : fn = f
    · subst here
      exact .inr flrEnd_inFlr_self
    · exact listed.imp (fun member => (List.mem_cons.mp member).resolve_left here) flrEnd_inFlr

/-- STATUS of a link that is up. -/
theorem linkStatus_shows (v : Reg32) {rate width : Nat} (rated : rate < 8) (wide : width < 32) :
    fbit (fset (fset (fone v 30 true) 29 27 rate) 26 22 width) 30 = true ∧ fget (fset (fset (fone v 30 true) 29 27 rate) 26 22 width) 29 27 = rate ∧
    fget (fset (fset (fone v 30 true) 29 27 rate) 26 22 width) 26 22 = width := by
  refine ⟨?_, ?_, fget_fset_same _ (by decide) wide⟩
  · rw [fbit_fset _ _ _ _ (by decide), if_neg (by decide), fbit_fset _ _ _ _ (by decide), if_neg (by decide), fbit_fone _ _ _ (by decide), if_pos rfl]
  · rw [fget_fset_apart _ (by decide) (.inr (by decide))]
    exact fget_fset_same _ (by decide) rated

/-- A link that reaches L0 shows its rate and width, and its functions answer. -/
theorem hostLinkUp_shows {rate width : Nat} (training : s.hep.training = true) (perst : s.hep.perst = false) (late : 60000000 ≤ s.time)
    (low : 1 ≤ rate) (high : rate ≤ 5) (lanes : width ∈ [1, 4, 8, 16]) (fits : width ≤ s.board.pexLanes) :
    ∃ t, exec (.hostLinkUp rate width) s = .next t ∧ fbit (t.ctlGet o_hepStatus) 30 = true ∧ fget (t.ctlGet o_hepStatus) 29 27 = rate ∧
      fget (t.ctlGet o_hepStatus) 26 22 = width ∧ t.hep.ready = true ∧ ∀ fn < 33, t.inFlr fn = false := by
  have wide : width < 32 := by
    simp only [List.mem_cons, List.not_mem_nil, or_false] at lanes
    omega
  have shape : (width == 1 || width == 4 || width == 8 || width == 16) = true := by simpa [or_assoc] using lanes
  have out (fn : Nat) (below : fn < 33) : ((List.range 33).foldl State.flrEnd s).inFlr fn = false :=
    flrEnds_inFlr (.inl (List.mem_range.mpr below))
  show ∃ t, execHostLinkUp rate width s = .next t ∧ _
  unfold execHostLinkUp
  simp only [training, perst, late, low, high, shape, fits, Bool.not_false, decide_true, Bool.and_self, Bool.not_true, Bool.false_eq_true, if_false]
  generalize (List.range 33).foldl State.flrEnd s = u at out ⊢
  refine ⟨_, rfl, ?_⟩
  generalize up : (u.ctlMod o_hepStatus (fun v => fset (fset (fone v 30 true) 29 27 rate) 26 22 width)).modHep (fun h => { h with training := false, ready := true }) = w
  have status : w.ctlGet o_hepStatus = fset (fset (fone (u.ctlGet o_hepStatus) 30 true) 29 27 rate) 26 22 width := by
    rw [← up]
    exact (State.ctlGet_ctlSet ..).trans (if_pos rfl)
  have held : w.hep.ready = true ∧ w.hep.flr = u.hep.flr := by
    rw [← up]
    exact ⟨rfl, rfl⟩
  have noted : Noted w (w.event 0 0x070 landing none 0 (w.ctlGet o_hepStatus).toNat 0) := .event .refl
  obtain ⟨shown, rated, width'⟩ := linkStatus_shows (u.ctlGet o_hepStatus) (rate := rate) (by omega) wide
  have ready : (w.event 0 0x070 landing none 0 (w.ctlGet o_hepStatus).toNat 0).hep.ready = true ∧
      (w.event 0 0x070 landing none 0 (w.ctlGet o_hepStatus).toNat 0).hep.flr = u.hep.flr := by
    obtain ⟨_, _, _, _, _, same⟩ := noted
    rw [same]
    exact held
  rw [event_ctlGet _ _ _ _ _ _ (by decide)]
  refine ⟨by rw [status]; exact shown, by rw [status]; exact rated, by rw [status]; exact width', ready.1, fun fn below => ?_⟩
  rw [State.inFlr, ready.2]
  exact out fn below

/-- What is left of the host interface when a link is lost. -/
theorem linkLost_hep : s.linkLost.hep.ready = false ∧ s.linkLost.hep.perst = s.hep.perst ∧ fbit (s.linkLost.ctlGet o_hepStatus) 30 = false ∧
    ∀ fn < 33, s.linkLost.inFlr fn = true := by
  obtain ⟨rest, shut, all⟩ := linkLost_resets (s := s)
  exact ⟨(congrArg (fun t : State => t.hep.ready) rest.afar :), (congrArg (fun t : State => t.hep.perst) rest.afar :), shut, all⟩

end

section
variable {s : State} {fn tag : Nat} {octs : List Nat}

/-- The read that a completion of a function's tag answers. -/
def State.awaited (s : State) (fn tag : Nat) : Option HostRead := s.hep.reads.find? (fun r => r.fn == 1 + fn && r.tag == tag)

/-- A completion without an error in its header goes to the read it answers. -/
theorem execHostCompletion_sound (status : Nat) : exec (.hostCompletion fn tag status octs .none) s =
    (match s.awaited fn tag with
      | none => .next ((s.aer (if fn < 32 then 1 + fn else 0) true 16).hepCount 6 (if fn < 32 then 1 + fn else 0))
      | some r =>
        if status ≠ 0 then .next ((s.cfgOne r.fn 0x04 (if status = 4 then 28 else 29)).readFails r)
        else
          let take := min octs.length (r.len - r.got.length)
          let r' : HostRead := if r.dead then { r with len := r.len - take } else { r with got := r.got ++ (octs.take take).map (· % 256) }
          .next (s.modHep (fun h => { h with reads := (h.reads.map (fun q => if q = r then r' else q)).filter (fun q => q.len != 0) }))) := by
  have seen : ¬s.seen (1 + fn) .none ≠ .none := by simp [State.seen]
  show execHostCompletion fn tag status octs .none s = _
  exact if_neg seen

/-- The octets of a completion enter the read. -/
theorem completion_arrives {r : HostRead} (answers : s.awaited fn tag = some r) (live : r.dead = false) (fits : octs.length + r.got.length ≤ r.len)
    (whole : r.len ≠ 0) : After (.hostCompletion fn tag 0 octs .none) s fun t => { r with got := r.got ++ octs.map (· % 256) } ∈ t.hep.reads ∧ t.mem = s.mem := by
  have all : min octs.length (r.len - r.got.length) = octs.length := by omega
  have runs := execHostCompletion_sound (s := s) (fn := fn) (tag := tag) (octs := octs) 0
  rw [answers] at runs
  refine ⟨_, runs.trans (if_neg (not_not_intro rfl)), ?_, rfl⟩
  refine List.mem_filter.mpr ⟨List.mem_map.mpr ⟨r, List.mem_of_find?_eq_some answers, ?_⟩, bne_iff_ne.mpr whole⟩
  rw [if_pos rfl, if_neg (by rw [live]; decide), all, List.take_length]

end

/-- Settles O46: completions by `readFails_idles` and `unanswered_counts`, resets by `flrStart_one` and `flrEnd_clears`, the link by `linkLost_hep` and
`hostLinkUp_shows`. -/
theorem hostResets : Obligations.HostResets := by
  unfold Obligations.HostResets
  refine ⟨fun s fn tag octs below => ⟨fun r answers => ⟨completion_arrives answers, fun live status bad => ?fails, fun live => ?late⟩, fun none_ status => ?stray,
    fun k b kind => ?retry⟩, fun s => ?resets⟩
  case fails =>
    have runs := execHostCompletion_sound (s := s) (fn := fn) (tag := tag) (octs := octs) status
    rw [show s.awaited fn tag = some r from answers] at runs
    exact ⟨_, runs.trans (if_pos bad), readFails_idles live⟩
  case late =>
    refine ⟨((s.aer r.fn false 14).hepCount 7 r.fn).readFails r, ?_, readFails_idles live⟩
    show execCompletionTimeout fn tag s = _
    rw [execCompletionTimeout, answers]
  case stray =>
    refine ⟨_, by rw [execHostCompletion_sound, show s.awaited fn tag = none from none_], ?_⟩
    rw [if_pos below]
    exact unanswered_counts _ below
  case retry =>
    refine ⟨(s.aerCor 0 b).hepCount 9 0, ?_, ?_⟩
    · show execLinkLayerRetry k s = _
      rw [execLinkLayerRetry, kind]
    · have kept : ((s.aerCor 0 b).hepCount 9 0).cfg 0 0x110 = (s.aerCor 0 b).cfg 0 0x110 := (hepCount_noted 9 0).cfg
      show ((s.aerCor 0 b).hepCount 9 0).cfgBit 0 0x110 b = true
      rw [State.cfgBit, kept]
      exact aerCor_sets b
  case resets =>
    intro linkDown
    have lost (f : Hep → Hep) (keeps : ∀ h, (f h).ready = h.ready ∧ (f h).flr = h.flr) : linkDown (s.linkLost.modHep f) := by
      obtain ⟨ready, -, shut, all⟩ := linkLost_hep (s := s)
      refine ⟨shut, (keeps _).1.trans ready, fun fn below => ?_⟩
      rw [State.inFlr, show (s.linkLost.modHep f).hep.flr = s.linkLost.hep.flr from (keeps _).2]
      exact all fn below
    have trains : (!s.linkLost.hep.perst) = !s.hep.perst := congrArg not linkLost_hep.2.1
    refine ⟨fun fn below other out => ?start, fun fn below other on => ?ended, fun fn below out on => ⟨_, ?bme, bmeWrite_writes on⟩,
      fun out on => ⟨_, ?vf, vfWrite_writes on⟩, ⟨_, rfl, lost _ fun _ => ⟨rfl, rfl⟩, trains⟩, ⟨_, rfl, lost _ fun _ => ⟨rfl, rfl⟩, rfl, rfl⟩,
      ⟨_, rfl, lost _ fun _ => ⟨rfl, rfl⟩, trains⟩,
      ⟨_, rfl, rfl, rfl, rfl⟩, fun rate width training perst late low high lanes fits => hostLinkUp_shows training perst late low high lanes fits⟩
    case start =>
      refine ⟨(s.flrStart fn).intaSync s, ?_, flrStart_one other out⟩
      show execFunctionLevelReset fn false s = _
      rw [execFunctionLevelReset, if_neg (by omega), if_neg Bool.false_ne_true]
    case ended =>
      refine ⟨s.flrEnd fn, ?_, flrEnd_clears on⟩
      show execFunctionLevelReset fn true s = _
      rw [execFunctionLevelReset, if_neg (by omega), if_pos rfl, flrScope, if_neg other, List.foldl_cons, List.foldl_nil]
    case bme =>
      show execBusMasterEnableWrite fn on s = _
      rw [execBusMasterEnableWrite, if_neg (by simp [out, below])]
    case vf =>
      show execVfEnableWrite on s = _
      rw [execVfEnableWrite, if_neg (by simp [out])]

end Sys2Proof.Machine
end


section
/-!
PROOF. Package warm resets, fatal errors and tamper resets (R535, R542, R543, R549, R567, R593; O52).
-/
namespace Sys2Proof.Machine

section
variable {s t : State}

/-- What a package warm reset with a cause leaves: nothing cached, nothing running, and the fuses (R542). -/
def WarmFrom (s : State) (cause : Nat) (t : State) : Prop :=
  fget (t.ctlGet o_pwrRstcause) 31 28 = cause ∧ t.cores = [] ∧ t.live = Chart.empty ∧ t.mem.l2 = [] ∧ t.mem.grove = [] ∧ t.mem.dirty = [] ∧
    t.mem.clr = [] ∧ t.cht = none ∧ t.qm = Qm.reset ∧ t.sec.slots = s.sec.slots

theorem fget_cause {cause count : Nat} (small : cause < 16) (counted : count < 2 ^ 28) : fget (r32 (cause * 2 ^ 28 + count)) 31 28 = cause := by
  unfold fget r32
  rw [BitVec.toNat_ofNat]
  omega

theorem Noted.sec (h : Noted s t) : t.sec = s.sec := by obtain ⟨_, _, _, _, _, rfl⟩ := h; rfl
theorem Noted.cht (h : Noted s t) : t.cht = s.cht := by obtain ⟨_, _, _, _, _, rfl⟩ := h; rfl
theorem Noted.store (h : Noted s t) : t.store = s.store := by obtain ⟨_, _, _, _, _, rfl⟩ := h; rfl

theorem Noted.selfRefresh : Noted s s.selfRefresh := .foldl (fun _ _ h => .ctlMod h) .refl

/-- The fuses, the clock and the Chart's store outlast the loss of the host link. -/
theorem linkLost_keeps : s.linkLost.sec = s.sec ∧ s.linkLost.store = s.store := by
  have rest := linkLost_resets (s := s).1.afar
  exact ⟨(congrArg State.sec rest :), (congrArg State.store rest :)⟩

/-- A package warm reset notes its cause in a state where everything has stopped. -/
theorem warmReset_cold (cause : Nat) (held : Bool) : ∃ (w : State) (count : Nat), count < 2 ^ 28 ∧
    s.warmReset cause held = (w.ctlSet o_pwrRstcause (r32 (cause * 2 ^ 28 + count))).event (if cause = 6 then 6 else 0) 0x003 landing none 0
      ((w.ctlSet o_pwrRstcause (r32 (cause * 2 ^ 28 + count))).ctlGet o_pwrRstcause).toNat 0 ∧
    w.cores = [] ∧ w.live = Chart.empty ∧ (w.mem.l2 = [] ∧ w.mem.grove = [] ∧ w.mem.dirty = [] ∧ w.mem.clr = []) ∧ w.cht = none ∧ w.qm = Qm.reset ∧
    w.sec.slots = s.sec.slots ∧ (w.pwr.phase = if held then .held else .boot) ∧ w.pwr.step = 1 ∧ w.store = s.store := by
  have down : ({ s with logOff := false }.linkLost).selfRefresh.sec = s.sec ∧ ({ s with logOff := false }.linkLost).selfRefresh.store = s.store := by
    obtain ⟨sec, store⟩ := linkLost_keeps (s := { s with logOff := false })
    exact ⟨Noted.selfRefresh.sec.trans sec, Noted.selfRefresh.store.trans store⟩
  unfold State.warmReset
  generalize ({ s with logOff := false }.linkLost).selfRefresh = u at down ⊢
  obtain ⟨sec, store⟩ := down
  refine ⟨_, min 65535 (fget (u.ctlGet o_pwrRstcause) 15 0 + 1), by omega, rfl, rfl, rfl, ⟨rfl, rfl, rfl, rfl⟩, rfl, rfl, (congrArg Sec.slots sec :), rfl, rfl, store⟩

/-- A package warm reset stops everything, notes its cause, and begins the boot at step 1, unless RESET_N holds it. -/
theorem warmReset_clears {cause : Nat} (small : cause < 16) (held : Bool) : WarmFrom s cause (s.warmReset cause held) ∧
    (s.warmReset cause held).pwr.phase = (if held then .held else .boot) ∧ (s.warmReset cause held).pwr.step = 1 ∧ (s.warmReset cause held).store = s.store := by
  obtain ⟨w, count, counted, runs, cores, live, ⟨l2, grove, dirty, clr⟩, cht, qm, slots, phase, step, store⟩ := warmReset_cold (s := s) cause held
  have noted : Noted w (s.warmReset cause held) := by
    rw [runs]
    exact .event (.ctlSet .refl)
  have code : fget ((s.warmReset cause held).ctlGet o_pwrRstcause) 31 28 = cause := by
    rw [runs, event_ctlGet _ _ _ _ _ _ (by decide), State.ctlGet_ctlSet, if_pos rfl]
    exact fget_cause small counted
  rw [WarmFrom, noted.cores, noted.live, noted.mem, noted.cht, noted.qm, noted.sec, noted.pwr, noted.store]
  exact ⟨⟨code, cores, live, l2, grove, dirty, clr, cht, qm, slots⟩, phase, step, store⟩

/-- A warm reset from a state that differs from `s` in no fuse, and what it leaves to be seen. -/
theorem warmReset_boots {cause : Nat} (small : cause < 16) (fuses : t.sec = s.sec) :
    WarmFrom s cause (t.warmReset cause false) ∧ (t.warmReset cause false).pwr.phase = .boot ∧ (t.warmReset cause false).pwr.step = 1 := by
  obtain ⟨⟨code, cores, live, l2, grove, dirty, clr, cht, qm, slots⟩, phase, step, -⟩ := warmReset_clears (s := t) small false
  exact ⟨⟨code, cores, live, l2, grove, dirty, clr, cht, qm, by rw [slots, fuses]⟩, phase, step⟩

/-- What a tamper reset leaves: no secret but the fuses', the sensor's bit, and the package held (R543, R567). -/
theorem tamperReset_wipes {bit : Nat} (high : 7 < bit) (low : bit < 32) : (s.tamperReset bit).pwr.phase = .tamper ∧ (s.tamperReset bit).sec.keys = false ∧
    (s.tamperReset bit).sec.wraps = [] ∧ (s.tamperReset bit).store = none ∧ (s.tamperReset bit).mem.dram = [] ∧ (s.tamperReset bit).cores = [] ∧
    fbit ((s.tamperReset bit).ctlGet o_secTamper) bit = true ∧ (s.tamperReset bit).sec.slots = s.sec.slots := by
  refine ⟨rfl, rfl, rfl, rfl, rfl, rfl, ?_, rfl⟩
  unfold State.tamperReset
  dsimp only
  rw [State.ctlGet_ctlSet, if_neg (by decide), State.ctlGet_ctlSet, if_pos rfl, fbit_fset _ _ _ _ low, if_neg (by omega), fbit_fone _ _ _ low, if_pos rfl]

end

/-- Settles O52: warm resets by `warmReset_boots`, tamper resets by `tamperReset_wipes`. -/
theorem packageResets : Obligations.PackageResets := by
  unfold Obligations.PackageResets
  refine ⟨fun s => ?warm, fun s on => ?tamper⟩
  case warm =>
    intro reset boots
    refine ⟨fun ns short => ⟨s, ?pulse, rfl⟩, fun awake free => ⟨fun ns long => ?reset, fun reach => ?warmrst, fun row chart runs => ?fatal, fun row chart stop => ?stopped⟩,
      fun stop => ⟨⟨s, ?dog, rfl⟩, ⟨s, ?lock, rfl⟩⟩, fun held => ?release, fun on runs => ⟨?watchdog, ?lockstep⟩⟩
    case pulse =>
      show execResetN ns s = _
      rw [execResetN, if_neg (by simp [short])]
    case reset =>
      have runs : exec (.resetN ns) s = .next (s.warmReset 1 true) := by
        show execResetN ns s = _
        rw [execResetN, if_pos (by simp [awake, free, long])]
      obtain ⟨clears, phase, -⟩ := warmReset_clears (s := s) (cause := 1) (by decide) true
      exact ⟨_, runs, clears, phase⟩
    case warmrst =>
      have runs : exec .warmrst s = .next (s.warmReset 2 false) := by
        show execWarmrst s = _
        rw [execWarmrst, if_pos reach, State.warmrst, if_pos (by simp [awake, free])]
      exact ⟨_, runs, warmReset_boots (by decide) rfl⟩
    case fatal =>
      have noted : Noted s (s.event 6 0x03A landing none 0 (row % 16) 0) := .event .refl
      have runs : exec (.packageFatalError row chart) s =
          .next ((if chart then { s.event 6 0x03A landing none 0 (row % 16) 0 with store := none } else s.event 6 0x03A landing none 0 (row % 16) 0).warmReset 6 false) := by
        show execPackageFatalError row chart s = _
        rw [execPackageFatalError, if_neg (by simp [awake, free]), runs]
        rfl
      have fuses : (if chart then { s.event 6 0x03A landing none 0 (row % 16) 0 with store := none } else s.event 6 0x03A landing none 0 (row % 16) 0).sec = s.sec := by
        split <;> exact noted.sec
      obtain ⟨clears, booted⟩ := warmReset_boots (cause := 6) (by decide) fuses
      refine ⟨_, runs, clears, booted, fun lost => ?_⟩
      rw [if_pos lost]
      exact (warmReset_clears (by decide) false).2.2.2
    case stopped =>
      have noted : Noted s (s.event 6 0x03A landing none 0 (row % 16) 0) := .event .refl
      have runs : exec (.packageFatalError row chart) s =
          .next (if chart then { s.event 6 0x03A landing none 0 (row % 16) 0 with store := none } else s.event 6 0x03A landing none 0 (row % 16) 0) := by
        show execPackageFatalError row chart s = _
        rw [execPackageFatalError, if_neg (by simp [awake, free]), stop]
        rfl
      refine ⟨_, runs, ?_⟩
      split <;> exact ⟨noted.pwr, noted.cores, noted.live⟩
    case dog =>
      show execWatchdogExpiry s = _
      rw [execWatchdogExpiry, if_neg (by simp [stop])]
    case lock =>
      show execLockstepMismatch s = _
      rw [execLockstepMismatch, if_neg (by simp [stop])]
    case release =>
      have runs : exec .resetNRelease s = .next { s with pwr := { s.pwr with phase := .boot, step := 1, began := s.time } } := congrArg Host.Outcome.next (if_pos held)
      exact ⟨_, runs, rfl, rfl⟩
    case watchdog =>
      have starts : exec .watchdogExpiry s = .next (s.warmReset 3 false) := congrArg Host.Outcome.next (if_pos (by simp [on, runs]))
      exact ⟨_, starts, warmReset_boots (by decide) rfl⟩
    case lockstep =>
      have starts : exec .lockstepMismatch s = .next (s.warmReset 4 false) := congrArg Host.Outcome.next (if_pos (by simp [on, runs]))
      exact ⟨_, starts, warmReset_boots (by decide) rfl⟩
  case tamper =>
    intro wiped
    have fault (lost : Bool) (ppm ns : Nat) : exec (.refclkFault lost ppm ns) s =
        .next (if if lost then 1000 ≤ ns else 1000 < ppm ∧ 10000 ≤ ns then s.tamperReset 29 else s) := by
      show execRefclkFault lost ppm ns s = _
      cases lost <;> simp [execRefclkFault, on]
    refine ⟨fun i sensor => ?sensor, fun lost ppm ns bad => ⟨_, (fault lost ppm ns).trans (congrArg Host.Outcome.next (if_pos bad)), tamperReset_wipes (by decide) (by decide)⟩,
      fun lost ppm ns good => ⟨s, (fault lost ppm ns).trans (congrArg Host.Outcome.next (if_neg good)), rfl⟩, fun held quiet => ?released⟩
    case sensor =>
      have bit : sensorBit i = 31 - i := by
        unfold sensorBit
        omega
      refine ⟨s.tamperReset (31 - i), ?_, tamperReset_wipes (by omega) (by omega)⟩
      rw [← bit]
      exact congrArg Host.Outcome.next (if_neg on)
    case released =>
      have runs : exec .tamperRelease s = .next { s with pwr := { s.pwr with phase := .boot, step := 1, began := s.time } } :=
        congrArg Host.Outcome.next (if_pos ⟨held, quiet⟩)
      exact ⟨_, runs, rfl, rfl⟩

end Sys2Proof.Machine
end


section
/-!
PROOF. Boot steps, the loss of power, and Park with its exits (R534 to R540, R553 to R555, R609; O51).
-/
namespace Sys2Proof.Machine

section
variable {s₀ s : State} {p : Nat}

/-! ## The network leaves the rest of the state alone -/

theorem Steady.entryDone {own pa status outlen ts w6 seq} (h : Steady False s₀ s) : Steady False s₀ (s.entryDone own pa status outlen ts w6 seq) := .inWrite h

theorem Steady.outEnd {q pa status seq} (h : Steady False s₀ s) : Steady False s₀ (s.outEnd q pa status seq) := .moveDev (.entryDone h)

theorem Steady.netDrop {cause stream} (h : Steady False s₀ s) : Steady False s₀ (s.netDrop p cause stream) := by
  have counted : Steady False s₀ (match stream with
      | some t => if t < 4096 then (s.modNet fun n => { n with drops := smSet n.drops (p * 32 + cause) (min (smGet 0 n.drops (p * 32 + cause) + 1) (2 ^ 32 - 1)) }).ctlInc (o_nswSdrops t)
        else s.modNet fun n => { n with drops := smSet n.drops (p * 32 + cause) (min (smGet 0 n.drops (p * 32 + cause) + 1) (2 ^ 32 - 1)) }
      | none => s.modNet fun n => { n with drops := smSet n.drops (p * 32 + cause) (min (smGet 0 n.drops (p * 32 + cause) + 1) (2 ^ 32 - 1)) }) := by
    cases stream with
    | none => exact .modNet h
    | some t => exact .ite (.ctlInc (.modNet h)) (.modNet h)
  exact .ite (.event counted) counted

theorem Steady.outSent {f} (h : Steady False s₀ s) : Steady False s₀ (s.outSent f) := by
  unfold State.outSent
  split
  · exact h
  · exact .ite h (.ite (.ctlInc (.outEnd h)) (.outEnd h))

theorem Steady.macDrop {f} (h : Steady False s₀ s) : Steady False s₀ (s.macDrop p f) := by
  unfold State.macDrop
  extract_lets
  split
  · exact .netDrop h
  · exact .ite (.netDrop h) (.outEnd (.netDrop h))

theorem Steady.macStop (h : Steady False s₀ s) : Steady False s₀ (s.macStop p) := .foldl (fun _ _ h1 => .macDrop h1) (.event (.ctlMod (.setPort h)))

theorem Steady.putOnWire {c f sec} (h : Steady False s₀ s) : Steady False s₀ (s.putOnWire p c f sec) := by
  have go {t : State} {x o} (h : Steady False s₀ t) : Steady False s₀ (((t.setPort p x).emit (.frame p o)).outSent f) := .outSent (.emit (.setPort h))
  have protect {a o} : Steady False s₀ (s.macProtect p a o).1 := by
    unfold State.macProtect
    dsimp only
    exact .modNet h
  unfold State.putOnWire
  dsimp only
  refine .ite (go h) ?_
  split
  · exact .macDrop h
  · exact .ite (.ite (.macDrop h) (.macStop (.macDrop h))) (.ite (.macStop (go protect)) (go protect))

theorem Steady.preemptCur (h : Steady False s₀ s) : Steady False s₀ (s.preemptCur p) := by
  unfold State.preemptCur
  extract_lets
  split
  · exact h
  · exact .ite h (.setPort h)

/-- Whatever a port selects, only the network, its queues and their memory change. -/
theorem Steady.select (h : Steady False s₀ s) : Steady False s₀ (s.select p) := by
  have start {t : State} {c sec} (h : Steady False s₀ t) : Steady False s₀ (match smGet [] (t.port p).queues c with
      | [] => t
      | f :: rest => (t.setPort p { t.port p with queues := smPut [] (t.port p).queues c rest }).putOnWire p c f sec) := by
    split
    · exact h
    · exact .putOnWire (.setPort h)
  unfold State.select
  dsimp only
  refine .ite ?_ ?_
  · split
    · refine .ite (.setPort h) ?_
      split
      · exact .ite (start (.preemptCur (.setPort h))) (.setPort h)
      · exact .ite (.preemptCur (.setPort h)) (.setPort h)
    · exact .setPort h
  · split
    · exact start (.setPort h)
    · split
      · exact .ite (.setPort h) (.setPort (.setPort h))
      · exact .setPort h

theorem Steady.sendEligible {n} (h : Steady False s₀ s) : Steady False s₀ (s.sendEligible p n) := by
  induction n generalizing s with
  | zero => exact h
  | succ n ih => exact .ite h (ih (.select (.setPort h)))

end

section
variable {s : State}

/-! ## Boot steps -/

/-- Boot is at a step, and BOOTSTAT shows it. -/
def BootsAt (n : Nat) (t : State) : Prop := t.pwr.phase = .boot ∧ t.pwr.step = n ∧ fget (t.ctlGet o_pwrBootstat) 31 28 = n

theorem toStep_boots {n : Nat} (small : n < 16) (booting : s.pwr.phase = .boot) : BootsAt n (s.toStep n) := by
  refine ⟨booting, rfl, ?_⟩
  have shown : (s.toStep n).ctlGet o_pwrBootstat = fset (s.ctlGet o_pwrBootstat) 31 28 n := (State.ctlGet_ctlSet ..).trans (if_pos rfl)
  rw [shown]
  exact fget_fset_same _ (by decide) small

theorem bootStop_stops {error : Nat} (small : error < 16) : (s.bootStop error).pwr.phase = .stopped ∧ fget ((s.bootStop error).ctlGet o_pwrBootstat) 27 24 = error := by
  unfold State.bootStop
  dsimp only
  generalize written : (s.ctlMod o_pwrBootstat (fun v => fset v 27 24 error)).modPwr (fun p => { p with phase := .stopped }) = u
  have shown : u.pwr.phase = .stopped ∧ u.ctlGet o_pwrBootstat = fset (s.ctlGet o_pwrBootstat) 27 24 error := by
    rw [← written]
    exact ⟨rfl, (State.ctlGet_ctlSet ..).trans (if_pos rfl)⟩
  obtain ⟨phase, code⟩ := shown
  refine ⟨(Noted.event .refl : Noted u _).pwr ▸ phase, ?_⟩
  rw [event_ctlGet _ _ _ _ _ _ (by decide), code]
  exact fget_fset_same _ (by decide) small

/-- The training of one subchannel at step 4 of boot (R394). -/
def State.trainOne (s : State) (failed : List Nat) (c : Nat) : State :=
  if s.subState c = 4 ∨ s.subState c = 5 then s.setSub c 1
  else if s.subState c = 3 then s
  else if failed.contains c then (s.setSub c 3).event 8 0x034 landing none 0 c 0
  else s.setSub c 1

theorem setSub_subState {c st : Nat} (small : st < 8) : (s.setSub c st).subState c = st := by
  rw [State.subState, State.setSub, State.ctlMod, State.ctlGet_ctlSet, if_pos rfl]
  exact fget_fset_same _ (by decide) small

theorem setSub_subState_other {c d st : Nat} (other : d ≠ c) : (s.setSub d st).subState c = s.subState c := by
  have apart : subReg d ≠ subReg c := by
    unfold subReg o_dmcSubstate
    omega
  rw [State.subState, State.setSub, State.ctlMod, State.ctlGet_ctlSet, if_neg apart]
  rfl

theorem event_subState {cls code die addr info aux c : Nat} : (s.event cls code die none addr info aux).subState c = s.subState c := by
  have apart : subReg c ≠ o_hepP0Intpend := by
    unfold subReg o_dmcSubstate o_hepP0Intpend
    omega
  rw [State.subState, event_ctlGet _ _ _ _ _ _ apart]
  rfl

theorem trainOne_other {failed : List Nat} {c d : Nat} (other : d ≠ c) : (s.trainOne failed d).subState c = s.subState c := by
  unfold State.trainOne
  split
  · exact setSub_subState_other other
  · split
    · rfl
    · split
      · exact event_subState.trans (setSub_subState_other other)
      · exact setSub_subState_other other

theorem trainOne_self {failed : List Nat} {c : Nat} (not3 : s.subState c ≠ 3) (not4 : s.subState c ≠ 4) (not5 : s.subState c ≠ 5) :
    (s.trainOne failed c).subState c = if failed.contains c then 3 else 1 := by
  rw [State.trainOne, if_neg (by simp [not4, not5]), if_neg not3]
  split
  · exact event_subState.trans (setSub_subState (by decide))
  · exact setSub_subState (by decide)

/-- Every subchannel that is to be trained is trained once. -/
theorem trainAll_subState {failed : List Nat} {c : Nat} (l : List Nat) (once : l.Nodup) (listed : c ∈ l) (not3 : s.subState c ≠ 3) (not4 : s.subState c ≠ 4)
    (not5 : s.subState c ≠ 5) : (l.foldl (fun s c => s.trainOne failed c) s).subState c = if failed.contains c then 3 else 1 := by
  have passes (l : List Nat) (out : c ∉ l) (t : State) : (l.foldl (fun s c => s.trainOne failed c) t).subState c = t.subState c := by
    induction l generalizing t with
    | nil => rfl
    | cons d r ih =>
      have ne : d ≠ c := (List.ne_of_not_mem_cons out).symm
      exact (ih (List.not_mem_of_not_mem_cons out) _).trans (trainOne_other ne)
  induction l generalizing s with
  | nil => exact absurd listed List.not_mem_nil
  | cons d r ih =>
    obtain ⟨fresh, rest⟩ := List.nodup_cons.mp once
    by_cases here : d = c
    · subst here
      exact (passes r fresh _).trans (trainOne_self not3 not4 not5)
    · have same := trainOne_other (s := s) (failed := failed) here
      exact ih rest ((List.mem_cons.mp listed).resolve_left (Ne.symm here)) (by rwa [same]) (by rwa [same]) (by rwa [same])

theorem Noted.trainOne {t : State} {failed : List Nat} {c : Nat} (h : Noted s t) : Noted s (t.trainOne failed c) :=
  .ite (.ctlMod h) (.ite h (.ite (.event (.ctlMod h)) (.ctlMod h)))

/-- Step 4 ends in a state whose subchannels are those of the training. -/
theorem bootDram_ends {failed : List Nat} : ∃ v : State, s.bootDram failed = v.toStep 5 ∧
    v.pwr.phase = ((List.range 16).foldl (fun s c => s.trainOne failed c) s).pwr.phase ∧
    ∀ c, v.subState c = ((List.range 16).foldl (fun s c => s.trainOne failed c) s).subState c := by
  have same : (List.range 16).foldl (fun s c => if s.subState c = 4 ∨ s.subState c = 5 then s.setSub c 1 else if s.subState c = 3 then s
      else if failed.contains c then (s.setSub c 3).event 8 0x034 landing none 0 c 0 else s.setSub c 1) s =
      (List.range 16).foldl (fun s c => s.trainOne failed c) s := rfl
  unfold State.bootDram
  rw [same]
  generalize (List.range 16).foldl (fun s c => s.trainOne failed c) s = u
  exact ⟨_, rfl, rfl, fun _ => rfl⟩

theorem toStep_subState {n c : Nat} : (s.toStep n).subState c = s.subState c := by
  have apart : o_pwrBootstat ≠ subReg c := by
    unfold subReg o_dmcSubstate o_pwrBootstat
    omega
  have same : (s.toStep n).ctlGet (subReg c) = s.ctlGet (subReg c) := (State.ctlGet_ctlSet ..).trans (if_neg apart)
  rw [State.subState, same]
  rfl

/-- Step 4 ends: every subchannel that was to be trained has been trained. -/
theorem bootDram_trains {failed : List Nat} (booting : s.pwr.phase = .boot) : BootsAt 5 (s.bootDram failed) ∧
    ∀ c < 16, s.subState c ≠ 3 → s.subState c ≠ 4 → s.subState c ≠ 5 → (s.bootDram failed).subState c = if failed.contains c then 3 else 1 := by
  have trained := fun c (below : c < 16) => trainAll_subState (s := s) (failed := failed) (List.range 16) List.nodup_range (List.mem_range.mpr below)
  have noted : Noted s ((List.range 16).foldl (fun s c => s.trainOne failed c) s) := .foldl (fun _ _ h => .trainOne h) .refl
  have phase : ((List.range 16).foldl (fun s c => s.trainOne failed c) s).pwr.phase = .boot := by
    rw [noted.pwr]
    exact booting
  obtain ⟨v, ends, kept, sub⟩ := bootDram_ends (s := s) (failed := failed)
  rw [ends]
  refine ⟨toStep_boots (by decide) (kept.trans phase), fun c below not3 not4 not5 => ?_⟩
  rw [toStep_subState, sub]
  exact trained c below not3 not4 not5

/-! ## Park -/

/-- Park is left at boot step 2, and WAKECAUSE shows why (R555). -/
def WakesBy (cause : Nat) (t : State) : Prop :=
  t.pwr.phase = .waking ∧ t.pwr.step = 2 ∧ t.pwr.parkN = false ∧ (t.ctlGet o_pwrWakecause).toNat = cause

theorem parkExit_wakes {cause : Nat} (small : cause < 2 ^ 32) : WakesBy cause (s.parkExit cause) := by
  unfold State.parkExit
  dsimp only
  generalize left : State.bootStep _ 2 = u
  have shown : u.pwr.phase = .waking ∧ u.pwr.step = 2 ∧ u.pwr.parkN = false ∧ u.ctlGet o_pwrWakecause = r32 cause := by
    rw [← left]
    refine ⟨rfl, rfl, rfl, ?_⟩
    rw [State.bootStep, State.ctlMod, State.ctlGet_ctlSet, if_neg (by decide)]
    exact (State.ctlGet_ctlSet ..).trans (if_pos rfl)
  obtain ⟨phase, step, parkN, register⟩ := shown
  rw [WakesBy, (Noted.event .refl : Noted u _).pwr, event_ctlGet _ _ _ _ _ _ (by decide), register]
  exact ⟨phase, step, parkN, Nat.mod_eq_of_lt small⟩

theorem Steady.pwr {q : Prop} {s₀ : State} (h : Steady q s₀ s) : s.pwr = s₀.pwr := (congrArg State.pwr h.still :)

theorem linkLost_pwr : s.linkLost.pwr = s.pwr := (congrArg State.pwr (linkLost_resets (s := s)).1.afar :)

/-- A request that nothing makes wait begins its grace period. -/
theorem parkDue_parks (asked : s.pwr.parkReq = true) (ready : s.parkReady = true) : s.parkDue.pwr.phase = .parking ∧ s.parkDue.pwr.parkReq = false ∧
    s.parkDue.pwr.graceEnd = s.time + fget (s.ctlGet o_pwrParkcfg) 15 0 * 1000000 := by
  have kept (l : List CmpSec) (t : State) (same : t.time = s.time ∧ fget (t.ctlGet o_pwrParkcfg) 15 0 = fget (s.ctlGet o_pwrParkcfg) 15 0) :
      (l.foldl (fun s m => if s.cmpState m.id = .running then s.ctlMod (o_chtKnote m.id) (fun v => fone v 31 true) else s) t).time = s.time ∧
      fget ((l.foldl (fun s m => if s.cmpState m.id = .running then s.ctlMod (o_chtKnote m.id) (fun v => fone v 31 true) else s) t).ctlGet o_pwrParkcfg) 15 0 =
        fget (s.ctlGet o_pwrParkcfg) 15 0 := by
    refine foldl_keeps (p := fun t : State => t.time = s.time ∧ fget (t.ctlGet o_pwrParkcfg) 15 0 = fget (s.ctlGet o_pwrParkcfg) 15 0) (fun t m ⟨time, cfg⟩ => ?_) l t same
    split
    · refine ⟨time, ?_⟩
      rw [State.ctlMod, State.ctlGet_ctlSet]
      split
      next here => rw [fget_fone_apart _ (by decide) (.inl (by decide)), here, cfg]
      next => exact cfg
    · exact ⟨time, cfg⟩
  obtain ⟨time, cfg⟩ := kept s.live.cmps s ⟨rfl, rfl⟩
  rw [State.parkDue, asked, ready]
  refine ⟨rfl, rfl, ?_⟩
  rw [← time, ← cfg]
  rfl

/-- The package is in Park. -/
def Parked (t : State) : Prop := t.pwr.phase = .park ∧ t.pwr.parkN = true ∧ t.cores = [] ∧ t.sec.keys = false ∧ t.logOff = true

/-- With no compartment running and no exit event noted, the package parks. -/
theorem parkEnter_parks (stays : s.pwr.exit = none) (stopped : ∀ m ∈ s.live.cmps, s.cmpState m.id ≠ .running) : Parked s.parkEnter := by
  unfold State.parkEnter
  extract_lets run halted ended lost slept logged sets retained mpsm mem _ _ _ _ _ _ cold refreshed exit parked
  have none_ : run = [] := by simpa [run] using stopped
  have same : halted = s := by
    unfold halted
    rw [none_, List.foldl_nil]
  have still : Steady False s ((List.range 16).foldl (fun s p => s.sendEligible p (s.port p).waiting) ended) := by
    unfold ended
    rw [same]
    exact .foldl (fun _ _ h => .sendEligible h) (.foldl (fun _ _ h => .mftEnd h) .refl)
  have noted : Noted lost logged := .event (.foldl (fun _ _ h => .emit h) .refl)
  have quiet : Noted cold refreshed := .foldl (fun _ _ h => .ite h (.ctlMod h)) .refl
  have awake : logged.pwr = s.pwr := noted.pwr.trans (linkLost_pwr.trans still.pwr)
  have none_exit : exit = none := by
    have kept : exit = logged.pwr.exit := congrArg Pwr.exit quiet.pwr
    rw [kept, awake, stays]
  have cores : refreshed.cores = [] := quiet.cores
  have keys : refreshed.sec.keys = false := congrArg Sec.keys quiet.sec
  have rests : Parked parked := ⟨rfl, rfl, cores, keys, rfl⟩
  clear_value parked exit
  rw [none_exit]
  exact rests

end

/-- Settles O51: boot steps by `toStep_boots`, `bootStop_stops` and `bootDram_trains`, Park by `parkDue_parks`, `parkEnter_parks` and `parkExit_wakes`. -/
theorem bootAndPark : Obligations.BootAndPark := by
  unfold Obligations.BootAndPark
  refine ⟨fun s => ?boot, fun s => ?park⟩
  case boot =>
    intro at_
    refine ⟨fun off => ?power, fun booting => ⟨fun one => ?checks, fun tags two => ?healthy, fun tags two => ?unhealthy,
      fun h b fa fb three fresh bad => ?flash, fun failed four => ?dram⟩, ⟨_, rfl, rfl, rfl, rfl, rfl, rfl, rfl, rfl, rfl, rfl, rfl, rfl⟩⟩
    case power =>
      have runs : exec .powerOn s = .next (({ s with dram := { s.dram with fresh := [(0, 2 ^ 17)] } }.modPwr (fun p => { p with phase := .boot, began := s.time, warm := false })).toStep 1) :=
        congrArg Host.Outcome.next (if_pos off)
      exact ⟨_, runs, toStep_boots (by decide) rfl⟩
    case checks =>
      have runs : exec (.bootStep .checks) s = .next s.bootChecks := by
        show execBootStep .checks s = _
        rw [execBootStep, booting]
        exact congrArg Host.Outcome.next (if_pos one)
      refine ⟨_, runs, toStep_boots (by decide) ?_⟩
      have noted : Noted s (if s.pwr.tamperLog then s.event 6 0x004 landing none 0 (s.ctlGet o_secTamper).toNat 0 else s) := .ite (.event .refl) .refl
      exact (congrArg Pwr.phase noted.pwr).trans booting
    case healthy =>
      have runs : exec (.bootStep (.selftest true tags)) s = .next (s.bootSelftest true tags) := by
        show execBootStep (.selftest true tags) s = _
        rw [execBootStep, booting]
        exact congrArg Host.Outcome.next (if_pos two)
      have noted {t : State} (bad : List Nat) : Noted t (bad.foldl (fun s t => s.event 8 0x081 landing none 0 t 0) t) := .foldl (fun _ _ h => .event h) .refl
      have keys := congrArg Sec.keys (noted (t := { s with sec := { s.sec with badTags := tags.filter (fun t => (smFind? s.sec.slots t).isSome), keys := !s.sec.dbgState, seedAt := s.time } })
        (tags.filter (fun t => (smFind? s.sec.slots t).isSome))).sec
      exact ⟨_, runs, toStep_boots (by decide) ((congrArg Pwr.phase (noted _).pwr).trans booting), keys⟩
    case unhealthy =>
      have runs : exec (.bootStep (.selftest false tags)) s = .next (s.tamperReset 26) := by
        show execBootStep (.selftest false tags) s = _
        rw [execBootStep, booting]
        exact congrArg Host.Outcome.next (if_pos two)
      exact ⟨_, runs, rfl⟩
    case flash =>
      have runs : exec (.bootStep (.flash h b fa fb)) s =
          .next (((s.ctlSet o_glbFabcap fabcap).modHep (fun h => { h with training := !h.perst && !h.ready })).bootStop 2) := by
        show execBootStep (.flash h b fa fb) s = _
        rw [execBootStep, booting]
        refine congrArg Host.Outcome.next ((if_pos ⟨three, by rw [fresh]; rfl⟩).trans ?_)
        rw [State.bootFlash]
        exact if_pos (by rw [bad]; rfl)
      exact ⟨_, runs, bootStop_stops (by decide)⟩
    case dram =>
      have runs : exec (.bootStep (.dram failed)) s = .next (s.bootDram failed) := by
        show execBootStep (.dram failed) s = _
        rw [execBootStep]
        simp only [booting, four]
        rfl
      exact ⟨_, runs, bootDram_trains booting⟩
  case park =>
    intro wakes alarm
    refine ⟨fun reach ready => ?parks, fun reach on busy => ?waits, fun parking stays late stopped => ?enters, fun park set due => ?alarm,
      fun pin level ns park below used polarity long => ?pin, fun waking ok => ?rail, fun on level => ?level⟩
    case parks =>
      have on : s.pwr.phase = .run := by
        have parts := ready
        rw [State.parkReady, Bool.and_eq_true, Bool.and_eq_true] at parts
        obtain ⟨⟨running, -⟩, -⟩ := parts
        exact eq_of_beq running
      have runs : exec .park s = .next ((s.modPwr (fun p => { p with parkReq := true })).parkDue) := by
        show execPark s = _
        rw [execPark, if_pos reach, State.parkWrite, if_neg (by rw [on]; decide)]
      exact ⟨_, runs, parkDue_parks rfl ready⟩
    case waits =>
      have runs : exec .park s = .next (s.modPwr (fun p => { p with parkReq := true })) := by
        have held : ((s.modPwr (fun p => { p with parkReq := true })).parkReady) = false := busy
        show execPark s = _
        rw [execPark, if_pos reach, State.parkWrite, if_neg (by rw [on]; decide), State.parkDue, held]
        rfl
      exact ⟨_, runs, on, rfl⟩
    case enters =>
      have idle : (s.live.cmps.map (·.id)).all (fun n => s.cmpState n != .running || s.cmpStoppable n) = true := by
        rw [List.all_eq_true]
        intro n listed
        obtain ⟨m, member, rfl⟩ := List.mem_map.mp listed
        simp [stopped m member]
      have runs : exec .parkGraceExpiry s = .next s.parkEnter := congrArg Host.Outcome.next (if_pos ⟨parking, late, idle⟩)
      exact ⟨_, runs, parkEnter_parks stays stopped⟩
    case alarm =>
      have runs : exec .parkAlarm s = .next (s.parkExit (3 * 2 ^ 30)) := by
        refine congrArg Host.Outcome.next ((if_pos ⟨set, due⟩).trans ?_)
        rw [State.wakeEvent, park]
      exact ⟨_, runs, parkExit_wakes (by decide)⟩
    case pin =>
      have runs : exec (.gpioWake pin level ns) s = .next (s.parkExit (2 * 2 ^ 30 + pin)) := by
        refine congrArg Host.Outcome.next ((if_pos ⟨below, used, polarity, long⟩).trans ?_)
        rw [State.wakeEvent, park]
      exact ⟨_, runs, parkExit_wakes (by omega)⟩
    case rail =>
      have runs : exec (.railok true) s = .next (((s.modPwr (fun p => { p with railOk := true })).modPwr (fun p => { p with phase := .boot, fwOk := false })).toStep 4) :=
        congrArg Host.Outcome.next (if_pos ⟨waking, ok, rfl⟩)
      exact ⟨_, runs, rfl, rfl, rfl⟩
    case level =>
      have runs : exec (.railok level) s = .next (s.modPwr (fun p => { p with railOk := level })) :=
        congrArg Host.Outcome.next (if_neg fun wakes => absurd (on.symm.trans wakes.1) (by decide))
      exact ⟨_, runs, rfl⟩

end Sys2Proof.Machine
end


section
/-!
PROOF. Recording sessions and replays of the Manifest (R512 to R532; O50).
-/
namespace Sys2Proof.Machine

section
variable {s t : State} {n k : Nat}

/-- MFT.CSTATE.MODE of a compartment, as it reads. -/
def State.sessionMode (s : State) (n : Nat) : Nat := fget (s.ctlGet (o_mftCstate n)) 31 29

/-- A register of the Manifest's frame is no notice and no pending interrupt. -/
theorem mft_event {cmp : Option Nat} {code die addr info aux off : Nat} (low : 0x40000 ≤ off) (high : off < 0x41000) :
    (s.event 0 code die cmp addr info aux).ctlGet off = s.ctlGet off :=
  event_ctlGet_of (by unfold o_hepP0Intpend; omega) (fun counted => absurd counted.1 (by decide)) fun m => by unfold o_evlClast; omega

/-- LOWSPACE touches one bit of CSTATE and one of the notices. -/
theorem mftSpace_ctlGet {off : Nat} (other : off ≠ o_mftCstate n) (note : off ≠ o_chtKnote n) : (s.mftSpace n).ctlGet off = s.ctlGet off := by
  unfold State.mftSpace
  dsimp only
  rw [State.ctlMod, State.ctlGet_ctlSet, if_neg (Ne.symm note), State.ctlMod, State.ctlGet_ctlSet, if_neg (Ne.symm other)]

theorem mftSpace_cstate {hi lo : Nat} (apart : hi < 24 ∨ 24 < lo) (inside : hi < 32) (small : n < 32) :
    fget ((s.mftSpace n).ctlGet (o_mftCstate n)) hi lo = fget (s.ctlGet (o_mftCstate n)) hi lo := by
  have note : o_chtKnote n ≠ o_mftCstate n := by unfold o_chtKnote o_mftCstate; omega
  unfold State.mftSpace
  dsimp only
  rw [State.ctlMod, State.ctlGet_ctlSet, if_neg note, State.ctlMod, State.ctlGet_ctlSet, if_pos rfl]
  exact fget_fone_apart _ inside apart

/-! ## Chunks and blocks -/

/-- A chunk ends: the next begins, and its record waits for a block, unless stores of the chunk are still to be drained (R513). -/
theorem mftEndChunk_begins {c : MftCore} {cause : Nat} (runs : smFind? s.mftc k = some c) (own : s.cmpOf k = some n) :
    (∃ d, smFind? (s.mftEndChunk k cause).mftc k = some d ∧ d.chunk = c.chunk + 1 ∧ d.len = 0) ∧
    ((s.mftEndChunk k cause).sess n).slots.length = (s.sess n).slots.length + (if s.chunkStores k c.chunk then 0 else 1) ∧ (s.mftEndChunk k cause).mem = s.mem := by
  unfold State.mftEndChunk
  rw [runs, own]
  dsimp only
  generalize put : (if s.chunkStores k c.chunk then s else s.mftPut n _) = u
  have slots : (u.sess n).slots.length = (s.sess n).slots.length + (if s.chunkStores k c.chunk then 0 else 1) ∧ u.mem = s.mem := by
    rw [← put]
    split
    · exact ⟨rfl, rfl⟩
    · refine ⟨?_, rfl⟩
      rw [State.mftPut, State.setSess, State.sess, smGet_smSet_self, List.length_append]
      rfl
  generalize next : ({ MftCore.start with chunk := _, ended := _ } : MftCore) = d
  have fresh : d.chunk = c.chunk + 1 ∧ d.len = 0 := by
    rw [← next]
    exact ⟨rfl, rfl⟩
  have begun : smFind? ((u.ctlInc (o_mftChunks n)).setMftc k d).mftc k = some d := (smFind?_smSet ..).trans (if_pos rfl)
  have counted : CtlOnly ((u.ctlInc (o_mftChunks n)).setMftc k d) (((u.ctlInc (o_mftChunks n)).setMftc k d).count k 0x36 1) := .count ..
  obtain ⟨ctl, same⟩ := counted
  rw [same]
  exact ⟨⟨d, begun, fresh⟩, slots⟩

/-- The writer takes one block of 34 slots and moves WIDX on (R522, R524). -/
theorem mftBlock_writes (small : n < 32) (there : (s.cmpSec n).isSome) :
    (s.mftBlock n).sess n = { s.sess n with slots := (s.sess n).slots.drop 34, bseq := (s.sess n).bseq + 1 } ∧
    (s.mftBlock n).ctlGet (o_mftWidx n) = s.ctlGet (o_mftWidx n) + 1 := by
  obtain ⟨c, found⟩ := Option.isSome_iff_exists.mp there
  have settled : Settled (o_mftWidx n) := by unfold Settled o_mftWidx; omega
  have other : o_mftWidx n ≠ o_mftCstate n := by unfold o_mftWidx o_mftCstate; omega
  have note : o_mftWidx n ≠ o_chtKnote n := by unfold o_mftWidx o_chtKnote; omega
  unfold State.mftBlock
  rw [found]
  dsimp only
  generalize written : s.wrOctets true _ 0 _ = u
  have beside : Beside s u := by
    rw [← written]
    exact .wrOctets .refl
  constructor
  · exact smGet_smSet_self ..
  · rw [mftSpace_ctlGet other note, State.ctlMod, State.ctlGet_ctlSet, if_pos rfl]
    exact congrArg (· + 1) (beside.ctlGet settled)

/-- A session that ends shows mode 4 and its cause. -/
theorem mftEnd_shows {cause : Nat} (small : n < 32) (recording : s.recording n = true) (low : cause < 16) :
    (s.mftEnd n cause).sessionMode n = 4 ∧ fget ((s.mftEnd n cause).ctlGet (o_mftCstate n)) 28 25 = cause := by
  have above : 0x40000 ≤ o_mftCstate n := by unfold o_mftCstate; omega
  have below : o_mftCstate n < 0x41000 := by unfold o_mftCstate; omega
  unfold State.mftEnd
  rw [if_pos recording]
  dsimp only
  generalize State.modCores _ _ = u
  rw [State.sessionMode, mft_event above below, mftSpace_cstate (.inr (by decide)) (by decide) small, mftSpace_cstate (.inr (by decide)) (by decide) small, State.ctlMod,
    State.ctlGet_ctlSet, if_pos rfl]
  exact ⟨(fget_fset_apart _ (by decide) (.inr (by decide))).trans (fget_fset_same _ (by decide) (by decide)), fget_fset_same _ (by decide) low⟩

/-! ## Replays that diverge -/

/-- A replay diverges: the compartment is stopped, and DIVINFO shows why (Table 20-7). -/
def Diverges (n kind : Nat) (t : State) : Prop := t.sessionMode n = 5 ∧ t.cmpState n = .stopped ∧ fget (t.ctlGet o_mftDivinfo) 30 27 = kind

theorem divinfo_kind {kind agent : Nat} (few : n < 32) (low : kind < 16) : fget (r32 (2 ^ 31 + kind * 2 ^ 27 + n * 2 ^ 22 + agent % 256 * 2 ^ 14)) 30 27 = kind := by
  unfold fget r32
  rw [BitVec.toNat_ofNat]
  omega

theorem mftDiverge_diverges {kind agent chunk off : Nat} (few : n < 32) (low : kind < 16) : Diverges n kind (s.mftDiverge n kind agent chunk off) := by
  have above : 0x40000 ≤ o_mftCstate n := by unfold o_mftCstate; omega
  have below : o_mftCstate n < 0x41000 := by unfold o_mftCstate; omega
  have apart : o_mftStatus ≠ o_mftCstate n ∧ o_mftCstate n ≠ o_mftDivinfo := by unfold o_mftStatus o_mftCstate o_mftDivinfo; omega
  have stateOther : o_mftDivpos ≠ o_mftCstate n ∧ o_mftDivchunk ≠ o_mftDivinfo := by unfold o_mftDivpos o_mftCstate o_mftDivchunk o_mftDivinfo; omega
  obtain ⟨status, info⟩ := apart
  unfold State.mftDiverge
  dsimp only
  generalize shown : State.ctlMod _ o_mftStatus _ = u
  have registers : fget (u.ctlGet (o_mftCstate n)) 31 29 = 5 ∧ fget (u.ctlGet o_mftDivinfo) 30 27 = kind := by
    rw [← shown]
    constructor
    · rw [State.ctlMod, State.ctlGet_ctlSet, if_neg status, State.ctlMod, State.ctlGet_ctlSet, if_pos rfl, fget_fset_apart _ (by decide) (.inr (by decide))]
      exact fget_fset_same _ (by decide) (by decide)
    · rw [State.ctlMod, State.ctlGet_ctlSet, if_neg (by decide), State.ctlMod, State.ctlGet_ctlSet, if_neg info, State.ctlGet_ctlSet, if_neg (by decide),
        State.ctlGet_ctlSet, if_neg (by decide), State.ctlGet_ctlSet, if_pos rfl]
      exact divinfo_kind few low
  obtain ⟨five, code⟩ := registers
  generalize stopped : State.modCores _ _ = v
  have kept : v.ctl = u.ctl := by rw [← stopped]; rfl
  have same (off : Nat) : v.ctlGet off = u.ctlGet off := ctlGet_of_ctl kept
  split
  next already => exact ⟨(congrArg (fget · 31 29) (same _)).trans five, already, (congrArg (fget · 30 27) (same _)).trans code⟩
  next =>
    have entered : Steady False (v.setCmpState n .stopped) ((v.setCmpState n .stopped).event 0 0x011 landing (some n) v.live.chartId 3 0) := .event .refl
    refine ⟨?_, ?_, ?_⟩
    · rw [State.sessionMode, mft_event above below]
      exact (congrArg (fget · 31 29) (same _)).trans five
    · rw [entered.cmpState, State.cmpState_setCmpState, if_pos rfl]
    · rw [mft_event (by decide) (by decide)]
      exact (congrArg (fget · 30 27) (same _)).trans code

/-! ## Commands -/

theorem cstate_mode {v : Nat} (low : v < 8) : (s.ctlMod (o_mftCstate n) (fun w => fset w 31 29 v)).sessionMode n = v := by
  rw [State.sessionMode, State.ctlMod, State.ctlGet_ctlSet, if_pos rfl]
  exact fget_fset_same _ (by decide) low

theorem mftWrej_shows : s.mftWrej.mft = s.mft ∧ fbit (s.mftWrej.ctlGet o_mftStatus) 31 = true := by
  refine ⟨rfl, ?_⟩
  rw [State.mftWrej, State.ctlMod, State.ctlGet_ctlSet, if_pos rfl, fbit_fone _ _ _ (by decide), if_pos rfl]

/-- A key that does not unwrap ends a replay before it begins. -/
theorem mftReplay_unwraps {blocks : List (List Nat)} {c : CmpSec} (few : n < 32) (found : s.cmpSec n = some c) (plain : c.manifest = false)
    (stopped : s.cmpState n = .stopped) (free : fbit (s.ctlGet o_mftStatus) 30 = false)
    (sealed_ : Config.keyUnwrap (octVal (smGet [] s.sec.slots 10)) (smGet [] s.sec.staged n) = none) : Diverges n 6 (s.mftReplay n blocks) := by
  have gate : ¬(s.cmpState n ≠ .stopped ∨ c.manifest = true ∨ fbit (s.ctlGet o_mftStatus) 30 = true) := by simp [stopped, plain, free]
  unfold State.mftReplay
  rw [found]
  dsimp only
  rw [if_neg gate, sealed_]
  exact mftDiverge_diverges few (by decide)

/-- RIDX as it is written, when it releases no more than is used (R524). -/
theorem ridxWrite_releases {v : Nat} (small : v < 2 ^ 32) (few : n < 32) (enough : (v + 2 ^ 32 - (s.ctlGet (o_mftRidx n)).toNat) % 2 ^ 32 ≤ s.mftUsed n) :
    ((s.ridxWrite n v).ctlGet (o_mftRidx n)).toNat = v ∧ (s.ridxWrite n v).mem = s.mem := by
  have other : o_mftRidx n ≠ o_mftCstate n := by unfold o_mftRidx o_mftCstate; omega
  have note : o_mftRidx n ≠ o_chtKnote n := by unfold o_mftRidx o_chtKnote; omega
  have written : (((s.ctlSet (o_mftRidx n) (r32 v)).mftSpace n).ctlGet (o_mftRidx n)).toNat = v := by
    rw [mftSpace_ctlGet other note, State.ctlGet_ctlSet, if_pos rfl]
    exact Nat.mod_eq_of_lt small
  unfold State.ridxWrite
  dsimp only
  rw [if_neg (Nat.not_lt.mpr enough)]
  have mem : ((s.ctlSet (o_mftRidx n) (r32 v)).mftSpace n).mem = s.mem := (Noted.ctlMod (.ctlMod (.ctlSet .refl)) : Noted s _).mem
  generalize (s.ctlSet (o_mftRidx n) (r32 v)).mftSpace n = u at written mem ⊢
  split
  · exact ⟨written, mem⟩
  · rw [ctlGet_of_ctl (State.modCores_ctl ..), State.modCores_mem]
    exact ⟨written, mem⟩

/-- A chunk that is replayed to its recorded length, and whose hash differs (R531). -/
theorem mftChunk_hash {agent : Nat} {c : MftCore} {r : MftRec} {rest : List MftRec} (few : n < 32) (replays : s.mftMode n = 3) (core : agent ≠ 255)
    (ranked : (s.coresOf n).find? (fun k => s.rank k == agent) = some k) (runs : smFind? s.mftc k = some c) (going : (s.core k).mftFrozen = false)
    (head : c.replay = r :: rest) (type : r.type = 2) (len : r.offset = c.len % 65536) (differs : crcItem c.crc 0x300 (s.core k).pc % 2 ^ 64 ≠ r.data) :
    Diverges n 1 (s.mftChunk n agent []) := by
  have landed : s.landRecorded k 8 = s := by
    rw [State.landRecorded]
    split
    · rfl
    next r' next_ =>
      have same : r' = r := by
        unfold State.mftNext at next_
        rw [runs] at next_
        dsimp only at next_
        rw [head] at next_
        dsimp only at next_
        split at next_
        · cases next_
        · split at next_
          · exact (Option.some.inj next_).symm
          · cases next_
      rw [if_pos (by rw [same, type]; decide)]
  unfold State.mftChunk
  rw [if_neg (not_not_intro replays), if_neg core, ranked]
  dsimp only
  rw [runs, going]
  dsimp only
  rw [if_neg Bool.false_ne_true, landed, runs]
  dsimp only
  rw [going, if_neg Bool.false_ne_true, head]
  dsimp only
  rw [if_neg (by rw [len]; omega), if_pos (by rw [type]; exact ⟨by decide, by decide, len, fun _ => by decide⟩), if_pos differs]
  exact mftDiverge_diverges few (by decide)

end

/-- Settles O50: chunks by `mftEndChunk_begins`, blocks by `mftBlock_writes`, STOP by `mftEnd_shows`, divergences by `mftDiverge_diverges`. -/
theorem manifestCommands : Obligations.ManifestCommands := by
  unfold Obligations.ManifestCommands
  intro s n few mode diverges
  refine ⟨fun k c runs own recording long alone => ?limit, fun recording waits room there => ?block, fun who reach recording => ?stop,
    fun reach => ⟨fun stopped idle => ?arm, fun armed => ?disarm, fun unarmed quiet => ?wrej, fun blocks c found plain stopped free => ?replay⟩,
    fun who v small reach => ⟨fun enough => ?release, fun beyond => ?refuse⟩, fun agent k c r rest replays core ranked runs going head type len differs => ?chunk⟩
  case limit =>
    have ends : exec (.chunkLimit k) s = .next (s.mftEndChunk k 1) := by
      show execChunkLimit k s = _
      rw [execChunkLimit, runs, own]
      exact if_pos (by simp [recording, long, alone])
    exact ⟨_, ends, mftEndChunk_begins runs own⟩
  case block =>
    have writes : exec (.manifestBlockWrite n) s = .next (s.mftBlock n) := by
      show execManifestBlockWrite n s = _
      rw [execManifestBlockWrite, if_pos (by simp [recording, waits]), room]
      rfl
    exact ⟨_, writes, mftBlock_writes few there⟩
  case stop =>
    have stops : exec (.mftStop who n) s = .next (s.mftEnd n 1) := if_pos (by simp [few, reach])
    exact ⟨_, stops, mftEnd_shows few recording (by decide)⟩
  case arm =>
    have arms : exec (.arm n) s = .next (s.ctlMod (o_mftCstate n) (fun v => fset v 31 29 1)) :=
      (if_pos (by simp [few, reach])).trans (congrArg Host.Outcome.next (if_pos ⟨stopped, .inl idle⟩))
    exact ⟨_, arms, cstate_mode (by decide)⟩
  case disarm =>
    have disarms : exec (.disarm n) s = .next (s.ctlMod (o_mftCstate n) (fun v => fset v 31 29 0)) :=
      (if_pos (by simp [few, reach])).trans (congrArg Host.Outcome.next (if_pos armed))
    exact ⟨_, disarms, cstate_mode (by decide)⟩
  case wrej =>
    have rejects : exec (.disarm n) s = .next s.mftWrej :=
      (if_pos (by simp [few, reach])).trans (congrArg Host.Outcome.next ((if_neg unarmed).trans (if_neg (by rw [quiet]; decide))))
    exact ⟨_, rejects, mftWrej_shows⟩
  case replay =>
    have replays : exec (.replay n blocks) s = .next (s.mftReplay n blocks) := if_pos (by simp [few, reach])
    exact ⟨_, replays, mftReplay_unwraps few found plain stopped free⟩
  case release =>
    have writes : exec (.ridxWrite who n v) s = .next (s.ridxWrite n v) := by
      show execRidxWrite who n v s = _
      rw [execRidxWrite, if_pos (by simp [few, reach]), Nat.mod_eq_of_lt small]
    exact ⟨_, writes, ridxWrite_releases small few enough⟩
  case refuse =>
    have other : o_mftStatus ≠ o_mftRidx n := by unfold o_mftStatus o_mftRidx; omega
    have rejects : exec (.ridxWrite who n v) s = .next s.mftWrej := by
      show execRidxWrite who n v s = _
      rw [execRidxWrite, if_pos (by simp [few, reach]), Nat.mod_eq_of_lt small]
      exact congrArg Host.Outcome.next (if_pos beyond)
    refine ⟨_, rejects, ?_, mftWrej_shows.2⟩
    rw [State.mftWrej, State.ctlMod, State.ctlGet_ctlSet, if_neg other]
  case chunk => exact ⟨_, rfl, mftChunk_hash few replays core ranked runs going head type len differs⟩

end Sys2Proof.Machine
end


section
/-!
PROOF. Requests at a home: what the directory entry becomes and which messages leave (R318, R322, R325, R326, R331, R333; O33).
-/
namespace Sys2Proof.Machine

section
variable {s t : State} {g line : Nat} {e d : DirEnt} {k : ReqKind} {l : List Msg}

/-! ## Opening a transaction -/

/-- The home has dealt with a request for a line: its directory entry, and the messages that leave. -/
def Served (m : Mem) (line : Nat) (d : Option DirEnt) (l : List Msg) (t : State) : Prop :=
  t.mem.dirEnt line = d ∧ t.mem.msgs = m.msgs ++ l ∧ t.mem.gpend = m.gpend

/-- A transaction joins the home's table, and its messages leave. -/
theorem openT_mem (x : Txn) : ∃ r, (s.openT x l).mem = { s.mem with txns := s.mem.txns ++ [{ x with rank := r }], msgs := s.mem.msgs ++ l } := by
  obtain ⟨ctl, links, same⟩ := countUp_frame s
  unfold State.openT
  dsimp only
  rw [State.ucount_mem, same]
  exact ⟨_, rfl⟩

theorem openT_served {d : Option DirEnt} (entry : s.mem.dirEnt line = d) (x : Txn) : Served s.mem line d l (s.openT x l) := by
  subst entry
  obtain ⟨r, same⟩ := openT_mem (s := s) (l := l) x
  rw [Served, same]
  exact ⟨rfl, rfl, rfl⟩

theorem dirEnt_setDir (m : Mem) (here : e.line = line) : (m.setDir e).dirEnt line = some e := by
  subst here
  unfold Mem.dirEnt Mem.setDir
  rw [List.find?_append, List.find?_eq_none.mpr fun x listed => ?_]
  · simp
  · have other := (List.mem_filter.mp listed).2
    simpa [bne] using other

/-- The entry is written before the transaction opens. -/
theorem setDir_served (here : d.line = line) (x : Txn) : Served s.mem line (some d) l ((s.setMem (s.mem.setDir d)).openT x l) := by
  obtain ⟨r, same⟩ := openT_mem (s := s.setMem (s.mem.setDir d)) (l := l) x
  rw [Served, same]
  exact ⟨dirEnt_setDir s.mem here, rfl, rfl⟩

/-! ## What a home does with each request (Tables 13-5 and 13-7) -/

theorem lone_port (few : g < 12) : (g == 13) = false := beq_eq_false_iff_ne.mpr (by omega)

theorem exEnt_own (few : g < 12) : exEnt line g = ⟨line, .ex, vecBit g, false, g⟩ := by
  rw [exEnt, lone_port few]

theorem serveRds_absent (entry : s.mem.dirEnt line = none) : Served s.mem line (some (exEnt line g)) [⟨.mrd, line, g⟩] (s.serveRds g line) := by
  unfold State.serveRds
  rw [entry]
  exact setDir_served rfl _

/-- The entry that a read of a Grove leaves: the Grove has joined the holders. -/
def DirEnt.join (e : DirEnt) (g : Nat) : DirEnt := { e with vec := e.vec ||| vecBit g }

theorem serveRds_owned (few : g < 12) (here : e.line = line) (entry : s.mem.dirEnt line = some e) (owned : e.st = .ow) :
    Served s.mem line (some (e.join g)) [⟨.fwdS g, line, e.resp⟩] (s.serveRds g line) := by
  obtain ⟨line', st, vec, xp, resp⟩ := e
  obtain rfl : st = .ow := owned
  unfold State.serveRds DirEnt.join
  rw [entry]
  dsimp only
  rw [lone_port few, Bool.or_false]
  exact setDir_served (d := ⟨line', .ow, vec ||| vecBit g, xp, resp⟩) here _

theorem serveRds_exclusive (few : g < 12) (here : e.line = line) (entry : s.mem.dirEnt line = some e) (exclusive : e.st = .ex) (other : e.resp ≠ g) :
    Served s.mem line (some { e.join g with st := .sh, resp := if s.moesi then 15 else g }) [⟨.fwdS g, line, e.resp⟩] (s.serveRds g line) := by
  obtain ⟨line', st, vec, xp, resp⟩ := e
  obtain rfl : st = .ex := exclusive
  unfold State.serveRds DirEnt.join
  rw [entry]
  dsimp only
  rw [if_neg other, lone_port few, Bool.or_false]
  generalize (if s.moesi = true then 15 else g) = r
  exact setDir_served (d := ⟨line', .sh, vec ||| vecBit g, xp, r⟩) here _

theorem serveRds_shared (few : g < 12) (here : e.line = line) (entry : s.mem.dirEnt line = some e) (shared : e.st = .sh) :
    Served s.mem line (some { e.join g with resp := if s.moesi then 15 else g })
      [if e.resp ≠ 15 ∧ e.resp ≠ g then ⟨.fwdS g, line, e.resp⟩ else ⟨.mrd, line, g⟩] (s.serveRds g line) := by
  obtain ⟨line', st, vec, xp, resp⟩ := e
  obtain rfl : st = .sh := shared
  unfold State.serveRds DirEnt.join
  rw [entry]
  dsimp only
  rw [lone_port few, Bool.or_false]
  generalize (if s.moesi = true then 15 else g) = r
  by_cases forwarded : resp ≠ 15 ∧ resp ≠ g
  · rw [if_pos forwarded, if_pos forwarded]
    exact setDir_served (d := ⟨line', .sh, vec ||| vecBit g, xp, r⟩) here _
  · rw [if_neg forwarded, if_neg forwarded]
    exact setDir_served (d := ⟨line', .sh, vec ||| vecBit g, xp, r⟩) here _

theorem serveRds_gpend : (s.serveRds g line).mem.gpend = s.mem.gpend := by
  have opens {u : State} (x : Txn) (l : List Msg) (same : u.mem.gpend = s.mem.gpend) : (u.openT x l).mem.gpend = s.mem.gpend :=
    (openT_served (line := line) rfl x).2.2.trans same
  unfold State.serveRds
  dsimp only
  split
  · exact opens _ _ rfl
  · split
    · split <;> exact opens _ _ rfl
    · split <;> exact opens _ _ rfl
    · exact opens _ _ rfl

theorem serveRdx_gpend : (s.serveRdx g line k).mem.gpend = s.mem.gpend := by
  have opens {u : State} (x : Txn) (l : List Msg) (same : u.mem.gpend = s.mem.gpend) : (u.openT x l).mem.gpend = s.mem.gpend :=
    (openT_served (line := line) rfl x).2.2.trans same
  unfold State.serveRdx
  dsimp only
  split
  · exact opens _ _ rfl
  · split <;> exact opens _ _ rfl

/-- The responder gives the line to the requester; every other holder is told to give it up. -/
theorem serveRdx_held (entry : s.mem.dirEnt line = some e) (named : e.resp ≠ 15) (other : e.resp ≠ g) :
    Served s.mem line (some (exEnt line g)) (⟨.fwdX g, line, e.resp⟩ :: invs line (e.holders.filter (fun h => h != g && h != e.resp))) (s.serveRdx g line k) := by
  unfold State.serveRdx
  rw [entry]
  dsimp only
  rw [if_pos ⟨named, other⟩]
  exact setDir_served rfl _

theorem serveUpg_held (entry : s.mem.dirEnt line = some e) (shared : e.st ≠ .ex) (holds : g ∈ e.holders) :
    Served s.mem line (some (exEnt line g)) (⟨.data .e (s.mem.isDirty line), line, g⟩ :: invs line (e.holders.filter (· != g))) (s.serveUpg g line) := by
  unfold State.serveUpg
  rw [entry]
  dsimp only
  rw [if_neg (by simp [shared, holds])]
  exact setDir_served rfl _

theorem serveRdcur_held (entry : s.mem.dirEnt line = some e) (named : e.resp ≠ 15) : Served s.mem line (some e) [⟨.fwdC g, line, e.resp⟩] (s.serveRdcur g line) := by
  unfold State.serveRdcur
  rw [entry]
  dsimp only
  rw [if_pos named]
  exact openT_served entry _

theorem serveRdcur_absent (entry : s.mem.dirEnt line = none) : Served s.mem line none [⟨.mrd, line, g⟩] (s.serveRdcur g line) := by
  unfold State.serveRdcur
  rw [entry]
  exact openT_served entry _

/-- A write of the whole line waits for the holders' answers. -/
theorem serveWrinv_held {b : SMap Byte} (whole : b.length = 64) (entry : s.mem.dirEnt line = some e) (held : e.holders ≠ []) (closed : s.mem.openTxn line = false) :
    Served s.mem line (some e) (invs line e.holders) (s.serveWrinv g line b) := by
  unfold State.serveWrinv
  rw [entry]
  dsimp only
  rw [if_pos (by rw [whole]; rfl)]
  obtain ⟨r, same⟩ := openT_mem (s := s) (l := invs line e.holders) { Txn.idle line g (.wrinv b) with acks := e.holders }
  have served : Served s.mem line (some e) (invs line e.holders) (s.openT { Txn.idle line g (.wrinv b) with acks := e.holders } (invs line e.holders)) :=
    openT_served entry _
  generalize s.openT { Txn.idle line g (.wrinv b) with acks := e.holders } (invs line e.holders) = u at same served ⊢
  have own : u.txnOf line = some { Txn.idle line g (.wrinv b) with acks := e.holders, rank := r } := by
    have none_ : s.mem.txns.find? (fun x => x.line == line && !x.kind.isWb) = none := by
      rw [Mem.openTxn, List.any_eq_false] at closed
      exact List.find?_eq_none.mpr fun x listed => by simp [closed x listed]
    rw [State.txnOf, same]
    rw [List.find?_append, none_]
    simp [Txn.idle, ReqKind.isWb]
  unfold State.progress
  rw [own]
  dsimp only
  rw [if_pos (by simp [held])]
  exact served

/-! ## A request reaches its home -/

theorem homed_partner (homed : s.homed line = true) : s.partnerLine line = false := by
  unfold State.homed at homed
  unfold State.partnerLine
  split
  next window => rw [window] at homed; cases homed
  next => rfl

theorem ask_homed (few : g < 12) (homed : s.homed line = true) : s.ask g line k = .next (s.request g line k) := by
  rw [State.ask, State.strange, lone_port few, Bool.false_and, if_neg Bool.false_ne_true, if_pos homed]

theorem homeFree_iff : s.homeFree line = true ↔ s.switching = false ∧ s.mem.openTxn line = false ∧ s.mem.waits.any (·.line == line) = false := by
  rw [State.homeFree, Bool.and_eq_true, Bool.and_eq_true, Bool.not_eq_true', Bool.not_eq_true', Bool.not_eq_true', and_assoc]

theorem victimStart_room (room : (s.victimStart line).2 = true) : (s.dirEntries line).length < 16 := by
  by_contra full
  unfold State.victimStart at room
  dsimp only at room
  rw [if_neg full] at room
  split at room <;> cases room

/-- A home takes up a request for a free line for which its table, and a way of its directory, have room (R325). -/
structure Ready (s : State) (g line : Nat) (k : ReqKind) : Prop where
  free : s.homeFree line = true
  room : s.tableRoom (s.homeFor line) (s.rankOf g line).cls = true
  way : s.needsEntry k line = true → (s.dirEntries line).length < 16

theorem Ready.of_entry {k' : ReqKind} (free : s.homeFree line = true) (room : s.tableRoom (s.homeFor line) (s.rankOf g line).cls = true)
    (way : s.mem.dirEnt line = none → (s.victimStart line).2 = true) : Ready s g line k' :=
  ⟨free, room, fun needs => by
    unfold State.needsEntry at needs
    rw [Bool.and_eq_true, Option.isNone_iff_eq_none] at needs
    exact victimStart_room (way needs.1)⟩

/-- The request as the home takes it up. -/
def State.arrival (s : State) (g line : Nat) (k : ReqKind) : Wait := { port := g, line := line, kind := k, at_ := s.time, rank := s.rankOf g line, vic := false }

theorem request_serves (few : g < 12) (ready : Ready s g line k) : s.request g line k = s.serveReq (s.arrival g line k) := by
  obtain ⟨free, room, way⟩ := ready
  have port : (g == 12) = false := beq_eq_false_iff_ne.mpr (by omega)
  obtain ⟨switch, closed, idle⟩ := homeFree_iff.mp free
  have starts : s.startReq { port := g, line := line, kind := k, at_ := s.time, rank := s.rankOf g line, vic := false } =
      (s.serveReq (s.arrival g line k), true) := by
    unfold State.startReq
    rw [if_neg (by simp [switch, closed, room, port])]
    split
    next needs =>
      have small : (s.dirEntries line).length < 16 := way needs
      have starts : s.victimStart line = (s, true) := if_pos small
      rw [if_neg (by simp), starts]
      rfl
    next => rfl
  unfold State.request
  dsimp only
  rw [if_neg (by rw [idle]; decide), starts]

/-- A request for a line that is not free joins the home's transient queue (R326). -/
theorem request_waits (busy : s.homeFree line = false) : ∃ w, s.request g line k = s.setMem { s.mem with waits := enqueue w s.mem.waits } ∧
    w.port = g ∧ w.line = line ∧ w.kind = k := by
  by_cases queued : s.mem.waits.any (·.line == line) = true
  · exact ⟨s.arrival g line k, if_pos queued, rfl, rfl, rfl⟩
  · have held : s.switching = true ∨ s.mem.openTxn line = true := by
      rw [State.homeFree, eq_false_of_ne_true queued] at busy
      revert busy
      cases s.switching <;> cases s.mem.openTxn line <;> decide
    have refused : s.startReq { port := g, line := line, kind := k, at_ := s.time, rank := s.rankOf g line, vic := false } = (s, false) :=
      if_pos (by rcases held with h | h <;> simp [h])
    unfold State.request
    dsimp only
    rw [if_neg queued, refused]
    exact ⟨_, rfl, rfl, rfl, rfl⟩

theorem mem_enqueue (w : Wait) (l : List Wait) : w ∈ enqueue w l :=
  List.mem_append_left _ (List.mem_append_right _ (List.mem_singleton.mpr rfl))

/-- The way of a Grove's request to the home is clear (R23, R328). -/
structure Clear (s : State) (g line : Nat) : Prop where
  few : g < 12
  homed : s.homed line = true
  calm : s.mem.pending g line = false
  still : s.moving g (s.homeFor line) = false

/-- A Grove whose request the home takes up is in the transient state of its kind. -/
theorem askGrove_serves {kind : Nat} {tr : GTrans} (clear : Clear s g line) (ready : Ready s g line k)
    (trans : (if kind = 0 then GTrans.is else if kind = 1 then GTrans.im else GTrans.sm) = tr) :
    s.askGrove g line k kind = .next ((s.pendGrove g line tr).serveReq ((s.pendGrove g line tr).arrival g line k)) := by
  obtain ⟨few, homed, calm, still⟩ := clear
  have inner : g < 13 := by omega
  have pend : s.pendGrove g line tr = s.setMem { s.mem with gpend := s.mem.gpend.filter (fun p => !(p.grove == g && p.line == line)) ++ [⟨g, line, tr, 0⟩] } := if_pos inner
  have after : Ready (s.pendGrove g line tr) g line k := by
    rw [pend]
    exact ⟨ready.free, ready.room, ready.way⟩
  have home : (s.pendGrove g line tr).homed line = true := by
    rw [pend]
    exact homed
  unfold State.askGrove
  rw [if_neg (by omega), homed_partner homed, trans]
  simp only [calm, still, homed, Bool.or_self, Bool.false_eq_true, if_false, if_true]
  rw [ask_homed few home, request_serves few after]

/-- What `Served` says of the memory before the Grove's transient state is noted. -/
theorem served_pending {tr : GTrans} {d : Option DirEnt} (served : Served (s.pendGrove g line tr).mem line d l t) : t.mem.dirEnt line = d ∧ t.mem.msgs = s.mem.msgs ++ l := by
  obtain ⟨entry, msgs, -⟩ := served
  have same : (s.pendGrove g line tr).mem.msgs = s.mem.msgs := by
    unfold State.pendGrove
    split <;> rfl
  exact ⟨entry, by rw [msgs, same]⟩

theorem pendGrove_enters {tr : GTrans} (few : g < 12) : ⟨g, line, tr, 0⟩ ∈ (s.pendGrove g line tr).mem.gpend := by
  rw [State.pendGrove, if_pos (by omega)]
  exact List.mem_append_right _ (List.mem_singleton.mpr rfl)

theorem pendGrove_dirEnt {tr : GTrans} : (s.pendGrove g line tr).mem.dirEnt line = s.mem.dirEnt line := by
  unfold State.pendGrove
  split <;> rfl

/-! ## Write-backs and evictions -/

/-- The home of a clean line is told without a message. -/
theorem groveEvict_quiet {tag : GTag} (found : s.mem.gtag g line = some tag) (clean : tag.st = .e ∨ tag.st = .f ∨ tag.st = .s) (hint : s.evHint g line = true)
    (closed : s.mem.openTxn line = false) (idle : s.mem.waits.any (·.line == line) = false) :
    (s.groveEvict g line).mem.msgs = s.mem.msgs := by
  have unowned : ¬(tag.st == .m || tag.st == .o) = true := by rcases clean with h | h | h <;> rw [h] <;> decide
  have hinted : (s.dropGrove g line).evHint g line = true := hint
  have nothing : ¬((s.dropGrove g line).mem.openTxn line || (s.dropGrove g line).mem.waits.any (·.line == line)) = true := by
    have txns : (s.dropGrove g line).mem.openTxn line = s.mem.openTxn line := rfl
    have waits : (s.dropGrove g line).mem.waits = s.mem.waits := rfl
    rw [txns, waits, closed, idle]
    decide
  have msgs : (s.dropGrove g line).mem.msgs = s.mem.msgs := rfl
  unfold State.groveEvict
  rw [found]
  dsimp only
  rw [if_neg unowned, hinted]
  generalize s.dropGrove g line = u at nothing msgs ⊢
  rw [if_neg (by decide), if_neg nothing]
  obtain ⟨dir, same⟩ := Mem.dirRelease_frame (m := u.mem) (g := g) (line := line)
  rw [same]
  exact msgs

/-- A write-back of the line's only owner releases it, and its data goes to DRAM. -/
theorem wb_releases {tag : GTag} (clear : Clear s g line) (switch : s.switching = false) (found : s.mem.gtag g line = some tag) (dirty : tag.st = .m ∨ tag.st = .o)
    (entry : s.mem.dirEnt line = some e) (own : e.resp = g) (exclusive : e.st = .ex) (bytes : List Byte) :
    ∃ t, exec (.wb g line false bytes) s = .next t ∧ t.mem.dirEnt line = none ∧ t.mem.msgs = s.mem.msgs ++ [⟨.mwr, line, g⟩] := by
  obtain ⟨few, homed, calm, still⟩ := clear
  have ne : g ≠ 13 := by omega
  have modified : s.mem.groveDirty g line = true := by
    unfold Mem.groveDirty
    rw [found]
    rcases dirty with h | h <;> (dsimp only; rw [h]; rfl)
  have gate : (s.homed line && s.mem.groveDirty g line && !s.switching && !(decide (g < 12) && s.moving g (s.homeFor line))) = true := by
    rw [homed, modified, switch, still, Bool.and_false]
    rfl
  have after : ((s.dropGrove g line).pendGrove g line .mi).mem.dirEnt line = some e ∧ ((s.dropGrove g line).pendGrove g line .mi).mem.msgs = s.mem.msgs := by
    rw [State.pendGrove, if_pos (by omega)]
    exact ⟨entry, rfl⟩
  show ∃ t, execWb g line false bytes s = .next t ∧ _
  unfold execWb
  dsimp only
  rw [if_neg ne, if_pos gate, if_neg ne, if_pos few, if_neg Bool.false_ne_true, if_pos few, entry]
  generalize (s.dropGrove g line).pendGrove g line .mi = u at after ⊢
  obtain ⟨here, msgs⟩ := after
  rw [here]
  dsimp only
  rw [if_neg (not_not_intro own), if_neg Bool.false_ne_true, if_neg (by rw [exclusive]; decide)]
  refine ⟨_, rfl, ?_⟩
  rw [State.ucount_mem]
  refine ⟨?_, congrArg (· ++ _) msgs⟩
  exact List.find?_eq_none.mpr fun x listed => by
    have other := (List.mem_filter.mp listed).2
    simpa [bne] using other

end

/-- Settles O33: each request by its `serve…` lemma, once `askGrove_serves` and `request_serves` have brought it to the home; write-backs by `wb_releases`,
evictions by `groveEvict_quiet`. -/
theorem homeRequests : Obligations.HomeRequests := by
  unfold Obligations.HomeRequests
  intro s g line e few homed
  refine ⟨fun busy => ?waits, fun free calm still room here => ?serves⟩
  case waits =>
    obtain ⟨w, waits, port, here, kind⟩ := request_waits (g := g) (k := .rdcur) busy
    have runs : exec (.rdcur g line) s = .next (s.setMem { s.mem with waits := enqueue w s.mem.waits }) := by
      show execRdcur g line s = _
      rw [execRdcur, if_neg (by omega), if_neg (by rw [homed_partner homed]; decide), ask_homed few homed, waits]
    exact ⟨_, runs, rfl, rfl, w, mem_enqueue .., port, here, kind⟩
  case serves =>
    intro own entry after joined invs_ enters
    have clear : Clear s g line := ⟨few, homed, calm, still⟩
    obtain ⟨switch, closed, idle⟩ := homeFree_iff.mp free
    have exOwn : exEnt line g = own := exEnt_own few
    have rds (absent : s.mem.gtag g line = none) (ready : Ready s g line .rds) :
        exec (.rds g line) s = .next ((s.pendGrove g line .is).serveRds g line) :=
      (if_pos (.inl ⟨few, absent⟩)).trans (askGrove_serves clear ready rfl)
    have rdx (absent : s.mem.gtag g line = none) (ready : Ready s g line .rdx) :
        exec (.rdx g line) s = .next ((s.pendGrove g line .im).serveRdx g line .rdx) :=
      (if_pos (.inl ⟨few, absent⟩)).trans (askGrove_serves clear ready rfl)
    have pending (tr : GTrans) {d : Option DirEnt} (found : entry = d) : (s.pendGrove g line tr).mem.dirEnt line = d := pendGrove_dirEnt.trans found
    have known {d : DirEnt} {k : ReqKind} (found : entry = some d) : Ready s g line k :=
      .of_entry free room fun none_ => by rw [show s.mem.dirEnt line = some d from found] at none_; cases none_
    have ask (k : ReqKind) (found : s.needsEntry k line = false) : s.ask g line k = .next (s.serveReq (s.arrival g line k)) := by
      rw [ask_homed few homed, request_serves few ⟨free, room, fun needs => by rw [found] at needs; cases needs⟩]
    have window : ¬s.partnerLine line = true := by rw [homed_partner homed]; decide
    refine ⟨fun absent way => ⟨⟨_, rds absent (.of_entry free room way), ?isPend⟩, ⟨_, rdx absent (.of_entry free room way), ?imPend⟩⟩,
      fun absent => ⟨fun none_ way => ?absent, fun found owned => ?owned, fun found exclusive other => ?exclusive, fun found shared => ?shared,
        fun found named other => ?rdx⟩,
      fun tag found => ⟨fun state known_ shared holds => ?upg, fun dirty known_ own_ exclusive bytes => wb_releases clear switch found dirty known_ own_ exclusive bytes,
        fun clean hint => ?evc⟩, fun found named => ?cur, fun none_ => ?curAbsent, fun bytes whole found held => ?wrinv⟩
    case isPend =>
      rw [serveRds_gpend]
      exact pendGrove_enters few
    case imPend =>
      rw [serveRdx_gpend]
      exact pendGrove_enters few
    case absent =>
      refine ⟨_, rds absent (.of_entry free room fun _ => way), ?_⟩
      rw [← exOwn]
      exact served_pending (serveRds_absent (pending .is none_))
    case owned => exact ⟨_, rds absent (known found), served_pending (serveRds_owned few here (pending .is found) owned)⟩
    case exclusive =>
      refine ⟨_, rds absent (known found), ?_⟩
      have moesi : (s.pendGrove g line .is).moesi = s.moesi := by unfold State.pendGrove; split <;> rfl
      rw [← moesi]
      exact served_pending (serveRds_exclusive few here (pending .is found) exclusive other)
    case shared =>
      refine ⟨_, rds absent (known found), ?_⟩
      have moesi : (s.pendGrove g line .is).moesi = s.moesi := by unfold State.pendGrove; split <;> rfl
      rw [← moesi]
      exact served_pending (serveRds_shared few here (pending .is found) shared)
    case rdx =>
      refine ⟨_, rdx absent (known found), ?_⟩
      rw [← exOwn]
      exact served_pending (serveRdx_held (pending .im found) named other)
    case upg =>
      have runs : exec (.upg g line) s = .next ((s.pendGrove g line .sm).serveUpg g line) :=
        (if_pos (by rcases state with h | h | h <;> simp [found, h])).trans (askGrove_serves clear (known known_) rfl)
      have served := serveUpg_held (pending .sm known_) shared holds
      have dirty : (s.pendGrove g line .sm).mem.isDirty line = s.mem.isDirty line := by unfold State.pendGrove; split <;> rfl
      rw [dirty, exOwn] at served
      refine ⟨⟨_, runs, served_pending served⟩, ⟨_, runs, ?_⟩⟩
      obtain ⟨-, -, gpend⟩ := served
      rw [gpend]
      exact pendGrove_enters few
    case evc =>
      have runs : exec (.evc g line) s = .next (s.groveEvict g line) := if_pos (by rcases clean with h | h | h <;> simp [few, hint, calm, still, found, h])
      exact ⟨_, runs, State.gtag_groveEvict, groveEvict_quiet found clean hint closed idle⟩
    case cur =>
      have runs : exec (.rdcur g line) s = .next (s.serveRdcur g line) :=
        (if_neg (by omega)).trans ((if_neg window).trans (ask .rdcur (by simp [State.needsEntry])))
      obtain ⟨dir, msgs, -⟩ := serveRdcur_held (g := g) found named
      exact ⟨_, runs, dir, msgs⟩
    case curAbsent =>
      have runs : exec (.rdcur g line) s = .next (s.serveRdcur g line) :=
        (if_neg (by omega)).trans ((if_neg window).trans (ask .rdcur (by simp [State.needsEntry])))
      obtain ⟨dir, msgs, -⟩ := serveRdcur_absent (g := g) none_
      exact ⟨_, runs, dir, msgs⟩
    case wrinv =>
      have span : ¬s.spanLine line = true := by rw [State.spanLine, homed_partner homed, Bool.false_and, Bool.false_and]; decide
      have runs : exec (.wrinv g line bytes) s = .next (s.serveWrinv g line (maskedBytes bytes)) :=
        (if_neg (by omega)).trans ((if_neg span).trans (ask (.wrinv (maskedBytes bytes)) (by simp [State.needsEntry])))
      obtain ⟨dir, msgs, -⟩ := serveWrinv_held (g := g) whole found held closed
      exact ⟨_, runs, dir, msgs⟩

end Sys2Proof.Machine
end
